-- ==== Sys2Proof/Word.lean ====
section
/-! DEFINITION. The plain types every other file speaks in: bytes and words, and the small records that commands carry. -/

namespace Sys2Proof

/-- One byte. -/
abbrev Byte := BitVec 8

/-- One 64-bit register or word (R6). -/
abbrev W64 := BitVec 64

/-- The common fields of an instruction word that the opcode does not fix (Table 9.1): varies [8], cond [11:9],
level [13:12], gap [25:14]. -/
structure Head where
  varies : Bool
  cond : BitVec 3
  level : BitVec 2
  gap : BitVec 12
  deriving DecidableEq, Repr

/-- Where a descriptor operation or a service was asked for: a ring slot (R350) or an inbound mailbox (R386). -/
structure Src where
  mailbox : Bool
  idx : BitVec 6
  slot : BitVec 16
  deriving DecidableEq, Repr

/-- One list's directory entry of section 1 of a program image, as the loader reads it (R198, R242, R263, R335):
offsets from the start of the section and entry counts. The entry's own byte layout is not in the spec. -/
structure ListDir where
  codeOff : Nat
  codeCount : Nat
  walkOff : Nat
  walkCount : Nat
  routeOff : Nat
  routeCount : Nat
  barrowOff : Nat
  barrowCount : Nat
  collOff : Nat
  collCount : Nat
  deriving DecidableEq, Repr

/-- The four timestamps of one probe exchange, each a sundial count with a 6-bit fraction (R329). DESIGN CHOICE, safe:
log entry 64. -/
structure Probe where
  t1 : BitVec 70
  t2 : BitVec 70
  t3 : BitVec 70
  t4 : BitVec 70
  deriving DecidableEq, Repr

/-- What one training of a link finds (Table 14.5): the step that fails (0: none), what the partner's identity
exchange says, what lane training corrects, and the probe exchanges of step 7. DESIGN CHOICE, safe: log entry 64. -/
structure LinkEnv where
  failStep : BitVec 3
  domain : BitVec 16
  position : BitVec 6
  partnerLink : BitVec 5
  identity : BitVec 256
  laneRev : Bool
  polarity : BitVec 8
  /-- the partner's distance from the domain root (R328) -/
  rootDist : BitVec 7
  /-- this link is the partner's tree link: this module is its parent (R328) -/
  child : Bool
  /-- the scrambler state each direction's eight lanes start from: it is set during training (R317) -/
  txScramble : List (BitVec 31)
  rxScramble : List (BitVec 31)
  probes : List Probe
  deriving DecidableEq, Repr

/-- What the physical world decides during one start-up (Table 19.3). -/
structure BootEnv where
  flashOk : Bool
  /-- the seed that helper copy 0, and copy 1, reconstructs (R438) -/
  seed0 : Option (BitVec 256)
  seed1 : Option (BitVec 256)
  /-- bit c: controller c fails training (R428) -/
  ctrlFail : BitVec 24
  /-- the training of each link, link 0 first (R325) -/
  links : List LinkEnv
  /-- the greatest tree distance from this module to a member of its domain (R332) -/
  reach : BitVec 7
  /-- members of the module's domain (R327) -/
  members : BitVec 7
  /-- bit l: link l's partner reports that its domain has formed (R330, R429) -/
  partnerFormed : BitVec 24
  /-- bit p: physical bed p fails self-test (R430) -/
  bedFail : BitVec 132
  /-- base power over 100 samples, in W (R416) -/
  basePower : BitVec 12
  /-- the hottest reading, in 0.25 degrees C (R421) -/
  tMax : BitVec 12
  deriving DecidableEq, Repr

end Sys2Proof
end

