-- ==== Sys2Proof/Machine/Bits.lean ====
section
/-! DEFINITION. Bit fields of natural numbers, little-endian bytes (R5) and small arithmetic that every unit uses. -/

namespace Sys2Proof.Machine

/-- Bits [lo + w - 1 : lo] of n (R4). -/
def bits (n lo w : Nat) : Nat := n / 2 ^ lo % 2 ^ w

/-- Bit i of n. -/
def bit (n i : Nat) : Bool := n.testBit i

/-- 1 for true, 0 for false. -/
def b2n (b : Bool) : Nat := if b then 1 else 0

/-- n with bits [lo + w - 1 : lo] replaced by the low w bits of v. -/
def setBits (n lo w v : Nat) : Nat :=
  n % 2 ^ lo + (v % 2 ^ w) * 2 ^ lo + n / 2 ^ (lo + w) * 2 ^ (lo + w)

/-- The least number of units of size u that hold n. -/
def ceilDiv (n u : Nat) : Nat := (n + u - 1) / u

/-- The signed reading of the low w bits of n. -/
def signed (w n : Nat) : Int := if n % 2 ^ w < 2 ^ (w - 1) then ((n % 2 ^ w : Nat) : Int) else (n % 2 ^ w : Nat) - 2 ^ w

/-- The low w bits of an integer in two's complement. -/
def toTwos (w : Nat) (v : Int) : Nat := (v % (2 ^ w : Nat)).toNat

/-- The number that bytes hold, byte 0 lowest (R5). -/
def leNat : List Byte → Nat
  | [] => 0
  | b :: bs => b.toNat + 256 * leNat bs

/-- The n bytes of a number, byte 0 lowest (R5). -/
def leBytes : Nat → Nat → List Byte
  | 0, _ => []
  | n + 1, v => BitVec.ofNat 8 v :: leBytes n (v / 256)

/-- Bytes [at, at + n) of a byte string, read little-endian; a byte beyond the string reads 0. -/
def fieldAt (bs : List Byte) (pos n : Nat) : Nat := leNat ((bs.drop pos).take n)

/-- n zero bytes. -/
def zeros (n : Nat) : List Byte := List.replicate n 0#8

/-- A byte string brought to length n: cut, or filled up with zero bytes. -/
def fitBytes (n : Nat) (bs : List Byte) : List Byte := bs.take n ++ zeros (n - bs.length)

/-- A byte string cut into pieces of n bytes, k of them. -/
def chunks (n : Nat) : Nat → List Byte → List (List Byte)
  | 0, _ => []
  | k + 1, bs => bs.take n :: chunks n k (bs.drop n)

/-- The 64-bit words of a byte string, k of them. -/
def words64 (k : Nat) (bs : List Byte) : List Nat := (chunks 8 k bs).map leNat

/-- Whether a byte string is all zero. -/
def allZero (bs : List Byte) : Bool := bs.all (· == 0#8)

/-- A count that stops at its greatest value (a saturating counter of w bits). -/
def satAdd (w n k : Nat) : Nat := min (n + k) (2 ^ w - 1)

/-- The numbers lo, lo + 1, ..., lo + n - 1. -/
def upFrom (lo n : Nat) : List Nat := (List.range n).map (lo + ·)

/-- Whether [a, a + n) and [b, b + m) share a number. -/
def overlaps (a n b m : Nat) : Bool := decide (a < b + m) && decide (b < a + n) && decide (0 < n) && decide (0 < m)

/-- The element at a position, or a given default. -/
def nth {α : Type} (xs : List α) (i : Nat) (d : α) : α := xs.getD i d

/-- A list with the element at a position replaced. -/
def putAt {α : Type} (xs : List α) (i : Nat) (x : α) : List α := xs.set i x

/-- The first n elements satisfying a test, with their positions. -/
def enumFrom {α : Type} : Nat → List α → List (Nat × α)
  | _, [] => []
  | n, x :: xs => (n, x) :: enumFrom (n + 1) xs

end Sys2Proof.Machine
end

