-- ==== Sys2Proof/Machine/Exact.lean ====
section
/-! DEFINITION. Exact real numbers as the module's formats need them (R25, R46): finite sums of m * 2^(q/512) with
integers m and q. Every tapered, integer and IEEE value is such a sum with q a multiple of 512, and every logarithmic
value 2^(v/512) is one term. The powers 2^(f/512), f = 0 to 511, are linearly independent over the rationals, so a sum
is zero exactly when its terms cancel residue by residue, and any other question about its size is settled by integer
enclosures of rising precision. -/

namespace Sys2Proof.Machine

/-- A sum of terms (m, q), worth m * 2^(q/512) each. -/
abbrev Ex := List (Int × Int)

/-- m * 2^e. -/
def exDy (m e : Int) : Ex := [(m, 512 * e)]

/-- An integer. -/
def exInt (m : Int) : Ex := exDy m 0

/-- 2^(q/512). -/
def exPow (q : Int) : Ex := [(1, q)]

def exNeg (x : Ex) : Ex := x.map fun t => (-t.1, t.2)

def exAdd (x y : Ex) : Ex := x ++ y

def exSub (x y : Ex) : Ex := x ++ exNeg y

def exMul (x y : Ex) : Ex := x.flatMap fun t => y.map fun u => (t.1 * u.1, t.2 + u.2)

/-- x * 2^e. -/
def exShift (x : Ex) (e : Int) : Ex := x.map fun t => (t.1, t.2 + 512 * e)

/-- One term added into a list of terms of distinct residues modulo 512. -/
def exInsert (m q : Int) : Ex → Ex
  | [] => [(m, q)]
  | (n, r) :: xs =>
    if (q - r) % 512 = 0 then
      if q ≤ r then (m + n * 2 ^ ((r - q) / 512).toNat, q) :: xs
      else (m * 2 ^ ((q - r) / 512).toNat + n, r) :: xs
    else (n, r) :: exInsert m q xs

/-- Like terms joined, zero terms dropped: the number is 0 exactly when nothing is left. -/
def exNorm (x : Ex) : Ex := (x.foldl (fun a t => exInsert t.1 t.2 a) []).filter fun t => t.1 != 0

/-- Newton's iteration for the integer square root, from above. -/
def isqrtGo (n : Nat) : Nat → Nat → Nat
  | 0, x => x
  | k + 1, x => if (x + n / x) / 2 < x then isqrtGo n k ((x + n / x) / 2) else x

/-- The greatest r with r * r at most n. -/
def isqrt (n : Nat) : Nat := if n = 0 then 0 else isqrtGo n (Nat.log2 n + 8) (2 ^ (Nat.log2 n / 2 + 1))

/-- The square root taken k times. -/
def isqrtIter : Nat → Nat → Nat
  | 0, n => n
  | k + 1, n => isqrtIter k (isqrt n)

/-- The integer part of 2^(p + f/512). -/
def rootPow (f p : Nat) : Nat := isqrtIter 9 (2 ^ (f + 512 * p))

/-- n / 2^k rounded down, or n * 2^(-k), for an integer k. -/
def shiftFloor (n k : Int) : Int := if 0 ≤ k then n / 2 ^ k.toNat else n * 2 ^ (-k).toNat

/-- The same rounded up. -/
def shiftCeil (n k : Int) : Int := -shiftFloor (-n) k

/-- Integers lo and hi with lo <= m * 2^(q/512) * 2^p <= hi, close together. -/
def enclTerm (m q p : Int) : Int × Int :=
  let i := q / 512
  let f := (q % 512).toNat
  if f = 0 then (shiftFloor m (-(i + p)), shiftCeil m (-(i + p)))
  else
    let w := (max 1 (i + p + (Nat.log2 m.natAbs : Int) + 8)).toNat
    let r := (rootPow f w : Int)
    let a := if 0 ≤ m then m * r else m * (r + 1)
    let b := if 0 ≤ m then m * (r + 1) else m * r
    (shiftFloor a (w - (i + p)), shiftCeil b (w - (i + p)))

/-- Integers around x * 2^p. -/
def exEncl (x : Ex) (p : Int) : Int × Int :=
  x.foldl (fun a t => ((a.1 + (enclTerm t.1 t.2 p).1), (a.2 + (enclTerm t.1 t.2 p).2))) (0, 0)

/-- A power of two above every term's size. -/
def exTop (x : Ex) : Int := x.foldl (fun a t => max a (t.2 / 512 + Nat.log2 t.1.natAbs + 2)) (-100000)

/-- An enclosure that does not contain 0 of a number that is not 0, with its precision: precisions double from 64 bits,
beyond the least distance from 0 that such a sum can have. -/
def exTight (x : Ex) : Nat → Int → Int × Int × Int
  | 0, _ => (0, 0, 0)
  | k + 1, g =>
    let p := g - exTop x
    let e := exEncl x p
    if 0 < e.1 ∨ e.2 < 0 then (p, e.1, e.2) else exTight x k (2 * g)

/-- The sign of a number: -1, 0 or 1. -/
def exSign (x : Ex) : Int :=
  match exNorm x with
  | [] => 0
  | [(m, _)] => m.sign
  | y => let e := exTight y 16 64
    if 0 < e.2.1 then 1 else -1

/-- Whether x < y, and whether x <= y. -/
def exLt (x y : Ex) : Bool := exSign (exSub x y) == -1
def exLe (x y : Ex) : Bool := exSign (exSub x y) != 1

/-- The floor of x * 2^w of a number with an irrational part, by enclosures of rising precision. -/
def exFloorGo (x : Ex) (w : Int) : Nat → Int → Int
  | 0, g => (exEncl x (w + g)).1 / 2 ^ g.toNat
  | k + 1, g =>
    let e := exEncl x (w + g)
    if e.1 / 2 ^ g.toNat = e.2 / 2 ^ g.toNat then e.1 / 2 ^ g.toNat else exFloorGo x w k (2 * g)

/-- The floor of x * 2^w, and whether anything is lost by it. -/
def exFloor (x : Ex) (w : Int) : Int × Bool :=
  match exNorm x with
  | [] => (0, false)
  | [(m, q)] =>
    if q % 512 = 0 then
      let k := -(q / 512 + w)
      (shiftFloor m k, shiftFloor m k != shiftCeil m k)
    else (exFloorGo [(m, q)] w 16 32, true)
  | y => (exFloorGo y w 16 32, true)

/-- The absolute value. -/
def exAbs (x : Ex) : Ex := if exSign x = -1 then exNeg x else x

/-- For a positive number: the position s of its leading 1, 2^s <= x < 2^(s+1) (R31). -/
def exLead (x : Ex) : Int :=
  match exNorm x with
  | [] => 0
  | y =>
    let e := exTight y 16 64
    let s := (Nat.log2 e.2.2.toNat : Int) - e.1
    if (exFloor y (-s)).1 = 0 then s - 1 else s

/-- Half to even: a number with one bit below the unit and a mark for anything below that (R25). -/
def roundHE (v : Int) (sticky : Bool) : Int :=
  if v % 2 = 1 ∧ (sticky = true ∨ v / 2 % 2 = 1) then v / 2 + 1 else v / 2

/-- The nearest integer to x * 2^w, ties to even. -/
def exRound (x : Ex) (w : Int) : Int := roundHE (exFloor x (w + 1)).1 (exFloor x (w + 1)).2

end Sys2Proof.Machine
end

