-- ==== Sys2Proof/Machine/Formats.lean ====
section
/-! DEFINITION. The number formats of chapter 2: decoding of every code, and the one rounding of an exact value into
every target (R23 to R47). -/

namespace Sys2Proof.Machine

/-- The formats of Table 2.1. -/
inductive Fmt where
  | t8 | t16 | t32 | t8x | l8 | l16 | f8 | c4 | b1 | bin16 | bf16 | bin32
  deriving DecidableEq, Repr

/-- The format that a 4-bit code names; 0xC to 0xF are reserved (R23). -/
def fmtOfNat : Nat → Option Fmt
  | 0 => some .t8 | 1 => some .t16 | 2 => some .t32 | 3 => some .t8x | 4 => some .l8 | 5 => some .l16
  | 6 => some .f8 | 7 => some .c4 | 8 => some .b1 | 9 => some .bin16 | 10 => some .bf16 | 11 => some .bin32
  | _ => none

/-- The format of a 4-bit field of a loaded program, whose reserved codes the loader has refused (R23). -/
def fmtOf (c : BitVec 4) : Fmt := (fmtOfNat c.toNat).getD .t32

/-- Bits per element (Table 2.1). -/
def Fmt.width : Fmt → Nat
  | .t8 | .t8x | .l8 | .f8 => 8
  | .t16 | .l16 | .bin16 | .bf16 => 16
  | .t32 | .bin32 => 32
  | .c4 => 4
  | .b1 => 1

/-- An element's value: NaN, an infinity, or an exact finite number. -/
inductive Val where
  | nan
  | inf (neg : Bool)
  | fin (x : Ex)
  deriving DecidableEq, Repr

def Val.zero : Val := .fin []

/-- The counter that a converted element increments, if any (R26). -/
inductive Cnv where
  | none | invalid | overflow | underflow
  deriving DecidableEq, Repr

/-- The length of the run of bits equal to r that ends the low p bits of c at the top. -/
def runLen (c : Nat) (r : Bool) : Nat → Nat
  | 0 => 0
  | p + 1 => if c.testBit p = r then runLen c r p + 1 else 0

/-- The value of a positive tapered code of n bits: m * 2^e (R27). -/
def taperedMag (c n : Nat) : Int × Int :=
  let r := c.testBit (n - 2)
  let m := runLen c r (n - 1)
  let k : Int := if r then m - 1 else -m
  let rest := n - 2 - m
  let e : Nat := if 2 ≤ rest then bits c (rest - 2) 2 else if rest = 1 then 2 * (c % 2) else 0
  let fb := rest - 2
  ((2 ^ fb + c % 2 ^ fb : Nat), 4 * k + e - fb)

/-- Decoding of a tapered code (R27, R28); under qp1_compat the infinity codes of T16 and T32 are NaN (R47). -/
def decodeT (compat : Bool) (code n : Nat) : Val :=
  if code = 0 then .fin []
  else if code = 2 ^ (n - 1) then .nan
  else if 8 < n ∧ code = 2 ^ (n - 1) - 1 then (if compat then .nan else .inf false)
  else if 8 < n ∧ code = 2 ^ (n - 1) + 1 then (if compat then .nan else .inf true)
  else if code < 2 ^ (n - 1) then .fin (exDy (taperedMag code n).1 (taperedMag code n).2)
  else .fin (exDy (-(taperedMag (2 ^ n - code) n).1) (taperedMag (2 ^ n - code) n).2)

/-- The largest finite positive code of a tapered format (Table 2.3). -/
def taperedMax (n : Nat) : Nat := if n = 8 then 0x7F else 2 ^ (n - 1) - 2

/-- round_t of R31: the bit string of regime, exponent and fraction, cut after n - 1 bits, ties to even. -/
def roundT (a : Ex) (n : Nat) : Nat :=
  let s := exLead a
  let k := s / 4
  let e := (s - 4 * k).toNat
  let reg : Nat := if 0 ≤ k then 2 ^ (k.toNat + 2) - 2 else 1
  let len : Nat := if 0 ≤ k then k.toNat + 2 else (-k).toNat + 1
  let f := exFloor a (40 - s)
  let str := (reg * 4 + e) * 2 ^ 40 + (f.1.toNat - 2 ^ 40)
  let cut := len + 2 + 40 - (n - 1)
  let c := str / 2 ^ cut
  let t := str % 2 ^ cut
  if 2 ^ (cut - 1) < t ∨ (t = 2 ^ (cut - 1) ∧ (f.2 = true ∨ c % 2 = 1)) then c + 1 else c

/-- The code of a magnitude's code under a sign, for two's complement codes of n bits. -/
def withSign (n : Nat) (neg : Bool) (c : Nat) : Nat := if neg then 2 ^ n - c else c

/-- Encoding into a tapered format (R31, R32, R47). -/
def encodeT (compat : Bool) (n : Nat) : Val → Nat × Cnv
  | .nan => (2 ^ (n - 1), .none)
  | .inf neg =>
    if n = 8 then (0x80, .invalid)
    else if compat then (2 ^ (n - 1), .invalid)
    else (if neg then 2 ^ (n - 1) + 1 else 2 ^ (n - 1) - 1, .none)
  | .fin x =>
    let sg := exSign x
    if sg = 0 then (0, .none)
    else
      let a := exAbs x
      let top := taperedMag (taperedMax n) n
      let low := taperedMag 1 n
      if exLt (exDy top.1 top.2) a then (withSign n (sg == -1) (taperedMax n), .overflow)
      else if exLt a (exDy low.1 low.2) then (withSign n (sg == -1) 1, .underflow)
      else (withSign n (sg == -1) (roundT a n), .none)

/-- Decoding of a logarithmic code of n bits whose step is u/512 of an octave (R36). -/
def decodeL (code n u : Nat) : Val :=
  let neg := code.testBit (n - 1)
  let f := code % 2 ^ (n - 1)
  if f = 2 ^ (n - 2) then (if neg then .nan else .fin [])
  else if f = 2 ^ (n - 2) - 1 then .inf neg
  else .fin [(if neg then -1 else 1, u * signed (n - 1) f)]

/-- The field v, sign apart, that a magnitude rounds to: the greatest v with 2^(uv/512) <= a, by halving. -/
def logFloorGo (a : Ex) (u : Nat) : Nat → Int → Int
  | 0, v => v
  | k + 1, v => if exLe (exPow (u * (v + 2 ^ k))) a then logFloorGo a u k (v + 2 ^ k) else logFloorGo a u k v

/-- log2(a) * 512/u rounded to nearest, ties to an even field: the nearest in the log domain (R37, R38). -/
def roundL (a : Ex) (u : Nat) : Int :=
  let v := logFloorGo a u 10 (exLead a * (512 / u : Nat))
  match exSign (exSub (exMul a a) (exPow (u * (2 * v + 1)))) with
  | 0 => if v % 2 = 0 then v else v + 1
  | 1 => v + 1
  | _ => v

/-- Encoding into a logarithmic format of n bits (R37). R38 has L16 rounded into L8 before the limits apply; here the limits
apply to the exact magnitude, as in R37, so that the L16 fields 3969 to 4000 count an overflow and -4064 to -4033 an underflow;
the codes are the same either way. DESIGN CHOICE, unsafe: log entry 26. -/
def encodeL (n u : Nat) : Val → Nat × Cnv
  | .nan => (2 ^ (n - 1) + 2 ^ (n - 2), .none)
  | .inf neg => (b2n neg * 2 ^ (n - 1) + (2 ^ (n - 2) - 1), .none)
  | .fin x =>
    let sg := exSign x
    if sg = 0 then (2 ^ (n - 2), .none)
    else
      let a := exAbs x
      let sb := b2n (sg == -1) * 2 ^ (n - 1)
      let vmax : Int := 2 ^ (n - 2) - 2
      let vmin : Int := 1 - 2 ^ (n - 2)
      if exLt (exPow (u * vmax)) a then (sb + toTwos (n - 1) vmax, .overflow)
      else if exLt a (exPow (u * vmin)) then (sb + toTwos (n - 1) vmin, .underflow)
      else (sb + toTwos (n - 1) (roundL a u), .none)

/-- Encoding into F8 with zero point z (R39). -/
def encodeF8 (z : Int) : Val → Nat × Cnv
  | .nan => (z.toNat, .invalid)
  | .inf neg => (if neg then 0 else 255, .overflow)
  | .fin x =>
    let q := exRound x 0 + z
    if q < 0 then (0, .overflow) else if 255 < q then (255, .overflow) else (q.toNat, .none)

/-- The parameters of an interchange format: significand bits and exponent bits. -/
def ieeePar : Fmt → Nat × Nat
  | .bin16 => (11, 5)
  | .bf16 => (8, 8)
  | _ => (24, 8)

/-- Decoding of an interchange code: significand p bits, exponent w bits (R42). -/
def decodeIeee (code p w : Nat) : Val :=
  let neg := code.testBit (p + w - 1)
  let e := bits code (p - 1) w
  let f := code % 2 ^ (p - 1)
  let bias : Int := 2 ^ (w - 1) - 1
  if e = 2 ^ w - 1 then (if f = 0 then .inf neg else .nan)
  else
    let m : Int := if e = 0 then f else f + 2 ^ (p - 1)
    let x : Int := (if e = 0 then 1 else e) - bias - (p - 1)
    if m = 0 then .fin [] else .fin (exDy (if neg then -m else m) x)

/-- Encoding into an interchange format: nearest even, subnormals produced, overflow judged after rounding and giving
the largest finite value (R43). -/
def encodeIeee (p w : Nat) : Val → Nat × Cnv
  | .nan => ((2 ^ w - 1) * 2 ^ (p - 1) + 2 ^ (p - 2), .none)
  | .inf neg => (b2n neg * 2 ^ (p + w - 1) + (2 ^ w - 1) * 2 ^ (p - 1), .none)
  | .fin x =>
    let sg := exSign x
    if sg = 0 then (0, .none)
    else
      let a := exAbs x
      let emin : Int := 2 - 2 ^ (w - 1)
      let q := max (exLead a) emin - (p - 1)
      let m := exRound a (-q)
      let top : Nat := (2 ^ w - 1) * 2 ^ (p - 1) - 1
      let code := m.toNat + (q - (emin - (p - 1))).toNat * 2 ^ (p - 1)
      if m = 0 then (0, .underflow)
      else if top < code then (b2n (sg == -1) * 2 ^ (p + w - 1) + top, .overflow)
      else (b2n (sg == -1) * 2 ^ (p + w - 1) + code, .none)

/-- Encoding into B1 (R41). -/
def encodeB1 : Val → Nat × Cnv
  | .nan => (0, .invalid)
  | .inf neg => (b2n neg, .none)
  | .fin x => (b2n (exSign x == -1), .none)

/-- The value of an element's code. A C4 code is given as its codebook entry in T16 (R40, R45), a T8X code that is an
escape as its side slot in T32 (R33): elsewhere they read as T16 and T8. z is the F8 zero point (R39). -/
def decodeEl (compat : Bool) (f : Fmt) (z : Int) (code : Nat) : Val :=
  match f with
  | .t8 | .t8x => decodeT compat (code % 2 ^ 8) 8
  | .t16 | .c4 => decodeT compat (code % 2 ^ 16) 16
  | .t32 => decodeT compat (code % 2 ^ 32) 32
  | .l8 => decodeL (code % 2 ^ 8) 8 64
  | .l16 => decodeL (code % 2 ^ 16) 16 1
  | .f8 => .fin (exInt ((code % 2 ^ 8 : Nat) - z))
  | .b1 => .fin (exInt (if code % 2 = 1 then -1 else 1))
  | .bin16 => decodeIeee (code % 2 ^ 16) 11 5
  | .bf16 => decodeIeee (code % 2 ^ 16) 8 8
  | .bin32 => decodeIeee (code % 2 ^ 32) 24 8

/-- The one rounding of a value into a target format (R25), with the counter it increments (R26, R44). T8X is given
here for an element that does not escape (R34). -/
def encodeEl (compat : Bool) (f : Fmt) (z : Int) (v : Val) : Nat × Cnv :=
  match f with
  | .t8 | .t8x => encodeT compat 8 v
  | .t16 | .c4 => encodeT compat 16 v
  | .t32 => encodeT compat 32 v
  | .l8 => encodeL 8 64 v
  | .l16 => encodeL 16 1 v
  | .f8 => encodeF8 z v
  | .b1 => encodeB1 v
  | .bin16 => encodeIeee 11 5 v
  | .bf16 => encodeIeee 8 8 v
  | .bin32 => encodeIeee 24 8 v

/-- The negation of a value; there is no negative zero (R25). -/
def Val.neg : Val → Val
  | .nan => .nan
  | .inf n => .inf (!n)
  | .fin x => .fin (exNeg x)

/-- The value multiplied by 2^s. -/
def Val.shift (v : Val) (s : Int) : Val :=
  match v with
  | .fin x => .fin (exShift x s)
  | w => w

/-- Whether a value is NaN. -/
def Val.isNan : Val → Bool
  | .nan => true
  | _ => false

/-- Whether a value is exactly zero. -/
def Val.isZero : Val → Bool
  | .fin x => exNorm x == []
  | _ => false

/-- Whether a value is negative (NaN is not). -/
def Val.isNeg : Val → Bool
  | .nan => false
  | .inf n => n
  | .fin x => exSign x == -1

/-- Whether a value is finite. -/
def Val.isFin : Val → Bool
  | .fin _ => true
  | _ => false

/-- The numeric order of two values that are not NaN: -1, 0, 1. -/
def valCmp : Val → Val → Int
  | .fin x, .fin y => exSign (exSub x y)
  | .inf a, .inf b => if a = b then 0 else if a then -1 else 1
  | .inf a, _ => if a then -1 else 1
  | _, .inf b => if b then 1 else -1
  | _, _ => 0

end Sys2Proof.Machine
end

