-- ==== Sys2Proof/Machine/Tables.lean ====
section
/-! DEFINITION. Finite tables as plain data: lists of (key, value) pairs with strictly rising keys, in which no entry
equals what an unlisted key reads as. Equal tables are equal lists. Memories are tables of bytes. -/

namespace Sys2Proof.Machine

/-- A table: key and value pairs, keys rising. -/
abbrev Tbl (α : Type) := List (Nat × α)

/-- The value at a key; d says what an unlisted key reads as. -/
def tget {α : Type} (d : Nat → α) (t : Tbl α) (k : Nat) : α :=
  match t with
  | [] => d k
  | (j, v) :: r => if j = k then v else tget d r k

/-- The table without a key. -/
def tdel {α : Type} (t : Tbl α) (k : Nat) : Tbl α := t.filter fun e => e.1 != k

/-- An entry put in its place among rising keys. -/
def tput {α : Type} (t : Tbl α) (k : Nat) (v : α) : Tbl α :=
  match t with
  | [] => [(k, v)]
  | (j, w) :: r => if k < j then (k, v) :: (j, w) :: r else (j, w) :: tput r k v

/-- The table with a key's value replaced; an unlisted key's own value removes the entry. -/
def tset {α : Type} [DecidableEq α] (d : Nat → α) (t : Tbl α) (k : Nat) (v : α) : Tbl α :=
  if v = d k then tdel t k else tput (tdel t k) k v

/-- Several keys set, first to last. -/
def tsetAll {α : Type} [DecidableEq α] (d : Nat → α) (t : Tbl α) (kvs : List (Nat × α)) : Tbl α :=
  kvs.foldl (fun a e => tset d a e.1 e.2) t

/-- The canonical form: keys strictly rising, no entry equal to an unlisted key's value. -/
def twf {α : Type} [DecidableEq α] (d : Nat → α) (t : Tbl α) : Prop :=
  t.Pairwise (fun a b => a.1 < b.1) ∧ ∀ e ∈ t, e.2 ≠ d e.1

/-- A memory: the listed bytes at their addresses. -/
abbrev Mem := List Host.Cell

/-- One byte of a memory whose unlisted bytes read d. -/
def mget (d : Byte) (m : Mem) (a : Nat) : Byte := tget (fun _ => d) m a

/-- One byte written. -/
def mset (d : Byte) (m : Mem) (a : Nat) (v : Byte) : Mem := tset (fun _ => d) m a v

/-- n bytes from address a upward. -/
def mread (d : Byte) (m : Mem) (a n : Nat) : List Byte :=
  let w := m.filter fun e => decide (a ≤ e.1) && decide (e.1 < a + n)
  (List.range n).map fun i => mget d w (a + i)

/-- The entries that bytes from address a upward make. -/
def mcells (d : Byte) : Nat → List Byte → Mem
  | _, [] => []
  | a, b :: bs => if b = d then mcells d (a + 1) bs else (a, b) :: mcells d (a + 1) bs

/-- Bytes written from address a upward. -/
def mwrite (d : Byte) (m : Mem) (a : Nat) (bs : List Byte) : Mem :=
  m.filter (fun e => decide (e.1 < a)) ++ mcells d a bs ++ m.filter (fun e => decide (a + bs.length ≤ e.1))

/-- The canonical form of a memory. -/
abbrev Memory.wf (d : Byte) (m : Mem) : Prop := twf (fun _ => d) m

end Sys2Proof.Machine
end

