-- ==== Sys2Proof/Syntax.lean ====
section
/-! DEFINITION. The commands: one constructor for each row of spec/opcode_table.json. A bed instruction carries the
logical bed that issues it, the common fields of Table 9.1 and its operand fields at their encoded widths (counts that
the spec encodes minus one stay minus one). Any other command carries the unit it happens at and what lies outside
the module. -/

namespace Sys2Proof

/-- One row of the table of operations and events each. -/
inductive Instr where
  -- array instructions (Table 9.4)
  | pset (b : BitVec 7) (h : Head) (a : BitVec 2) (path : BitVec 2) (mov : BitVec 4) (sta : BitVec 4) (p : BitVec 5)
      (sem : BitVec 2) (paired : Bool)
  | fill (b : BitVec 7) (h : Head) (a : BitVec 2) (src : BitVec 24) (kn : BitVec 7) (nn : BitVec 6) (bs : BitVec 4)
  | cbld (b : BitVec 7) (h : Head) (a : BitVec 2) (tensor : BitVec 12)
  | mload (b : BitVec 7) (h : Head) (a : BitVec 2) (half : Bool) (m0 : BitVec 6) (count : BitVec 6) (kn : BitVec 7)
      (src : BitVec 24) (bm : BitVec 4)
  | swap (b : BitVec 7) (h : Head) (a : BitVec 2)
  | pass (b : BitVec 7) (h : Head) (a : BitVec 2) (half : Bool) (m0 : BitVec 6) (mt : BitVec 6) (tile : Bool)
      (begins : Bool) (preEn : Bool) (corrEn : Bool) (pre : BitVec 24) (corr : BitVec 24)
  -- accumulator instructions (Table 9.5)
  | spill (b : BitVec 7) (h : Head) (a : BitVec 2) (tile : Bool) (first : Bool) (barrel : BitVec 24) (bp : BitVec 5)
  | rdrain (b : BitVec 7) (h : Head) (a : BitVec 2) (barrel : BitVec 24) (slot : BitVec 3) (clear : Bool) (bp : BitVec 5)
  | drain (b : BitVec 7) (h : Head) (a : BitVec 2) (mode : Bool) (source : Bool) (tile : Bool) (both : Bool)
      (toReg : Bool) (dst : BitVec 24) (regFmt : BitVec 4) (func : BitVec 5) (fuse : Bool) (e0 : BitVec 6)
      (statEn : Bool) (statClear : Bool) (barrel : BitVec 24) (bp : BitVec 5)
  -- vector instructions (Table 9.6)
  | vop (b : BitVec 7) (h : Head) (op : BitVec 5) (d : BitVec 4) (s1 : BitVec 4) (s2 : BitVec 4) (s3 : BitVec 4)
      (fmt : BitVec 4) (km : BitVec 3) (maskEn : Bool) (kd : BitVec 3) (imm8 : BitVec 8) (imm32 : BitVec 32)
  | vld (b : BitVec 7) (h : Head) (first : BitVec 4) (count : BitVec 4) (src : BitVec 24) (fmt : BitVec 4) (bp : BitVec 4)
  | vst (b : BitVec 7) (h : Head) (first : BitVec 4) (count : BitVec 4) (dst : BitVec 24) (bp : BitVec 4) (km : BitVec 3)
      (maskEn : Bool)
  | mcvt (b : BitVec 7) (h : Head) (src : BitVec 24) (dst : BitVec 24) (n : BitVec 16) (bp : BitVec 4)
  -- special functions, soft maximum and sieve (Table 9.9)
  | sfn (b : BitVec 7) (h : Head) (func : BitVec 5) (src : BitVec 24) (op2 : BitVec 24) (dst : BitVec 24) (n : BitVec 16)
  | smax1 (b : BitVec 7) (h : Head) (src : BitVec 24) (mask : BitVec 12) (maskEn : Bool) (entry : BitVec 6) (clear : Bool)
      (beta : BitVec 32) (n : BitVec 16)
  | smax2 (b : BitVec 7) (h : Head) (src : BitVec 24) (mask : BitVec 12) (maskEn : Bool) (entry : BitVec 6) (recip : Bool)
      (dst : BitVec 12) (n : BitVec 16)
  | smaxm (b : BitVec 7) (h : Head) (src : BitVec 24) (entry : BitVec 6)
  | smaxx (b : BitVec 7) (h : Head) (entry : BitVec 6) (dst : BitVec 24)
  | sieve (b : BitVec 7) (h : Head) (src : BitVec 24) (n : BitVec 16) (k : BitVec 6) (dir : Bool) (clear : Bool)
      (base : BitVec 32)
  | sievem (b : BitVec 7) (h : Head) (src : BitVec 24) (count : BitVec 7) (k : BitVec 6) (dir : Bool) (clear : Bool)
      (fmt : BitVec 4)
  | sieveo (b : BitVec 7) (h : Head) (dst : BitVec 24)
  -- normalisation and statistics exchange (Table 9.10)
  | nprep (b : BitVec 7) (h : Head) (entry : BitVec 6) (rms : Bool) (eps : BitVec 32)
  | napply (b : BitVec 7) (h : Head) (src : BitVec 24) (dst : BitVec 12) (gamma : BitVec 12) (beta : BitVec 12)
      (betaEn : Bool) (entry : BitVec 6) (n : BitVec 16)
  | statx (b : BitVec 7) (h : Head) (entry : BitVec 6) (count : BitVec 6) (dst : BitVec 24)
  | statm (b : BitVec 7) (h : Head) (entry : BitVec 6) (count : BitVec 6) (src : BitVec 24)
  -- grader, record, sprinkler and table instructions (Table 9.11)
  | pick (b : BitVec 7) (h : Head) (slot : BitVec 3) (target : BitVec 12) (tSrc : BitVec 8) (room : BitVec 3)
  | rpx (b : BitVec 7) (h : Head) (slot : BitVec 3) (dst : BitVec 24)
  | rpm (b : BitVec 7) (h : Head) (slot : BitVec 3) (clear : Bool) (src : BitVec 24)
  | sprb (b : BitVec 7) (h : Head) (s : BitVec 2) (entropy : Bool) (binding : BitVec 10)
  | sprd (b : BitVec 7) (h : Head) (s : BitVec 2) (form : BitVec 2) (dst : BitVec 4) (count : BitVec 4) (p : BitVec 16)
  | vtld (b : BitVec 7) (h : Head) (image : BitVec 12) (bp : BitVec 5)
  -- control and synchronisation (R231, Table 10.2)
  | nop (b : BitVec 7) (h : Head)
  | endList (b : BitVec 7) (h : Head)
  | loop (b : BitVec 7) (h : Head) (count : BitVec 16) (body : BitVec 12)
  | sdwait (b : BitVec 7) (h : Head) (target : BitVec 48) (d : BitVec 48)
  | lrecv (b : BitVec 7) (h : Head) (link : BitVec 5) (flow : BitVec 4) (len : BitVec 15) (dst : BitVec 24) (d : BitVec 48)
  | cwait (b : BitVec 7) (h : Head) (coll : BitVec 8) (d : BitVec 48)
  | cbar (b : BitVec 7) (h : Head) (link : BitVec 5) (flows : BitVec 16) (d : BitVec 48)
  | tflip (b : BitVec 7) (h : Head)
  | hint (b : BitVec 7) (h : Head) (entry : BitVec 12)
  | tag (b : BitVec 7) (h : Head) (tensor : BitVec 12) (engine : BitVec 2) (route : BitVec 12)
  | entr (b : BitVec 7) (h : Head) (d : BitVec 4) (words : BitVec 5)
  | sdrd (b : BitVec 7) (h : Head) (d : BitVec 4) (lane : BitVec 6)
  | ctrrd (b : BitVec 7) (h : Head) (d : BitVec 4) (lane : BitVec 6) (sel : BitVec 8)
  -- movement (Table 10.3)
  | brw (b : BitVec 7) (h : Head) (channel : BitVec 6) (desc : BitVec 10) (bed : BitVec 24) (level : BitVec 2)
      (stepEn : Bool) (extStep : BitVec 32) (route : BitVec 12)
  | rsend (b : BitVec 7) (h : Head) (route : BitVec 12) (src : BitVec 24) (len : BitVec 15)
  | rrecv (b : BitVec 7) (h : Head) (route : BitVec 12) (dst : BitVec 24) (len : BitVec 15)
  | lsend (b : BitVec 7) (h : Head) (link : BitVec 5) (flow : BitVec 4) (len : BitVec 15) (src : BitVec 24)
      (route : BitVec 12)
  | lcoll (b : BitVec 7) (h : Head) (coll : BitVec 8) (op : BitVec 3) (count : BitVec 16) (src : BitVec 24)
      (dst : BitVec 24) (route : BitVec 12)
  -- synchronisation events
  | syncWaitEnd (p : BitVec 4)
  | syncTimeout (p : BitVec 4)
  -- barrow events; `good` is how many side A lines outside bed memory have had a good response so far
  | brwLandingDeadline (ch : BitVec 6)
  | barrowTransferStart (ch : BitVec 6) (good : Nat)
  | barrowTransferComplete (ch : BitVec 6)
  | busError (ch : BitVec 6) (cause : BitVec 3)
  | hostCompletionTimeout (ch : BitVec 6)
  | engineRestart (hub : Bool) (good : Nat)
  | isolationAccess (ch : BitVec 6) (good : Nat)
  -- LPDDR5, nursery walkers and scrubber
  | lpddr5Frame (c : BitVec 5) (logged : Bool)
  | nurseryOrderStart (w : BitVec 2)
  | walkerWordTransfer (w : BitVec 2)
  | nurseryOrderComplete (w : BitVec 2)
  | scrubRead (p : BitVec 8)
  | scrubWriteback (p : BitVec 8)
  -- links; a received flit is the 568 bytes of the wire
  | messageLand (l : BitVec 5) (f : BitVec 4)
  | flitSend (l : BitVec 5)
  | dataFlitReceive (l : BitVec 5) (wire : List Byte)
  | collectiveFlitReceive (l : BitVec 5) (wire : List Byte)
  | controlFlitReceive (l : BitVec 5) (wire : List Byte)
  | idleFlitReceive (l : BitVec 5) (wire : List Byte)
  | nakReceive (l : BitVec 5) (wire : List Byte)
  | replayTimeout (l : BitVec 5)
  | linkSilenceTimeout (l : BitVec 5)
  | linkTrain (l : BitVec 5) (env : LinkEnv)
  | linkTrainRetry (l : BitVec 5) (env : LinkEnv)
  | sundialProbe (l : BitVec 5) (probe : Probe)
  | sundialRecheck (l : BitVec 5) (probes : List Probe)
  | mmSowOrder (l : BitVec 5) (tick : W64) (digest : BitVec 256)
  | mmFrostOrder (l : BitVec 5) (tick : W64)
  | mmThawOrder (l : BitVec 5) (tick : W64)
  | companionRecordTimeout
  -- the host's writes; `rid` is the requester ID
  | sqTailWrite (rid : BitVec 16) (r : BitVec 6) (v : W64)
  | cqHeadWrite (rid : BitVec 16) (r : BitVec 6) (v : W64)
  | ringEnable (rid : BitVec 16) (r : BitVec 6) (v : W64)
  | ringDisable (rid : BitVec 16) (r : BitVec 6) (v : W64)
  | dbInSet (rid : BitVec 16) (v : BitVec 32)
  | dbOutClear (rid : BitVec 16) (v : BitVec 32)
  | dbOutMaskWrite (rid : BitVec 16) (v : BitVec 32)
  | inboundMailboxPost (rid : BitVec 16) (i : BitVec 3) (offset : BitVec 6) (msg : List Byte)
  | inboundMailboxTake (i : BitVec 3)
  | outboundMailboxPost (g : BitVec 4) (i : BitVec 3) (msg : List Byte)
  | mboReturn (rid : BitVec 16) (i : BitVec 3)
  | descriptorFetch (r : BitVec 6) (fail : Option (BitVec 3))
  | descriptorStart (r : BitVec 6)
  | completionPost (r : BitVec 6)
  -- descriptor operations; `fail` is the cause of a host read that failed for good, coded as in BRW_CH_ERR_c
  | nopDescriptor (src : Src)
  | load (src : Src) (fail : Option (BitVec 3)) (dir : List ListDir) (tableDigests : List (BitVec 256))
  | loadComplete (p : BitVec 4)
  | sow (src : Src)
  | plotSow (p : BitVec 4)
  | plotComplete (p : BitVec 4)
  | unload (src : Src)
  | unloadStop (p : BitVec 4)
  | copyIn (src : Src) (good : Nat)
  | copyOut (src : Src)
  | record (src : Src)
  | nurseryOpen (src : Src)
  | nurseryPlant (src : Src)
  | nurseryLift (src : Src)
  | nurseryTransplant (src : Src)
  | nurseryClose (src : Src)
  -- services
  | fence (src : Src)
  | fenceTakeEffect (p : BitVec 8)
  | fenceComplete (p : BitVec 8)
  | bedPollTimeout (p : BitVec 8)
  | selftest (src : Src)
  | selftestEnd (p : BitVec 8) (pass : Bool)
  | linkRetrain (src : Src)
  | linkDisable (src : Src)
  | companionStart (src : Src)
  | companionStop (src : Src)
  | frost (src : Src)
  | frostCut
  | thaw (src : Src)
  | thawResume
  | harvest (src : Src)
  | harvestComplete (written : BitVec 32)
  | attest (src : Src)
  | attestReportWritten
  | ownerEnrol (src : Src)
  | ownerEnrolComplete
  | powerCap (src : Src)
  -- faults and registers with rows of their own
  | faultReport (unit : BitVec 20) (reporter : BitVec 20) (cause : BitVec 8) (detail : W64)
  | faultAck (rid : BitVec 16) (entry : BitVec 8)
  | heartbeatCheck (alive : BitVec 10)
  | clearHalt (rid : BitVec 16) (ch : BitVec 6)
  | lnkCtrlRetrain (rid : BitVec 16) (l : BitVec 5)
  | lnkCtrlDisable (rid : BitVec 16) (l : BitVec 5) (on : Bool)
  | pwrCorrClear (rid : BitVec 16)
  | hvDataRead
  | registerWrite (rid : BitVec 16) (bar2 : Bool) (offset : BitVec 26) (bytes : Nat) (v : W64)
  -- reset, start-up and the board
  | glbResetWarm (rid : BitVec 16) (v : W64) (env : BootEnv)
  | perstAssert
  | perstRelease (env : BootEnv)
  | hotReset (env : BootEnv)
  | domainWaitExpiry
  | railUndervoltage
  | railsGood (env : BootEnv)
  | pmD3hot
  | pmD0
  | pllLockLoss
  | conservationFreeze (pool : BitVec 3) (index : BitVec 8) (tally : W64)
  | entropyHealthFail (die : BitVec 2)
  -- power, clocks and temperature
  | powerSample (watts : BitVec 12) (amps : BitVec 9)
  | mulchLevelStep
  | droopDetect (source : BitVec 3)
  | thermalSample (hottest : List (BitVec 12)) (sensor : List (BitVec 6)) (coolest : List (BitVec 12))
  | thermalTripStop
  | holdBegin
  | holdEnd (base : BitVec 12)
  | samplerSample
  -- the TAP (Table 21.5)
  | extest (cells : List Bool)
  | samplePreload (cells : List Bool)
  | idcode
  | clamp
  | highz
  | extestPulse (cells : List Bool)
  | extestTrain (cells : List Bool)
  | dbgAccess (addr : W64) (data : W64) (env : BootEnv)
  | flashAccess (frame : W64)
  | bypass (code : BitVec 8)
  -- the rest, in the table's order
  | flitAlignmentLost (l : BitVec 5)
  | refclkValid (env : BootEnv)
  | tapReset
  | entropyWordDelivery (die : BitVec 2) (words : List W64)
  deriving DecidableEq, Repr

end Sys2Proof
end

