-- ==== Sys2Proof/Machine/StateBed.lean ====
section
/-! DEFINITION. The state of one bed (core) and of the program it runs: plain data, each piece named by the spec. -/

namespace Sys2Proof.Machine

/-! ## Programs as loaded (chapter 8) -/

/-- A tensor descriptor (R185, Table 8.5). -/
structure Tensor where
  base : Nat := 0
  fmt : BitVec 4 := 0
  kind : Nat := 0
  bed : Nat := 0
  ext : List Nat := [1, 1, 1, 1]
  stride : List Nat := [0, 0, 0]
  codebook : Nat := 0
  quant : W64 := 0
  digestIdx : Nat := 0
  role : Nat := 0
  tagged : Bool := false
  deriving DecidableEq, Repr

/-- A walk entry: origin, and the steps of levels 0 to 3 (R198, Table 9.2). -/
structure Walk where
  origin : List Nat := [0, 0, 0, 0]
  steps : List (List Int) := []
  deriving DecidableEq, Repr

/-- A route entry (R263, Table 11.4). -/
structure Route where
  segment : Nat := 0
  source : Nat := 0
  slots : W64 := 0
  dest : BitVec 192 := 0
  lambda : Nat := 0
  deriving DecidableEq, Repr

/-- A collective table entry (R335, Table 14.7). -/
structure Coll where
  coll : Nat := 0
  op : Nat := 0
  parent : Nat := 0x1F
  flow : Nat := 0
  children : BitVec 24 := 0
  beds : BitVec 128 := 0
  resultRoute : Nat := 0
  hub : Nat := 0
  count : Nat := 0
  deriving DecidableEq, Repr

/-- One instruction list with the tables its directory entry names (R198, R242, R335, R263). -/
structure IList where
  code : List (BitVec 128) := []
  walks : List Walk := []
  barrows : List (List Byte) := []
  deriving DecidableEq, Repr

/-- A claim entry (R188, Table 8.6). -/
structure Claim where
  kind : Nat := 0
  first : Nat := 0
  count : Nat := 0
  slots : W64 := 0
  deriving DecidableEq, Repr

/-- A sprinkler binding (R183). -/
structure Binding where
  bed : Nat := 0
  spr : Nat := 0
  seed : W64 := 0
  stream : W64 := 0
  ctr : BitVec 128 := 0
  deriving DecidableEq, Repr

/-- A digest-table entry (R394, Table 17.2). -/
structure DigEnt where
  digest : BitVec 256 := 0
  role : Nat := 0
  engine : Nat := 0
  tensor : Nat := 0
  deriving DecidableEq, Repr

/-- A loaded program (R184). -/
structure Program where
  baseShift : Int := 0
  compat : Bool := false
  debug : Bool := false
  multi : Bool := false
  digest : BitVec 256 := 0
  /-- logical bed and list number of each bed of the plot (section 0) -/
  beds : List (Nat × Nat) := []
  lists : List IList := []
  routes : List Route := []
  colls : List Coll := []
  tensors : List Tensor := []
  claims : List Claim := []
  bindings : List Binding := []
  /-- SHAKE256 digest of each table image, by tensor index (R143) -/
  images : List (Nat × BitVec 256) := []
  /-- weather hints, 16 B each as section 6 holds them (R415) -/
  hints : List (List Byte) := []
  digests : List DigEnt := []
  deriving DecidableEq, Repr

/-! ## Accumulators (chapter 3) -/

/-- The class of an accumulator entry (R51). -/
inductive Cls where
  | fin | pinf | ninf | nan
  deriving DecidableEq, Repr

/-- An accumulator entry: its exact integer value in units of its LSB, class and cause (R48 to R51). -/
structure Entry where
  n : Int := 0
  cls : Cls := .fin
  cause : BitVec 3 := 0
  deriving DecidableEq, Repr

/-- The precision state of an array (R84, R92, R205). -/
structure Prec where
  path : BitVec 2 := 0
  mov : BitVec 4 := 0
  sta : BitVec 4 := 0
  p : BitVec 5 := 0
  sem : BitVec 2 := 0
  paired : Bool := false
  deriving DecidableEq, Repr

/-- A stationary plane (R75, R76, R88, R206): raw codes at key 64 k + n. -/
structure Plane where
  fmt : BitVec 4 := 0
  kn : Nat := 0
  nn : Nat := 0
  tensor : Nat := 0
  ready : Bool := false
  /-- the A-cycle from which its fill is complete (R75) -/
  till : Nat := 0
  poison : Bool := false
  codes : Tbl Nat := []
  deriving DecidableEq, Repr

/-- A codebook bank: sixteen T16 codes (R99, R101), and the A-cycle from which its reload has reached row 127 (R100). -/
structure Bank where
  codes : List Nat := []
  tensor : Nat := 0
  till : Nat := 0
  poison : Bool := false
  deriving DecidableEq, Repr

/-- A slot of the moving-operand buffer: 128 values' codes, those below k_n stored (R208). -/
structure MSlot where
  loaded : Bool := false
  poison : Bool := false
  fmt : BitVec 4 := 0
  codes : List Nat := []
  deriving DecidableEq, Repr

/-- A half of the moving-operand buffer (R208). -/
structure Half where
  tensor : Nat := 0
  kn : Nat := 0
  fmt : BitVec 4 := 0
  slots : Tbl MSlot := []
  deriving DecidableEq, Repr

/-- What an open or spilled reduction is made of (R82, R149, R213). -/
structure Redn where
  prec : Prec := {}
  mov : Nat := 0
  sta : Nat := 0
  /-- the largest m_t of its passes, and its plane's columns -/
  mt : Nat := 0
  nn : Nat := 0
  tile : Bool := false
  deriving DecidableEq, Repr

/-- A trough tile: entries at key 64 m + n, for column pairs at key 64 m + j (R49, R51). -/
structure Tile where
  isOpen : Bool := false
  redn : Redn := {}
  /-- the pass count of the array at the reduction's last pass: which tile completed first (R82) -/
  order : Nat := 0
  /-- chunks added so far, for the reduction index k of ARY_DBG_INVK_a (R68) -/
  chunks : Nat := 0
  entries : Tbl Entry := []
  /-- the A-cycle after the one in which the last row of a reduction that leaves the tile is read (R82, R211) -/
  till : Nat := 0
  deriving DecidableEq, Repr

/-- A pass as fed: its tile, its m_t, the A-cycle at which its first element enters row 0, and its c (R79). -/
structure Feed where
  tile : Bool
  mt : Nat
  start : Nat
  steps : Nat
  deriving DecidableEq, Repr

/-- One matrix array (chapter 4). -/
structure MArray where
  prec : Option Prec := none
  /-- the feeder's plane-select tag: the current plane and bank (R74, R99) -/
  tag : Bool := false
  plane0 : Plane := {}
  plane1 : Plane := {}
  bank0 : Bank := {}
  bank1 : Bank := {}
  half0 : Half := {}
  half1 : Half := {}
  tile0 : Tile := {}
  tile1 : Tile := {}
  /-- the last pass, for a drain on its wavefront (R80, R213) -/
  lastPass : Option Feed := none
  /-- A-cycles: the one after the last step of the last element in row 0; the one after the last commit; the end of the
  latest fence (R79, R84) -/
  feedEnd : Nat := 0
  sumEnd : Nat := 0
  /-- the A-cycle after the last commit of the passes before the last one -/
  sumPrev : Nat := 0
  fenceEnd : Nat := 0
  passes : BitVec 32 := 0
  fences : BitVec 32 := 0
  deriving DecidableEq, Repr

/-! ## Vector unit (chapter 6) -/

/-- A vector register: 64 lanes of 32 bits, lane i at bits [32i + 31 : 32i], and its format tag (R202). -/
structure VReg where
  tag : BitVec 4 := 2
  lanes : BitVec 2048 := 0
  deriving DecidableEq, Repr

/-- A statistics entry (R115, R222): max as a T32 code, exact sums in units of 2^-128, count, and mu and rho. -/
structure Stat where
  max : Option (BitVec 32) := none
  s1 : Entry := {}
  s2 : Entry := {}
  count : Nat := 0
  prep : Option (BitVec 32 × BitVec 32) := none
  deriving DecidableEq, Repr

/-- A soft-maximum row state (R128 to R130): the running maximum M as an exact sum of terms, h, the seven bins, what
has been seen, and the scale and reciprocal of its passes. -/
structure SRow where
  empty : Bool := true
  sawNan : Bool := false
  sawInf : Bool := false
  m : List (Int × Int) := []
  h : Int := 0
  bins : List Nat := [0, 0, 0, 0, 0, 0, 0]
  beta : Option (BitVec 32) := none
  q : Option (BitVec 32) := none
  deriving DecidableEq, Repr

/-- The sieve list (R135, R221): codes and positions in rank order, and what the next instruction needs. -/
structure Sieve where
  entries : List (BitVec 32 × BitVec 32) := []
  k : Nat := 0
  dir : Bool := false
  fmt : BitVec 4 := 0
  zero : Nat := 0
  fed : Nat := 0
  live : Bool := false
  deriving DecidableEq, Repr

/-- A sprinkler (R138). -/
structure Sprinkler where
  bound : Bool := false
  seed : W64 := 0
  stream : W64 := 0
  ctr : BitVec 128 := 0
  deriving DecidableEq, Repr

/-- A bank of coefficient and seam tables: its image and the image's digest (R142, R143). DESIGN CHOICE, unsafe: log
entry 7. -/
structure TBank where
  image : List Byte := []
  digest : BitVec 256 := 0
  poison : Bool := false
  deriving DecidableEq, Repr

/-- A range record (R153, Table 7.4). -/
structure RangeRec where
  maxSig : Nat := 0
  maxExp : Int := 0
  minSig : Nat := 0
  minExp : Int := 0
  nonzero : Nat := 0
  nan : Nat := 0
  inf : Nat := 0
  deriving DecidableEq, Repr

/-! ## Sequencer (chapters 8 and 10) -/

/-- A loop in progress (R177). -/
structure LoopFrame where
  start : Nat := 0
  stop : Nat := 0
  count : Nat := 0
  iter : Nat := 0
  deriving DecidableEq, Repr

/-- A synchronisation wait of one bed (R174, R250). -/
structure Wait where
  index : Nat := 0
  /-- 0 SDWAIT, 1 LRECV, 2 CWAIT, 3 CBAR -/
  kind : Nat := 0
  link : Nat := 0
  flow : Nat := 0
  coll : Nat := 0
  flows : BitVec 16 := 0
  target : Nat := 0
  deadline : Nat := 0
  /-- the iterations of the loops around it -/
  iters : List Nat := []
  /-- the A-cycle of its issue -/
  start : Nat := 0
  /-- the A-cycle in which the condition has been observed, by its deadline -/
  met : Option Nat := none
  deriving DecidableEq, Repr

/-- The sequencer of a bed: state (0 idle, 1 loaded, 2 sown, 3 running, 4 sync wait, 5 ended, 6 stopped), index of the
last instruction issued, index of the next, loops from the outermost, issues and executions per index (R170, R196). -/
structure Seq where
  state : Nat := 0
  index : Nat := 0
  pc : Nat := 0
  loops : List LoopFrame := []
  /-- the iterations of the loops around the last instruction issued, from the outermost (R196) -/
  iters : List Nat := []
  issues : Tbl Nat := []
  execs : Tbl Nat := []
  varied : Bool := false
  sowTick : W64 := 0
  /-- A-cycle count of the clock at A-cycle 0, once sown since loading (R459) -/
  sowCycle : Option Nat := none
  /-- the A-cycle from which the next gap counts: of the last issue, of A-cycle 0, or of a wait's end (R170, R174) -/
  last : Nat := 0
  /-- the static schedule's A-cycle at that one, and the waits ended since A-cycle 0 (R170, R234) -/
  reckoned : Nat := 0
  seg : Nat := 0
  waitCycles : BitVec 32 := 0
  waits : BitVec 32 := 0
  wait : Option Wait := none
  /-- LCOLL executions, CWAITs ended and results landed, per collective number (R236) -/
  collStarted : Tbl Nat := []
  collEnded : Tbl Nat := []
  collLanded : Tbl Nat := []
  /-- the A-cycle in which the last result's last byte lands, per collective number (R233) -/
  collAt : Tbl Nat := []
  /-- LRECV executions whose wait has ended, and messages landed for them, per instruction index (R235) -/
  recvEnded : Tbl Nat := []
  recvLanded : Tbl Nat := []
  /-- the A-cycles in which the last such wait ended and the last such message's last byte lands, per index (R233, R235) -/
  recvOpen : Tbl Nat := []
  recvAt : Tbl Nat := []
  deriving DecidableEq, Repr

/-- The list and tables of the plot that a loaded bed runs. -/
structure Job where
  plot : Nat := 0
  list : Nat := 0
  deriving DecidableEq, Repr

/-- A walker's word in the landing stage of a bed: the page of its order, its address in the bed, and, of a landing, its bytes (R307). -/
structure Staged where
  walker : Nat
  page : Nat
  off : Nat
  bytes : List Byte
  deriving DecidableEq, Repr

/-- One physical bed. DESIGN CHOICE, unsafe: log entry 6. -/
structure Bed where
  /-- GRD_BED_b (Table 16.7): 0 in service, 1 spare, 2 fenced, 3 testing -/
  admin : Nat := 0
  logical : Nat := 0
  mapped : Bool := false
  bistPass : Bool := false
  fenceTick : BitVec 48 := 0
  /-- a requested fence: the tick after which it takes effect, its remap bit; then in effect until it completes -/
  fencePending : Option (Nat × Bool) := none
  fencing : Option Bool := none
  /-- a fence in effect: sessions returned to parked and the first one's index, for its report (R379) -/
  fenceSessions : Nat := 0
  fenceFirst : Nat := 0
  /-- the logical number a fenced bed held, for unfence (R381) -/
  former : Option Nat := none
  /-- a self-test in progress: start tick and unfence bit (R381) -/
  testing : Option (Nat × Bool) := none
  job : Option Job := none
  store : Tbl (BitVec 128) := []
  seq : Seq := {}
  mem : Mem := []
  /-- a fence has lost the memory's contents (R22, R258) -/
  lost : Bool := false
  /-- ECC condition of a granule: 0 clean, p + 1 a correctable error at codeword position p, 138 uncorrectable (R255) -/
  ecc : Tbl Nat := []
  scrubLine : Nat := 0
  scrubPending : Option Nat := none
  /-- the loaded copy of a tensor's quantisation word, once a shift pick has changed it (R187) -/
  quant : Tbl (Option W64) := []
  /-- picks that have not reached the copy: the A-cycle at which each does, the tensor and the word (R157, R224) -/
  picks : List (Nat × Nat × W64) := []
  /-- walkers' words that wait for idle banks, oldest first, up to 16 (R307) -/
  stage : List Staged := []
  arrays : Tbl MArray := []
  vregs : Tbl VReg := []
  masks : Tbl W64 := []
  /-- writes of vector and of mask registers by when they land, with the lanes they write (R201) -/
  vLand : Tbl (List (Nat × W64)) := []
  kLand : Tbl (List (Nat × W64)) := []
  stats : Tbl Stat := []
  rows : Tbl SRow := []
  sieve : Sieve := {}
  sprinklers : Tbl Sprinkler := []
  tbank : Bool := false
  tbank0 : TBank := {}
  tbank1 : TBank := {}
  tbReady : Bool := false
  /-- A-cycles until which the special-function units are held, a soft-maximum pass runs, and a reload runs (R145) -/
  sfTill : Nat := 0
  smaxTill : Nat := 0
  reloadTill : Nat := 0
  /-- the A-cycle in which the last drain, store or transfer issued so far finishes (R194) -/
  busyTill : Nat := 0
  ranges : Tbl RangeRec := []
  /-- rain barrels by base address: the reduction that wrote each (R212, R213) -/
  barrels : Tbl (Option Redn) := []
  gauges : Tbl W64 := []
  entropy : List W64 := []
  mulch : BitVec 8 := 0
  /-- registers stored as words, by offset in the bed window -/
  regs : Tbl W64 := []
  deriving DecidableEq, Repr

end Sys2Proof.Machine
end

