-- ==== Sys2Proof/Machine/Flags.lean ====
section
/-! DEFINITION. What a bed records beside its results: conversion counters (R26, R165), range records (R153, R154),
tile flags (R64, R65), special-function flags (R144), error latches (R253, R255, R256) and rain gauges (R459). -/

namespace Sys2Proof.Machine

/-- A field of a 64-bit word. -/
def wfld (w : W64) (lo n : Nat) : Nat := bits w.toNat lo n

/-- A 64-bit word with a field replaced. -/
def wset (w : W64) (lo n v : Nat) : W64 := BitVec.ofNat 64 (setBits w.toNat lo n v)

/-- A field of a word made larger, stopping at its largest value. -/
def wsat (w : W64) (lo n k : Nat) : W64 := wset w lo n (satAdd n (wfld w lo n) k)

/-- What an instruction tells the rest of the module, beside its bed's new state. -/
inductive BOut where
  /-- an event of the run record (R399) -/
  | event (kind : Nat) (payload : List Byte)
  /-- a report with the bed as the unit blamed (R383) -/
  | report (cause : Nat) (detail : Nat)
  /-- a stop of the plot at this instruction (R228, R249) -/
  | halt (code : Nat) (array : Nat) (addr : Nat)
  deriving DecidableEq, Repr

/-- A bed's stored register word; BED_MEM_SCRUB resets with its enable set (Table 11.7). -/
def bedReg0 (off : Nat) : W64 := if off = 0x818 then 1 else 0

def Bed.reg (b : Bed) (off : Nat) : W64 := tget bedReg0 b.regs off

def Bed.setReg (b : Bed) (off : Nat) (v : W64) : Bed := { b with regs := tset bedReg0 b.regs off v }

/-! ## Conversion counters -/

/-- One conversion event counted (R26, R165, Table 7.5). -/
def Bed.count (b : Bed) (c : Cnv) (n : Nat) : Bed :=
  if n = 0 then b
  else match c with
    | .none => b
    | .invalid => b.setReg 0xC00 (wsat (b.reg 0xC00) 0 32 n)
    | .overflow => b.setReg 0xC00 (wsat (b.reg 0xC00) 32 32 n)
    | .underflow => b.setReg 0xC08 (wsat (b.reg 0xC08) 0 32 n)

/-- The events of many conversions (R166: no event is lost to a coincidence). -/
def Bed.countAll (b : Bed) (cs : List Cnv) : Bed :=
  ((b.count .invalid (cs.count .invalid)).count .overflow (cs.count .overflow)).count .underflow (cs.count .underflow)

/-- Escape candidates without a slot (R159). -/
def Bed.countEsc (b : Bed) (n : Nat) : Bed := if n = 0 then b else b.setReg 0xC08 (wsat (b.reg 0xC08) 32 16 n)

/-- A clamped shift pick (R157). -/
def Bed.countClamp (b : Bed) : Bed := b.setReg 0xC08 (wsat (b.reg 0xC08) 48 16 1)

/-- A gauge advanced, modulo 2^64 (R459). DEDUCED, unsafe: log entry 28. -/
def Bed.gauge (b : Bed) (g n : Nat) : Bed :=
  { b with gauges := tset (fun _ => 0) b.gauges g (tget (fun _ => 0) b.gauges g + BitVec.ofNat 64 n) }

/-! ## Range records -/

/-- Entry f of the antilog table: 2^(f/512) rounded to 24 significand bits, as an integer times 2^-23 (R103). -/
def antilog (f : Nat) : Int := exRound (exPow f) 23

/-- The record's view of a magnitude: a 32-bit significand with its leading 1 at bit 31, and an exponent. Exact
values are truncated; a logarithmic value takes its antilog entry (R153). -/
def magOf (x : Ex) : Nat × Int :=
  let a := exAbs x
  match exNorm a with
  | [(_, q)] =>
    if q % 512 = 0 then ((exFloor a (31 - exLead a)).1.toNat, exLead a)
    else ((antilog (q % 512).toNat).toNat * 256, q / 512)
  | _ => ((exFloor a (31 - exLead a)).1.toNat, exLead a)

/-- Whether magnitude (s, e) lies below (t, f). -/
def magLt (s : Nat) (e : Int) (t : Nat) (f : Int) : Bool := decide (e < f) || (decide (e = f) && decide (s < t))

/-- One element taken into a record (R153, R154); under qp1_compat infinity codes have decoded as NaN (R167). -/
def RangeRec.add (r : RangeRec) (v : Val) : RangeRec :=
  match v with
  | .nan => { r with nan := satAdd 32 r.nan 1 }
  | .inf _ => { r with inf := satAdd 32 r.inf 1 }
  | .fin x =>
    if exNorm x = [] then r
    else
      let m := magOf x
      let up := r.nonzero == 0 || magLt r.maxSig r.maxExp m.1 m.2
      let dn := r.nonzero == 0 || magLt m.1 m.2 r.minSig r.minExp
      { r with maxSig := if up then m.1 else r.maxSig, maxExp := if up then m.2 else r.maxExp,
               minSig := if dn then m.1 else r.minSig, minExp := if dn then m.2 else r.minExp,
               nonzero := satAdd 40 r.nonzero 1 }

/-- Two records merged: the larger max, the smaller min, the sums of the counts (R154). -/
def RangeRec.merge (r q : RangeRec) : RangeRec :=
  let up := q.nonzero != 0 && (r.nonzero == 0 || magLt r.maxSig r.maxExp q.maxSig q.maxExp)
  let dn := q.nonzero != 0 && (r.nonzero == 0 || magLt q.minSig q.minExp r.minSig r.minExp)
  { maxSig := if up then q.maxSig else r.maxSig, maxExp := if up then q.maxExp else r.maxExp,
    minSig := if dn then q.minSig else r.minSig, minExp := if dn then q.minExp else r.minExp,
    nonzero := satAdd 40 r.nonzero q.nonzero, nan := satAdd 32 r.nan q.nan, inf := satAdd 32 r.inf q.inf }

/-- The 32 bytes of a record (Table 7.4). -/
def RangeRec.toBytes (r : RangeRec) : List Byte :=
  leBytes 4 r.maxSig ++ leBytes 2 (toTwos 16 r.maxExp) ++ zeros 2 ++ leBytes 4 r.minSig ++
  leBytes 2 (toTwos 16 r.minExp) ++ zeros 2 ++ leBytes 5 r.nonzero ++ zeros 3 ++ leBytes 4 r.nan ++ leBytes 4 r.inf

/-- The record that 32 bytes hold (Table 7.4). -/
def RangeRec.ofBytes (bs : List Byte) : RangeRec :=
  { maxSig := fieldAt bs 0 4, maxExp := signed 16 (fieldAt bs 4 2), minSig := fieldAt bs 8 4,
    minExp := signed 16 (fieldAt bs 12 2), nonzero := fieldAt bs 16 5, nan := fieldAt bs 24 4, inf := fieldAt bs 28 4 }

def Bed.range (b : Bed) (slot : Nat) : RangeRec := tget (fun _ => {}) b.ranges slot

def Bed.setRange (b : Bed) (slot : Nat) (r : RangeRec) : Bed :=
  { b with ranges := tset (fun _ => {}) b.ranges slot r }

/-! ## Flags -/

/-- The word of a tile flag (Table 3.7): flagged, more, cause, row, column, tile, count, instruction index. -/
def tflagWord (cause : BitVec 3) (row col : Nat) (tile : Bool) (count index : Nat) : W64 :=
  BitVec.ofNat 64 (1 + cause.toNat * 4 + row * 2 ^ 5 + col * 2 ^ 11 + b2n tile * 2 ^ 17 + count * 2 ^ 18 + index * 2 ^ 31)

/-- The sticky bit of qp1_compat (R66). -/
def Bed.setSticky (b : Bed) : Bed := b.setReg 0x1420 (wset (b.reg 0x1420) 0 1 1)

/-- A flagged drain: the first latches, a later one sets only `more` (R65); its own word goes into the run record
(R64). Under qp1_compat only compat_sticky sets (R66). -/
def Bed.tileFlag (b : Bed) (compat : Bool) (a : Nat) (w : W64) : Bed × List BOut :=
  if compat then (b.setSticky, [])
  else
    let off := 0x1400 + 8 * a
    let old := b.reg off
    (b.setReg off (if wfld old 0 1 = 1 then wset old 1 1 1 else w), [.event 0x04 (leBytes 8 w.toNat ++ leBytes 1 a)])

/-- The first non-finite result of a special-function, gated, LNS or soft-maximum instruction, latched in VEC_SFLAG; a
later event sets only `more` (R144). -/
def Bed.sflag (b : Bed) (compat : Bool) (cause element index : Nat) : Bed × List BOut :=
  if compat then (b.setSticky, [])
  else
    let old := b.reg 0x2008
    let w : W64 := BitVec.ofNat 64 (1 + cause * 4 + (element % 2 ^ 23) * 2 ^ 5 + index * 2 ^ 28)
    let v := if wfld old 0 1 = 1 then wset old 1 1 1 else w
    (b.setReg 0x2008 v, [.event 0x05 (leBytes 8 w.toNat)])

/-! ## Error latches -/

/-- A corrected granule: counted, its address and bit position latched if none is (R255). -/
def Bed.correct (b : Bed) (granule position : Nat) : Bed :=
  let b := b.setReg 0x800 (wsat (b.reg 0x800) 0 32 1)
  if wfld (b.reg 0x808) 0 1 = 1 then b
  else b.setReg 0x808 (BitVec.ofNat 64 (1 + (16 * granule) * 2 + position * 2 ^ 26))

/-- An uncorrectable granule: counted, the first address latched (R253, R256, R257). -/
def Bed.uncorrect (b : Bed) (granule : Nat) (byScrub : Bool) (index : Nat) : Bed :=
  let b := b.setReg 0x800 (wsat (b.reg 0x800) 32 16 1)
  if wfld (b.reg 0x810) 0 1 = 1 then b
  else b.setReg 0x810 (BitVec.ofNat 64
    (1 + (16 * granule) * 2 + b2n byScrub * 2 ^ 26 + (if byScrub then 0 else index) * 2 ^ 27))

/-- The ECC condition of a granule: 0 clean, p + 1 correctable at position p, 138 uncorrectable. -/
def Bed.eccAt (b : Bed) (g : Nat) : Nat := tget (fun _ => 0) b.ecc g

def Bed.setEcc (b : Bed) (g c : Nat) : Bed := { b with ecc := tset (fun _ => 0) b.ecc g c }

end Sys2Proof.Machine
end

