-- ==== Sys2Proof/Machine/Operands.lean ====
section
/-! DEFINITION. Operands of bed instructions: tensor references and walks (R197 to R199), bed memory with its error
code (R251 to R256), the load grader and the store grader (R146, R154, R158 to R161). -/

namespace Sys2Proof.Machine

/-- What a bed instruction sees of its place: the bed, its plot's program and list, its index, the iteration of each
enclosing loop, and its execution count since sowing. -/
structure Ctx where
  log : Nat := 0
  phys : Nat := 0
  plot : Nat := 0
  prog : Program := {}
  list : IList := {}
  index : Nat := 0
  iters : List Nat := []
  exec : Nat := 0
  /-- the A-cycle of the issue -/
  cyc : Nat := 0
  deriving DecidableEq, Repr

/-! ## References -/

/-- The tensor descriptor of an index (R185). -/
def Ctx.tensor (c : Ctx) (i : Nat) : Tensor := c.prog.tensors.getD i {}

/-- The coordinates at which a walk's region begins (R198); entry 0 is implied and is the origin. -/
def walkCoords (walks : List Walk) (iters : List Nat) (w : Nat) : List Nat :=
  if w = 0 then [0, 0, 0, 0]
  else
    let e := walks.getD (w - 1) {}
    (List.range 4).map fun d =>
      ((e.origin.getD d 0 : Int) +
        ((List.range 4).map fun l => (iters.getD l 0 : Int) * (e.steps.getD l []).getD d 0).foldl (· + ·) 0).toNat

/-- A 24-bit reference: tensor index in [11:0], walk index in [23:12] (R197). -/
structure Opnd where
  ti : Nat := 0
  t : Tensor := {}
  at_ : List Nat := [0, 0, 0, 0]
  deriving DecidableEq, Repr

def Ctx.opnd (c : Ctx) (r : BitVec 24) : Opnd :=
  { ti := r.toNat % 4096, t := c.tensor (r.toNat % 4096), at_ := walkCoords c.list.walks c.iters (r.toNat / 4096) }

/-- A tensor named without a walk: it uses the walk of the instruction's src reference (Table 9.9). -/
def Ctx.opndLike (c : Ctx) (i : BitVec 12) (src : BitVec 24) : Opnd :=
  { ti := i.toNat, t := c.tensor i.toNat, at_ := (c.opnd src).at_ }

/-- The operand moved by dx along dimension 0 and dy along dimension 1. -/
def Opnd.shift (o : Opnd) (dx dy : Nat) : Opnd :=
  { o with at_ := [o.at_.getD 0 0 + dx, o.at_.getD 1 0 + dy, o.at_.getD 2 0, o.at_.getD 3 0] }

/-- The bed's loaded quantisation word of a tensor at an issue: with every pick that has reached it by then (R148, R157,
R187). -/
def Ctx.quant (c : Ctx) (b : Bed) (i : Nat) : W64 :=
  match (b.picks.filter fun e => decide (e.1 ≤ c.cyc) && e.2.1 == i).getLast? with
  | some e => e.2.2
  | none => (tget (fun _ => none) b.quant i).getD (c.tensor i).quant

/-- delta of R147. -/
def qDelta (q : W64) : Int := signed 6 (wfld q 0 6)

/-- The shift t = B + d of a tensor (R147). -/
def Ctx.shiftOf (c : Ctx) (b : Bed) (i : Nat) : Int := c.prog.baseShift + qDelta (c.quant b i)

/-- The zero point of a tensor: its own for F8, 0 otherwise (R148). -/
def Ctx.zeroOf (c : Ctx) (b : Bed) (i : Nat) : Int :=
  if fmtOf (c.tensor i).fmt = .f8 then (wfld (c.quant b i) 6 8 : Int) else 0

/-! ## Places of elements -/

/-- An element's number in the tensor's element order: dimension 0 fastest (R160, R396). -/
def Opnd.elem (o : Opnd) : Nat :=
  o.at_.getD 0 0 + o.t.ext.getD 0 1 * (o.at_.getD 1 0 + o.t.ext.getD 1 1 * (o.at_.getD 2 0 + o.t.ext.getD 2 1 * o.at_.getD 3 0))

/-- The coordinates of an element number. -/
def Tensor.coords (t : Tensor) (i : Nat) : List Nat :=
  let e0 := t.ext.getD 0 1
  let e1 := t.ext.getD 1 1
  let e2 := t.ext.getD 2 1
  [i % e0, i / e0 % e1, i / e0 / e1 % e2, i / e0 / e1 / e2]

/-- Elements of a tensor. -/
def Tensor.size (t : Tensor) : Nat := t.ext.getD 0 1 * t.ext.getD 1 1 * t.ext.getD 2 1 * t.ext.getD 3 1

/-- The lines of a tensor along dimension 0, in element order. -/
def tensorLines (t : Tensor) : List Opnd :=
  (List.range (t.ext.getD 1 1 * t.ext.getD 2 1 * t.ext.getD 3 1)).map fun i => { t, at_ := t.coords (i * t.ext.getD 0 1) }

/-- The bit of bed memory at which an element begins: dimension 0 packed, the others by byte strides (R24, R185). -/
def Opnd.bitPos (o : Opnd) : Nat :=
  8 * (o.t.base + o.at_.getD 1 0 * o.t.stride.getD 0 0 + o.at_.getD 2 0 * o.t.stride.getD 1 0 +
    o.at_.getD 3 0 * o.t.stride.getD 2 0) + o.at_.getD 0 0 * (fmtOf o.t.fmt).width

/-- The byte address of an operand's first element. -/
def Opnd.addr (o : Opnd) : Nat := o.bitPos / 8

/-- The bytes that n consecutive elements along dimension 0 lie in: address and length. -/
def Opnd.span (o : Opnd) (n : Nat) : Nat × Nat :=
  (o.addr, ceilDiv (o.bitPos % 8 + n * (fmtOf o.t.fmt).width) 8)

/-! ## Bed memory -/

/-- The listed error conditions in the lines of some byte ranges, rising: a port reads a whole line (R252, R256). -/
def Bed.hits (b : Bed) (rs : List (Nat × Nat)) : List (Nat × Nat) :=
  b.ecc.filter fun e => rs.any fun r => r.2 != 0 && decide (r.1 / 64 ≤ e.1 / 4) && decide (e.1 / 4 ≤ (r.1 + r.2 - 1) / 64)

/-- Reading byte ranges: correctable errors are corrected and counted, uncorrectable ones counted and latched, and the
first of them is named by its address (R255, R256). The memory itself is unchanged. A line that an instruction goes over in
several A-cycles is taken as read once. DESIGN CHOICE, unsafe: log entry 68. -/
def Bed.touch (b : Bed) (index : Nat) (rs : List (Nat × Nat)) : Bed × Option Nat :=
  (b.hits rs).foldl
    (fun s e =>
      if e.2 < 138 then (s.1.correct e.1 (e.2 - 1), s.2)
      else (s.1.uncorrect e.1 false index, if s.2.isSome then s.2 else some (16 * e.1)))
    (b, none)

/-- A write of bytes at an address; a mask other than 0xFF belongs to a single byte of which only those bits change. -/
structure BW where
  addr : Nat
  bytes : List Byte
  mask : Byte := 0xFF
  deriving DecidableEq, Repr

/-- Writes to neighbouring bytes joined. -/
def joinBW : List BW → List BW
  | [] => []
  | w :: ws =>
    match joinBW ws with
    | [] => [w]
    | v :: vs =>
      if w.mask = 0xFF ∧ v.mask = 0xFF ∧ w.addr + w.bytes.length = v.addr then
        { addr := w.addr, bytes := w.bytes ++ v.bytes } :: vs
      else w :: v :: vs

/-- One write applied to a memory: bits outside the mask keep their contents (R24). -/
def applyBW (m : Mem) (w : BW) : Mem :=
  if w.mask = 0xFF then mwrite 0 m w.addr w.bytes
  else mwrite 0 m w.addr (w.bytes.map fun v => (mget 0 m w.addr &&& ~~~w.mask) ||| (v &&& w.mask))

/-- Whether writes cover every bit of a byte. -/
def bwCovers (ws : List BW) (a : Nat) : Bool :=
  (ws.filter fun w => decide (w.addr ≤ a) && decide (a < w.addr + w.bytes.length)).foldl (fun (m : Byte) w => m ||| w.mask) 0 == 0xFF

/-- Whether writes touch a granule, and whether they cover it whole. -/
def bwHits (ws : List BW) (g : Nat) : Bool := ws.any fun w => overlaps (16 * g) 16 w.addr w.bytes.length
def bwWhole (ws : List BW) (g : Nat) : Bool := (List.range 16).all fun i => bwCovers ws (16 * g + i)

/-- A write without its bytes in suppressed granules. -/
def bwWithout (bad : List Nat) (w : BW) : List BW :=
  ((enumFrom 0 w.bytes).filter fun e => !bad.contains ((w.addr + e.1) / 16)).map fun e =>
    { addr := w.addr + e.1, bytes := [e.2], mask := w.mask }

/-- Whether writes touch a line, and whether they cover a granule of it in part, so that the line is read and written with new
check bits (R253). A masked store counts as partial in every granule it touches. -/
def bwLine (ws : List BW) (l : Nat) : Bool := ws.any fun w => overlaps (64 * l) 64 w.addr w.bytes.length
def bwPart (ws : List BW) (masked : Bool) (g : Nat) : Bool := bwHits ws g && (masked || !bwWhole ws g)
def bwReads (ws : List BW) (masked : Bool) (l : Nat) : Bool := (upFrom (4 * l) 4).any (bwPart ws masked)

/-- What writes do to one error condition: a granule written whole gets new check bits; a partial write of an uncorrectable
granule is suppressed, counted and reported; a correctable granule of a line that a partial write reads is corrected, and the
line is written with new check bits (R253). DEDUCED, unsafe: log entry 68. -/
def Bed.mend (ws : List BW) (masked : Bool) (index : Nat) (s : Bed × List BOut) (e : Nat × Nat) : Bed × List BOut :=
  if bwHits ws e.1 && !bwPart ws masked e.1 then (s.1.setEcc e.1 0, s.2)
  else if 138 ≤ e.2 then
    if bwPart ws masked e.1 then (s.1.uncorrect e.1 false index, s.2 ++ [.report 0x88 (16 * e.1)]) else s
  else if bwReads ws masked (e.1 / 4) then ((s.1.correct e.1 (e.2 - 1)).setEcc e.1 0, s.2)
  else s

/-- Writing bed memory (R253). A write to a line that the scrubber has read and not written back drops the write-back (R257).
-/
def Bed.put (b : Bed) (index : Nat) (ws : List BW) (masked : Bool) : Bed × List BOut :=
  let hit := b.ecc.filter fun e => bwLine ws (e.1 / 4)
  let bad := (hit.filter fun e => decide (138 ≤ e.2) && bwPart ws masked e.1).map (·.1)
  let s := hit.foldl (Bed.mend ws masked index) (b, [])
  let ws' := if bad = [] then joinBW ws else joinBW (ws.flatMap (bwWithout bad))
  ({ s.1 with
     mem := ws'.foldl applyBW s.1.mem
     scrubPending := s.1.scrubPending.filter fun l => !bwLine ws l }, s.2)

/-- Writes made one after another. -/
def Bed.puts (b : Bed) (index : Nat) (wss : List (List BW)) (masked : Bool) : Bed × List BOut :=
  wss.foldl (fun s ws => ((s.1.put index ws masked).1, s.2 ++ (s.1.put index ws masked).2)) (b, [])

/-- Plain bytes written to bed memory. -/
def Bed.putBytes (b : Bed) (index addr : Nat) (bs : List Byte) : Bed × List BOut := b.put index [{ addr, bytes := bs }] false

/-- Plain bytes of bed memory. -/
def Bed.bytes (b : Bed) (addr n : Nat) : List Byte := mread 0 b.mem addr n

/-! ## The load grader -/

/-- The codes of n consecutive elements along dimension 0 (R24). -/
def Bed.codes (b : Bed) (o : Opnd) (n : Nat) : List Nat :=
  let w := (fmtOf o.t.fmt).width
  let v := leNat (b.bytes (o.span n).1 (o.span n).2)
  (List.range n).map fun i => bits v (o.bitPos % 8 + i * w) w

/-- The code of one element by its number. -/
def Bed.codeNo (b : Bed) (t : Tensor) (i : Nat) : Nat := (b.codes { t, at_ := t.coords i } 1).headD 0

/-- The side-list address of block k of a T8X tensor (R160). -/
def sideAddr (q : W64) (k : Nat) : Nat := 64 * wfld q 34 19 + 16 * k

/-- The byte ranges that reading n elements touches: the codes, a C4 codebook, and for T8X the whole blocks' codes up
to the last element and their side lists (R161). -/
def Ctx.ranges (c : Ctx) (b : Bed) (o : Opnd) (n : Nat) : List (Nat × Nat) :=
  match fmtOf o.t.fmt with
  | .c4 => [o.span n, (o.t.codebook, 32)]
  | .t8x =>
    let k0 := o.elem / 256
    let k1 := (o.elem + n - 1) / 256
    ((upFrom (256 * k0) (o.elem - 256 * k0)).map fun i => ({ t := o.t, at_ := o.t.coords i : Opnd }.span 1)) ++
      [o.span n] ++ (upFrom k0 (k1 + 1 - k0)).map fun k => (sideAddr (c.quant b o.ti) k, 16)
  | _ => [o.span n]

/-- The values of n consecutive elements (R33, R40, R45), with the invalid event of an escape without a slot. -/
def Ctx.vals (c : Ctx) (b : Bed) (o : Opnd) (n : Nat) : List (Val × Cnv) :=
  match fmtOf o.t.fmt with
  | .c4 => (b.codes o n).map fun i =>
      (decodeEl c.prog.compat .t16 0 (leNat (b.bytes (o.t.codebook + 2 * i) 2)), .none)
  | .t8x =>
    let e0 := o.elem
    let before := (upFrom (256 * (e0 / 256)) (e0 % 256)).map (b.codeNo o.t)
    let cs := before ++ b.codes o n
    (List.range n).map fun i =>
      let e := e0 + i
      let code := cs.getD (e0 % 256 + i) 0
      if code = 0x80 then
        let from_ := if e / 256 = e0 / 256 then 0 else 256 * (e / 256) - 256 * (e0 / 256)
        let j := ((cs.drop from_).take (e % 256)).count 0x80
        if j ≤ 3 then
          (decodeT false (leNat (b.bytes (sideAddr (c.quant b o.ti) (e / 256) + 4 * j) 4)) 32, .none)
        else (.nan, .invalid)
      else (decodeT false code 8, .none)
  | f => (b.codes o n).map fun code => (decodeEl c.prog.compat f (c.zeroOf b o.ti) code, .none)

/-- A range record updated with values, where the tensor's quantisation word asks for it (R154). DEDUCED, unsafe: log
entry 27. -/
def Ctx.record (c : Ctx) (b : Bed) (ti : Nat) (vs : List Val) : Bed :=
  let q := c.quant b ti
  if wfld q 33 1 = 1 then b.setRange (wfld q 30 3) (vs.foldl RangeRec.add (b.range (wfld q 30 3))) else b

/-- Whether a code of format f passes unchanged into format g: the diagonal of Table 2.6, but for F8 between different
zero points and for T16 and T32 under qp1_compat, where infinity codes are NaN (R45, R47). DEDUCED, unsafe: log entry
26. -/
def sameCode (compat : Bool) (f : Fmt) (zf : Int) (g : Fmt) (zg : Int) : Bool :=
  decide (f = g) && !(decide (f = .f8) && zf != zg) && !(compat && (decide (f = .t16) || decide (f = .t32))) &&
    !decide (f = .t8x)

/-- What a load gives: the bed, the address of an uncorrectable granule if there was one, and the codes. -/
structure Loaded where
  bed : Bed
  bad : Option Nat
  codes : List Nat
  deriving Repr

/-- n elements brought into a format by the load grader, with zero point z for F8: read, recorded with their source
values, converted once and counted (R146, R154, R25, R26). DEDUCED, unsafe: log entry 27. -/
def Ctx.load (c : Ctx) (b : Bed) (o : Opnd) (n : Nat) (g : Fmt) (z : Int) : Loaded :=
  let r := b.touch c.index (c.ranges b o n)
  match r.2 with
  | some a => ⟨r.1, some a, []⟩
  | none =>
    let f := fmtOf o.t.fmt
    let vs := c.vals r.1 o n
    let b := c.record r.1 o.ti (vs.map (·.1))
    if sameCode c.prog.compat f (c.zeroOf b o.ti) g z then ⟨b, none, b.codes o n⟩
    else
      let es := vs.map fun v => (encodeEl c.prog.compat g z v.1, v.2)
      ⟨b.countAll (es.map fun e => if e.2 = .none then e.1.2 else e.2), none, es.map (·.1.1)⟩

/-- n elements read for their exact values, no conversion being made of them (R118, R128): recorded, not converted.
DEDUCED, unsafe: log entry 26. -/
def Ctx.loadVals (c : Ctx) (b : Bed) (o : Opnd) (n : Nat) : Bed × Option Nat × List Val :=
  let r := b.touch c.index (c.ranges b o n)
  match r.2 with
  | some a => (r.1, some a, [])
  | none =>
    let vs := c.vals r.1 o n
    ((c.record r.1 o.ti (vs.map (·.1))).countAll (vs.map (·.2)), none, vs.map (·.1))

/-! ## The store grader -/

/-- An element to be stored: its place, its exact value, its code where it passes unchanged, and whether it is
written (a masked lane is not). -/
structure SItem where
  o : Opnd
  v : Val
  code : Option Nat := none
  keep : Bool := true
  /-- what the element's reading has counted already: one counter at most for each element (R26) -/
  pre : Cnv := .none
  /-- of a result that no code holds, for which v stands: its T32 and its T8 code for a T8X store (R159) -/
  both : Option ((Nat × Cnv) × Nat × Cnv) := none
  deriving DecidableEq, Repr

/-- The write of one element's code (R24). -/
def elemBW (o : Opnd) (code : Nat) : BW :=
  let w := (fmtOf o.t.fmt).width
  if w < 8 then
    { addr := o.addr, bytes := [BitVec.ofNat 8 (code * 2 ^ (o.bitPos % 8))],
      mask := BitVec.ofNat 8 ((2 ^ w - 1) * 2 ^ (o.bitPos % 8)) }
  else { addr := o.addr, bytes := leBytes (w / 8) code }

/-- Whether a value is an escape candidate: NaN, an infinity, or a finite nonzero magnitude outside the window (R158). -/
def isEscape (q : W64) (v : Val) : Bool :=
  match v with
  | .fin x =>
    exNorm x != [] &&
      (!exLt (exAbs x) (exDy 1 (signed 8 (wfld q 22 8))) || exLt (exAbs x) (exDy 1 (signed 8 (wfld q 14 8))))
  | _ => true

/-- What a T8X store has made so far: the block, its slots used, code writes, side writes, counters and stored values. -/
structure T8XAcc where
  block : Option Nat := none
  slots : List Nat := []
  ws : List BW := []
  side : List (Nat × List Nat) := []
  cnv : List Cnv := []
  esc : Nat := 0
  vals : List Val := []
  deriving Repr

/-- One element of a T8X store (R159, R217): a masked lane is encoded like any other, takes its slot, but its code byte
is not written and it counts nowhere. -/
def t8xStep (q : W64) (a : T8XAcc) (s : SItem) : T8XAcc :=
  let k := s.o.elem / 256
  let a := if a.block = some k then a
    else { a with block := some k, slots := [], side := (match a.block with
      | some j => a.side ++ [(j, a.slots)]
      | none => a.side) }
  let emit := fun (a : T8XAcc) (code : Nat) (cs : List Cnv) (esc : Nat) (v : Val) =>
    if s.keep then
      { a with ws := a.ws ++ [elemBW s.o code], cnv := a.cnv ++ (if s.pre = Cnv.none then cs else [s.pre]), esc := a.esc + esc, vals := a.vals ++ [v] }
    else a
  let t32 := match s.both with
    | some e => e.1
    | none => encodeT false 32 s.v
  let t8 := match s.both with
    | some e => e.2
    | none => encodeT false 8 s.v
  if !isEscape q s.v then emit a t8.1 [t8.2] 0 (decodeT false t8.1 8)
  else if a.slots.length < 4 then
    emit { a with slots := a.slots ++ [t32.1] } 0x80 [t32.2] 0 (decodeT false t32.1 32)
  else emit a t8.1 [t8.2] 1 (decodeT false t8.1 8)

/-- The places of masked lanes: their granules are read and merged, no bit of them changes (R217). -/
def maskedBW (items : List SItem) : List BW :=
  (items.filter fun s => !s.keep).map fun s => { addr := s.o.addr, bytes := [0], mask := 0 }

/-- What a store gives: the bed, what it reports, and the values as stored of the elements written. -/
structure Stored where
  bed : Bed
  outs : List BOut
  vals : List Val
  deriving Repr

/-- Elements stored through the store grader in the format of their descriptor, each line of the tensor by a write of its own
(R114, R146, R154, R158 to R160, R217, R253). -/
def Ctx.store (c : Ctx) (b : Bed) (ti : Nat) (items : List SItem) (masked : Bool) : Stored :=
  let t := c.tensor ti
  let f := fmtOf t.fmt
  let q := c.quant b ti
  match f with
  | .t8x =>
    let a := items.foldl (t8xStep q) {}
    let side := match a.block with
      | some j => a.side ++ [(j, a.slots)]
      | none => a.side
    let ws := a.ws ++ side.map fun e =>
      { addr := sideAddr q e.1, bytes := (e.2 ++ List.replicate (4 - e.2.length) 0).flatMap (leBytes 4) : BW }
    let b := ((c.record b ti a.vals).countAll a.cnv).countEsc a.esc
    let r := b.put c.index (ws ++ maskedBW items) masked
    ⟨r.1, r.2, a.vals⟩
  | f =>
    let z := c.zeroOf b ti
    let kept := items.filter (·.keep)
    let es := kept.map fun (s : SItem) => match s.code with
      | some k => (k, s.pre)
      | none => let e := encodeEl c.prog.compat f z s.v; (e.1, if s.pre = Cnv.none then e.2 else s.pre)
    let vals := es.map fun e => decodeEl c.prog.compat f z e.1
    let b := (c.record b ti vals).countAll (es.map (·.2))
    let lines := (kept.zip es).splitBy fun p q => p.1.o.at_.drop 1 == q.1.o.at_.drop 1
    let ws := lines.map fun x => x.map fun p => elemBW p.1.o p.2.1
    let r := b.puts c.index (if masked then [ws.flatten ++ maskedBW items] else ws) masked
    ⟨r.1, r.2, vals⟩

end Sys2Proof.Machine
end

