-- ==== Sys2Proof/Machine/Costs.lean ====
section
/-! DEFINITION. The costs and latencies of Tables 9.4 to 9.11 and 6.5 that both the loader and the bed reckon with. -/

namespace Sys2Proof.Machine

/-- Lines of 64 B that a fill takes in, by 4, 8 or 16 bits a cell (R75). -/
def fillLines (fmt : BitVec 4) : Nat :=
  16 * match fmtOf fmt with
    | .c4 => 4
    | .t16 => 16
    | .l16 => 16
    | .t32 => 16
    | _ => 8

/-- t_fill of R75. -/
def fillCycles (fmt : BitVec 4) (bs : Nat) : Nat := ceilDiv (fillLines fmt) bs

/-- T8X blocks that n elements from an operand's place lie in. -/
def Opnd.blocks (o : Opnd) (n : Nat) : Nat :=
  if fmtOf o.t.fmt = .t8x then (o.elem + n - 1) / 256 + 1 - o.elem / 256 else 0

/-- Bytes of n elements. -/
def Opnd.bytesOf (o : Opnd) (n : Nat) : Nat := (o.span n).2

/-- A-cycles of n elements through b ports, with one more port A-cycle for each T8X block (R161, R208, R217). -/
def loadCycles (bytes blocks b : Nat) : Nat := ceilDiv bytes (64 * b) + ceilDiv blocks b

/-- L of Table 6.5, by function and whether the output is T32. -/
def sfnLatency (func : Nat) (wide : Bool) : Nat :=
  if func = 0x18 ∨ func = 0x19 then 12
  else (if wide then 14 else 10) + (if 0x10 ≤ func then 2 else 0)

/-- The A-cycles of a VLD, a VST or one side of an MCVT (R217). -/
def Opnd.moveCycles (o : Opnd) (n b : Nat) : Nat := loadCycles (o.bytesOf n) (o.blocks n) (max 1 b)

/-- The A-cycles of an MCVT (R218). -/
def mcvtCycles (o q : Opnd) (n b : Nat) : Nat :=
  loadCycles (max (o.bytesOf n) (q.bytesOf n)) (o.blocks n + q.blocks n) (max 1 b)

/-- The claimed slots of a route, rising. -/
def Route.slotList (r : Route) : List Nat := (List.range 64).filter fun i => r.slots.getLsbD i

/-- The A-cycles of a route's next n claimed slots at or after an A-cycle: frame slot s is A-cycle s modulo 64, of the clock
and, a plot being sown at slot 0, of the plot (R238, R261, R262). -/
def Route.departures (r : Route) (c n : Nat) : List Nat :=
  let sl := r.slotList
  if sl = [] then []
  else (((List.range (n + 1)).flatMap fun f => sl.map fun i => 64 * (c / 64 + f) + i).filter fun t => decide (c ≤ t)).take n

/-- The route of a segment in a plot's program (R263). -/
def Program.route (g : Program) (segment : Nat) : Route := (g.routes.find? fun r => r.segment == segment).getD {}

/-- The runner endpoint of a link's port (Table 11.3). -/
def linkEndpoint (l : Nat) : Nat := if l < 12 then 0x90 + l else 0xA0 + (l - 12)

/-- The runner endpoint of a digest engine (Table 11.3). -/
def engineEndpoint (e : Nat) : Nat := [0x9D, 0x9E, 0xAD, 0xAE].getD e 0x9D

/-- The A-cycles in which n words sent at a bed's issue land: their slots, and λ on (R238, R264). -/
def Ctx.dues (c : Ctx) (segment n : Nat) : List Nat :=
  let r := c.prog.route segment
  (r.departures c.cyc n).map (· + r.lambda)

/-- The bed is at work on a drain, a store or a transfer until an A-cycle (R194). DESIGN CHOICE, unsafe: log entry 10.
-/
def Bed.finish (b : Bed) (t : Nat) : Bed := { b with busyTill := max b.busyTill t }

/-- The special-function units are held, and a soft-maximum pass runs, until an A-cycle (R145). -/
def Bed.holdSf (b : Bed) (t : Nat) : Bed := { b with sfTill := max b.sfTill t }
def Bed.holdSmax (b : Bed) (t : Nat) : Bed := { b with smaxTill := max b.smaxTill t }

end Sys2Proof.Machine
end

