-- ==== Sys2Proof/Config.lean ====
section
/-! DEFINITION. What the spec leaves to an implementation, or to documents that are not part of it: constants without a
body, so that nothing can be proved of their values. -/

namespace Sys2Proof.Config

/-- A free value: the n-th one drawn, at a width. DESIGN CHOICE, safe: log entry 1. -/
opaque freeValue (w : Nat) : Nat → BitVec w

/-- Coefficient i of a segment of a table in a bank's image, a signed word with 40 or, on the 32-bit tables, 60 fraction bits
(R120): it depends on the bank's digest, the tables' width, the function by its code, and on whether the table is that of
p(x^2) below 2^-4. The coefficients are in QP2-FT-1, which is not in the spec. DESIGN CHOICE, safe: log entry 24. -/
opaque coef (digest : BitVec 256) (wide : Bool) (func : Nat) (small : Bool) (segment i : Nat) : Int

/-- Of the two integers next to a Gaussian logarithm, whether the module returns the upper one (R126): it depends on the active
table bank's digest, on whether the signs differ and on d. DESIGN CHOICE, safe: log entry 24. -/
opaque gaussUp (digest : BitVec 256) (minus : Bool) (d : Int) : Bool

/-- mu and rho of a statistics entry that has counted no element: the spec states no quotient by a count of 0 (R132). -/
opaque emptyNorm (rho : Bool) : BitVec 32

/-- beta of a soft-maximum entry that only merged items have formed, in a plot whose SMAX1 instructions name several: an item
carries no beta (R129, R220). By bed and instruction. DESIGN CHOICE, safe: log entry 25. -/
opaque mergedBeta (bed index : Nat) : BitVec 32

/-- A-cycles from the start of an LPDDR5 unit's data slot until its bytes can depart on the runner network: the spec gives
no figure for the path between the two (R243, R297). DEDUCED, unsafe: log entry 63. -/
opaque unitDelay : Nat

/-- An error that arises: a bit that flips of a read on its way from an LPDDR5 package, by controller, or a unit whose reads in
the tick cannot be corrected, by the array or by the link (R299); a bit that flips of a stored codeword of bed memory, by physical bed, granule and position, or of a runner word on its
way, by its plot and its place among the plot's words, whether every destination's copy has it, granule and position (R255, R267). -/
inductive Upset where
  | transfer (ctl : Nat)
  | read (unit : Nat) (link : Bool)
  | cell (bed granule position : Nat)
  | wire (plot word : Nat) (shared : Bool) (granule position : Nat)
  deriving DecidableEq, Repr

/-- The error that arises in a tick of the sundial, if one does: the spec says what an error does and not when one arises.
DESIGN CHOICE, safe: log entry 67. -/
opaque upset (tick : Nat) : Option Upset

/-- A byte of a unit's state in a scan, where Table 21.2 does not say how it is laid out: section, unit, offset. -/
opaque scanByte (scan sec unit offset : Nat) : BitVec 8

/-- The module's stepping: A0, A1 or B0 (R2). -/
opaque stepping : Fin 3

/-- Emteler's manufacturer identity (R466). -/
opaque maker : BitVec 11

/-- Emteler's PCI Express vendor identifier (Table 15.1). -/
opaque vendor : BitVec 16

/-- The digest of the boot ROM (R447). -/
opaque romDigest : BitVec 256

/-- Whether an SLH-DSA-SHAKE-256s signature of a message verifies under a 64-byte public key (FIPS 205, R436). DESIGN
CHOICE, safe: log entry 46. -/
opaque slhVerify (key msg sig : List (BitVec 8)) : Bool

/-- The 64-byte public key, and a signature, of the SLH-DSA-SHAKE-256s pair made from 96 bytes (R439). -/
opaque slh256Key (secret : List (BitVec 8)) : List (BitVec 8)
/-- DESIGN CHOICE, safe: log entry 46. -/
opaque slh256Sign (secret msg : List (BitVec 8)) : List (BitVec 8)

/-- The 32-byte public key, and a signature, of the SLH-DSA-SHAKE-128f pair made from 48 bytes (R439). -/
opaque slh128Key (secret : List (BitVec 8)) : List (BitVec 8)
opaque slh128Sign (secret msg : List (BitVec 8)) : List (BitVec 8)

/-- The public key of the Emteler release key, held in boot ROM (Table 20.1). -/
opaque emtelerKey : List (BitVec 8)

/-- The 32 bytes that firmware supplies for an attestation report (Table 20.5). -/
opaque fwClaim : BitVec 256

/-- The k, direction, format and zero point by which a module none of whose beds pushes into a collective of sieve lists ranks them:
the spec gives its program no place for them (R136, R336). A free value: log entry 57. -/
structure RankBy where
  k : Nat
  dir : Bool
  fmt : BitVec 4
  zero : BitVec 8
  deriving Inhabited

opaque relaySieve (digest : BitVec 256) (coll : Nat) : RankBy

/-- The 512 KiB code image that the firmware of the given digest holds for gardener `g`, loaded into its
SRAM at start-up (R369): the firmware's own bytes, which the spec does not give. A free value: log entry 64. -/
opaque gardenerCode (digest : BitVec 256) (g : Nat) : List (BitVec 8)

end Sys2Proof.Config
end

