-- ==== Sys2Proof/Decode.lean ====
section
/-! DEFINITION. The 128-bit instruction words of the beds (R197): their encoder and their decoder, both written from
Tables 9.1 and 9.3 to 9.11 and Tables 10.1 to 10.6. Reserved bits must be zero and reserved opcodes have no
instruction (R197, R200, R230). No row of the table of operations gives bits, so decodeTableWord spells nothing. -/

namespace Sys2Proof

/-- Bits [31:0] of every instruction word: the opcode and the common fields of Table 9.1. -/
def headBits (h : Head) (opcode : BitVec 8) : BitVec 32 :=
  0#6 ++ h.gap ++ h.level ++ h.cond ++ BitVec.ofBool h.varies ++ opcode

/-- The common fields of an instruction word (Table 9.1). -/
def headOf (w : BitVec 128) : Head :=
  ⟨w.getLsbD 8, w.extractLsb' 9 3, w.extractLsb' 12 2, w.extractLsb' 14 12⟩

/-- The instruction word of a bed instruction (R197); none for a command that no instruction list holds. -/
def encodeIns : Instr → Option (BitVec 128)
  | .pset _ h a path mov sta p sem paired =>
      some ((BitVec.ofBool paired ++ sem ++ p ++ sta ++ mov ++ path ++ a ++ headBits h 0x10#8).setWidth 128)
  | .fill _ h a src kn nn bs => some ((bs ++ nn ++ kn ++ src ++ a ++ headBits h 0x11#8).setWidth 128)
  | .cbld _ h a tensor => some ((tensor ++ a ++ headBits h 0x12#8).setWidth 128)
  | .mload _ h a half m0 count kn src bm =>
      some ((bm ++ src ++ kn ++ count ++ m0 ++ BitVec.ofBool half ++ a ++ headBits h 0x13#8).setWidth 128)
  | .swap _ h a => some ((a ++ headBits h 0x14#8).setWidth 128)
  | .pass _ h a half m0 mt tile begins preEn corrEn pre corr =>
      some ((corr ++ pre ++ BitVec.ofBool corrEn ++ BitVec.ofBool preEn ++ BitVec.ofBool begins ++ BitVec.ofBool tile ++ mt ++ m0 ++ BitVec.ofBool half ++ a ++ headBits h 0x15#8).setWidth 128)
  | .spill _ h a tile first barrel bp =>
      some ((bp ++ barrel ++ BitVec.ofBool first ++ BitVec.ofBool tile ++ a ++ headBits h 0x18#8).setWidth 128)
  | .rdrain _ h a barrel slot clear bp =>
      some ((bp ++ BitVec.ofBool clear ++ slot ++ barrel ++ a ++ headBits h 0x19#8).setWidth 128)
  | .drain _ h a mode source tile both toReg dst regFmt func fuse e0 statEn statClear barrel bp =>
      some ((bp ++ barrel ++ BitVec.ofBool statClear ++ BitVec.ofBool statEn ++ e0 ++ BitVec.ofBool fuse ++ func ++ regFmt ++ dst ++ BitVec.ofBool toReg ++ BitVec.ofBool both ++ BitVec.ofBool tile ++ BitVec.ofBool source ++ BitVec.ofBool mode ++ a ++ headBits h 0x1A#8).setWidth 128)
  | .vop _ h op d s1 s2 s3 fmt km maskEn kd imm8 imm32 =>
      some ((imm32 ++ imm8 ++ kd ++ BitVec.ofBool maskEn ++ km ++ fmt ++ s3 ++ s2 ++ s1 ++ d ++ op ++ headBits h 0x20#8).setWidth 128)
  | .vld _ h first count src fmt bp => some ((bp ++ fmt ++ src ++ count ++ first ++ headBits h 0x21#8).setWidth 128)
  | .vst _ h first count dst bp km maskEn =>
      some ((BitVec.ofBool maskEn ++ km ++ bp ++ dst ++ count ++ first ++ headBits h 0x22#8).setWidth 128)
  | .mcvt _ h src dst n bp => some ((bp ++ n ++ dst ++ src ++ headBits h 0x23#8).setWidth 128)
  | .sfn _ h func src op2 dst n => some ((n ++ dst ++ op2 ++ src ++ func ++ headBits h 0x28#8).setWidth 128)
  | .smax1 _ h src mask maskEn entry clear beta n =>
      some ((n ++ beta ++ BitVec.ofBool clear ++ entry ++ BitVec.ofBool maskEn ++ mask ++ src ++ headBits h 0x29#8).setWidth 128)
  | .smax2 _ h src mask maskEn entry recip dst n =>
      some ((n ++ dst ++ BitVec.ofBool recip ++ entry ++ BitVec.ofBool maskEn ++ mask ++ src ++ headBits h 0x2A#8).setWidth 128)
  | .smaxm _ h src entry => some ((entry ++ src ++ headBits h 0x2B#8).setWidth 128)
  | .smaxx _ h entry dst => some ((dst ++ entry ++ headBits h 0x2C#8).setWidth 128)
  | .sieve _ h src n k dir clear base =>
      some ((base ++ BitVec.ofBool clear ++ BitVec.ofBool dir ++ k ++ n ++ src ++ headBits h 0x2D#8).setWidth 128)
  | .sievem _ h src count k dir clear fmt =>
      some ((fmt ++ BitVec.ofBool clear ++ BitVec.ofBool dir ++ k ++ count ++ src ++ headBits h 0x2E#8).setWidth 128)
  | .sieveo _ h dst => some ((dst ++ headBits h 0x2F#8).setWidth 128)
  | .nprep _ h entry rms eps => some ((eps ++ BitVec.ofBool rms ++ entry ++ headBits h 0x30#8).setWidth 128)
  | .napply _ h src dst gamma beta betaEn entry n =>
      some ((n ++ entry ++ BitVec.ofBool betaEn ++ beta ++ gamma ++ dst ++ src ++ headBits h 0x31#8).setWidth 128)
  | .statx _ h entry count dst => some ((dst ++ count ++ entry ++ headBits h 0x32#8).setWidth 128)
  | .statm _ h entry count src => some ((src ++ count ++ entry ++ headBits h 0x33#8).setWidth 128)
  | .pick _ h slot target tSrc room => some ((room ++ tSrc ++ target ++ slot ++ headBits h 0x38#8).setWidth 128)
  | .rpx _ h slot dst => some ((dst ++ slot ++ headBits h 0x39#8).setWidth 128)
  | .rpm _ h slot clear src => some ((src ++ BitVec.ofBool clear ++ slot ++ headBits h 0x3A#8).setWidth 128)
  | .sprb _ h s entropy binding => some ((binding ++ BitVec.ofBool entropy ++ s ++ headBits h 0x3B#8).setWidth 128)
  | .sprd _ h s form dst count p => some ((p ++ count ++ dst ++ form ++ s ++ headBits h 0x3C#8).setWidth 128)
  | .vtld _ h image bp => some ((bp ++ image ++ headBits h 0x3D#8).setWidth 128)
  | .nop _ h => some ((headBits h 0x00#8).setWidth 128)
  | .endList _ h => some ((headBits h 0x01#8).setWidth 128)
  | .loop _ h count body => some ((body ++ count ++ headBits h 0x02#8).setWidth 128)
  | .sdwait _ h target d => some ((d ++ target ++ headBits h 0x04#8).setWidth 128)
  | .lrecv _ h link flow len dst d => some ((d ++ dst ++ len ++ flow ++ link ++ headBits h 0x05#8).setWidth 128)
  | .cwait _ h coll d => some ((d ++ 0#40 ++ coll ++ headBits h 0x06#8).setWidth 128)
  | .cbar _ h link flows d => some ((d ++ 0#27 ++ flows ++ link ++ headBits h 0x07#8).setWidth 128)
  | .tflip _ h => some ((headBits h 0x08#8).setWidth 128)
  | .hint _ h entry => some ((entry ++ headBits h 0x09#8).setWidth 128)
  | .tag _ h tensor engine route => some ((route ++ engine ++ tensor ++ headBits h 0x0A#8).setWidth 128)
  | .entr _ h d words => some ((words ++ d ++ headBits h 0x0C#8).setWidth 128)
  | .sdrd _ h d lane => some ((lane ++ d ++ headBits h 0x0D#8).setWidth 128)
  | .ctrrd _ h d lane sel => some ((sel ++ lane ++ d ++ headBits h 0x0E#8).setWidth 128)
  | .brw _ h channel desc bed level stepEn extStep route =>
      some ((route ++ extStep ++ BitVec.ofBool stepEn ++ level ++ bed ++ desc ++ channel ++ headBits h 0x40#8).setWidth 128)
  | .rsend _ h route src len => some ((len ++ src ++ route ++ headBits h 0x44#8).setWidth 128)
  | .rrecv _ h route dst len => some ((len ++ dst ++ route ++ headBits h 0x45#8).setWidth 128)
  | .lsend _ h link flow len src route =>
      some ((route ++ src ++ len ++ flow ++ link ++ headBits h 0x48#8).setWidth 128)
  | .lcoll _ h coll op count src dst route =>
      some ((route ++ dst ++ src ++ count ++ op ++ coll ++ headBits h 0x49#8).setWidth 128)
  | _ => none

/-- The instruction that the opcode and the field places of a word give, before its reserved bits are looked at. -/
def fieldsOf (b : BitVec 7) (w : BitVec 128) : Option Instr :=
  match (w.extractLsb' 0 8).toNat with
  | 0x10 => some (.pset b (headOf w) (w.extractLsb' 32 2) (w.extractLsb' 34 2) (w.extractLsb' 36 4)
      (w.extractLsb' 40 4) (w.extractLsb' 44 5) (w.extractLsb' 49 2) (w.getLsbD 51))
  | 0x11 => some (.fill b (headOf w) (w.extractLsb' 32 2) (w.extractLsb' 34 24) (w.extractLsb' 58 7)
      (w.extractLsb' 65 6) (w.extractLsb' 71 4))
  | 0x12 => some (.cbld b (headOf w) (w.extractLsb' 32 2) (w.extractLsb' 34 12))
  | 0x13 => some (.mload b (headOf w) (w.extractLsb' 32 2) (w.getLsbD 34) (w.extractLsb' 35 6) (w.extractLsb' 41 6)
      (w.extractLsb' 47 7) (w.extractLsb' 54 24) (w.extractLsb' 78 4))
  | 0x14 => some (.swap b (headOf w) (w.extractLsb' 32 2))
  | 0x15 => some (.pass b (headOf w) (w.extractLsb' 32 2) (w.getLsbD 34) (w.extractLsb' 35 6) (w.extractLsb' 41 6)
      (w.getLsbD 47) (w.getLsbD 48) (w.getLsbD 49) (w.getLsbD 50) (w.extractLsb' 51 24) (w.extractLsb' 75 24))
  | 0x18 => some (.spill b (headOf w) (w.extractLsb' 32 2) (w.getLsbD 34) (w.getLsbD 35) (w.extractLsb' 36 24)
      (w.extractLsb' 60 5))
  | 0x19 => some (.rdrain b (headOf w) (w.extractLsb' 32 2) (w.extractLsb' 34 24) (w.extractLsb' 58 3)
      (w.getLsbD 61) (w.extractLsb' 62 5))
  | 0x1A => some (.drain b (headOf w) (w.extractLsb' 32 2) (w.getLsbD 34) (w.getLsbD 35) (w.getLsbD 36)
      (w.getLsbD 37) (w.getLsbD 38) (w.extractLsb' 39 24) (w.extractLsb' 63 4) (w.extractLsb' 67 5) (w.getLsbD 72)
      (w.extractLsb' 73 6) (w.getLsbD 79) (w.getLsbD 80) (w.extractLsb' 81 24) (w.extractLsb' 105 5))
  | 0x20 => some (.vop b (headOf w) (w.extractLsb' 32 5) (w.extractLsb' 37 4) (w.extractLsb' 41 4)
      (w.extractLsb' 45 4) (w.extractLsb' 49 4) (w.extractLsb' 53 4) (w.extractLsb' 57 3) (w.getLsbD 60)
      (w.extractLsb' 61 3) (w.extractLsb' 64 8) (w.extractLsb' 72 32))
  | 0x21 => some (.vld b (headOf w) (w.extractLsb' 32 4) (w.extractLsb' 36 4) (w.extractLsb' 40 24)
      (w.extractLsb' 64 4) (w.extractLsb' 68 4))
  | 0x22 => some (.vst b (headOf w) (w.extractLsb' 32 4) (w.extractLsb' 36 4) (w.extractLsb' 40 24)
      (w.extractLsb' 64 4) (w.extractLsb' 68 3) (w.getLsbD 71))
  | 0x23 => some (.mcvt b (headOf w) (w.extractLsb' 32 24) (w.extractLsb' 56 24) (w.extractLsb' 80 16)
      (w.extractLsb' 96 4))
  | 0x28 => some (.sfn b (headOf w) (w.extractLsb' 32 5) (w.extractLsb' 37 24) (w.extractLsb' 61 24)
      (w.extractLsb' 85 24) (w.extractLsb' 109 16))
  | 0x29 => some (.smax1 b (headOf w) (w.extractLsb' 32 24) (w.extractLsb' 56 12) (w.getLsbD 68)
      (w.extractLsb' 69 6) (w.getLsbD 75) (w.extractLsb' 76 32) (w.extractLsb' 108 16))
  | 0x2A => some (.smax2 b (headOf w) (w.extractLsb' 32 24) (w.extractLsb' 56 12) (w.getLsbD 68)
      (w.extractLsb' 69 6) (w.getLsbD 75) (w.extractLsb' 76 12) (w.extractLsb' 88 16))
  | 0x2B => some (.smaxm b (headOf w) (w.extractLsb' 32 24) (w.extractLsb' 56 6))
  | 0x2C => some (.smaxx b (headOf w) (w.extractLsb' 32 6) (w.extractLsb' 38 24))
  | 0x2D => some (.sieve b (headOf w) (w.extractLsb' 32 24) (w.extractLsb' 56 16) (w.extractLsb' 72 6)
      (w.getLsbD 78) (w.getLsbD 79) (w.extractLsb' 80 32))
  | 0x2E => some (.sievem b (headOf w) (w.extractLsb' 32 24) (w.extractLsb' 56 7) (w.extractLsb' 63 6)
      (w.getLsbD 69) (w.getLsbD 70) (w.extractLsb' 71 4))
  | 0x2F => some (.sieveo b (headOf w) (w.extractLsb' 32 24))
  | 0x30 => some (.nprep b (headOf w) (w.extractLsb' 32 6) (w.getLsbD 38) (w.extractLsb' 39 32))
  | 0x31 => some (.napply b (headOf w) (w.extractLsb' 32 24) (w.extractLsb' 56 12) (w.extractLsb' 68 12)
      (w.extractLsb' 80 12) (w.getLsbD 92) (w.extractLsb' 93 6) (w.extractLsb' 99 16))
  | 0x32 => some (.statx b (headOf w) (w.extractLsb' 32 6) (w.extractLsb' 38 6) (w.extractLsb' 44 24))
  | 0x33 => some (.statm b (headOf w) (w.extractLsb' 32 6) (w.extractLsb' 38 6) (w.extractLsb' 44 24))
  | 0x38 => some (.pick b (headOf w) (w.extractLsb' 32 3) (w.extractLsb' 35 12) (w.extractLsb' 47 8)
      (w.extractLsb' 55 3))
  | 0x39 => some (.rpx b (headOf w) (w.extractLsb' 32 3) (w.extractLsb' 35 24))
  | 0x3A => some (.rpm b (headOf w) (w.extractLsb' 32 3) (w.getLsbD 35) (w.extractLsb' 36 24))
  | 0x3B => some (.sprb b (headOf w) (w.extractLsb' 32 2) (w.getLsbD 34) (w.extractLsb' 35 10))
  | 0x3C => some (.sprd b (headOf w) (w.extractLsb' 32 2) (w.extractLsb' 34 2) (w.extractLsb' 36 4)
      (w.extractLsb' 40 4) (w.extractLsb' 44 16))
  | 0x3D => some (.vtld b (headOf w) (w.extractLsb' 32 12) (w.extractLsb' 44 5))
  | 0x00 => some (.nop b (headOf w))
  | 0x01 => some (.endList b (headOf w))
  | 0x02 => some (.loop b (headOf w) (w.extractLsb' 32 16) (w.extractLsb' 48 12))
  | 0x04 => some (.sdwait b (headOf w) (w.extractLsb' 32 48) (w.extractLsb' 80 48))
  | 0x05 => some (.lrecv b (headOf w) (w.extractLsb' 32 5) (w.extractLsb' 37 4) (w.extractLsb' 41 15)
      (w.extractLsb' 56 24) (w.extractLsb' 80 48))
  | 0x06 => some (.cwait b (headOf w) (w.extractLsb' 32 8) (w.extractLsb' 80 48))
  | 0x07 => some (.cbar b (headOf w) (w.extractLsb' 32 5) (w.extractLsb' 37 16) (w.extractLsb' 80 48))
  | 0x08 => some (.tflip b (headOf w))
  | 0x09 => some (.hint b (headOf w) (w.extractLsb' 32 12))
  | 0x0A => some (.tag b (headOf w) (w.extractLsb' 32 12) (w.extractLsb' 44 2) (w.extractLsb' 46 12))
  | 0x0C => some (.entr b (headOf w) (w.extractLsb' 32 4) (w.extractLsb' 36 5))
  | 0x0D => some (.sdrd b (headOf w) (w.extractLsb' 32 4) (w.extractLsb' 36 6))
  | 0x0E => some (.ctrrd b (headOf w) (w.extractLsb' 32 4) (w.extractLsb' 36 6) (w.extractLsb' 42 8))
  | 0x40 => some (.brw b (headOf w) (w.extractLsb' 32 6) (w.extractLsb' 38 10) (w.extractLsb' 48 24)
      (w.extractLsb' 72 2) (w.getLsbD 74) (w.extractLsb' 75 32) (w.extractLsb' 107 12))
  | 0x44 => some (.rsend b (headOf w) (w.extractLsb' 32 12) (w.extractLsb' 44 24) (w.extractLsb' 68 15))
  | 0x45 => some (.rrecv b (headOf w) (w.extractLsb' 32 12) (w.extractLsb' 44 24) (w.extractLsb' 68 15))
  | 0x48 => some (.lsend b (headOf w) (w.extractLsb' 32 5) (w.extractLsb' 37 4) (w.extractLsb' 41 15)
      (w.extractLsb' 56 24) (w.extractLsb' 80 12))
  | 0x49 => some (.lcoll b (headOf w) (w.extractLsb' 32 8) (w.extractLsb' 40 3) (w.extractLsb' 43 16)
      (w.extractLsb' 59 24) (w.extractLsb' 83 24) (w.extractLsb' 107 12))
  | _ => none

/-- The instruction of a word: its fields, provided the word's reserved bits are zero (R197), that is, provided the
instruction's own word is that word. -/
def decodeIns (b : BitVec 7) (w : BitVec 128) : Option Instr :=
  match fieldsOf b w with
  | some i => if encodeIns i = some w then some i else none
  | none => none

/-- The logical bed of a bed instruction. -/
def bedOf : Instr → Option (BitVec 7)
  | .pset b _ _ _ _ _ _ _ _ => some b
  | .fill b _ _ _ _ _ _ => some b
  | .cbld b _ _ _ => some b
  | .mload b _ _ _ _ _ _ _ _ => some b
  | .swap b _ _ => some b
  | .pass b _ _ _ _ _ _ _ _ _ _ _ => some b
  | .spill b _ _ _ _ _ _ => some b
  | .rdrain b _ _ _ _ _ _ => some b
  | .drain b _ _ _ _ _ _ _ _ _ _ _ _ _ _ _ _ => some b
  | .vop b _ _ _ _ _ _ _ _ _ _ _ _ => some b
  | .vld b _ _ _ _ _ _ => some b
  | .vst b _ _ _ _ _ _ _ => some b
  | .mcvt b _ _ _ _ _ => some b
  | .sfn b _ _ _ _ _ _ => some b
  | .smax1 b _ _ _ _ _ _ _ _ => some b
  | .smax2 b _ _ _ _ _ _ _ _ => some b
  | .smaxm b _ _ _ => some b
  | .smaxx b _ _ _ => some b
  | .sieve b _ _ _ _ _ _ _ => some b
  | .sievem b _ _ _ _ _ _ _ => some b
  | .sieveo b _ _ => some b
  | .nprep b _ _ _ _ => some b
  | .napply b _ _ _ _ _ _ _ _ => some b
  | .statx b _ _ _ _ => some b
  | .statm b _ _ _ _ => some b
  | .pick b _ _ _ _ _ => some b
  | .rpx b _ _ _ => some b
  | .rpm b _ _ _ _ => some b
  | .sprb b _ _ _ _ => some b
  | .sprd b _ _ _ _ _ _ => some b
  | .vtld b _ _ _ => some b
  | .nop b _ => some b
  | .endList b _ => some b
  | .loop b _ _ _ => some b
  | .sdwait b _ _ _ => some b
  | .lrecv b _ _ _ _ _ _ => some b
  | .cwait b _ _ _ => some b
  | .cbar b _ _ _ _ => some b
  | .tflip b _ => some b
  | .hint b _ _ => some b
  | .tag b _ _ _ _ => some b
  | .entr b _ _ _ => some b
  | .sdrd b _ _ _ => some b
  | .ctrrd b _ _ _ _ => some b
  | .brw b _ _ _ _ _ _ _ _ => some b
  | .rsend b _ _ _ _ => some b
  | .rrecv b _ _ _ _ => some b
  | .lsend b _ _ _ _ _ _ => some b
  | .lcoll b _ _ _ _ _ _ _ => some b
  | _ => none

/-- The common fields of a bed instruction. -/
def headOfIns : Instr → Option Head
  | .pset _ h _ _ _ _ _ _ _ => some h
  | .fill _ h _ _ _ _ _ => some h
  | .cbld _ h _ _ => some h
  | .mload _ h _ _ _ _ _ _ _ => some h
  | .swap _ h _ => some h
  | .pass _ h _ _ _ _ _ _ _ _ _ _ => some h
  | .spill _ h _ _ _ _ _ => some h
  | .rdrain _ h _ _ _ _ _ => some h
  | .drain _ h _ _ _ _ _ _ _ _ _ _ _ _ _ _ _ => some h
  | .vop _ h _ _ _ _ _ _ _ _ _ _ _ => some h
  | .vld _ h _ _ _ _ _ => some h
  | .vst _ h _ _ _ _ _ _ => some h
  | .mcvt _ h _ _ _ _ => some h
  | .sfn _ h _ _ _ _ _ => some h
  | .smax1 _ h _ _ _ _ _ _ _ => some h
  | .smax2 _ h _ _ _ _ _ _ _ => some h
  | .smaxm _ h _ _ => some h
  | .smaxx _ h _ _ => some h
  | .sieve _ h _ _ _ _ _ _ => some h
  | .sievem _ h _ _ _ _ _ _ => some h
  | .sieveo _ h _ => some h
  | .nprep _ h _ _ _ => some h
  | .napply _ h _ _ _ _ _ _ _ => some h
  | .statx _ h _ _ _ => some h
  | .statm _ h _ _ _ => some h
  | .pick _ h _ _ _ _ => some h
  | .rpx _ h _ _ => some h
  | .rpm _ h _ _ _ => some h
  | .sprb _ h _ _ _ => some h
  | .sprd _ h _ _ _ _ _ => some h
  | .vtld _ h _ _ => some h
  | .nop _ h => some h
  | .endList _ h => some h
  | .loop _ h _ _ => some h
  | .sdwait _ h _ _ => some h
  | .lrecv _ h _ _ _ _ _ => some h
  | .cwait _ h _ _ => some h
  | .cbar _ h _ _ _ => some h
  | .tflip _ h => some h
  | .hint _ h _ => some h
  | .tag _ h _ _ _ => some h
  | .entr _ h _ _ => some h
  | .sdrd _ h _ _ => some h
  | .ctrrd _ h _ _ _ => some h
  | .brw _ h _ _ _ _ _ _ _ => some h
  | .rsend _ h _ _ _ => some h
  | .rrecv _ h _ _ _ => some h
  | .lsend _ h _ _ _ _ _ => some h
  | .lcoll _ h _ _ _ _ _ _ => some h
  | _ => none

/-- No row of the table gives bits: no word spells a command. -/
def decodeTableWord (_nbits _w : Nat) : Option Instr := none

end Sys2Proof
end

