-- ==== Sys2Proof/Machine/Digest.lean ====
section
/-! DEFINITION. Digests and check words: SHAKE256 of FIPS 202 (R396, R449), and the CRC-64 of R317. -/

namespace Sys2Proof.Machine

/-! ## SHAKE256

A state is its 1,600 bits in lanes of 64, lane 5 y + x; the offsets and the round constants are made by FIPS 202's own
walks and not written out. -/

/-- The lane under each column x XORed over its five rows. -/
def columnParity (st : List W64) (x : Nat) : W64 :=
  (enumFrom 0 st).foldl (fun (w : W64) e => if e.1 % 5 = x then w ^^^ e.2 else w) 0

/-- Step θ: each lane takes the parity of the column before its own, and of the one after turned by one bit. -/
def stepTheta (st : List W64) : List W64 :=
  let par := (List.range 5).map (columnParity st)
  (enumFrom 0 st).map fun e => e.2 ^^^ (par.getD ((e.1 + 4) % 5) 0 ^^^ (par.getD ((e.1 + 1) % 5) 0).rotateLeft 1)

/-- The walk of steps ρ and π: after t steps from (1, 0) it stands at a lane whose offset is the (t + 1)-th triangular
number, and its next place (y, 2 x + 3 y) is where π moves that lane. -/
def rhoWalk : Nat → Nat → Nat × Nat → List (Nat × Nat × Nat)
  | 0, _, _ => []
  | n + 1, t, (x, y) =>
    let y' := (2 * x + 3 * y) % 5
    (5 * y + x, 5 * y' + y, (t + 1) * (t + 2) / 2 % 64) :: rhoWalk n (t + 1) (y, y')

/-- Steps ρ and π: lane (0, 0) stays, the others are turned and moved along the walk. -/
def stepRhoPi (st : List W64) : List W64 :=
  (rhoWalk 24 0 (1, 0)).foldl (fun (out : List W64) m => putAt out m.2.1 ((nth st m.1 0).rotateLeft m.2.2)) st

/-- Step χ on a row of five lanes. -/
def chiRow : List W64 → List W64
  | [p, q, r, s, t] => [p ^^^ (~~~q &&& r), q ^^^ (~~~r &&& s), r ^^^ (~~~s &&& t), s ^^^ (~~~t &&& p), t ^^^ (~~~p &&& q)]
  | row => row

/-- The register whose low bit gives the round constants' bits: x^8 + x^6 + x^5 + x^4 + 1. -/
def iotaNext (r : Nat) : Nat := if r < 128 then 2 * r else (2 * r - 256) ^^^ 0x71

/-- A round constant from the register: seven steps give its bits 0, 1, 3, 7, 15, 31 and 63; and the register after. -/
def iotaWord : Nat → Nat → Nat × Nat
  | 0, r => (0, r)
  | k + 1, r =>
    let q := iotaWord k r
    (q.1 + q.2 % 2 * 2 ^ (2 ^ k - 1), iotaNext q.2)

/-- Rounds of Keccak-f[1600], the register carried along. -/
def keccakRounds : Nat → Nat → List W64 → List W64
  | 0, _, st => st
  | n + 1, r, st =>
    let i := iotaWord 7 r
    let rows := (List.range 5).flatMap fun y => chiRow (((stepRhoPi (stepTheta st)).drop (5 * y)).take 5)
    keccakRounds n i.2 (putAt rows 0 (nth rows 0 0 ^^^ BitVec.ofNat 64 i.1))

/-- The rate of SHAKE256 in bytes. -/
def shakeRate : Nat := 136

/-- A message with the bits 1111 of SHAKE and the padding 10*1, to whole blocks. -/
def shakePad (m : List Byte) : List Byte :=
  let gap := shakeRate - m.length % shakeRate
  m ++ leBytes gap (0x1F + 2 ^ (8 * gap - 1))

/-- A block taken into the state, and the state mixed. -/
def shakeTake (st : List W64) (blk : List Byte) : List W64 :=
  keccakRounds 24 1 ((List.zip st (words64 25 (blk ++ zeros 64))).map fun e => e.1 ^^^ BitVec.ofNat 64 e.2)

/-- n bytes of output, at most a block's rate from each state. -/
def shakeGive (n : Nat) : Nat → List W64 → List Byte
  | 0, _ => []
  | k + 1, st =>
    let out := ((st.flatMap fun w => leBytes 8 w.toNat).take shakeRate).take n
    if n ≤ shakeRate then out else out ++ shakeGive (n - shakeRate) k (keccakRounds 24 1 st)

/-- n bytes of SHAKE256 over a message. -/
def shake256 (m : List Byte) (n : Nat) : List Byte :=
  let p := shakePad m
  shakeGive n (n / shakeRate + 1) ((chunks shakeRate (p.length / shakeRate) p).foldl shakeTake (List.replicate 25 0))

/-- The 256-bit SHAKE256 digest of a message, byte 0 in the low bits. -/
def digest (m : List Byte) : BitVec 256 := BitVec.ofNat 256 (leNat (shake256 m 32))

/-- A digest's 32 bytes. -/
def digestBytes (d : BitVec 256) : List Byte := leBytes 32 d.toNat

/-- The bytes of an ASCII string. -/
def ascii (s : String) : List Byte := s.toList.map fun c => BitVec.ofNat 8 c.toNat

/-! ## CRC-64 -/

/-- One byte into the CRC register, most significant bit first. -/
def crcByte (r : W64) (b : Byte) : W64 :=
  (List.range 8).foldl
    (fun (r : W64) i =>
      let top := r.getLsbD 63 != b.getLsbD (7 - i)
      let r := r <<< 1
      if top then r ^^^ 0x42F0E1EBA9EA3693 else r)
    r

/-- The CRC-64 of R317: from all ones, inverted. -/
def crc64 (bs : List Byte) : W64 := ~~~(bs.foldl crcByte (BitVec.allOnes 64))

end Sys2Proof.Machine
end

