-- ==== Sys2Proof/Machine/StateHost.lean ====
section
/-! DEFINITION. The state of the host interface and of the control complex: rings, mailboxes, doorbells, plots, run
records and the fault collector (chapters 15 to 17). -/

namespace Sys2Proof.Machine

/-! ## Rings (R347 to R355) -/

/-- A ring slot: 0 free, 1 pending, 2 active, 3 held, 4 posted (R354); its descriptor and, once complete, what its
completion says (R359). -/
structure Slot where
  st : Nat := 0
  desc : List Byte := []
  fetchTick : Nat := 0
  started : Bool := false
  status : Nat := 0
  code : Nat := 0
  result : W64 := 0
  tick : Nat := 0
  /-- the descriptor could not be read: its completion carries user_tag 0 (R358) -/
  unread : Bool := false
  deriving DecidableEq, Repr

/-- A ring pair: 0 disabled, 1 running, 2 draining, 3 error; the configuration taken at its enable; positions. -/
structure Ring where
  state : Nat := 0
  log2 : Nat := 0
  vector : Nat := 0
  sq : Nat := 0
  cq : Nat := 0
  tail : Nat := 0
  head : Nat := 0
  fetch : Nat := 0
  /-- the next fetched descriptor to start (R350) -/
  start : Nat := 0
  post : Nat := 0
  phase : Bool := false
  /-- the chain in progress: the slot that began it, and whether a member failed or was skipped (R351) -/
  chain : Nat := 0
  chainBad : Bool := false
  mismatch : Bool := false
  slots : Tbl Slot := []
  deriving DecidableEq, Repr

/-- A mailbox: message, stamp, full and overrun (R363, R364). -/
structure Mbox where
  full : Bool := false
  overrun : Bool := false
  msg : List Byte := []
  stamp : W64 := 0
  deriving DecidableEq, Repr

/-- A descriptor or service whose completion waits for a later event: what it waits for, the unit, and where its
completion goes. -/
structure Waiter where
  svc : Nat
  unit : Nat
  src : Src
  arg : Nat := 0
  deriving DecidableEq, Repr

/-- The host interface. DESIGN CHOICE, unsafe: log entry 3. DESIGN CHOICE, safe: log entry 4. -/
structure HostIf where
  rings : Tbl Ring := []
  mbIn : Tbl Mbox := []
  mbOut : Tbl Mbox := []
  /-- requests that firmware has taken from inbound mailboxes and not answered; replies not yet posted (R386) -/
  mbReq : Tbl (List Byte) := []
  mbReply : Tbl (List Byte) := []
  /-- stamps of the requests taken, as firmware logs them (R386) -/
  mbLog : List (W64 × Nat) := []
  dbIn : BitVec 32 := 0
  dbInMask : BitVec 32 := 0xFFFFFFFF
  dbOut : BitVec 32 := 0
  dbOutMask : BitVec 32 := 0xFFFFFFFF
  d3hot : Bool := false
  msixTable : Tbl W64 := []
  msixPending : W64 := 0
  /-- vectors sent, latest first: the model's own record of what leaves -/
  msixSent : List Nat := []
  waiters : List Waiter := []
  /-- host memory at bus addresses -/
  mem : Mem := []
  deriving DecidableEq, Repr

/-! ## Plots (R372) and run records (R398, R399) -/

/-- A BRW execution whose transfer must finish by its landing A-cycle (R243): the physical bed and instruction that
issued it, whether it has finished, and what Λ merges into a record slot of the bed (R279). -/
structure Landing where
  channel : Nat
  bed : Nat
  index : Nat
  /-- Λ, as an A-cycle of the clock -/
  due : Nat := 0
  done : Bool := false
  /-- once it has finished, the A-cycle of its last write -/
  till : Nat := 0
  slot : Option Nat := none
  rng : RangeRec := {}
  deriving DecidableEq, Repr

/-- One side of a runner transfer that waits for the other (R239): the k-th send of a route towards one bed, or the k-th
region a bed declares on it. -/
structure Runner where
  segment : Nat
  exec : Nat
  /-- the physical bed that receives -/
  bed : Nat
  send : Bool
  /-- a region's address -/
  addr : Nat
  /-- a send's bytes; an execution disabled by R178 sends nothing -/
  bytes : List Byte
  enabled : Bool
  /-- the A-cycles in which a send's words land -/
  dues : List Nat := []
  deriving DecidableEq, Repr

/-- A bed's part of a collective (R241, R336): its items, the barrel they came from, and where the result goes. -/
structure Part where
  coll : Nat
  bed : Nat
  op : Nat
  src : Nat
  dst : Nat
  bytes : List Byte
  /-- the A-cycle in which its last word reaches the hub (R238, R241) -/
  till : Nat := 0
  deriving DecidableEq, Repr

/-- A flit waiting to be sent for the first time: what its header will say, its payload, and the plot it belongs to. -/
structure TxItem where
  kind : Nat
  flow : Nat
  first : Bool
  last : Bool
  lines : Nat
  tag : Nat
  payload : List Byte
  plot : Nat
  deriving DecidableEq, Repr

/-- What arrives at a hub with a word: a message's flit for a link (R240), a bed's part of a collective (R241), or a TAG's digests,
once its engine has formed them: its bed, index and execution count, its tensor, the tag, the output-byte digest, whether an
input digest was missing, and the sow tick (R244, R396). -/
inductive Cargo where
  | flit (link : Nat) (item : TxItem)
  | part (q : Part)
  | tag (bed index exec tensor : Nat) (tag out : BitVec 256) (miss : Bool) (sown : Nat)
  deriving DecidableEq, Repr

/-- A runner word on its way: its segment, the physical bed and address it goes to, or 256 beyond a hub's endpoint, its bytes, the A-cycle in which it lands,
its granules in error: p + 1 a single bit at position p, 138 more; the die crossings ahead of it, each by A-cycle and link; and what
arrives with it at a hub (R264, R267, R268). -/
structure Word where
  segment : Nat
  bed : Nat
  addr : Nat
  bytes : List Byte
  due : Nat
  err : Tbl Nat := []
  cross : List (Nat × Nat) := []
  cargo : Option Cargo := none
  deriving DecidableEq, Repr

/-- What a child link has brought of its partial of a collective, and how many of those flits have left the buffers, their
items combined (R320, R336). -/
structure Partial where
  coll : Nat
  link : Nat
  bytes : List Byte := []
  whole : Bool := false
  freed : Nat := 0
  deriving DecidableEq, Repr

/-- How far a collective has come on this module (R336): its items combined so far, how many of their bytes have gone on, and how
many bytes of the final items have been delivered. -/
structure Gather where
  coll : Nat
  items : List Byte := []
  sent : Nat := 0
  down : Nat := 0
  deriving DecidableEq, Repr

/-- A stretch episode within a plot's run (R412): the tick of its first run, its runs and its lowest source. -/
structure Episode where
  tick : W64
  runs : Nat
  source : Nat
  deriving DecidableEq, Repr

/-- An event of a run record (R399). -/
structure REvent where
  kind : Nat
  bed : Nat
  index : Nat
  exec : Nat
  tick : W64
  payload : List Byte
  deriving DecidableEq, Repr

/-- A plot number (Table 16.2): 0 free, 1 loading, 2 loaded, 3 sown, 4 completing, 5 stopped, 6 unloading. -/
structure Plot where
  state : Nat := 0
  ring : Nat := 0
  gardener : Nat := 0
  stopCode : Nat := 0
  prog : Program := {}
  /-- where the LOAD in progress was asked for, and the result it will report -/
  loadSrc : Option Src := none
  /-- an accepted sow: its tick, and where the SOW was asked for (none for a partner's order) -/
  sowAt : Option W64 := none
  sowSrc : Option Src := none
  sowTick : W64 := 0
  /-- A-cycle count of the clock at A-cycle 0 of the run -/
  sowCycle : Nat := 0
  frozenTicks : Nat := 0
  /-- ticks of plot time that had fewer than 16 A-cycles, and how many were missing (R261, R392) -/
  slow : List (Nat × Nat) := []
  hint : Option Nat := none
  episode : Option Episode := none
  landings : List Landing := []
  runner : List Runner := []
  /-- runner words that have not landed, and what has come to a hub and not been acted on -/
  words : List Word := []
  came : List Cargo := []
  /-- the numbers of its shed buffers: hub, first and count of each run of them (R190) -/
  shed : List (Nat × Nat × Nat) := []
  /-- messages and collective parts handed to links and not wholly acknowledged (R194) -/
  sends : Nat := 0
  /-- a requested stop by UNLOAD: the tick after which it takes effect (R374) -/
  unloadAt : Option Nat := none
  /-- the parts of collectives in progress, what links have brought of them, and how far each has come (R336) -/
  parts : List Part := []
  partials : List Partial := []
  gathers : List Gather := []
  /-- sends so far by segment, and regions by segment and physical bed at key 256 segment + bed (R239) -/
  sentCount : Tbl Nat := []
  recvCount : Tbl Nat := []
  /-- the digest of the latest arrival of each digest-table entry (R395) -/
  inputs : Tbl (Option (BitVec 256)) := []
  /-- arrivals before it was sown, for the run record (R395, R398) -/
  early : List REvent := []
  deriving DecidableEq, Repr

/-- A run record (Table 17.3). -/
structure Rec where
  valid : Bool := false
  isOpen : Bool := false
  outcome : Nat := 0
  stopCode : Nat := 0
  varied : Bool := false
  compat : Bool := false
  debug : Bool := false
  retried : Bool := false
  stretched : Bool := false
  frozen : Bool := false
  truncated : Bool := false
  unhashed : Bool := false
  sowTick : W64 := 0
  endTick : W64 := 0
  endCycle : Nat := 0
  progDigest : BitVec 256 := 0
  fwDigest : BitVec 256 := 0
  fenceDigest : BitVec 256 := 0
  replays : Nat := 0
  stretches : Nat := 0
  frosts : Nat := 0
  dropped : Nat := 0
  tags : Nat := 0
  opPoint : Nat := 0
  events : List REvent := []
  deriving DecidableEq, Repr

/-! ## Fault collector (R384, R385) -/

/-- An entry of the fault collector. -/
structure Flt where
  valid : Bool := false
  unit : Nat := 0
  cause : Nat := 0
  count : Nat := 0
  tick : W64 := 0
  reporter : Nat := 0
  detail : W64 := 0
  /-- the order in which entries latched -/
  order : Nat := 0
  deriving DecidableEq, Repr

/-- A gardener's core (R369): whether it has been started, its program counter and integer registers, and its 512 KiB of SRAM.
No row steps a gardener. DESIGN CHOICE, unsafe: log entry 64. -/
structure GCore where
  started : Bool := false
  pc : W64 := 0
  xs : List W64 := []
  sram : List Byte := []
  deriving DecidableEq, Repr

/-- The control complex. -/
structure Grd where
  cores : Tbl GCore := []
  /-- gardeners: state, heartbeats, consecutive misses (R371) -/
  gardState : Tbl Nat := []
  heartbeat : Tbl Nat := []
  misses : Tbl Nat := []
  /-- the tick of the latest check -/
  checked : Option W64 := none
  flt : Tbl Flt := []
  fltNext : Nat := 0
  fltOrder : Nat := 0
  fltDropped : Nat := 0
  /-- the start-up log: the steps of the sundial taken (R330) -/
  startLog : List W64 := []
  deriving DecidableEq, Repr

end Sys2Proof.Machine
end

