-- ==== Sys2Proof/Machine/StateMove.lean ====
section
/-! DEFINITION. The state of what moves data between the module's units and beyond it: barrows (chapter 12), LPDDR5
controllers and nursery walkers (chapter 13), links, the sundial domain and companion mode (chapter 14). -/

namespace Sys2Proof.Machine

/-! ## Barrows -/

/-- A place in the sequence of data slots from a transfer's start: how many claimed ones have come, whether a slot that pacing
allows has not been used, the latest slots used under pacing, and the controllers that serve in this slot (R282, R297). -/
structure Spot where
  seen : Nat := 0
  may : Bool := true
  turns : List Nat := []
  used : List Nat := []
  deriving DecidableEq, Repr

/-- An access that has issued and not completed (R285): its channel, its place among the transfer's, and the data slot of LPDDR5
that it has, counted from tick 0. -/
structure Access where
  chan : Nat
  index : Nat
  slot : Nat := 0
  deriving DecidableEq, Repr

/-- A transfer of a channel: its descriptor, with the bed side of a BRW in place (R242, R274), who issued it, and how
many of its accesses it has moved: of a BRW units of LPDDR5, of firmware lines. -/
structure Xfer where
  desc : List Byte := []
  /-- the plot of a BRW, its physical bed and instruction; none for firmware -/
  plot : Option (Nat × Nat × Nat) := none
  /-- the tensor of a BRW's bed ref, and the segment of its route -/
  tensor : Nat := 0
  route : Nat := 0
  /-- the ring descriptor a firmware transfer serves, and where its digest goes -/
  src : Option Src := none
  digestTo : Option Nat := none
  /-- bytes of the ring descriptor that further transfers will move -/
  more : Nat := 0
  /-- side A bytes on their way to a digest engine -/
  passed : List Byte := []
  started : Bool := false
  pos : Nat := 0
  /-- the A-cycle before which it does not start (R280) -/
  due : Nat := 0
  /-- accesses of a BRW that have issued, and the first that will not answer -/
  issued : Nat := 0
  good : Nat := 0
  /-- its place among the data slots -/
  spot : Spot := {}
  /-- bytes read for a transposition -/
  raw : List Byte := []
  /-- of its buffers in use whose data have come, the A-cycles in which each is free again (R283) -/
  free : List Nat := []
  /-- the A-cycle after its latest word's departure, and that in which the word lands -/
  sent : Nat := 0
  till : Nat := 0
  /-- a read by firmware whose bytes go nowhere, to be asked for again (R285): of an image, or of a ring's descriptors -/
  probe : Bool := false
  ring : Option Nat := none
  deriving DecidableEq, Repr

/-- A barrow channel (R280, R287): 0 idle, 1 running, 2 held, 3 halted. -/
structure Chan where
  state : Nat := 0
  cur : Option Xfer := none
  next : Option Xfer := none
  buffers : Nat := 0
  rng : RangeRec := {}
  /-- a host read was outstanding at the cut of a frost: it completed into its buffer (R290) -/
  cutRead : Bool := false
  caught : List Byte := []
  deriving DecidableEq, Repr

/-- A hub's engine and its channel manager (R285 to R287): 0 running, 1 stopped, 2 replaying, 3 isolating. -/
structure Engine where
  state : Nat := 0
  retries : Nat := 0
  incidents : Nat := 0
  /-- the replay log: the accesses that have not completed, in the order in which they issued -/
  log : List Access := []
  /-- how many of them a replay has had answered -/
  replayed : Nat := 0
  /-- the A-cycle of the latest stop, and its cause -/
  stopAt : Nat := 0
  cause : Nat := 0
  deriving DecidableEq, Repr

structure Brw where
  chans : Tbl Chan := []
  engines : Tbl Engine := []
  deriving DecidableEq, Repr

/-! ## LPDDR5 and nursery -/

/-- An LPDDR5 controller (R299, R300): 0 untrained, 1 training, 2 in service, 3 out of service. -/
structure Ctl where
  state : Nat := 0
  poison : List Nat := []
  /-- of units on the list, the 64 B lines written since (R300) -/
  mended : Tbl Nat := []
  /-- units written, each with the frame it was written in -/
  wrote : List (Nat × Nat) := []
  /-- the frame in which the error logs were last read -/
  logRead : Option Nat := none
  deriving DecidableEq, Repr

/-- A nursery order (Table 13.7), where it was asked for and when it was accepted. -/
structure Order where
  op : Nat
  session : Nat
  key : W64
  limit : Nat
  plot : Nat
  digest : Bool
  engine : Nat
  dest : Nat
  plan : Nat
  entries : Nat
  destLimit : Nat
  src : Src
  accepted : W64
  deriving DecidableEq, Repr

/-- An entry of a transplant plan (Table 13.8): pages, word offsets and length in 256 B words. -/
structure PlanEnt where
  srcPage : Nat
  srcWord : Nat
  dstPage : Nat
  dstWord : Nat
  len : Nat
  deriving DecidableEq, Repr

/-- An entry of a directory (Table 13.4): the page's module address, its bed and its bed-memory address. -/
structure DirEnt where
  page : Nat
  bed : Nat
  place : Nat
  deriving DecidableEq, Repr

/-- The order a walker works on: its first frame, the pages it moves in a frame, the directories and the plan read, the claims
firmware took for it, how many 256 B words have moved, and the code, page and frame of an error it has met. -/
structure Work where
  order : Order
  frame : Nat
  rate : Nat := 1
  dir : List DirEnt := []
  destDir : List DirEnt := []
  plan : List PlanEnt := []
  claims : List Claim := []
  /-- words landed, departed or moved; by page, words taken up and words done; and words taken up in a frame -/
  words : Nat := 0
  reads : Tbl Nat := []
  landed : Tbl Nat := []
  quota : Nat × Nat := (0, 0)
  /-- by page, what goes to the digest engine -/
  passed : Tbl (List Byte) := []
  /-- the code by which the entries have been written (R303) -/
  entered : Option Nat := none
  err : Nat := 0
  errPage : Nat := 0
  errFrame : Nat := 0
  /-- the destination of a transplant is what the error damages, not the source -/
  errDest : Bool := false
  deriving DecidableEq, Repr

structure Walker where
  queue : List Order := []
  work : Option Work := none
  deriving DecidableEq, Repr

structure Ddr where
  ctls : Tbl Ctl := []
  mem : Mem := []
  /-- the unit whose reads cannot be corrected in this tick, and whether by the link (R299) -/
  failing : Option (Nat × Bool) := none
  walkers : Tbl Walker := []
  deriving DecidableEq, Repr

/-! ## Links -/

/-- A flit sent and not acknowledged (R322): its first 524 bytes as sent, since when it is held, and its replays. -/
structure TxHeld where
  seq : Nat
  item : TxItem
  bytes : List Byte
  since : W64
  replays : Nat := 0
  deriving DecidableEq, Repr

/-- A received flit in the buffers of its flow (R320). -/
structure RxItem where
  kind : Nat
  flow : Nat
  first : Bool
  last : Bool
  lines : Nat
  tag : Nat
  payload : List Byte
  /-- it arrived after the cut of a frost of this module alone (R454) -/
  afterCut : Bool := false
  /-- its items have been read for a combination that they are not yet part of (R320) -/
  taken : Bool := false
  deriving DecidableEq, Repr

/-- One link: 0 down, 1 training, 2 up, 3 disabled. DESIGN CHOICE, safe: log entry 4. -/
structure Link where
  state : Nat := 0
  laneRev : Bool := false
  polarity : BitVec 8 := 0
  partnerLink : Nat := 0
  partnerPos : Nat := 0
  partnerDomain : Nat := 0
  /-- the partner's identity digest at the last training that came up -/
  partnerId : Option (BitVec 256) := none
  rootDist : Nat := 0
  partnerFormed : Bool := false
  /-- a measurement has been taken since the partner's domain formed (R330) -/
  fresh : Bool := false
  /-- the tick of a training that failed, until one comes up (R325) -/
  failedAt : Option W64 := none
  inDomain : Bool := false
  tree : Bool := false
  child : Bool := false
  -- transmit
  txSeq : Nat := 0
  queue : List TxItem := []
  held : List TxHeld := []
  /-- held flits still to be replayed, in order (R322) -/
  replay : List Nat := []
  nak : Option Nat := none
  /-- the flow served last (R319) -/
  turn : Nat := 15
  /-- credits in hand, by flow; training sets 64 (R320) -/
  credits : Tbl Nat := []
  /-- by flow, the A-cycle in which its last ack or credit came (R233, R237) -/
  creditAt : Tbl Nat := []
  txScramble : List (BitVec 31) := []
  -- receive
  rxSeq : Nat := 4095
  rx : List RxItem := []
  /-- by flow, the bytes of the message in progress whose flits have left the buffers (R320, R321) -/
  arrived : Tbl (List Byte) := []
  owed : Tbl Nat := []
  /-- the number the last NAK named, and its tick (R322) -/
  nakSent : Option (Nat × W64) := none
  lastValid : W64 := 0
  rxScramble : List (BitVec 31) := []
  /-- control flits received and not acted on -/
  ctlIn : List (List Byte) := []
  /-- flits captured during a multi-module frost (R334) -/
  captured : List (List Byte) := []
  /-- probe exchanges taken, and the sums of 2 theta and 2 d (R329) -/
  probes : Nat := 0
  sumTheta : Int := 0
  sumDelay : Int := 0
  lastCheck : W64 := 0
  /-- 568 bytes of every flit sent, latest first: the model's own record of what leaves -/
  wireOut : List (List Byte) := []
  deriving DecidableEq, Repr

/-- A compare record (R338): its 32 bytes and when it was formed or received. -/
structure CmpRec where
  bytes : List Byte
  tick : W64
  deriving DecidableEq, Repr

/-- Companion mode (R338, R339). -/
structure Comp where
  enable : Bool := false
  link : Nat := 0
  own : List CmpRec := []
  partner : List CmpRec := []
  /-- sideband words still to send, and those of a record that is arriving -/
  out : List (BitVec 32) := []
  arriving : List (BitVec 32) := []
  deriving DecidableEq, Repr

/-- Answers gathered to a multi-module sow (R333): the plot number on this module if it has one, who asked, the digest,
members that answered sown, refused, without the plot, and the code of a refusal. -/
structure Asked where
  plot : Option Nat
  src : Src
  digest : BitVec 256
  tick : W64
  sown : Nat := 0
  refused : Nat := 0
  without : Nat := 0
  code : Nat := 0
  /-- this module's own plot was refused -/
  bad : Bool := false
  deriving DecidableEq, Repr

/-- The links and what the domain is made of. -/
structure Lnk where
  links : Tbl Link := []
  comp : Comp := {}
  formed : Bool := false
  /-- the greatest tree distance from this module to a member of its domain (R332) -/
  reach : Nat := 0
  /-- a sundial slip has been found since start-up: multi-module orders are refused (R331) -/
  slipped : Bool := false
  /-- members of the domain -/
  members : Nat := 1
  asked : List Asked := []
  /-- the link by which the order of a sow tick and program digest came, to which its answers go (R333) -/
  askedBy : List (Nat × BitVec 256 × Nat) := []
  deriving DecidableEq, Repr

end Sys2Proof.Machine
end

