-- ==== Sys2Proof/Machine/StateSys.lean ====
section
/-! DEFINITION. The state of clocks and power (chapter 18), start-up (chapter 19), security (chapter 20), debug (chapter
21) and pins (chapter 22). -/

namespace Sys2Proof.Machine

/-! ## Clocks and power -/

/-- The sundial, the A-clock's runs, and the operating point (R261, R406 to R412). -/
structure Clk where
  sundial : W64 := 0
  /-- A-cycles since the first A-clock edge after tick 0 (R261) -/
  cycles : Nat := 0
  /-- A-cycles since cold reset -/
  total : Nat := 0
  /-- ticks of the current run that have passed; its length is 4, or 8 when stretched or paced -/
  ticks : Nat := 0
  runStretched : Bool := false
  runPaced : Bool := false
  /-- the source of the current run's stretch -/
  runSource : Nat := 0
  /-- the run's place in its window of 16 (R408) -/
  run : Nat := 0
  /-- the first tick of the current run -/
  runStart : W64 := 0
  /-- a detector that asserted during the current run, lowest source (R411) -/
  droop : Option Nat := none
  point : Nat := 0
  target : Nat := 0
  pending : Bool := false
  since : W64 := 0
  /-- a hold in progress: its first tick (R409) -/
  hold : Option W64 := none
  /-- the fast clamp and the thermal clamp are engaged (R414, R421) -/
  clamp : Bool := false
  thermClamp : Bool := false
  /-- the fast clamp is engaged by the input current (R471) -/
  clampAmps : Bool := false
  locked : Bool := false
  /-- the A-clock of the dies has stopped: root PLL lost, or thermal trip -/
  stopped : Bool := false
  /-- a trip read in this tick (R421) -/
  trip : Option (W64 × Nat × Nat) := none
  deriving DecidableEq, Repr

/-- The power manager (R413 to R418). -/
structure Pwr where
  cap : Nat := 2000
  k64 : Nat := 64
  /-- consecutive samples over 1.25 E, and under 0.5 E; the greatest ratio of the excursion as M and E -/
  overs : Nat := 0
  unders : Nat := 0
  bestM : Nat := 0
  bestE : Nat := 0
  lastSample : W64 := 0
  /-- ticks of the latest temperature reading and of the latest mulch step -/
  lastTherm : W64 := 0
  lastMulch : W64 := 0
  /-- mulch has been shed until a sample at or below 0.97 of the cap (R420) -/
  shed : Bool := false
  deriving DecidableEq, Repr

/-! ## Security -/

/-- A request for an attestation report (R448). -/
structure Attest where
  src : Src
  nonce : List Byte
  addr : Nat
  deriving DecidableEq, Repr

structure Sec where
  flash : Mem := []
  /-- the seed of the key store (R437, R438) -/
  seed : Option (BitVec 256) := none
  identity : BitVec 256 := 0
  fwDigest : BitVec 256 := 0
  /-- the owner key in force, with its sequence, scope and slot (R444) -/
  owner : Option (List Byte) := none
  ownerSeq : W64 := 0
  ownerScope : BitVec 3 := 0
  ownerSlot : Nat := 1
  ownerFw : Bool := false
  helper : Bool := false
  recDigests : Tbl (BitVec 256) := []
  recCount : Nat := 0
  /-- set by records: links held disabled, domain wait in ms, subsystem identifiers (R427) -/
  linksOff : BitVec 24 := 0
  domainWait : Nat := 1000
  subsystem : BitVec 32 := 0
  pending : Bool := false
  tapUsed : Bool := false
  /-- requests accepted, and the body of the one being signed -/
  attestQueue : List Attest := []
  attestBody : Option (Attest × List Byte) := none
  attestCount : BitVec 32 := 0
  /-- an enrolment in progress: where it was asked for and the 128 bytes accepted -/
  enrol : Option (Src × List Byte) := none
  /-- bit d: the entropy source of die d has failed (R450) -/
  entropyFail : BitVec 4 := 0
  /-- the frame of 64 A-cycles for which each die's source has delivered (R450) -/
  entropyFrame : Tbl (Option Nat) := []
  deriving DecidableEq, Repr

/-! ## Start-up, debug and pins -/

/-- A start-up that waits, at step 1 for a cooler module or at step 10 for its domain (R421, R429): its environment,
whether it is cold, and since when. -/
structure Boot where
  step : Nat
  env : BootEnv
  cold : Bool
  since : W64
  deriving DecidableEq, Repr

/-- A harvest in progress (R457): where it was asked for, the address and the length. -/
structure Harvest where
  src : Src
  addr : Nat
  len : Nat
  /-- the tick of its start -/
  start : Nat := 0
  deriving DecidableEq, Repr

structure Dbg where
  /-- an accepted frost: cut tick and multi-module; then the frost in force -/
  frostAt : Option (W64 × Bool) := none
  frozen : Bool := false
  conservation : Bool := false
  multi : Bool := false
  cut : W64 := 0
  thawAt : Option W64 := none
  thaw : W64 := 0
  harvest : Option Harvest := none
  /-- sampler: bytes of the buffer written, samples taken (R460) -/
  samples : Mem := []
  sampNext : Nat := 0
  sampled : Option W64 := none
  /-- which scan of the frozen state its unstated bytes are (R457): the model's own -/
  scan : Nat := 0
  /-- words that reads of DBG_HV_DATA have returned, latest first: the model's own record -/
  hvOut : List W64 := []
  trace : Mem := []
  -- TAP
  ir : BitVec 8 := 2
  boundary : List Bool := []
  /-- the data registers as their last use left them: identification, DBG_ACCESS, FLASH_ACCESS and its status bit -/
  idReg : BitVec 32 := 0
  dbgReg : BitVec 128 := 0
  flashReg : W64 := 0
  flashRefused : Bool := false
  ballsHeld : Bool := false
  /-- Quad-SPI frames sent, latest first: the model's own record of what leaves -/
  qspi : List W64 := []
  deriving DecidableEq, Repr

/-- DESIGN CHOICE, unsafe: log entry 8. -/
structure Pins where
  perst : Bool := true
  rails : Bool := false
  refclk : Bool := false
  thermtrip : Bool := false
  boot : Option Boot := none
  /-- a halted start-up (R433) -/
  halted : Bool := false
  /-- the fault cause that led to a recovery in progress, or 0 (R434) -/
  recovery : Nat := 0
  deriving DecidableEq, Repr

end Sys2Proof.Machine
end

