-- ==== Sys2Proof/Machine/State.lean ====
section
/-! DEFINITION. The state of the module, the reasons a command could stop, and the state right after reset. -/

namespace Sys2Proof.Machine

/-- Why a command could stop the model with a fault. No command of this block does: every error the spec describes is a
next state (R228, R249, R376, R434). -/
inductive Fault where
  /-- Raised by no meaning: safe. It stands here because the interface asks for a type. -/
  | none
  deriving DecidableEq, Repr

/-- Why a command could be refused. -/
inductive Refusal where
  /-- The command has no meaning yet: safe. Raised by an arm of exec that is still to be written. -/
  | notModelled (mnemonic : String)
  deriving DecidableEq, Repr

/-- The module. -/
structure State where
  /-- the commands that wait, first in first out: the model's own -/
  pending : List Instr := []
  /-- how many free values have been drawn: the model's own -/
  freeN : Nat := 0
  clk : Clk := {}
  pwr : Pwr := {}
  host : HostIf := {}
  plots : Tbl Plot := []
  recs : Tbl Rec := []
  /-- claims that firmware holds (R188, R272) -/
  fwClaims : List Claim := []
  beds : Tbl Bed := []
  grd : Grd := {}
  brw : Brw := {}
  ddr : Ddr := {}
  lnk : Lnk := {}
  sec : Sec := {}
  dbg : Dbg := {}
  pins : Pins := {}
  /-- registers stored as words, by BAR0 offset outside the bed windows -/
  regs : Tbl W64 := []
  deriving DecidableEq, Repr

/-- The module right after reset: nothing written, PERST# asserted, no rail good. DESIGN CHOICE, unsafe: log entry 6.
DESIGN CHOICE, unsafe: log entry 8. -/
def State.reset : State := {}

end Sys2Proof.Machine
end

