-- ==== Sys2Proof/Machine/Ops.lean ====
section
/-! DEFINITION. The named operations every command is made of: reading and writing the parts of the state, free values,
doorbells and vectors (R360), fault reports (R384, R385), run records (R399, R400), completions (R352, R359, R386),
claims (R188), companion records (R338, R339), stopping a plot (R228, R249, R376), and issuing a bed instruction
(R170, R177, R178). -/

namespace Sys2Proof.Machine

/-! ## Parts of the state -/

def State.bed (s : State) (p : Nat) : Bed := tget (fun _ => {}) s.beds p
def State.setBed (s : State) (p : Nat) (b : Bed) : State := { s with beds := tset (fun _ => {}) s.beds p b }
def State.plot (s : State) (p : Nat) : Plot := tget (fun _ => {}) s.plots p
def State.setPlot (s : State) (p : Nat) (x : Plot) : State := { s with plots := tset (fun _ => {}) s.plots p x }
def State.runRec (s : State) (p : Nat) : Rec := tget (fun _ => {}) s.recs p
def State.setRunRec (s : State) (p : Nat) (x : Rec) : State := { s with recs := tset (fun _ => {}) s.recs p x }
def State.ring (s : State) (r : Nat) : Ring := tget (fun _ => {}) s.host.rings r
def State.setRing (s : State) (r : Nat) (x : Ring) : State :=
  { s with host := { s.host with rings := tset (fun _ => {}) s.host.rings r x } }
def Ring.slot (x : Ring) (i : Nat) : Slot := tget (fun _ => {}) x.slots i
def Ring.setSlot (x : Ring) (i : Nat) (y : Slot) : Ring := { x with slots := tset (fun _ => {}) x.slots i y }
def State.chan (s : State) (c : Nat) : Chan := tget (fun _ => {}) s.brw.chans c
def State.setChan (s : State) (c : Nat) (x : Chan) : State :=
  { s with brw := { s.brw with chans := tset (fun _ => {}) s.brw.chans c x } }
def State.engine (s : State) (h : Nat) : Engine := tget (fun _ => {}) s.brw.engines h
def State.setEngine (s : State) (h : Nat) (x : Engine) : State :=
  { s with brw := { s.brw with engines := tset (fun _ => {}) s.brw.engines h x } }
def State.ctl (s : State) (c : Nat) : Ctl := tget (fun _ => {}) s.ddr.ctls c
def State.setCtl (s : State) (c : Nat) (x : Ctl) : State :=
  { s with ddr := { s.ddr with ctls := tset (fun _ => {}) s.ddr.ctls c x } }
def State.walker (s : State) (w : Nat) : Walker := tget (fun _ => {}) s.ddr.walkers w
def State.setWalker (s : State) (w : Nat) (x : Walker) : State :=
  { s with ddr := { s.ddr with walkers := tset (fun _ => {}) s.ddr.walkers w x } }
def State.link (s : State) (l : Nat) : Link := tget (fun _ => {}) s.lnk.links l
def State.setLink (s : State) (l : Nat) (x : Link) : State :=
  { s with lnk := { s.lnk with links := tset (fun _ => {}) s.lnk.links l x } }

/-- The reset word of a stored register outside the bed windows, by BAR0 offset; 0 where none is named. -/
def regReset (off : Nat) : W64 :=
  if off = 0x20100 then 0x14            -- GRD_FENCE_POLICY: ue_limit 4, auto 1
  else if off = 0x10308 then BitVec.ofNat 64 (528 + 528 * 2 ^ 11)   -- GLB_AUDIT_TRAY
  else if off = 0x10310 then 8192       -- GLB_AUDIT_TAGS
  else if off = 0x40020 then 40         -- PWR_DROOP_CFG
  else if off = 0x40028 then 1          -- PWR_MULCH
  else if off = 0x40040 then BitVec.ofNat 64 (95 + 102 * 2 ^ 8 + 110 * 2 ^ 16)   -- PWR_THERM_CFG
  else if off = 0x80010 then 3          -- BRW_RETRY_LIMIT
  else if off = 0xB1800 then BitVec.ofNat 64 (100000 * 2 ^ 7)   -- LNK_COMP_CTRL
  else if off = 0x100100 then 0x20      -- DBG_SAMP_CFG: period_log2 16
  else if off = 0x100200 then 0xF       -- DBG_TRC_CFG: no holder
  else 0

def State.reg (s : State) (off : Nat) : W64 := tget regReset s.regs off
def State.setReg (s : State) (off : Nat) (v : W64) : State := { s with regs := tset regReset s.regs off v }
/-- A field of a stored register. -/
def State.fld (s : State) (off lo n : Nat) : Nat := wfld (s.reg off) lo n
/-- A field of a stored register written. -/
def State.setFld (s : State) (off lo n v : Nat) : State := s.setReg off (wset (s.reg off) lo n v)
/-- A counting field of a stored register advanced, stopping at its largest value. -/
def State.bump (s : State) (off lo n k : Nat) : State := s.setReg off (wsat (s.reg off) lo n k)

/-- The sundial count (R18). -/
def State.now (s : State) : Nat := s.clk.sundial.toNat

/-- Whether the module is powered, clocked and out of cold reset (R423, R477). -/
def State.alive (s : State) : Bool := !s.pins.perst && s.pins.rails && s.pins.refclk

/-- HST_BOOT_STATUS.ready. -/
def State.ready (s : State) : Bool := s.fld 0x0 0 1 == 1

/-- Whether the A-clock of the dies runs: not frozen (R453), not stopped (R407, R421). -/
def State.running (s : State) : Bool := !s.dbg.frozen && !s.clk.stopped

/-- Ticks of the current run: 4, or 8 when it is stretched or paced (R408). -/
def Clk.runTicks (c : Clk) : Nat := if c.runStretched || c.runPaced then 8 else 4

/-- A-cycles of the current tick: 16, or 8 of a doubled run (R261, R408). -/
def Clk.tickCycles (c : Clk) : Nat := if c.runTicks = 8 then 8 else 16

/-- The A-cycle after the last one of the current tick. -/
def Clk.next (c : Clk) : Nat := c.cycles + c.tickCycles

/-- The tick of an A-cycle, reckoned by the present tick's A-cycles (R408). -/
def State.tickAt (s : State) (c : Nat) : Nat := s.now - ceilDiv (s.clk.cycles - c) s.clk.tickCycles

/-- A free value of w bits: no two draws are the same one. DESIGN CHOICE, safe: log entry 1. -/
def State.draw (s : State) (w : Nat) : BitVec w × State := (Config.freeValue w s.freeN, { s with freeN := s.freeN + 1 })

/-- The physical bed that holds a logical number (R346, R380). -/
def State.physOf (s : State) (b : Nat) : Option Nat :=
  (s.beds.find? fun e => e.2.mapped && e.2.logical == b).map (·.1)

/-- The physical beds of a plot. -/
def State.bedsOf (s : State) (p : Nat) : List Nat :=
  (s.beds.filter fun e => match e.2.job with | some j => j.plot == p | none => false).map (·.1)

/-- Every physical bed of a plot changed in the same way. -/
def State.mapBeds (s : State) (p : Nat) (f : Bed → Bed) : State :=
  (s.bedsOf p).foldl (fun (s : State) b => s.setBed b (f (s.bed b))) s

/-! ## Doorbells and vectors -/

/-- A word of the MSI-X table. DESIGN CHOICE, unsafe: log entry 3. -/
def HostIf.msix (h : HostIf) (i : Nat) : W64 := tget (fun _ => 0) h.msixTable i

/-- An MSI-X vector sent; a masked table entry keeps it in the pending-bit array (R341, Table 15.1). PRESUMED, unsafe:
log entry 40. -/
def State.sendVector (s : State) (v : Nat) : State :=
  if wfld (s.host.msix (2 * v + 1)) 32 1 = 1 then
    { s with host := { s.host with msixPending := s.host.msixPending ||| (1 <<< v) } }
  else { s with host := { s.host with msixSent := v :: s.host.msixSent } }

/-- An outbound doorbell bit set: its vector is sent on a change from 0 to 1, unless masked (R360). Before ready is set the
doorbells are out of service (R365, R367). -/
def State.setDoor (s : State) (b : Nat) : State :=
  if s.host.dbOut.getLsbD b || !s.ready then s
  else
    let s' : State := { s with host := { s.host with dbOut := s.host.dbOut ||| (1 <<< b) } }
    if s'.host.dbOutMask.getLsbD b then s' else s'.sendVector b

/-! ## Fault collector -/

/-- Identifiers of Table 16.4: class in [19:12], index in [11:0] (R382). -/
def unitId (cls index : Nat) : Nat := cls * 4096 + index

def Grd.entry (g : Grd) (e : Nat) : Flt := tget (fun _ => {}) g.flt e

/-- The first free index at or after a place, counting modulo 256 (R385). -/
def Grd.freeFrom (g : Grd) (k : Nat) : Option Nat :=
  ((List.range 256).map fun i => (k + i) % 256).find? fun e => !(g.entry e).valid

/-- A report of a unit (R384, R385). -/
def State.report (s : State) (unit reporter cause : Nat) (detail : Nat) : State :=
  let g := s.grd
  match g.flt.find? fun e => e.2.valid && e.2.unit == unit with
  | some e =>
    { s with grd := { g with flt := tset (fun _ => {}) g.flt e.1 { e.2 with count := satAdd 16 e.2.count 1 } } }
  | none =>
    match g.freeFrom g.fltNext with
    | none => { s with grd := { g with fltDropped := satAdd 32 g.fltDropped 1 } }
    | some e =>
      let f : Flt := { valid := true, unit, cause, count := 1, tick := s.clk.sundial, reporter,
                       detail := BitVec.ofNat 64 detail, order := g.fltOrder }
      let s' : State := { s with grd := { g with flt := tset (fun _ => {}) g.flt e f, fltNext := (e + 1) % 256,
                                                 fltOrder := g.fltOrder + 1 } }
      s'.setDoor 2

/-! ## Run records -/

/-- Event entries that a record holds (R398). -/
def recLimit : Nat := 65532

/-- Whether an event is written after another of the same tick: by kind, then bed, then index (R400). -/
def REvent.after (a b : REvent) : Bool :=
  a.tick == b.tick &&
    (decide (b.kind < a.kind) || a.kind == b.kind && (decide (b.bed < a.bed) || a.bed == b.bed && decide (b.index < a.index)))

/-- An event put behind the events of its record, before those of its tick that come after it. DEDUCED, unsafe: log
entry 29. -/
def putEvent (es : List REvent) (e : REvent) : List REvent :=
  let r := es.reverse
  ((r.dropWhile fun x => x.after e).reverse ++ [e]) ++ (r.takeWhile fun x => x.after e).reverse

/-- An event written into the open record of a plot; a full record only counts it (R400). DEDUCED, unsafe: log entry
29. -/
def State.event (s : State) (p kind bed index exec : Nat) (payload : List Byte) : State :=
  let r := s.runRec p
  if !r.isOpen then s
  else if r.events.length < recLimit then
    let e : REvent := { kind, bed, index, exec, tick := s.clk.sundial, payload := fitBytes 48 payload }
    s.setRunRec p { r with events := putEvent r.events e }
  else s.setRunRec p { r with dropped := satAdd 32 r.dropped 1, truncated := true }

/-- An event written with a tick of its own. -/
def State.eventAt (s : State) (tick : W64) (p kind bed index exec : Nat) (payload : List Byte) : State :=
  let t := s.clk.sundial
  let r := ({ s with clk := { s.clk with sundial := tick } } : State).event p kind bed index exec payload
  { r with clk := { r.clk with sundial := t } }

/-- A plot's stretch episode written into its record (R412). -/
def State.endEpisode (s : State) (p : Nat) : State :=
  match (s.plot p).episode with
  | none => s
  | some e =>
    (s.eventAt e.tick p 0x09 0xFF 0 0 (leBytes 4 e.runs ++ leBytes 1 e.source)).setPlot p { s.plot p with episode := none }

/-! ## Claims -/

/-- Whether two claims conflict (R188); shed buffers are claimed as counts (R190), and those of two entries of one table on one hub
add up. DESIGN CHOICE, unsafe: log entry 16. -/
def Claim.conflicts (a b : Claim) : Bool :=
  a.kind == b.kind && a.kind != 4 && overlaps a.first a.count b.first b.count &&
    (if a.kind == 2 || a.kind == 5 || a.kind == 6 || a.kind == 0xA || a.kind == 0xB then a.slots &&& b.slots != 0 else true)

/-- What firmware holds permanently (Table 12.1, R272). DEDUCED, unsafe: log entry 58. -/
def fwStatic : List Claim :=
  [{ kind := 3, first := 28, count := 4 }, { kind := 3, first := 60, count := 4 }, { kind := 4, first := 0, count := 256 },
   { kind := 4, first := 1, count := 256 }]

/-- The claims in force with their holders, 15 for firmware: those of plots from loading until released (R188, R194,
R195), and those of firmware. -/
def State.claims (s : State) : List (Nat × Claim) :=
  (s.plots.flatMap fun e => if e.2.state = 0 then [] else e.2.prog.claims.map fun c => (e.1, c)) ++
    (fwStatic ++ s.fwClaims).map fun c => (15, c)

/-- The holder of a resource index of a kind, with any of the slots given. -/
def State.holder (s : State) (kind index : Nat) (slots : W64) : Option Nat :=
  (s.claims.find? fun e => e.2.conflicts { kind, first := index, count := 1, slots }).map (·.1)

/-! ## Completions -/

/-- The 64 bytes of the descriptor that a request came by: a ring slot's own, or the equivalent of a mailbox message
(R386): the message's bytes 8 to 55 stand for descriptor bytes 16 to 63. -/
def State.request (s : State) (src : Src) : List Byte :=
  if src.mailbox then
    let m := tget (fun _ => []) s.host.mbReq src.idx.toNat
    [8, 0, 0, 0, 0, 0, 0, 0] ++ m.take 2 ++ zeros 6 ++ (m.drop 8).take 48
  else ((s.ring src.idx.toNat).slot src.slot.toNat).desc

/-- Whether a request is in progress: its slot is active and has started, or firmware has taken its message. -/
def State.asked (s : State) (src : Src) : Bool :=
  if src.mailbox then !(tget (fun _ => []) s.host.mbReq src.idx.toNat).isEmpty
  else
    let x := (s.ring src.idx.toNat).slot src.slot.toNat
    x.st == 2 && x.started

/-- Whether a request waits for a later event already. -/
def State.waits (s : State) (src : Src) : Bool := s.host.waiters.any fun w => w.src == src

/-- The reply to a mailbox request (R386). -/
def mboxReply (req : List Byte) (result : Nat) : List Byte :=
  req.take 2 ++ zeros 6 ++ leBytes 8 result ++ (req.drop 56).take 8 ++ zeros 40

/-- Whether a started slot belongs to its ring's chain in progress (R351). -/
def Ring.inChain (x : Ring) (i : Nat) : Bool :=
  let n := 2 ^ x.log2
  decide ((i + n - x.chain) % n < (x.start + n - x.chain) % n) || x.start == x.chain

/-- A request completed: a slot is held until its completion is posted (R352, R359); a mailbox request has its reply
made ready (R386). status: 0 completed, 1 error, 2 skipped. -/
def State.complete (s : State) (src : Src) (status code result : Nat) : State :=
  if src.mailbox then
    let i := src.idx.toNat
    let m := tget (fun _ => []) s.host.mbReq i
    { s with host := { s.host with
        mbReq := tset (fun _ => []) s.host.mbReq i [],
        mbReply := tset (fun _ => []) s.host.mbReply i (mboxReply m result),
        waiters := s.host.waiters.filter fun w => w.src != src } }
  else
    let r := src.idx.toNat
    let x := s.ring r
    let y := x.slot src.slot.toNat
    let s : State := { s with host := { s.host with waiters := s.host.waiters.filter fun w => w.src != src } }
    if y.st = 2 then
      let x := x.setSlot src.slot.toNat { y with st := 3, status, code, result := BitVec.ofNat 64 result, tick := s.now }
      s.setRing r (if status ≠ 0 ∧ x.inChain src.slot.toNat then { x with chainBad := true } else x)
    else s

/-- A request put to wait for a later event. -/
def State.await (s : State) (svc unit : Nat) (src : Src) (arg : Nat) : State :=
  { s with host := { s.host with waiters := s.host.waiters ++ [{ svc, unit, src, arg }] } }

/-- Every request that waits for a unit's event completed. -/
def State.answer (s : State) (svc unit status code result : Nat) : State :=
  (s.host.waiters.filter fun w => w.svc == svc && w.unit == unit).foldl
    (fun (s : State) w => s.complete w.src status code result) s

/-- A word in the layout of R192. -/
def reportWord (code holder kind index bed : Nat) : Nat :=
  code + (holder % 16) * 2 ^ 8 + (kind % 16) * 2 ^ 12 + (index % 65536) * 2 ^ 16 + (bed % 128) * 2 ^ 32

/-- A service's end: code 0 completes it, any other is an error with completion code 0x07 (R387). -/
def State.serve (s : State) (src : Src) (code : Nat) (value : Nat) : State :=
  if code = 0 then s.complete src 0 0 (value * 2 ^ 32)
  else s.complete src 1 0x07 (code + value * 2 ^ 32)

/-- A service in the request's words: opcode 0x08 and the service number. DESIGN CHOICE, unsafe: log entry 9. -/
def State.service (s : State) (src : Src) (n : Nat) : Bool :=
  s.asked src && !s.waits src && fieldAt (s.request src) 0 1 == 8 && fieldAt (s.request src) 8 2 == n

/-- A descriptor of an opcode. -/
def State.descriptor (s : State) (src : Src) (op : Nat) : Bool :=
  !src.mailbox && s.asked src && !s.waits src && fieldAt (s.request src) 0 1 == op

/-! ## Companion mode -/

/-- The 32 bytes of a compare record (R338): what formed it, the key (logical bed, index, execution count, S), and the
value. The bytes' order is the model's. DESIGN CHOICE, unsafe: log entry 20. -/
def cmpBytes (kind bed index exec sow value : Nat) : List Byte :=
  leBytes 1 kind ++ leBytes 1 bed ++ leBytes 2 index ++ leBytes 4 exec ++ leBytes 8 sow ++ leBytes 16 value

/-- A control flit put up on a link (R332). It holds a shed buffer for firmware, number 16 beside the plots (R237, R322). -/
def State.sendControl (s : State) (l : Nat) (code : Nat) (payload : List Byte) : State :=
  let k := s.link l
  s.setLink l { k with queue := k.queue ++
    [{ kind := 3, flow := 0, first := true, last := true, lines := 8, tag := code, payload := fitBytes 512 payload,
       plot := 16 }] }

/-- The links of the sow tree: this module's tree link and those of its children (R328). -/
def State.treeLinks (s : State) : List Nat :=
  (s.lnk.links.filter fun e => e.2.state == 2 && e.2.inDomain && (e.2.tree || e.2.child)).map (·.1)

/-- A control flit sent along every tree link but one (R332). -/
def State.flood (s : State) (but : Option Nat) (code : Nat) (payload : List Byte) : State :=
  (s.treeLinks.filter fun l => but != some l).foldl (fun (s : State) l => s.sendControl l code payload) s

/-- A companion mismatch (R339). -/
def State.mismatch (s : State) (kind : Nat) (r : List Byte) : State :=
  let bed := fieldAt r 1 1
  let index := fieldAt r 2 2
  let exec := fieldAt r 4 4
  let l := s.lnk.comp.link
  let s := if s.fld 0xB1808 0 1 = 1 then s
    else s.setReg 0xB1808 (BitVec.ofNat 64 (1 + kind * 2 + (bed % 128) * 2 ^ 3 + index * 2 ^ 10 + exec * 2 ^ 26))
  let s := s.report (unitId 8 l) (unitId 0xE (if l < 12 then 0 else 1)) 0x85 (kind + (bed % 128) * 2 ^ 2 + index * 2 ^ 9)
  let s := s.setDoor 8
  if s.fld 0xB1800 6 1 = 1 ∧ s.dbg.frostAt = none ∧ !s.dbg.frozen then
    let t := s.now + 64 * s.lnk.reach
    ({ s with dbg := { s.dbg with frostAt := some (BitVec.ofNat 64 t, true) } } : State).flood none 4 (leBytes 8 t)
  else s

/-- A record's key (R338): logical bed, instruction index, execution count and S, the kind that formed it left out. -/
def cmpKey (r : CmpRec) : List Byte := (r.bytes.drop 1).take 15

/-- Own and partner records matched by key: equal values are discarded, unequal ones are a mismatch (R339). -/
def State.settle (s : State) : State :=
  let c := s.lnk.comp
  match c.own.find? fun r => c.partner.any fun q => cmpKey q == cmpKey r with
  | none =>
    if c.own.length ≤ 1024 ∧ c.partner.length ≤ 1024 then s
    else
      let r := ((if 1024 < c.own.length then c.own else c.partner).getD 0 ⟨[], 0⟩)
      ({ s with lnk := { s.lnk with comp := { c with own := c.own.erase r, partner := c.partner.erase r } } } : State).mismatch
        1 r.bytes
  | some r =>
    let q := (c.partner.find? fun q => cmpKey q == cmpKey r).getD r
    let s : State := { s with lnk := { s.lnk with comp := { c with own := c.own.erase r, partner := c.partner.erase q } } }
    if q.bytes = r.bytes then s else s.mismatch 0 r.bytes

/-- A compare record formed on this module (R338): it waits for the partner's, and its words go out in the sideband.
DESIGN CHOICE, unsafe: log entry 20. -/
def State.compare (s : State) (kind bed index exec sow value : Nat) : State :=
  let c := s.lnk.comp
  if c.enable then
    let b := cmpBytes kind bed index exec sow value
    ({ s with lnk := { s.lnk with comp := { c with
        own := c.own ++ [⟨b, s.clk.sundial⟩],
        out := c.out ++ (chunks 4 8 b).map fun w => BitVec.ofNat 32 (leNat w) } } } : State).settle
  else s

/-! ## Power estimates -/

/-- The dynamic power factor of an operating point, in thousandths (Table 18.2). -/
def pointFactor (point : Nat) : Nat :=
  match point with
  | 0 => 1000
  | 1 => 684
  | 2 => 510
  | _ => 330

/-- A plot's peak: the largest over its weather-hint entries (R415). -/
def Program.peak (g : Program) : Nat := (g.hints.map fun h => fieldAt h 2 2).foldl max 0

/-- A plot's current weather-hint entry: entry 0 applies from sowing (R415). -/
def Plot.hintNow (x : Plot) : List Byte := x.prog.hints.getD (x.hint.getD 0) []

/-- base + the peaks of some plots at a point, in mW. -/
def State.peakSum (s : State) (point : Nat) (ps : List Nat) : Nat :=
  1000 * s.fld 0x40008 24 12 + ((ps.map fun p => (s.plot p).prog.peak * pointFactor point).sum)

/-- Whether k times that is at most the cap (R418). -/
def State.admits (s : State) (point : Nat) (ps : List Nat) : Bool :=
  decide (s.pwr.k64 * s.peakSum point ps ≤ s.pwr.cap * 64000)

/-- Plots in some states. -/
def State.plotsIn (s : State) (sts : List Nat) : List Nat :=
  (s.plots.filter fun e => sts.contains e.2.state).map (·.1)

/-- A plot boundary (R409, R418): when no plot is sown or completing, the target point is chosen; a change waits for its
hold. -/
def State.boundary (s : State) : State :=
  if (s.plotsIn [3, 4]).isEmpty then
    let target := ([0, 1, 2, 3].find? fun pt => s.admits pt (s.plotsIn [2])).getD 3
    { s with clk := { s.clk with target, pending := target != s.clk.point } }
  else s

/-! ## Stopping a plot -/

/-- The word of BED_SEQ_STOP (Table 9.13). -/
def stopWord (code index array addr : Nat) : W64 :=
  BitVec.ofNat 64 (1 + code * 2 + index * 2 ^ 9 + (array % 4) * 2 ^ 25 + (addr % 2 ^ 32) * 2 ^ 27)

/-- The A-cycle in which the last drain, store or runner transfer issued so far by a plot's beds finishes (R194, Table 17.3). -/
def State.busyTill (s : State) (p : Nat) : Nat := ((s.bedsOf p).map fun b => (s.bed b).busyTill).foldl max 0

/-- What the run record says at its end (Table 17.3): the counters of the plot's beds and channels, then it closes. -/
def State.closeRec (s : State) (p outcome code : Nat) : State :=
  let s := s.endEpisode p
  let s := (s.bedsOf p).foldl
    (fun (s : State) b =>
      let x := s.bed b
      s.event p 0x0B x.logical 0 0 (leBytes 8 (x.reg 0xC00).toNat ++ leBytes 8 (x.reg 0xC08).toNat)) s
  let s := ((s.plot p).prog.claims.filter fun c => c.kind == 3).foldl
    (fun (s : State) c => (upFrom c.first c.count).foldl
      (fun (s : State) ch => s.event p 0x0C 0xFF 0 0 (leBytes 1 ch ++ leBytes 8 (s.reg (0x81400 + 8 * ch)).toNat)) s) s
  let r := s.runRec p
  s.setRunRec p { r with isOpen := false, outcome := outcome, stopCode := code,
                         endTick := s.clk.sundial,
                         endCycle := s.busyTill p - (s.plot p).sowCycle,
                         varied := (s.bedsOf p).any fun b => (s.bed b).seq.varied }

/-- The transfers of a plot's channels dropped, their buffers returned to the claim (R284). -/
def State.dropTransfers (s : State) (p : Nat) : State :=
  let mine := fun (x : Option Xfer) => match x with
    | some t => (match t.plot with | some o => o.1 == p | none => false)
    | none => false
  let out := (s.brw.chans.filter fun e => mine e.2.cur).map (·.1)
  let s := s.brw.chans.foldl
    (fun (s : State) e =>
      if mine e.2.cur then
        s.setChan e.1 { e.2 with state := if e.2.state = 3 then 3 else 0, cur := none, next := none, buffers := 0 }
      else s) s
  if out = [] then s
  else [0, 1].foldl
    (fun (s : State) h =>
      let e := s.engine h
      let keep := fun (l : List Access) => l.filter fun x => !out.contains x.chan
      s.setEngine h { e with log := keep e.log, replayed := (keep (e.log.take e.replayed)).length }) s

/-- The result word of a SOW (Table 15.3, R333): members sown, refused and without the plot, and a code. -/
def State.sowWord (s : State) (p : Nat) (sown : Bool) (code : Nat) : Nat :=
  match s.lnk.asked.find? fun a => a.plot == some p with
  | some a => a.sown + a.refused * 2 ^ 16 + a.without * 2 ^ 32 + code * 2 ^ 48
  | none => (if sown then 1 else 2 ^ 16) + code * 2 ^ 48

/-- The gathering of answers for a plot's sow ended. -/
def State.unask (s : State) (p : Nat) : State :=
  { s with lnk := { s.lnk with asked := s.lnk.asked.filter fun a => a.plot != some p } }

/-- A plot stopped with a code (Table 16.2, R228, R249, R376). `at_` is the physical bed, index, array and address of
a stop at an instruction; without it every bed of the plot records the stop at the last instruction it issued. The
first stop is kept (R229, R379), and what was issued before it completes: words on their way land (R228). DEDUCED, unsafe: log entry 31. -/
def State.stopPlot (s : State) (p code : Nat) (at_ : Option (Nat × Nat × Nat × Nat)) : State :=
  let x := s.plot p
  if x.state = 2 ∨ x.state = 3 ∨ x.state = 4 then
    let sown := x.state != 2
    let s := match at_ with
      | some a => s.setBed a.1 ((s.bed a.1).setReg 0x20 (stopWord code a.2.1 a.2.2.1 a.2.2.2))
      | none => s.mapBeds p fun (b : Bed) => b.setReg 0x20 (stopWord code b.seq.index 0 0)
    let lead := match at_ with
      | some a => some a.1
      | none => (s.bedsOf p).head?
    let word := match lead with
      | some b => ((s.bed b).reg 0x20).toNat
      | none => (stopWord code 0 0 0).toNat
    let bed := match at_ with
      | some a => (s.bed a.1).logical
      | none => 0xFF
    let index := match at_ with
      | some a => a.2.1
      | none => 0
    let s := if sown then s.event p 0x0D bed index 0 (leBytes 8 word) else s
    let s := s.mapBeds p fun (b : Bed) => { b with seq := { b.seq with state := 6, wait := none } }
    let s := if sown then s.closeRec p 1 code else s
    let s := s.dropTransfers p
    let s := s.setPlot p { s.plot p with state := 5, stopCode := code, landings := [], runner := [], sowAt := none }
    let exec := match at_ with
      | some a => tget (fun _ => 0) (s.bed a.1).seq.execs a.2.1
      | none => 0
    let s := if sown then s.compare 3 bed index exec x.sowTick.toNat code else s
    let s := match x.sowSrc with
      | some src => ((s.complete src 1 0x07 (s.sowWord p sown code)).unask p).setPlot p { s.plot p with sowSrc := none }
      | none => s
    s.boundary
  else s

/-- Every sown or completing plot stopped with a code (R376). -/
def State.stopSown (s : State) (code : Nat) : State :=
  (s.plotsIn [3, 4]).foldl (fun (s : State) p => s.stopPlot p code none) s

/-! ## Recovery -/

/-- The module leaves service (R367, R434): ready clears and recovery sets, and the doorbells and mailboxes are
discarded. DEDUCED, unsafe: log entry 52. -/
def State.leaveService (s : State) : State :=
  let s := (s.setFld 0x0 0 1 0).setFld 0x0 2 1 1
  { s with host := { s.host with dbIn := 0, dbOut := 0, mbIn := [], mbOut := [], mbReq := [], mbReply := [] } }

/-- Recovery after a fault cause. DEDUCED, unsafe: log entry 52. -/
def State.recover (s : State) (cause : Nat) : State :=
  let s := s.leaveService
  { s with pins := { s.pins with recovery := cause } }

/-! ## Fences asked for -/

/-- A fence of a physical bed requested now (R379); of a bed already fenced, or already to be fenced, nothing (R378). -/
def State.askFence (s : State) (p : Nat) (remap : Bool) : State :=
  let b := s.bed p
  if b.admin = 2 ∨ b.admin = 3 ∨ b.fencePending.isSome ∨ b.fencing.isSome then s
  else s.setBed p { b with fencePending := some (s.now, remap) }

/-- Firmware fences a bed whose uncorrectable errors reach the limit (R378). -/
def State.watchEcc (s : State) (p : Nat) : State :=
  if s.fld 0x20100 4 1 = 1 ∧ s.fld 0x20100 0 4 ≤ wfld ((s.bed p).reg 0x800) 32 16 ∧ 0 < wfld ((s.bed p).reg 0x800) 32 16 then
    s.askFence p true
  else s

/-! ## Runner words -/

/-- Bytes landed in a bed in an A-cycle: 256 B words on four ports each, counted in the gauges where a program moves them: a
gauge's value depends only on the program (R238, R252, R459). A granule that a partial landing cannot read is left as it is
(R253); a fenced bed's port is cut off (R268). DEDUCED, unsafe: log entry 28. -/
def State.landBytes (s : State) (counted : Bool) (bed addr : Nat) (bytes : List Byte) (at_ : Nat) : State :=
  let b := s.bed bed
  if 2 ≤ b.admin then s
  else
    let r := b.putBytes 0 addr bytes
    let n := ceilDiv bytes.length 256
    let s := s.setBed bed (if counted then ((r.1.gauge 5 n).gauge 3 (4 * n)).finish at_ else r.1)
    (r.2.foldl (fun (s : State) o => match o with
      | .report cause detail => s.report (unitId 1 bed) (unitId 1 bed) cause detail
      | _ => s) s).watchEcc bed

/-- Bytes landed now. -/
def State.landWords (s : State) (counted : Bool) (bed addr : Nat) (bytes : List Byte) : State :=
  s.landBytes counted bed addr bytes s.clk.cycles

/-- Whether a word has a granule that cannot be corrected. -/
def Word.damaged (w : Word) : Bool := w.err.any fun e => decide (138 ≤ e.2)

/-- The order in which words land: by A-cycle, then by physical bed (R384). -/
def Word.before (w x : Word) : Bool := decide (w.due < x.due) || w.due == x.due && decide (w.bed < x.bed)

/-- A word put among those on their way, behind those that land before it. -/
def putWord (w : Word) : List Word → List Word
  | [] => [w]
  | x :: xs => if w.before x then w :: x :: xs else x :: putWord w xs

/-- The A-cycles in which n words that come to a route from a link or a hub land: λ after its slots from an A-cycle on, behind
the words already on their way over it (R238, R264, R321, R336). DEDUCED, unsafe: log entry 28. -/
def State.routeDues (s : State) (p : Nat) (r : Route) (start n : Nat) : List Nat :=
  let free := (s.plot p).words.foldl (fun a w => if w.segment = r.segment then max a (w.due + 1 - r.lambda) else a) 0
  (r.departures (max (max start s.clk.cycles) free) n).map (· + r.lambda)

/-- A word lands: its single-bit errors are corrected and counted; one that cannot be corrected is not written, but latched
and reported with its route segment blamed (R249, R267, Table 11.7). DEDUCED, unsafe: log entry 28. -/
def State.landWord (s : State) (w : Word) : State :=
  let n := (w.err.filter fun e => decide (e.2 < 138)).length
  let s := if n = 0 then s else s.bump 0x10208 0 32 n
  if w.damaged then
    let s := if s.fld 0x10200 0 1 = 1 then s
      else s.setReg 0x10200 (BitVec.ofNat 64 (1 + w.segment * 2 + (if w.bed < 256 then (s.bed w.bed).logical else w.bed - 256) * 2 ^ 13 + w.due % 64 * 2 ^ 21))
    s.report (unitId 6 w.segment) (if w.bed < 256 then unitId 1 w.bed else unitId 0xE (b2n (decide (256 + 0xA0 ≤ w.bed)))) 0x53 (w.due % 64)
  else if 256 ≤ w.bed then s
  else s.landBytes true w.bed w.addr w.bytes w.due

/-- The words of a plot that land by an A-cycle, in one bed or in all; what comes to a hub with one waits to be acted on. After a
damaged one the plot stops (R249). -/
def State.landDue (s : State) (p : Nat) (bed : Option Nat) (t : Nat) : State :=
  let x := s.plot p
  let mine := fun (w : Word) => decide (w.due ≤ t) && (bed == none || bed == some w.bed)
  let ws := x.words.filter mine
  if ws.isEmpty then s
  else
    let s := ws.foldl State.landWord (s.setPlot p { x with
      words := x.words.filter fun (w : Word) => !mine w
      came := x.came ++ (ws.filter fun w => !w.damaged).filterMap (·.cargo) })
    if ws.any Word.damaged then s.stopPlot p 0x53 none else s

/-! ## Issuing bed instructions -/

/-- Bytes of a trace record written (R460, R461): with wrap set a full buffer starts again, without it the record is
dropped. -/
def State.trace (s : State) (bytes : List Byte) : State :=
  let cfg := s.reg 0x100200
  let st := s.reg 0x100208
  if wfld st 19 1 = 1 then s.setReg 0x100208 (wsat st 20 32 1)
  else
    let n := wfld st 0 18
    let s : State := { s with dbg := { s.dbg with trace := mwrite 0 s.dbg.trace (16 * n) (fitBytes 16 bytes) } }
    if n + 1 < 262144 then s.setReg 0x100208 (wset st 0 18 (n + 1))
    else if wfld cfg 21 1 = 1 then s.setReg 0x100208 (wset (wset st 0 18 0) 18 1 1)
    else s.setReg 0x100208 (wset st 19 1 1)

/-- Whether a bed instruction's condition holds at the loops of its place (R178); a level that does not enclose it has
one iteration, number 0. DEDUCED, unsafe: log entry 30. -/
def enabled (h : Head) (loops : List LoopFrame) : Bool :=
  let f := loops.getD h.level.toNat { count := 1 }
  match h.cond.toNat with
  | 0 => true
  | 1 => f.iter == 0
  | 2 => f.iter + 1 == f.count
  | 3 => f.iter % 2 == 0
  | 4 => f.iter % 2 == 1
  | _ => false

/-- The next index, and the loops then in progress, innermost first: at a loop's end its next iteration begins or it is
left (R177). -/
def popLoops : Nat → List LoopFrame → Nat × List LoopFrame
  | pc, [] => (pc, [])
  | pc, f :: fs =>
    if pc = f.stop then
      if f.iter + 1 < f.count then (f.start, { f with iter := f.iter + 1 } :: fs) else popLoops pc fs
    else (pc, f :: fs)

/-- The same with the loops from the outermost. -/
def stepLoops (pc : Nat) (fs : List LoopFrame) : Nat × List LoopFrame :=
  ((popLoops pc fs.reverse).1, (popLoops pc fs.reverse).2.reverse)

/-- The word a bed's sequencer issues next. -/
def Bed.nextWord (b : Bed) : BitVec 128 := tget (fun _ => 0) b.store b.seq.pc

/-- The A-cycle in which a bed's next instruction issues: its gap after the issue before it, after A-cycle 0 or after the end
of a wait (R170, R174). -/
def Bed.due (b : Bed) : Nat := b.seq.last + bits b.nextWord.toNat 14 12

/-- Whether a bed issues an instruction now: its plot is sown, its sequencer runs, the A-clock runs, the word at its
place is the instruction's, and the A-cycle of its issue has begun by the end of this tick (R169, R170). DESIGN
CHOICE, unsafe: log entry 9. -/
def State.issues (s : State) (p : Nat) (i : Instr) : Bool :=
  let b := s.bed p
  s.running && b.seq.state == 3 && b.admin < 2 &&
    (match b.job with | some j => (s.plot j.plot).state == 3 | none => false) &&
    decide (b.due < s.clk.next) && encodeIns i == some b.nextWord

/-- What a bed's instruction sees of its place. -/
def State.ctx (s : State) (p : Nat) : Ctx :=
  let b := s.bed p
  let j := b.job.getD {}
  let g := (s.plot j.plot).prog
  { log := b.logical, phys := p, plot := j.plot, prog := g, list := g.lists.getD j.list {}, index := b.seq.pc,
    iters := b.seq.loops.map (·.iter), exec := tget (fun _ => 0) b.seq.execs b.seq.pc + 1, cyc := b.due }

/-- The runner words landed that a bed's next instruction finds in its memory, where it issues in this tick (R239). -/
def State.landed (s : State) (p : Nat) : State :=
  let b := s.bed p
  match b.job with
  | some j => if s.running && b.seq.state == 3 && decide (b.due < s.clk.next) then s.landDue j.plot (some p) b.due else s
  | none => s

/-- The bookkeeping of an issue (R170, R177, R178, R182): index, counts and loops; a loop instruction that is enabled
opens its loop. -/
def Bed.advance (b : Bed) (on : Bool) (varies : Bool) (opens : Option (Nat × Nat)) : Bed :=
  let q := b.seq
  let loops := match on, opens with
    | true, some o => q.loops ++ [{ start := q.pc + 1, stop := q.pc + 1 + o.2, count := o.1, iter := 0 }]
    | _, _ => q.loops
  let r := match on, opens with
    | true, some _ => (q.pc + 1, loops)
    | _, _ => stepLoops (q.pc + 1) loops
  { b with seq := { q with
      index := q.pc, pc := r.1, loops := r.2, iters := q.loops.map (·.iter), last := b.due, reckoned := q.reckoned + (b.due - q.last),
      issues := tset (fun _ => 0) q.issues q.pc (tget (fun _ => 0) q.issues q.pc + 1),
      execs := if on then tset (fun _ => 0) q.execs q.pc (tget (fun _ => 0) q.execs q.pc + 1) else q.execs,
      varied := q.varied || (on && varies) } }

/-- The issue trace of an enabled instruction (R461). -/
def State.traceIssue (s : State) (c : Ctx) : State :=
  let cfg := s.reg 0x100200
  if wfld cfg 0 4 = c.plot ∧ wfld cfg 14 1 = 1 ∧ wfld cfg 4 7 ≤ c.log ∧ c.log ≤ wfld cfg 4 7 + wfld cfg 11 3 then
    s.trace (leBytes 6 (s.tickAt c.cyc) ++ [1] ++ leBytes 1 c.log ++ leBytes 5 (c.cyc - (s.plot c.plot).sowCycle) ++
      leBytes 2 c.index)
  else s

/-- A bed instruction issued, its effect given over the whole state: nothing happens where the bed does not issue it;
a disabled instruction changes only the sequencer (R178), but that its place in the pairing of runner words counts
(R239). -/
def State.issueBoth (s : State) (b : BitVec 7) (h : Head) (i : Instr) (opens : Option (Nat × Nat))
    (f : Bool → Ctx → State → State) : State :=
  match s.physOf b.toNat with
  | none => s
  | some p =>
    let s := s.landed p
    if s.issues p i then
      let c := s.ctx p
      let on := enabled h (s.bed p).seq.loops
      let opcode := (s.bed p).nextWord.setWidth 8
      let s := s.setBed p ((s.bed p).advance on h.varies opens)
      if on then
        let s := if h.varies ∧ c.exec = 1 then
            s.event c.plot 0x0A c.log c.index c.exec [opcode] else s
        f true c (s.traceIssue c)
      else f false c s
    else s

/-- The same for an effect that only an enabled instruction has. -/
def State.issueWith (s : State) (b : BitVec 7) (h : Head) (i : Instr) (opens : Option (Nat × Nat))
    (f : Ctx → State → State) : State :=
  s.issueBoth b h i opens fun on c s => if on then f c s else s

/-- What a bed's instruction told the rest of the module, carried out. DEDUCED, unsafe: log entry 31. -/
def State.outs (s : State) (c : Ctx) (os : List BOut) : State :=
  os.foldl
    (fun (s : State) o => match o with
      | .event kind payload => s.event c.plot kind c.log c.index c.exec payload
      | .report cause detail => s.report (unitId 1 c.phys) (unitId 1 c.phys) cause detail
      | .halt code array addr =>
        -- the report of code 0x5B is the entropy source's own (Table 16.3)
        (if code = 0x5B then s else s.report (unitId 1 c.phys) (unitId 1 c.phys) code addr).stopPlot c.plot code
          (some (c.phys, c.index, array, addr))) s

/-- A bed's entropy buffer with at least n words: the source of its die, while it has not failed, delivers what is
missing in the A-cycles that the instruction takes, fresh words that are free values (R450). DESIGN CHOICE, safe: log
entry 59. -/
def State.topUp (s : State) (p log n : Nat) : State :=
  if s.sec.entropyFail.getLsbD (log / 32) then s
  else
    (List.range (n - (s.bed p).entropy.length)).foldl
      (fun (s : State) _ =>
        let w := s.draw 64
        w.2.setBed p { w.2.bed p with entropy := (w.2.bed p).entropy ++ [w.1] }) s

/-- A bed instruction issued whose effect is on its own bed. DESIGN CHOICE, unsafe: log entry 10. -/
def State.issue (s : State) (b : BitVec 7) (h : Head) (i : Instr) (body : Ctx → Bed → Bed × List BOut) : State :=
  s.issueWith b h i none fun c s =>
    let r := body c (s.bed c.phys)
    ((s.setBed c.phys r.1).outs c r.2).watchEcc c.phys

/-- The same for an instruction that takes n entropy words. -/
def State.issueFresh (s : State) (b : BitVec 7) (h : Head) (i : Instr) (n : Nat) (body : Ctx → Bed → Bed × List BOut) : State :=
  s.issueWith b h i none fun c s =>
    let s := s.topUp c.phys c.log n
    let r := body c (s.bed c.phys)
    ((s.setBed c.phys r.1).outs c r.2).watchEcc c.phys

end Sys2Proof.Machine
end

