-- ==== Sys2Proof/Machine/Lpddr.lean ====
section
/-! DEFINITION. LPDDR5 memory: its map onto controllers (R292), reads and their errors (R299), writes and the poison list
(R300), and LPDDR5_FRAME. -/

namespace Sys2Proof.Machine

/-- The bytes of module memory (R292). -/
def ddrSize : Nat := 768 * 2 ^ 30

/-- Where a 512 B unit lies (R292). -/
structure UnitPlace where
  ctl : Nat
  /-- the local unit v, and its bank set -/
  unit : Nat
  set : Nat
  rank : Nat
  pair : Nat
  bank : Nat
  column : Nat
  row : Nat
  deriving DecidableEq, Repr

/-- The place of unit u (R292). -/
def unitPlace (u : Nat) : UnitPlace :=
  let v := u / 24
  let set := v % 16
  let w := v / 16
  { ctl := u % 24, unit := v, set, rank := set / 8, pair := set % 8, bank := w % 2, column := w / 2 % 16, row := w / 32 }

/-- The controller of a unit, and its bank set (R292). -/
def ctlOf (u : Nat) : Nat := u % 24
def bankSet (u : Nat) : Nat := (unitPlace u).set

/-- The x16 channel of a byte of its unit (R292). -/
def channelOf (a : Nat) : Nat := a % 512 / 128

/-- The frame of LPDDR5 time that a tick lies in (R294). -/
def State.frame (s : State) : Nat := s.now / 80

/-- Whether the reads of a unit cannot be corrected in this tick (R299). -/
def State.unitFails (s : State) (u : Nat) : Bool := match s.ddr.failing with | some e => e.1 == u | none => false

/-- Whether a read of a unit gives its data: the unit is mapped, its controller in service, it is not poisoned, and neither the
array nor the link has an error that cannot be corrected (R299). -/
def State.unitOk (s : State) (u : Nat) : Bool :=
  decide (u < ddrSize / 512) && (s.ctl (ctlOf u)).state == 2 && !(s.ctl (ctlOf u)).poison.contains u && !s.unitFails u

/-- The units that bytes lie in. -/
def unitsOf (a n : Nat) : List Nat := if n = 0 then [] else upFrom (a / 512) ((a + n - 1) / 512 + 1 - a / 512)

/-- The first unit of a range that does not read. -/
def State.ddrBad (s : State) (a n : Nat) : Option Nat := (unitsOf a n).find? fun u => !s.unitOk u

/-- Bytes of module memory. DESIGN CHOICE, unsafe: log entry 5. -/
def State.ddrBytes (s : State) (a n : Nat) : List Byte := mread 0 s.ddr.mem a n

/-- The cause that MEM_UE_ADDR gives an uncorrectable read: of a failure that a command brings, whether the array or the link
failed is left open. DESIGN CHOICE, safe: log entry 67. -/
def State.readCause (s : State) (u : Nat) : Nat :=
  if (s.ctl (ctlOf u)).poison.contains u then 2
  else match s.ddr.failing with
    | some e => if e.1 = u then b2n e.2 else (s.draw 1).1.toNat
    | none => (s.draw 1).1.toNat

/-- An uncorrectable read of a mapped unit: counted, latched and reported with its controller blamed (R299). An unmapped one
has no controller (R292). -/
def State.ddrFail (s : State) (u : Nat) : State :=
  if ddrSize / 512 ≤ u then s else
  let c := ctlOf u
  let cause := s.readCause u
  let s : State := { s with freeN := s.freeN + 1 }
  let s := s.bump (0x90008 + 0x40 * c) 32 16 1
  let s := if s.fld (0x90010 + 0x40 * c) 0 1 = 1 then s
    else s.setReg (0x90010 + 0x40 * c) (BitVec.ofNat 64 (1 + cause * 2 + u * 2 ^ 3))
  s.report (unitId 4 c) (unitId 4 c) 0x80 (512 * u)

/-- The 64 B lines of a unit that a write covers. -/
def linesIn (a n u : Nat) : Nat :=
  ((List.range 8).map fun i => if a ≤ 512 * u + 64 * i ∧ 512 * u + 64 * i + 64 ≤ a + n then 2 ^ i else 0).sum

/-- A controller's part of a write in a frame: the units it wrote, and its poison list without the units that have been written
whole since they were listed, be it in parts (R300). DEDUCED, unsafe: log entry 35. -/
def Ctl.written (k : Ctl) (f a n : Nat) (us : List Nat) : Ctl :=
  let mine := k.poison.filter fun u => us.contains u
  let mended := mine.foldl (fun t u => tset (fun _ => 0) t u (tget (fun _ => 0) t u ||| linesIn a n u)) k.mended
  let whole := mine.filter fun u => tget (fun _ => 0) mended u == 255
  { k with
    wrote := k.wrote ++ us.map fun u => (f, u)
    poison := k.poison.filter fun u => !whole.contains u
    mended := whole.foldl (fun t u => tset (fun _ => 0) t u 0) mended }

/-- Bytes written to module memory: the writes of a controller that is not in service are dropped (R300). -/
def State.ddrWrite (s : State) (a : Nat) (bytes : List Byte) : State :=
  let n := bytes.length
  let us := unitsOf a n
  let live := fun u => decide (u < ddrSize / 512) && (s.ctl (ctlOf u)).state == 2
  let mem := if us.all live then mwrite 0 s.ddr.mem a bytes
    else us.foldl
      (fun m u =>
        if live u then
          let lo := max a (512 * u)
          let hi := min (a + n) (512 * u + 512)
          mwrite 0 m lo ((bytes.drop (lo - a)).take (hi - lo))
        else m) s.ddr.mem
  let s : State := { s with ddr := { s.ddr with mem } }
  (List.range 24).foldl
    (fun (s : State) c =>
      match us.filter fun u => ctlOf u == c && live u with
      | [] => s
      | mine => s.setCtl c ((s.ctl c).written s.frame a n mine)) s

/-- The units that a controller wrote in the frame before a frame and that are not poisoned. -/
def Ctl.suspects (k : Ctl) (f : Nat) : List Nat :=
  ((k.wrote.filter fun e => e.1 + 1 == f).map (·.2)).eraseDups.filter fun u => !k.poison.contains u

/-- A controller that has read its error logs in a frame. -/
def Ctl.logged (k : Ctl) (f : Nat) : Ctl := { k with wrote := k.wrote.filter fun e => decide (f ≤ e.1), logRead := some f }

/-- Units added to a poison list of 256; a list that would overflow takes the controller out of service (R300). -/
def Ctl.poisonAll (k : Ctl) (f : Nat) : Ctl × Nat × Bool :=
  let new := k.suspects f
  let p := k.poison ++ new
  if 256 < p.length then ({ k.logged f with state := 3, poison := p.take 256 }, new.length, true)
  else ({ k.logged f with poison := p }, new.length, false)

/-- LPDDR5_FRAME (R294, R300): once in every frame the write link error logs are read; a logged error poisons every unit that
the controller wrote in the frame before. DEDUCED, unsafe: log entry 35. -/
def execLpddr5Frame (c : BitVec 5) (logged : Bool) (s : State) : Host.Outcome State Fault Refusal :=
  let c := c.toNat
  let k := s.ctl c
  if 24 ≤ c ∨ k.state ≠ 2 ∨ k.logRead = some s.frame then .next s
  else if logged then
    let r := k.poisonAll s.frame
    let s := (s.setCtl c r.1).bump (0x90008 + 0x40 * c) 48 16 1
    let s := s.report (unitId 4 c) (unitId 4 c) 0x81 r.2.1
    .next (if r.2.2 then s.report (unitId 4 c) (unitId 4 c) 0x82 0 else s)
  else .next (s.setCtl c (k.logged s.frame))

end Sys2Proof.Machine
end

