-- ==== Sys2Proof/Machine/Landing.lean ====
section
/-! DEFINITION. Barrow descriptors (R273, R275), and when the units of a BRW's transfer are served, its words depart and the last
of them lands: the claimed LPDDR5 slots (R294, R297), pacing (R282), shed buffers (R283), runner slots (R238, R264), and the worst
case over every phase, the landing A-cycle (R243, R288). -/

namespace Sys2Proof.Machine

/-! ## Descriptors -/

/-- One side of a transfer: space (0 LPDDR5, 1 bed memory, 2 host), address, line length, lines, stride, format. -/
structure Side where
  space : Nat
  addr : Nat
  len : Nat
  lines : Nat
  stride : Int
  fmt : BitVec 4
  deriving Repr

/-- Word i of a descriptor. -/
def dword (d : List Byte) (i : Nat) : Nat := fieldAt d (8 * i) 8

/-- Side A (Table 12.2). -/
def sideA (d : List Byte) : Side :=
  { space := bits (dword d 6) 0 2, addr := dword d 0, len := bits (dword d 2) 0 24, lines := bits (dword d 2) 24 16 + 1,
    stride := signed 40 (bits (dword d 3) 0 40), fmt := BitVec.ofNat 4 (bits (dword d 6) 4 4) }

/-- Side B (Table 12.2). -/
def sideB (d : List Byte) : Side :=
  { space := bits (dword d 6) 2 2, addr := dword d 1, len := bits (dword d 4) 0 24, lines := bits (dword d 4) 24 16 + 1,
    stride := signed 40 (bits (dword d 5) 0 40), fmt := BitVec.ofNat 4 (bits (dword d 6) 8 4) }

def dConvert (d : List Byte) : Bool := bit (dword d 6) 12
def dTranspose (d : List Byte) : Bool := bit (dword d 6) 13
def dZero (d : List Byte) : Int := (bits (dword d 6) 14 8 : Nat)
def dPace (d : List Byte) : Nat := bits (dword d 6) 22 8
def dReserve (d : List Byte) : Nat := bits (dword d 6) 30 2
def dDepth (d : List Byte) : Nat := bits (dword d 6) 32 5 + 1
def dRange (d : List Byte) : Bool := bit (dword d 6) 37
def dSlot (d : List Byte) : Nat := bits (dword d 6) 38 3
def dDigest (d : List Byte) : Bool := bit (dword d 6) 41

/-- The address of a side's line (R275). -/
def Side.line (x : Side) (i : Nat) : Nat := ((x.addr : Int) + (i : Int) * x.stride).toNat

/-- The 64 bytes of a descriptor from its words. -/
def descBytes (ws : List Nat) : List Byte := (List.range 8).flatMap fun i => leBytes 8 (ws.getD i 0)

/-! ## Claims -/

/-- Whether a plot claims a resource index of a kind. -/
def Program.claimsOf (g : Program) (kind index : Nat) : Bool :=
  g.claims.any fun c => c.kind == kind && decide (c.first ≤ index) && decide (index < c.first + c.count)

/-- The slots that a plot claims of a resource index. -/
def Program.slotsOf (g : Program) (kind index : Nat) : W64 :=
  (g.claims.filter fun c => c.kind == kind && decide (c.first ≤ index) && decide (index < c.first + c.count)).foldl
    (fun (m : W64) c => m ||| c.slots) 0

/-- The slots that a plot claims of each controller for its transfers: not those of its walkers (R297, R304). -/
def Program.ddrSlots (g : Program) : List W64 :=
  let walk := (g.claims.filter fun c => c.kind == 0xB).foldl (fun (m : W64) c => m ||| c.slots) 0
  (List.range 24).map fun c => g.slotsOf 5 c &&& ~~~walk

/-! ## Slots -/

/-- A-cycles of an LPDDR5 data slot and of a frame of 64 of them, at the A-clock's full rate (R294). -/
def slotCycles : Nat := 20
def frameCycles : Nat := 64 * slotCycles

/-- What a transfer moves over: the claimed slots of each controller, the route of its words, and its descriptor. -/
structure Path where
  claims : List W64
  route : Route
  desc : List Byte
  deriving Repr

/-- The parts of a side's lines that lie in one unit each, in the order of their accesses: address and bytes (R275, R281). -/
def Side.pieces (a : Side) : List (Nat × Nat) :=
  (List.range a.lines).flatMap fun i =>
    let at_ := a.line i
    (unitsOf at_ a.len).map fun u => (max at_ (512 * u), min (at_ + a.len) (512 * u + 512) - max at_ (512 * u))

/-- The units of side A in the order of their accesses, each with the bytes of side B that it fills (R275, R281). -/
def Path.units (p : Path) : List (Nat × Nat) :=
  let wa := (fmtOf (sideA p.desc).fmt).width
  let wb := (fmtOf (sideB p.desc).fmt).width
  (sideA p.desc).pieces.map fun e => (e.1 / 512, ceilDiv (e.2 * wb) wa)

/-- Whether a data slot is claimed on some controller. -/
def Path.open_ (p : Path) (slot : Nat) : Bool := p.claims.any fun m => m.getLsbD slot

/-- Whether pacing lets the i-th claimed slot be used (R282). -/
def paced (n i : Nat) : Bool := n == 0 || decide (i * n / 256 < (i + 1) * n / 256)

/-- The place before a transfer's first data slot. -/
def Path.before (p : Path) : Spot := { may := dPace p.desc == 0 }

/-- The next place, which is a data slot of the frame. -/
def Path.enter (p : Path) (k : Spot) (slot : Nat) : Spot :=
  let c := p.open_ slot
  { k with seen := if c then k.seen + 1 else k.seen, may := k.may || (c && paced (dPace p.desc) k.seen), used := [] }

/-- Whether a data slot serves a unit: claimed on its controller, of its bank set, not taken, and allowed by pacing, which lets no
more than n of 256 consecutive ones be used (R282, R294, R297). A slot that pacing allows and no ready unit can use passes to
the next one that can. DESIGN CHOICE, unsafe: log entry 63. -/
def Path.serves (p : Path) (k : Spot) (slot unit : Nat) : Bool :=
  let n := dPace p.desc
  (p.claims.getD (ctlOf unit) 0).getLsbD slot && slot % 16 == bankSet unit && !k.used.contains (ctlOf unit) &&
    (n == 0 || k.may && (match k.turns[n - 1]? with | some q => decide (256 ≤ k.seen - q) | none => true))

/-- The place with a unit served in it. -/
def Path.take (p : Path) (k : Spot) (unit : Nat) : Spot :=
  let n := dPace p.desc
  { k with may := n == 0, turns := if n = 0 then [] else (k.seen :: k.turns).take n, used := ctlOf unit :: k.used }

/-- The place at which a unit is served: the first slot that serves it at or after a position (R297), and that position; the first
data slot is `first` of the frame. -/
def Path.serve (p : Path) (first unit ready : Nat) : Nat → Nat × Spot → Nat × Spot
  | 0, k => k
  | fuel + 1, k =>
    if decide (ready ≤ k.1) && p.serves k.2 ((first + k.1) % 64) unit then (k.1, p.take k.2 unit)
    else p.serve first unit ready fuel (k.1 + 1, p.enter k.2 ((first + k.1 + 1) % 64))

/-! ## Transfers -/

/-- How far a transfer has come: its place among the data slots, the A-cycle in which the latest unit's bytes can depart, that
after the latest word's departure, and those in which buffers are free again, latest first. -/
structure Leg where
  spot : Nat × Spot
  data : Nat
  sent : Nat
  free : List Nat := []
  deriving Repr

/-- Words departing in a route's slots: the A-cycle after the last (R238). -/
def Route.sentAfter (r : Route) (at_ n : Nat) : Nat :=
  match (r.departures at_ n).getLast? with
  | some t => t + 1
  | none => at_

/-- One unit of a transfer whose first data slot begins in A-cycle t0: ready with a free buffer, served, and its words sent. Words
take slots of the transfer's route once, whichever hub's controller their data come from (R271). DESIGN CHOICE, unsafe: log
entry 63. -/
def Path.unit (p : Path) (first t0 : Nat) (g : Leg) (u : Nat × Nat) : Leg :=
  let room := if dTranspose p.desc then 0 else g.free.getD (dDepth p.desc - 1) 0
  let ready := ceilDiv (room - t0) slotCycles
  let spot := p.serve first u.1 ready (16448 + ready) g.spot
  let data := t0 + slotCycles * (spot.1 + 1) + Config.unitDelay
  if dTranspose p.desc then { g with spot, data }
  else
    let sent := p.route.sentAfter (max data g.sent) (ceilDiv u.2 256)
    { spot, data, sent, free := sent :: g.free }

/-- The A-cycle in which the last word of a transfer lands that starts in A-cycle c, at a phase of the LPDDR5 frame. -/
def Path.lands (p : Path) (c phase : Nat) : Nat :=
  let t0 := c + (slotCycles - phase % slotCycles) % slotCycles
  let first := ceilDiv phase slotCycles
  let g := p.units.foldl (p.unit first t0) { spot := (0, p.enter p.before (first % 64)), data := c, sent := c }
  let out := (sideB p.desc).len * (sideB p.desc).lines
  (if dTranspose p.desc then p.route.sentAfter g.data (ceilDiv out 256) else g.sent) - 1 + p.route.lambda

/-- The phases of the LPDDR5 frame in an A-cycle: runner frames of 64 A-cycles begin with a tick divisible by 4, LPDDR5 frames
of 1,280 with one divisible by 80 (R261, R294). -/
def phasesAt (c : Nat) : List Nat := (List.range 20).map fun j => (c + 64 * j) % frameCycles

/-- The landing A-cycle of a transfer that starts in A-cycle c: the worst case over every phase, and where its place
in the runner's frame is not known, after a wait, over every such place (R243); with its retry reserve (R288).
DEDUCED, unsafe: log entry 63. -/
def Path.landing (p : Path) (c : Nat) (waited : Bool) : Nat :=
  let worst := fun (k : Nat) => ((phasesAt k).map fun f => p.lands k f - k).foldl max 0
  c + (if waited then ((List.range 64).map worst).foldl max 0 else worst (c % 64)) + 2048 * dReserve p.desc

/-- The data slot of LPDDR5, counted from tick 0, that begins in a tick, if one does: slots are 80 cycles of the root clock long
and ticks 64 (R294). -/
def slotIn (tick : Nat) : Option Nat :=
  let j := ceilDiv (4 * tick) 5
  if 5 * j / 4 = tick then some j else none

/-- The last data slot that has begun by the end of a tick. -/
def slotBy (tick : Nat) : Nat := ceilDiv (4 * (tick + 1)) 5 - 1

/-- The A-cycle in which a data slot of the current tick begins. -/
def State.slotCycle (s : State) (j : Nat) : Nat := s.clk.cycles + (80 * j - 64 * s.now) * s.clk.tickCycles / 64

end Sys2Proof.Machine
end

