-- ==== Sys2Proof/Machine/Names.lean ====
section
/-! DEFINITION. What a program's instructions name (R185, R306), and conflicts between claims (R188, R190): what the
loader and the nursery both ask. -/

namespace Sys2Proof.Machine

/-- The tensor of a 24-bit reference. -/
def refTensor (r : BitVec 24) : Nat := r.toNat % 4096

/-- The tensor indices that an instruction names (R197); a field that its instruction does not use names nothing. -/
def namedBy : Instr → List Nat
  | .fill _ _ _ src _ _ _ => [refTensor src]
  | .cbld _ _ _ t => [t.toNat]
  | .mload _ _ _ _ _ _ _ src _ => [refTensor src]
  | .pass _ _ _ _ _ _ _ _ preEn corrEn pre corr =>
    (if preEn then [refTensor pre] else []) ++ (if corrEn then [refTensor corr] else [])
  | .spill _ _ _ _ _ barrel _ => [refTensor barrel]
  | .rdrain _ _ _ barrel _ _ _ => [refTensor barrel]
  | .drain _ _ _ _ source _ _ toReg dst _ _ _ _ _ _ barrel _ =>
    (if toReg then [] else [refTensor dst]) ++ (if source then [refTensor barrel] else [])
  | .vld _ _ _ _ src _ _ => [refTensor src]
  | .vst _ _ _ _ dst _ _ _ => [refTensor dst]
  | .mcvt _ _ src dst _ _ => [refTensor src, refTensor dst]
  | .sfn _ _ func src op2 dst _ => [refTensor src, refTensor dst] ++ (if func.toNat < 16 then [] else [refTensor op2])
  | .smax1 _ _ src mask maskEn _ _ _ _ => refTensor src :: (if maskEn then [mask.toNat] else [])
  | .smax2 _ _ src mask maskEn _ _ dst _ => [refTensor src, dst.toNat] ++ (if maskEn then [mask.toNat] else [])
  | .smaxm _ _ src _ => [refTensor src]
  | .smaxx _ _ _ dst => [refTensor dst]
  | .sieve _ _ src _ _ _ _ _ => [refTensor src]
  | .sievem _ _ src _ _ _ _ _ => [refTensor src]
  | .sieveo _ _ dst => [refTensor dst]
  | .napply _ _ src dst gamma beta betaEn _ _ =>
    [refTensor src, dst.toNat, gamma.toNat] ++ (if betaEn then [beta.toNat] else [])
  | .statx _ _ _ _ dst => [refTensor dst]
  | .statm _ _ _ _ src => [refTensor src]
  | .pick _ _ _ target _ _ => [target.toNat]
  | .rpx _ _ _ dst => [refTensor dst]
  | .rpm _ _ _ _ src => [refTensor src]
  | .vtld _ _ image _ => [image.toNat]
  | .lrecv _ _ link _ _ dst _ => if link = 31 then [] else [refTensor dst]
  | .tag _ _ tensor _ _ => [tensor.toNat]
  | .brw _ _ _ _ bed _ _ _ _ => [refTensor bed]
  | .rsend _ _ _ src _ => [refTensor src]
  | .rrecv _ _ _ dst _ => [refTensor dst]
  | .lsend _ _ _ _ _ src _ => [refTensor src]
  | .lcoll _ _ _ _ _ src dst _ => [refTensor src, refTensor dst]
  | _ => []

/-- The instructions of a list. -/
def IList.ins (l : IList) : List Instr := l.code.filterMap (decodeIns 0)

/-- Whether an instruction of a program names a tensor. -/
def Program.names (g : Program) (t : Nat) : Bool := g.lists.any fun l => l.ins.any fun i => (namedBy i).contains t

/-- The bytes from a tensor's first to its last. -/
def Tensor.extent (t : Tensor) : Nat :=
  (t.ext.getD 1 1 - 1) * t.stride.getD 0 0 + (t.ext.getD 2 1 - 1) * t.stride.getD 1 0 +
    (t.ext.getD 3 1 - 1) * t.stride.getD 2 0 + ceilDiv (t.ext.getD 0 1 * (fmtOf t.fmt).width) 8

/-! ## Claims -/

/-- Shed buffers claimed on a hub. -/
def shedOf (h : Nat) (cs : List Claim) : Nat :=
  ((cs.filter fun c => c.kind == 4 && c.first == h).map (·.count)).sum

/-- The lowest n numbers from one on that no run of a rising list holds, as runs. -/
def freeRuns : List (Nat × Nat) → Nat → Nat → List (Nat × Nat)
  | [], at_, n => if n = 0 then [] else [(at_, n)]
  | r :: rs, at_, n =>
    let k := min (r.1 - at_) n
    (if k = 0 then [] else [(at_, k)]) ++ freeRuns rs (max at_ (r.1 + r.2)) (n - k)

/-- A run put among runs in rising order. -/
def insertRun (x : Nat × Nat) : List (Nat × Nat) → List (Nat × Nat)
  | [] => [x]
  | r :: rs => if x.1 < r.1 then x :: r :: rs else r :: insertRun x rs

/-- The numbers of the shed buffers that a plot gets (R190): of each hub the lowest that no plot has and that are not among
the first 256, firmware's. DESIGN CHOICE, safe: log entry 32. -/
def State.shedNumbers (s : State) (cs : List Claim) : List (Nat × Nat × Nat) :=
  [0, 1].flatMap fun h =>
    let held := (s.plots.flatMap fun e => (e.2.shed.filter fun x => x.1 == h).map (·.2)).foldl (fun l x => insertRun x l) []
    (freeRuns held 256 (shedOf h cs)).map fun x => (h, x)

/-- The conflicts of some claims with those in force (R188, R190): the holder, the kind and the index of each. Shed buffers that
are too few have firmware as the holder named, whoever holds them. DESIGN CHOICE, unsafe: log entry 16. -/
def State.clashes (s : State) (mine : List Claim) : List (Nat × Nat × Nat) :=
  let held := s.claims
  mine.flatMap fun c =>
    if c.kind = 4 then
      if 4096 < shedOf c.first mine + shedOf c.first (held.map (·.2)) then [(15, 4, c.first)] else []
    else
      (held.filter fun e => e.2.conflicts c).map fun e => (e.1, c.kind, max c.first e.2.first)

/-- The first of them. -/
def State.clash (s : State) (mine : List Claim) : Option (Nat × Nat × Nat) := (s.clashes mine).head?

end Sys2Proof.Machine
end

