-- ==== Sys2Proof/Machine/Accum.lean ====
section
/-! DEFINITION. Exact accumulation (chapter 3) and the terms of the four product paths (chapter 5): classes and causes,
sums and their overflow, min and max, products, and the rounding of moving operands to P bits. -/

namespace Sys2Proof.Machine

/-- The 2-bit code of a class (R51), and back. -/
def Cls.code : Cls → Nat
  | .fin => 0 | .pinf => 1 | .ninf => 2 | .nan => 3

def clsOfNat : Nat → Cls
  | 0 => .fin | 1 => .pinf | 2 => .ninf | _ => .nan

/-- The infinity of a sign. -/
def infOf (neg : Bool) : Cls := if neg then .ninf else .pinf

/-- The class of a sum (Table 3.5). -/
def sumCls : Cls → Cls → Cls
  | .fin, c => c
  | c, .fin => c
  | .pinf, .pinf => .pinf
  | .ninf, .ninf => .ninf
  | _, _ => .nan

/-- A sum of two entries without an overflow check: values add while both are finite; otherwise the class is that of
Table 3.5, the value bits are zero, and the cause of the first change away from finite stays (R56, R57). -/
def Entry.plus (e a : Entry) : Entry :=
  if e.cls = .fin ∧ a.cls = .fin then { n := e.n + a.n, cls := .fin, cause := 0 }
  else { n := 0, cls := sumCls e.cls a.cls, cause := if e.cls = .fin then a.cause else e.cause }

/-- The overflow rule of R59 and R63 for a value that must lie in [-2^w, 2^w): beyond it the entry becomes the infinity
of its sign with cause accumulator overflow, or under qp1_compat saturates to [-2^v, 2^v) and sets the sticky bit (R66). -/
def Entry.limit (e : Entry) (w : Nat) (compat : Bool) (v : Nat) : Entry × Bool :=
  if e.cls = .fin ∧ (e.n < -(2 ^ w : Nat) ∨ (2 ^ w : Nat) ≤ e.n) then
    if compat then ({ e with n := if e.n < 0 then -(2 ^ v : Nat) else (2 ^ v : Nat) - 1 }, true)
    else ({ n := 0, cls := infOf (decide (e.n < 0)), cause := 4 }, false)
  else (e, false)

/-- Width of the LSB weight, and the bounds of trough and rain-barrel values, of single and paired columns (R48 to R51). -/
def lsbOf (paired : Bool) : Nat := if paired then 256 else 128
def troughBits (paired : Bool) : Nat := if paired then 513 else 257
def barrelBits (paired : Bool) : Nat := if paired then 575 else 319
def satBits (paired : Bool) : Nat := if paired then 511 else 255

/-- Whether a semiring combines by min or max: compare path, min-plus or max-plus (Table 5.4). -/
def Prec.isMinMax (p : Prec) : Bool := p.path == 3 && p.sem.toNat ≥ 2
def Prec.isMax (p : Prec) : Bool := p.sem == 3

/-- The cleared entry of a reduction: finite zero, or the identity of min-plus or max-plus (R59, R106, R109). -/
def Prec.ident (p : Prec) : Entry :=
  if p.isMinMax then { n := 0, cls := if p.isMax then .ninf else .pinf, cause := 0 } else {}

/-- Table 5.5: an entry and a term combined by min (or by max, the infinities exchanged). The cause is that of the first
change to NaN or to the absorbing infinity (R109). -/
def Entry.best (isMax : Bool) (e t : Entry) : Entry :=
  let absorb : Cls := if isMax then .pinf else .ninf
  let ident : Cls := if isMax then .ninf else .pinf
  if e.cls = .nan then e
  else if t.cls = .nan then { n := 0, cls := .nan, cause := if e.cls = absorb then e.cause else t.cause }
  else if e.cls = absorb then e
  else if t.cls = absorb then { n := 0, cls := absorb, cause := t.cause }
  else if t.cls = ident then e
  else if e.cls = ident then { t with cause := 0 }
  else { n := if isMax then max e.n t.n else min e.n t.n, cls := .fin, cause := 0 }

/-- Two entries combined under a precision state. -/
def Prec.combine (p : Prec) (e t : Entry) : Entry := if p.isMinMax then e.best p.isMax t else e.plus t

/-- A dyadic value as m * 2^e. -/
def dyOf (x : Ex) : Int × Int :=
  match exNorm x with
  | [(m, q)] => (m, q / 512)
  | _ => (0, 0)

/-- The integer that m * 2^e is in units of 2^-l. -/
def inLsb (m e : Int) (l : Nat) : Int := shiftFloor m (-(e + l))

/-- A finite value rounded to P significand bits, nearest, ties to even (R93). -/
def roundP (p : Nat) (v : Val) : Val :=
  match v with
  | .fin x =>
    let d := dyOf x
    let a := d.1.natAbs
    let drop := Nat.log2 a + 1 - p
    if a = 0 ∨ drop = 0 then v
    else
      let r := roundHE ((a / 2 ^ (drop - 1) : Nat) : Int) (a % 2 ^ (drop - 1) != 0)
      .fin (exDy (if d.1 < 0 then -r else r) (d.2 + drop))
  | w => w

/-- The class rules of a product (R55), with the finite case given. -/
def mulEntry (x y : Val) (fin : Ex → Ex → Int) : Entry :=
  match x, y with
  | .nan, _ => { n := 0, cls := .nan, cause := 1 }
  | _, .nan => { n := 0, cls := .nan, cause := 1 }
  | .fin a, .fin b => { n := fin a b, cls := .fin, cause := 0 }
  | u, v =>
    if u.isZero || v.isZero then { n := 0, cls := .nan, cause := 3 }
    else { n := 0, cls := infOf (u.isNeg != v.isNeg), cause := 2 }

/-- An exact product in units of 2^-l (R50). -/
def exactMul (l : Nat) (a b : Ex) : Int :=
  let x := dyOf a
  let y := dyOf b
  inLsb (x.1 * y.1) (x.2 + y.2) l

/-- The value 2^(q/512) with its significand rounded to 24 bits, in units of 2^-l, times 2^-s (R58, R102). -/
def antilogLsb (neg : Bool) (q s : Int) (l : Nat) : Int :=
  let r := inLsb (antilog (q % 512).toNat) (q / 512 - 23 - s) l
  if neg then -r else r

/-- log_product of R102: the logs add, the antilog table rounds once. -/
def logMul (l : Nat) (a b : Ex) : Int :=
  match exNorm a, exNorm b with
  | [(m, q)], [(n, r)] => antilogLsb (decide (m * n < 0)) (q + r) 0 l
  | _, _ => 0

/-- Bits that differ between two bytes (Table 5.4, Hamming). -/
def popXor (a b : Nat) : Nat := (List.range 8).countP fun i => a.testBit i != b.testBit i

/-- The term of cell (k, n) for a moving and a stationary value (Tables 5.1 and 5.4, R55, R102, R108). F8 operands are
given as their raw codes, Hamming operands as bytes. -/
def Prec.term (p : Prec) (a w : Val) : Entry :=
  let l := lsbOf p.paired
  if p.path = 2 then mulEntry a w (logMul l)
  else if p.path = 3 then
    match p.sem.toNat with
    | 0 => match a, w with
      | .fin x, .fin y => { n := (popXor (dyOf x).1.toNat (dyOf y).1.toNat : Int) * 2 ^ l }
      | _, _ => {}
    | 1 => match a, w with
      | .nan, _ => { n := 0, cls := .nan, cause := 1 }
      | _, .nan => { n := 0, cls := .nan, cause := 1 }
      | .inf s, .inf t => if s = t then { n := 0, cls := .nan, cause := 3 } else { n := 0, cls := .pinf, cause := 2 }
      | .fin x, .fin y => let d := dyOf (exSub x y); { n := (inLsb d.1 d.2 l).natAbs }
      | _, _ => { n := 0, cls := .pinf, cause := 2 }
    | _ => match a, w with
      | .nan, _ => { n := 0, cls := .nan, cause := 1 }
      | _, .nan => { n := 0, cls := .nan, cause := 1 }
      | .inf s, .inf t => if s = t then { n := 0, cls := infOf s, cause := 2 } else { n := 0, cls := .nan, cause := 3 }
      | .inf s, .fin _ => { n := 0, cls := infOf s, cause := 2 }
      | .fin _, .inf t => { n := 0, cls := infOf t, cause := 2 }
      | .fin x, .fin y => let d := dyOf (exAdd x y); { n := inLsb d.1 d.2 l }
  else mulEntry a w (exactMul l)

/-- The terms of one column over its real rows, in rising row order (Table 3.4, R106). -/
def Prec.column (p : Prec) (as ws : List Val) : Entry :=
  ((as.zip ws).map fun x => p.term x.1 x.2).foldl p.combine p.ident

/-- The side adder's term: the sum of a moving element's values as fed, times -z_w (R163). -/
def sideTerm (p : Prec) (zw : Int) (as : List Val) : Entry :=
  if zw = 0 then {}
  else
    let l := lsbOf p.paired
    let s := (as.map fun v => match v with
      | .nan => ({ n := 0, cls := .nan, cause := 1 } : Entry)
      | .inf g => { n := 0, cls := infOf g, cause := 2 }
      | .fin x => { n := inLsb (dyOf x).1 (dyOf x).2 l }).foldl Entry.plus {}
    match s.cls with
    | .fin => { n := -zw * s.n }
    | .pinf => { s with cls := infOf (decide (0 < zw)) }
    | .ninf => { s with cls := infOf (decide (zw < 0)) }
    | .nan => s

/-- The initial value that a preload element gives an entry: its exact value times 2^-s, a logarithmic one rounded to
24 bits first; its class and cause otherwise (R58, R109). -/
def Prec.preload (p : Prec) (v : Val) (s : Int) : Entry :=
  let l := lsbOf p.paired
  match v with
  | .nan => { n := 0, cls := .nan, cause := 1 }
  | .inf neg => { n := 0, cls := infOf neg, cause := if p.isMinMax && infOf neg == p.ident.cls then 0 else 2 }
  | .fin x =>
    match exNorm x with
    | [] => {}
    | [(m, q)] =>
      if q % 512 = 0 then { n := inLsb m (q / 512 - s) l } else { n := antilogLsb (decide (m < 0)) q s l }
    | _ => {}

/-- The combined tensor shift of a reduction into an output of shift t_o (Table 7.3). The shifts of its moving and stationary
tensors are those of the words in force when the PASS or DRAIN that needs them issues, whatever they were at MLOAD and FILL
(R148). DESIGN CHOICE, unsafe: log entry 69. -/
def Redn.shift (r : Redn) (c : Ctx) (b : Bed) (tOut : Int) : Int :=
  if r.prec.path = 3 then (if r.prec.sem = 0 then -tOut else c.shiftOf b r.mov - tOut)
  else c.shiftOf b r.mov + c.shiftOf b r.sta - tOut

/-- The value an entry drains with, after the shift (R63). -/
def Entry.value (e : Entry) (l : Nat) (s : Int) : Val :=
  match e.cls with
  | .nan => .nan
  | .pinf => .inf false
  | .ninf => .inf true
  | .fin => .fin (exDy e.n (s - l))

/-- Bytes of a rain-barrel entry: value, class and cause, reserved zeros (Table 3.6). -/
def Entry.toBytes (e : Entry) (paired : Bool) : List Byte :=
  let k := if paired then 72 else 40
  leBytes k (toTwos (8 * k) e.n) ++ leBytes 1 (e.cls.code + e.cause.toNat * 4) ++ zeros 7

def entryOfBytes (paired : Bool) (bs : List Byte) : Entry :=
  let k := if paired then 72 else 40
  let f := fieldAt bs k 1
  { n := signed (8 * k) (fieldAt bs 0 k), cls := clsOfNat (f % 4), cause := BitVec.ofNat 3 (f / 4) }

/-- Bytes per rain-barrel entry, and columns of a tile (R49, R60). -/
def entrySize (paired : Bool) : Nat := if paired then 80 else 48
def tileCols (paired : Bool) : Nat := if paired then 32 else 64

end Sys2Proof.Machine
end

