-- ==== Sys2Proof/Machine/ArrayUnit.lean ====
section
/-! DEFINITION. What the array instructions and the spill instructions do to their bed (R205 to R212): the precision
state, the two planes and codebook banks, the moving-operand buffer, passes into the trough, spills and range drains. -/

namespace Sys2Proof.Machine

def Bed.array (b : Bed) (a : Nat) : MArray := tget (fun _ => {}) b.arrays a

def Bed.setArray (b : Bed) (a : Nat) (x : MArray) : Bed := { b with arrays := tset (fun _ => {}) b.arrays a x }

/-- The current and the shadow plane and bank: the tag names the current ones (R74, R99). -/
def MArray.cur (x : MArray) : Plane := if x.tag then x.plane1 else x.plane0
def MArray.shadow (x : MArray) : Plane := if x.tag then x.plane0 else x.plane1
def MArray.setShadow (x : MArray) (p : Plane) : MArray := if x.tag then { x with plane0 := p } else { x with plane1 := p }
def MArray.bank (x : MArray) : Bank := if x.tag then x.bank1 else x.bank0
def MArray.idleBank (x : MArray) : Bank := if x.tag then x.bank0 else x.bank1
def MArray.setIdleBank (x : MArray) (k : Bank) : MArray := if x.tag then { x with bank0 := k } else { x with bank1 := k }
def MArray.half (x : MArray) (h : Bool) : Half := if h then x.half1 else x.half0
def MArray.setHalf (x : MArray) (h : Bool) (v : Half) : MArray := if h then { x with half1 := v } else { x with half0 := v }
def MArray.tile (x : MArray) (t : Bool) : Tile := if t then x.tile1 else x.tile0
def MArray.setTile (x : MArray) (t : Bool) (v : Tile) : MArray := if t then { x with tile1 := v } else { x with tile0 := v }

/-- The precision state in force; before the first PSET every field is 0. -/
def MArray.precision (x : MArray) : Prec := x.prec.getD {}

/-- An array at a load: its pass and fence counts go on (R182). DESIGN CHOICE, unsafe: log entry 17. -/
def MArray.loaded (x : MArray) : MArray := { passes := x.passes, fences := x.fences }

def Tile.entry (t : Tile) (k : Nat) : Entry := tget (fun _ => {}) t.entries k

/-- The tile's entries with some set. -/
def Tile.setEntries (t : Tile) (kvs : List (Nat × Entry)) : Tile :=
  { t with entries := tsetAll (fun _ => {}) t.entries kvs }

/-- A tile whose every entry holds the cleared value of a precision state (R59, R109). -/
def clearedEntries (p : Prec) : Tbl Entry :=
  if p.ident = {} then [] else (List.range 4096).map fun k => (k, p.ident)

/-- The step count c of a pass (Tables 4.3 and 5.1). -/
def Prec.steps (p : Prec) : Nat :=
  match p.path.toNat with
  | 0 => if fmtOf p.mov = .f8 then 8 else p.p.toNat
  | 3 => if p.sem = 0 then 1 else if p.sem = 1 ∧ fmtOf p.mov = .t16 then 4 else 2
  | _ => 2

/-! ## PSET -/

/-- The precision state that a PSET names: the semiring counts on the compare path only (R205). -/
def psetPrec (path : BitVec 2) (mov sta : BitVec 4) (p : BitVec 5) (sem : BitVec 2) (paired : Bool) : Prec :=
  { path, mov, sta, p, sem := if path = 3 then sem else 0, paired }

/-- The end of a precision fence raised now: 192 A-cycles from the last old element (R84). Before any element since the sowing
they count from A-cycle 0. DESIGN CHOICE, unsafe: log entry 65. -/
def Bed.fenceTill (b : Bed) (x : MArray) : Nat := max x.feedEnd (b.seq.sowCycle.getD 0) + 192

/-- PSET (R205, R84): sets the state; a change after the first PSET since the load is a precision fence. -/
def psetBody (a : Nat) (q : Prec) (b : Bed) : Bed × List BOut :=
  let x := b.array a
  match x.prec with
  | none => (b.setArray a { x with prec := some q }, [])
  | some o =>
    if o = q then (b, [])
    else
      (b.setArray a { x with prec := some q, fences := x.fences + 1, fenceEnd := max x.fenceEnd (b.fenceTill x) }, [])

/-! ## FILL, CBLD, MLOAD, SWAP -/

/-- The codes of a stationary region: row k is line k of the tensor, or for B1 the bits of lines 8k to 8k + 7 (R107). -/
def fillCodes (b : Bed) (o : Opnd) (kn nn : Nat) : List (Nat × Nat) :=
  (List.range kn).flatMap fun k =>
    let row := if fmtOf o.t.fmt = .b1 then
        let ls := (List.range 8).map fun j => b.codes (o.shift 0 (8 * k + j)) nn
        (List.range nn).map fun n => ((enumFrom 0 ls).map fun e => (e.2.getD n 0) * 2 ^ e.1).foldl (· + ·) 0
      else b.codes (o.shift 0 k) nn
    (enumFrom 0 row).map fun e => (64 * k + e.1, e.2)

/-- FILL (R206, R75, R76): the shadow plane from a region of k_n rows and n_n columns; an uncorrectable read poisons
the plane, a complete refill clears the mark (R88). -/
def fillBody (c : Ctx) (a : Nat) (src : BitVec 24) (kn nn bs : Nat) (b : Bed) : Bed × List BOut :=
  let o := c.opnd src
  let lines := if fmtOf o.t.fmt = .b1 then 8 * kn else kn
  let r := b.touch c.index ((List.range lines).map fun k => (o.shift 0 k).span nn)
  let b := r.1
  let p : Plane := { fmt := o.t.fmt, kn, nn, tensor := o.ti, ready := true, till := c.cyc + fillCycles o.t.fmt bs
                     poison := r.2.isSome, codes := (fillCodes b o kn nn).filter fun e => e.2 != 0 }
  ((b.setArray a ((b.array a).setShadow p)).gauge 3 (fillLines o.t.fmt), [])

/-- CBLD (R207, R100, R101): the 32 B codebook of a C4 tensor into the bank of the shadow plane; a fill that it shares a port
with takes one A-cycle more, and its word is read in that A-cycle: the spec names the length alone. DESIGN CHOICE, unsafe: log
entry 65. -/
def cbldBody (c : Ctx) (a tensor : Nat) (b : Bed) : Bed × List BOut :=
  let t := c.tensor tensor
  let r := b.touch c.index [(t.codebook, 32)]
  let x := r.1.array a
  let p := x.shadow
  let sharing := decide (c.cyc < p.till)
  let k : Bank := { codes := (List.range 16).map fun i => leNat (r.1.bytes (t.codebook + 2 * i) 2), tensor
                    till := (if sharing then p.till else c.cyc) + 128, poison := r.2.isSome }
  let x := if sharing then x.setShadow { p with till := p.till + 1 } else x
  ((r.1.setArray a (x.setIdleBank k)).gauge 3 1, [])

/-- The port A-cycles that reading n elements takes: 64 B each, and one more for each T8X block (R161). -/
def portCycles (o : Opnd) (n : Nat) : Nat :=
  ceilDiv (o.span n).2 64 + (if fmtOf o.t.fmt = .t8x then ceilDiv n 256 else 0)

/-- One line of an MLOAD: the codes in the moving format, an F8 source keeping its raw codes (R208, R146). For B1 a
row's code is its byte of eight bits (R107). -/
def mloadLine (c : Ctx) (b : Bed) (o : Opnd) (kn : Nat) (mov : Fmt) : Loaded :=
  if mov = .b1 then
    let l := c.load b o (8 * kn) .b1 0
    { l with codes := (List.range kn).map fun k =>
        ((List.range 8).map fun j => l.codes.getD (8 * k + j) 0 * 2 ^ j).foldl (· + ·) 0 }
  else if mov = .f8 ∧ fmtOf o.t.fmt = .f8 then c.load b o kn .f8 (c.zeroOf b o.ti)
  else c.load b o kn mov 0

/-- The code of zero in a format (R76). -/
def zeroCode (f : Fmt) : Nat :=
  match f with
  | .l8 => 0x40
  | .l16 => 0x4000
  | _ => 0

/-- MLOAD (R208): slots m0 upward of a buffer half take k_n values each of successive lines, and the code of zero in the rows
beyond (R76). An uncorrectable read poisons its slot, as R88 and R256 say, and the plot stops at a PASS that feeds it; Table
9.12 names MLOAD among the instructions that stop with code 0x40. DESIGN CHOICE, unsafe: log entry 69. -/
def mloadBody (c : Ctx) (a : Nat) (half : Bool) (m0 count kn : Nat) (src : BitVec 24) (b : Bed) : Bed × List BOut :=
  let o := c.opnd src
  let mov := (b.array a).precision.mov
  let r := (List.range count).foldl
    (fun (s : Bed × List (Nat × MSlot)) i =>
      let l := mloadLine c s.1 (o.shift 0 i) kn (fmtOf mov)
      (l.bed, s.2 ++ [(m0 + i, ({
        loaded := true, poison := l.bad.isSome, fmt := mov,
        codes := l.codes ++ List.replicate (128 - l.codes.length) (zeroCode (fmtOf mov)) } : MSlot))]))
    (b, [])
  let x := r.1.array a
  let h := x.half half
  let h := { h with tensor := o.ti, kn, fmt := mov, slots := tsetAll (fun _ => {}) h.slots r.2 }
  let n := if fmtOf mov = .b1 then 8 * kn else kn
  ((r.1.setArray a (x.setHalf half h)).gauge 3 (count * portCycles o n), [])

/-- SWAP (R209, R74, R99): the other plane and bank come into use, unless one is poisoned: then the plot stops (R88,
R101, Table 9.12), for the plane where both are. The plane retired becomes the shadow plane, to be filled again. Planes of two
formats are a precision change behind a fence (R77), which counts unless one in force lasts as long; the first SWAP retires a
plane that was never filled and changes nothing. DESIGN CHOICE, unsafe: log entry 69. -/
def swapBody (a : Nat) (b : Bed) : Bed × List BOut :=
  let x := b.array a
  if x.shadow.poison then (b, [.halt 0x41 a 0])
  else if x.idleBank.poison then (b, [.halt 0x43 a 0])
  else
    let y := { x with tag := !x.tag }
    let y := y.setShadow { y.shadow with ready := false }
    let late := x.cur.ready && x.cur.fmt != x.shadow.fmt && decide (x.fenceEnd < b.fenceTill x)
    (b.setArray a (if late then { y with fences := y.fences + 1, fenceEnd := b.fenceTill x } else y), [])

/-! ## PASS -/

/-- The value of a moving code as fed: raw for F8, the byte for B1, rounded to P bits on the bit-serial path (R93, R95,
R107). -/
def movVal (compat : Bool) (p : Prec) (f : Fmt) (code : Nat) : Val :=
  match f with
  | .f8 | .b1 => .fin (exInt code)
  | f =>
    let v := decodeEl compat f 0 code
    if p.path = 0 then roundP p.p.toNat v else v

/-- The value of a stationary code: raw for F8, the byte for B1, the bank's entry for C4 (R94, R95, R97, R107). -/
def staVal (compat : Bool) (bank : Bank) (f : Fmt) (code : Nat) : Val :=
  match f with
  | .f8 | .b1 => .fin (exInt code)
  | .c4 => decodeEl compat .t16 0 (bank.codes.getD code 0)
  | f => decodeEl compat f 0 code

/-- Key of an entry (m, n) of a tile. -/
def entryKey (m n : Nat) : Nat := 64 * m + n

/-- Everything a PASS adds: for each element m, the real rows' values as fed. -/
def passMoving (compat : Bool) (x : MArray) (half : Bool) (m0 mt k : Nat) : List (List Val) :=
  (List.range mt).map fun m =>
    let s := tget (fun _ => {}) (x.half half).slots (m0 + m)
    (s.codes.take k).map (movVal compat x.precision (fmtOf s.fmt))

/-- For each column of the plane, the real rows' stationary values; the entries of the tile's columns beyond n_n receive no
additions (R52, R76). -/
def passStationary (compat : Bool) (x : MArray) (k : Nat) : List (List Val) :=
  let f := fmtOf x.cur.fmt
  (List.range (min x.cur.nn (tileCols x.precision.paired))).map fun n =>
    (List.range k).map fun r => staVal compat x.bank f (tget (fun _ => 0) x.cur.codes (64 * r + n))

/-- The first invalid product of a pass, in the time order of R79: its reduction row, m and n; a pair commits at its odd column.
Of several in one A-cycle it is that of the lowest m, then n, then row. DESIGN CHOICE, unsafe: log entry 69. -/
def firstInvalid (p : Prec) (as ws : List (List Val)) : Option (Nat × Nat × Nat) :=
  let c := p.steps
  let all := (enumFrom 0 as).flatMap fun a => (enumFrom 0 ws).flatMap fun w =>
    ((enumFrom 0 (a.2.zip w.2)).filter fun e => (p.term e.2.1 e.2.2).cause == 3).map fun e => (e.1, a.1, w.1)
  let at_ := fun (t : Nat × Nat × Nat) => t.2.1 * c + t.1 + (if p.paired then 2 * t.2.2 + 1 else t.2.2)
  all.foldl (fun best t => match best with
    | none => some t
    | some u => if at_ t < at_ u then some t else some u) none

/-- The initial entries of a reduction: the identity, or the preload scaled by 2^-s, and the correction vector added
exactly (R58, R164, R210). -/
def passInit (c : Ctx) (b : Bed) (r : Redn) (pre corr : Option Opnd) (mt : Nat) : List (Nat × Entry) :=
  let nn := r.nn
  (List.range mt).flatMap fun m =>
    let row := match pre with
      | some o => (c.vals b (o.shift 0 m) nn).map fun v => r.prec.preload v.1 (r.shift c b (c.shiftOf b o.ti))
      | none => List.replicate nn r.prec.ident
    (enumFrom 0 row).map fun e =>
      let k := match corr with
        | some o => (signed 256 (leNat (b.bytes (o.addr + 32 * e.1) 32)))
        | none => 0
      (entryKey m e.1, if e.2.cls = .fin then { e.2 with n := e.2.n + k } else e.2)

/-- The tile that a PASS adds to: its own entries, or at the beginning of a reduction the initial ones (R210). -/
def passBase (c : Ctx) (b : Bed) (x : MArray) (r : Redn) (begins : Bool) (pre corr : Option Opnd) (mt : Nat) : Tile :=
  if begins then ({ entries := clearedEntries r.prec } : Tile).setEntries (passInit c b r pre corr mt) else x.tile r.tile

/-- One entry after a PASS: combined with its column's terms and the zero-point term of its element, and limited to the
trough's width; whether it saturated (R59, R66, R163). -/
def passEntry (compat : Bool) (p : Prec) (zw : Int) (e : Entry) (as ws : List Val) : Entry × Bool :=
  let col := p.column as ws
  let e := p.combine e (if zw = 0 then col else col.plus (sideTerm p zw as))
  if p.isMinMax then (e, false) else e.limit (troughBits p.paired) compat (satBits p.paired)

/-- The zero point that a PASS's side adder takes out: that of an F8 plane on the bit-serial path (R163). -/
def passZero (c : Ctx) (b : Bed) (x : MArray) : Int :=
  if fmtOf x.cur.fmt = .f8 ∧ x.precision.path = 0 then c.zeroOf b x.cur.tensor else 0

/-- The reduction that a PASS begins or goes on with. -/
def passRedn (x : MArray) (half tile begins : Bool) (mt : Nat) : Redn :=
  { prec := x.precision, mov := (x.half half).tensor, sta := x.cur.tensor, nn := x.cur.nn, tile,
    mt := if begins then mt else max (x.tile tile).redn.mt mt }

/-- The entries that a PASS writes, with their keys; padded columns take no part (R52, R76, R162). -/
def passNew (compat : Bool) (x : MArray) (zw : Int) (base : Tile) (as ws : List (List Val)) : List (Nat × Entry × Bool) :=
  (enumFrom 0 as).flatMap fun am => (enumFrom 0 ws).map fun wn =>
    (entryKey am.1 wn.1, passEntry compat x.precision zw
      (base.entry (entryKey am.1 wn.1)) am.2 wn.2)

/-- The tile after a PASS, and whether an entry saturated. -/
def passTile (c : Ctx) (b : Bed) (x : MArray) (half : Bool) (m0 mt : Nat) (tile begins : Bool) (pre corr : Option Opnd) :
    Tile × Bool :=
  let k := min x.cur.kn (x.half half).kn
  let r := passRedn x half tile begins mt
  let base := passBase c b x r begins pre corr mt
  let new := passNew c.prog.compat x (passZero c b x) base (passMoving c.prog.compat x half m0 mt k)
    (passStationary c.prog.compat x k)
  ({ base.setEntries (new.map fun e => (e.1, e.2.1)) with
     isOpen := true, redn := r, order := max x.tile0.order x.tile1.order + 1, chunks := base.chunks + 1 }, new.any (·.2.2))

/-- The byte ranges that a PASS reads: its preload rows and its correction vector. -/
def passReads (c : Ctx) (b : Bed) (nn mt : Nat) (pre corr : Option Opnd) : List (Nat × Nat) :=
  (match pre with
    | some o => (List.range mt).flatMap fun m => c.ranges b (o.shift 0 m) nn
    | none => []) ++
  (match corr with
    | some o => [(o.addr, 2048)]
    | none => [])

/-- ARY_DBG_INVK_a written by the first invalid product while the plot's debug bit is set (R68); k counts from the PASS with
begin set. DESIGN CHOICE, unsafe: log entry 69. -/
def Bed.noteInvalid (b : Bed) (debug : Bool) (a chunks : Nat) (i : Option (Nat × Nat × Nat)) : Bed :=
  let off := 0x1440 + 8 * a
  match i with
  | some i =>
    if debug && wfld (b.reg off) 0 1 == 0 then
      b.setReg off (BitVec.ofNat 64 (1 + (128 * chunks + i.1) * 2 + i.2.1 * 2 ^ 41 + i.2.2 * 2 ^ 47))
    else b
  | none => b

/-- PASS (R210): m_t elements of a buffer half against the current plane into one trough tile. A poisoned slot stops
the plot (0x42), an uncorrectable preload or correction read does too (0x40), and nothing is committed. Its first element enters row 0 at its
issue or at the end of a fence (R84). -/
def passBody (c : Ctx) (a : Nat) (half : Bool) (m0 mt : Nat) (tile begins : Bool) (pre corr : Option (BitVec 24))
    (b : Bed) : Bed × List BOut :=
  let x := b.array a
  let nn := x.cur.nn
  let pre := pre.map c.opnd
  let corr := corr.map c.opnd
  if (upFrom m0 mt).any fun m => (tget (fun _ => {}) (x.half half).slots m).poison then (b, [.halt 0x42 a 0])
  else
    let t := b.touch c.index (passReads c b nn mt pre corr)
    match t.2 with
    | some addr => (t.1, [.halt 0x40 0 addr])
    | none =>
      let b := t.1
      let s0 := max c.cyc x.fenceEnd
      let fed := s0 + mt * x.precision.steps
      let y := passTile c b x half m0 mt tile begins pre corr
      let k := min x.cur.kn (x.half half).kn
      let first := firstInvalid x.precision (passMoving c.prog.compat x half m0 mt k) (passStationary c.prog.compat x k)
      let b := b.setArray a { x.setTile tile y.1 with
        passes := x.passes + 1, feedEnd := fed, sumEnd := fed + 191, sumPrev := x.sumEnd,
        lastPass := some { tile, mt, start := s0, steps := x.precision.steps } }
      let b := if y.2 then b.setSticky else b
      let b := ((b.gauge 1 mt).gauge 2 (mt * nn)).gauge 3 ((match pre with
        | some o => mt * ceilDiv (o.span nn).2 64
        | none => 0) + (if corr.isSome then 32 else 0))
      (b.noteInvalid c.prog.debug a (y.1.chunks - 1) first, [])

/-! ## SPILL and RDRAIN -/

/-- The entries of a rain barrel as bed memory holds them (R60). -/
def barrelEntries (b : Bed) (base : Nat) (paired : Bool) : List Entry :=
  (chunks (entrySize paired) (64 * tileCols paired) (b.bytes base (entrySize paired * 64 * tileCols paired))).map
    (entryOfBytes paired)

/-- The entries of a tile in the barrel's row-major order. -/
def tileEntries (t : Tile) (paired : Bool) : List Entry :=
  (List.range 64).flatMap fun m => (List.range (tileCols paired)).map fun n => t.entry (entryKey m n)

def Bed.barrel (b : Bed) (base : Nat) : Option Redn := tget (fun _ => none) b.barrels base

/-- SPILL (R211, R59, R60): the tile merged into its rain barrel, or written to it when first; the tile is cleared. An
uncorrectable barrel read stops the plot and writes nothing (R69). DEDUCED, unsafe: log entry 30. -/
def spillBody (c : Ctx) (a : Nat) (tile first : Bool) (barrel : BitVec 24) (ports : Nat) (b : Bed) : Bed × List BOut :=
  let x := b.array a
  let t := x.tile tile
  let p := t.redn.prec
  let base := (c.opnd barrel).addr
  let len := entrySize p.paired * 64 * tileCols p.paired
  let r := if first then (b, none) else b.touch c.index [(base, len)]
  match r.2 with
  | some addr => (r.1, [.halt 0x44 a addr])
  | none =>
    let b := r.1
    let new := tileEntries t p.paired
    let res := if first then new.map fun e => (e, false)
      else ((barrelEntries b base p.paired).zip new).map fun e =>
        let s := p.combine e.1 e.2
        if p.isMinMax then (s, false) else s.limit (barrelBits p.paired) c.prog.compat (satBits p.paired)
    let w := b.putBytes c.index base (res.flatMap fun e => e.1.toBytes p.paired)
    let info := match (if first then none else b.barrel base) with
      | some o => { t.redn with mt := max o.mt t.redn.mt, tile }
      | none => { t.redn with tile }
    let b := { w.1 with barrels := tset (fun _ => none) w.1.barrels base (some info) }
    let n := len / 64 * (if first then 1 else 2)
    let b := b.setArray a (x.setTile tile { t with isOpen := false, entries := clearedEntries p, till := c.cyc + ceilDiv n ports })
    let b := if res.any (·.2) then b.setSticky else b
    ((b.gauge 3 n).finish (c.cyc + ceilDiv n ports), w.2)

/-- RDRAIN (R212, R155): a range record from the exact values of a rain barrel, which stays unchanged. -/
def rdrainBody (c : Ctx) (a : Nat) (barrel : BitVec 24) (slot : Nat) (clear : Bool) (b : Bed) : Bed × List BOut :=
  let base := (c.opnd barrel).addr
  let info := (b.barrel base).getD {}
  let paired := info.prec.paired
  let len := entrySize paired * 64 * tileCols paired
  let r := b.touch c.index [(base, len)]
  match r.2 with
  | some addr => (r.1, [.halt 0x44 a addr])
  | none =>
    let es := (enumFrom 0 (barrelEntries r.1 base paired)).filter fun e =>
      decide (e.1 / tileCols paired < info.mt) && decide (e.1 % tileCols paired < info.nn)
    let rec0 : RangeRec := if clear then {} else r.1.range slot
    let rec1 := es.foldl (fun q e => q.add (e.2.value (lsbOf paired) 0)) rec0
    ((r.1.setRange slot rec1).gauge 3 (len / 64), [])

end Sys2Proof.Machine
end

