-- ==== Sys2Proof/Machine/Clock.lean ====
section
/-! DEFINITION. Time: one tick of the sundial, the runs of 64 A-cycles and their stretches (R261, R406 to R412), and the
tick's own duties (plot time R176, the head gardener's heartbeat). -/

namespace Sys2Proof.Machine

/-- p of an operating point: paced runs in a window of 16 (Table 18.2). -/
def pace (point : Nat) : Nat := if point = 3 then 16 else 4 * point

/-- W of an operating point, in ticks (R408). -/
def windowTicks (point : Nat) : Nat := 64 + 4 * pace point

/-- Whether run i of a window is paced (R408). -/
def pacedRun (point i : Nat) : Bool := decide (i * pace point / 16 < (i + 1) * pace point / 16)

/-- The plots that are sown: their runs are open (Table 16.2). -/
def State.sownPlots (s : State) : List Nat := (s.plots.filter fun e => e.2.state == 3 || e.2.state == 4).map (·.1)

/-- What a stretched run, of a source, adds to the records of sown plots and to CLK_STRETCH (R411, R412). -/
def State.countStretch (s : State) (source : Nat) : State :=
  let s := if source < 6 then s.bump 0x30010 0 32 1 else s.bump 0x30010 32 32 1
  s.sownPlots.foldl
    (fun (s : State) p =>
      let r := s.runRec p
      let s := s.setRunRec p { r with stretched := true, stretches := r.stretches + 1 }
      let x := s.plot p
      s.setPlot p { x with episode := some (match x.episode with
        | some e => { e with runs := e.runs + 1, source := min e.source source }
        | none => { tick := s.clk.sundial, runs := 1, source }) }) s

/-- The next run begins at the current tick: it is stretched when a detector asserted in the run before it, or a clamp
is engaged, and paced by its place in its window (R408, R411, R414, R421). DEDUCED, unsafe: log entry 12. -/
def State.nextRun (s : State) : State :=
  let c := s.clk
  let source : Option Nat := match c.droop with
    | some d => some d
    | none => if c.clamp || c.clampAmps then some 6 else if c.thermClamp then some 7 else none
  let run := (c.run + 1) % 16
  let s : State := { s with clk := { c with ticks := 0, run, runStart := c.sundial, droop := none, runStretched := source.isSome,
                                            runSource := source.getD 0, runPaced := pacedRun c.point run } }
  match source with
  | some k => s.countStretch k
  | none => s.sownPlots.foldl (fun (s : State) p => s.endEpisode p) s

/-- A plot's time: ticks since the sow tick in which it was not frozen (R176). -/
def State.plotTime (s : State) (p : Nat) : Nat := s.now - (s.plot p).sowTick.toNat - (s.plot p).frozenTicks

/-- The A-cycle count of the clock at the first A-cycle of a tick of plot time: 16 a tick, less what slow ticks before it missed
(R176, R261). -/
def Plot.cycleAt (x : Plot) (time : Nat) : Nat :=
  x.sowCycle + 16 * time - ((x.slow.filter fun e => decide (e.1 < time)).map (·.2)).sum

/-- The tick that has passed is kept by the plots that it gave fewer than 16 A-cycles (R392). -/
def State.slowTick (s : State) : State :=
  if s.clk.tickCycles < 16 then
    s.sownPlots.foldl
      (fun (s : State) p => s.setPlot p { s.plot p with slow := (s.plot p).slow ++ [(s.plotTime p - 1, 16 - s.clk.tickCycles)] }) s
  else s

/-- The A-clock's part of a tick: 16 A-cycles, or 8 of a doubled run; then perhaps the next run. DEDUCED, unsafe: log
entry 12. -/
def State.clockRuns (s : State) : State :=
  let s := s.slowTick
  let c := s.clk
  let s : State := { s with clk := { c with ticks := c.ticks + 1, cycles := c.next, total := c.total + c.tickCycles } }
  if c.ticks + 1 = c.runTicks then s.nextRun else s

/-- The head gardener's heartbeat (Table 15.8): the field counts on and wraps, since a count that stops means that the
gardener has stopped (R371). DEDUCED, unsafe: log entry 55. -/
def State.heartbeat (s : State) : State :=
  if s.now % 100000 = 0 ∧ (tget (fun _ => 0) s.grd.gardState 8 = 1 ∨ s.pins.halted) then
    s.setFld 0x0 48 16 (s.fld 0x0 48 16 + 1)
  else s

/-! ## Conditions of synchronisation waits (R233) -/

/-- Whether a plot has nothing outstanding on some flows of a link (R237). -/
def Link.quiet (k : Link) (p : Nat) (flows : BitVec 16) : Bool :=
  let mine := fun (t : TxItem) => t.plot == p && t.kind != 3 && flows.getLsbD t.flow
  !(k.queue.any mine) && !(k.held.any fun x => mine x.item) &&
    (List.range 16).all fun f => !flows.getLsbD f || tget (fun _ => 64) k.credits f == 64

/-- Whether a word on its way carries a flit of some flows of a link. -/
def Word.goesTo (w : Word) (l : Nat) (flows : BitVec 16) : Bool :=
  match w.cargo with
  | some (.flit k t) => k == l && flows.getLsbD t.flow
  | _ => false

/-- Whether the condition of a bed's wait holds now. -/
def State.condition (s : State) (b : Nat) (w : Wait) : Bool :=
  let q := (s.bed b).seq
  let p := ((s.bed b).job.getD {}).plot
  match w.kind with
  | 0 => decide (w.target ≤ s.plotTime p)
  | 1 => w.link == 31 || (decide (tget (fun _ => 0) q.recvEnded w.index < tget (fun _ => 0) q.recvLanded w.index) &&
      decide (tget (fun _ => 0) q.recvAt w.index < s.clk.next))
  | 2 => decide (tget (fun _ => 0) q.collStarted w.coll ≤ tget (fun _ => 0) q.collLanded w.coll) &&
      decide (tget (fun _ => 0) q.collAt w.coll < s.clk.next)
  | _ => w.link == 31 || (s.link w.link).quiet p w.flows && !((s.plot p).words.any fun x => x.goesTo w.link w.flows)

/-- The A-cycle in which the condition of a bed's wait came to hold (R233): of an SDWAIT the first of its target tick, of an LRECV
and a CWAIT that in which the last byte lands, of a CBAR that in which the last credit came; a copy that names no link holds
at its issue. -/
def State.heldAt (s : State) (b : Nat) (w : Wait) : Nat :=
  let q := (s.bed b).seq
  match w.kind with
  | 0 => (s.plot ((s.bed b).job.getD {}).plot).cycleAt w.target
  | 1 => if w.link = 31 then 0 else tget (fun _ => 0) q.recvAt w.index
  | 2 => tget (fun _ => 0) q.collAt w.coll
  | _ =>
    if w.link = 31 then 0
    else (((List.range 16).filter fun f => w.flows.getLsbD f).map fun f => tget (fun _ => 0) (s.link w.link).creditAt f).foldl max 0

/-- The A-cycle in which the condition of a bed's wait has been observed by the end of its deadline tick, arrival winning: kept from
an earlier tick, or that in which it came to hold, not before the wait began (R174, R175, R233). The tick in which the
sender's commands come is no part of it (R392). DEDUCED, unsafe: log entry 13. -/
def State.observedAt (s : State) (b : Nat) : Option Nat :=
  match (s.bed b).seq.wait with
  | none => none
  | some w =>
    if w.met.isSome then w.met
    else
      let a := max w.start (s.heldAt b w)
      if s.condition b w && decide (a < (s.plot ((s.bed b).job.getD {}).plot).cycleAt (w.deadline + 1)) then some a else none

/-- Whether it has been observed. -/
def State.observed (s : State) (b : Nat) : Bool := (s.observedAt b).isSome

/-- At the end of a tick the conditions observed in it are kept (R175). -/
def State.observe (s : State) : State :=
  s.beds.foldl
    (fun (s : State) e => match e.2.seq.wait with
      | some w => s.setBed e.1 { e.2 with seq := { e.2.seq with wait := some { w with met := s.observedAt e.1 } } }
      | none => s) s

/-! ## Errors that arise -/

/-- A granule's condition after one of its bits flips (R255). -/
def flipAt (e position : Nat) : Nat := if e = 0 then position + 1 else if e = position + 1 then 0 else 138

/-- A word after one of its bits flips. -/
def Word.flip (w : Word) (granule position : Nat) : Word :=
  { w with err := tset (fun _ => 0) w.err granule (flipAt (tget (fun _ => 0) w.err granule) position) }

/-- The error that arises in this tick, if one does (R255, R267, R299). DESIGN CHOICE, safe: log entry 67. -/
def State.upset (s : State) : State :=
  let s : State := if s.ddr.failing.isNone then s else { s with ddr := { s.ddr with failing := none } }
  match Config.upset s.now with
  | none => s
  | some (.cell bed granule position) =>
    if bed < 132 ∧ granule < 2097152 ∧ position < 137 then
      s.setBed bed ((s.bed bed).setEcc granule (flipAt (tget (fun _ => 0) (s.bed bed).ecc granule) position))
    else s
  | some (.read unit link) => { s with ddr := { s.ddr with failing := some (unit, link) } }
  | some (.transfer c) =>
    if c < 24 ∧ (s.ctl c).state = 2 then s.bump (0x90008 + 0x40 * c) 0 32 1 else s
  | some (.wire plot word shared granule position) =>
    let ws := (s.plot plot).words
    match ws[word]? with
    | some w =>
      if granule < 16 ∧ position < 137 then
        s.setPlot plot { s.plot plot with words := (enumFrom 0 ws).map fun (x : Nat × Word) =>
          if x.1 = word ∨ (shared ∧ x.2.segment = w.segment ∧ x.2.due = w.due) then x.2.flip granule position else x.2 }
      else s
    | none => s

/-- The words of a plot past their die crossings: a single-bit error is corrected there, and counted once for the copies of a word
that cross together; one that cannot be corrected is carried on (R267). -/
def State.crossWords (s : State) (p : Nat) : State :=
  let x := s.plot p
  let gone := fun (c : Nat × Nat) => decide (c.1 < s.clk.cycles)
  let fixed := x.words.flatMap fun w => match w.cross.find? gone with
    | some c => (w.err.filter fun e => decide (0 < e.2 ∧ e.2 < 138)).map fun e => (w.segment, c.1, c.2, e.1)
    | none => []
  if x.words.any fun w => w.cross.any gone then
    let s := s.setPlot p { x with words := x.words.map fun w => if w.cross.any gone then
      { w with cross := w.cross.filter fun c => !gone c, err := w.err.filter fun e => decide (138 ≤ e.2) } else w }
    if fixed = [] then s else s.bump 0x10208 0 32 fixed.eraseDups.length
  else s

/-- The runner words landed whose A-cycle has passed (R264), and those past a crossing corrected there. -/
def State.landPast (s : State) : State :=
  let s := s.plots.foldl (fun (s : State) e => s.crossWords e.1) s
  s.plots.foldl (fun (s : State) e => if e.2.words.isEmpty then s else s.landDue e.1 none (s.clk.cycles - 1)) s

end Sys2Proof.Machine
end

