-- ==== Sys2Proof/Machine/Image.lean ====
section
/-! DEFINITION. Program images (R184, R185, R188, R198, R242, R263, R335, R394, R415): reading the program descriptor
and its sections, and the first checks of a load (Table 8.7, orders 1 and 2). -/

namespace Sys2Proof.Machine

/-! ## Sections -/

/-- Section i of an image: its offset and length (Table 8.4); an empty section's offset is ignored. -/
def secAt (img : List Byte) (i : Nat) : Nat × Nat := (fieldAt img (64 + 8 * i) 4, fieldAt img (68 + 8 * i) 4)

/-- The bytes of section i. -/
def secBytes (img : List Byte) (i : Nat) : List Byte := (img.drop (secAt img i).1).take (secAt img i).2

/-- Entry k of a section whose entries have n bytes. -/
def entryAt (bs : List Byte) (n k : Nat) : List Byte := (bs.drop (n * k)).take n

/-- The entries of a section's bytes, c of them. -/
def entries (bs : List Byte) (n c : Nat) : List (List Byte) := (List.range c).map (entryAt bs n)

/-- A signed 16-bit number. -/
def signed16 (bs : List Byte) (pos : Nat) : Int := signed 16 (fieldAt bs pos 2)

/-- A tensor descriptor (Table 8.5). -/
def tensorOf (bs : List Byte) : Tensor :=
  let w := fun (k : Nat) => fieldAt bs (8 * k) 8
  { base := bits (w 0) 0 25, fmt := BitVec.ofNat 4 (bits (w 0) 25 4), kind := bits (w 0) 29 3, bed := bits (w 0) 32 7,
    ext := (List.range 4).map fun i => bits (w 1) (16 * i) 16,
    stride := [bits (w 2) 0 25, bits (w 2) 25 25, bits (w 3) 0 25], codebook := bits (w 3) 25 25,
    quant := BitVec.ofNat 64 (w 4), digestIdx := bits (w 5) 0 12, role := bits (w 5) 12 2, tagged := bit (w 5) 14 }

/-- Whether a tensor descriptor's reserved bits are zero. -/
def tensorClean (bs : List Byte) : Bool :=
  let w := fun (k : Nat) => fieldAt bs (8 * k) 8
  w 0 / 2 ^ 39 == 0 && w 2 / 2 ^ 50 == 0 && w 3 / 2 ^ 50 == 0 && w 5 / 2 ^ 15 == 0 && w 6 == 0 && w 7 == 0

/-- A walk entry (Table 9.2). -/
def walkOf (bs : List Byte) : Walk :=
  { origin := (List.range 4).map fun d => fieldAt bs (2 * d) 2
    steps := (List.range 4).map fun l => (List.range 4).map fun d => signed16 bs (8 + 8 * l + 2 * d) }

/-- A route entry (Table 11.4). -/
def routeOf (bs : List Byte) : Route :=
  { segment := fieldAt bs 0 2 % 4096, source := fieldAt bs 2 1, slots := BitVec.ofNat 64 (fieldAt bs 8 8),
    dest := BitVec.ofNat 192 (fieldAt bs 16 24), lambda := fieldAt bs 40 1 }

/-- Whether a route entry's reserved bits are zero. -/
def routeClean (bs : List Byte) : Bool := fieldAt bs 0 2 < 4096 && fieldAt bs 3 5 == 0 && allZero (bs.drop 41)

/-- A collective table entry (Table 14.7). -/
def collOf (bs : List Byte) : Coll :=
  { coll := fieldAt bs 0 1, op := fieldAt bs 1 1, parent := fieldAt bs 2 1, flow := fieldAt bs 3 1,
    children := BitVec.ofNat 24 (fieldAt bs 4 3), beds := BitVec.ofNat 128 (fieldAt bs 8 16),
    resultRoute := fieldAt bs 24 2, hub := fieldAt bs 26 2, count := fieldAt bs 28 4 }

/-- Whether a collective entry's reserved bytes are zero. -/
def collClean (bs : List Byte) : Bool := fieldAt bs 7 1 == 0 && allZero (bs.drop 32)

/-- A claim entry (R188). -/
def claimOf (bs : List Byte) : Claim :=
  { kind := fieldAt bs 0 1, first := fieldAt bs 2 2, count := fieldAt bs 4 2, slots := BitVec.ofNat 64 (fieldAt bs 8 8) }

/-- A sprinkler binding (R183). -/
def bindingOf (bs : List Byte) : Binding :=
  { bed := fieldAt bs 0 1, spr := fieldAt bs 1 1, seed := BitVec.ofNat 64 (fieldAt bs 16 8),
    stream := BitVec.ofNat 64 (fieldAt bs 24 8), ctr := BitVec.ofNat 128 (fieldAt bs 32 16) }

/-- A digest-table entry (Table 17.2). -/
def digEntOf (bs : List Byte) : DigEnt :=
  { digest := BitVec.ofNat 256 (fieldAt bs 0 32), role := fieldAt bs 32 1, engine := fieldAt bs 33 1, tensor := fieldAt bs 34 2 }

/-- A list with the tables its directory entry names, in section 1. DESIGN CHOICE, unsafe: log entry 14. -/
def listOf (sec : List Byte) (d : ListDir) : IList :=
  { code := (entries (sec.drop d.codeOff) 16 d.codeCount).map fun e => BitVec.ofNat 128 (leNat e)
    walks := (entries (sec.drop d.walkOff) 48 d.walkCount).map walkOf
    barrows := entries (sec.drop d.barrowOff) 64 d.barrowCount }

/-- The route entries, and the collective entries, of every list of an image, each entry once. -/
def routeBytes (sec : List Byte) (dir : List ListDir) : List (List Byte) :=
  (dir.flatMap fun d => entries (sec.drop d.routeOff) 64 d.routeCount).eraseDups
def collBytes (sec : List Byte) (dir : List ListDir) : List (List Byte) :=
  (dir.flatMap fun d => entries (sec.drop d.collOff) 64 d.collCount).eraseDups

/-- The program of an image; the digests of its table images are those of its tensors of kind 3, in rising index.
DESIGN CHOICE, unsafe: log entry 14. -/
def programOf (img : List Byte) (dir : List ListDir) (tableDigests : List (BitVec 256)) : Program :=
  let flags := fieldAt img 3 1
  let s1 := secBytes img 1
  let tensors := (entries (secBytes img 2) 64 (fieldAt img 8 2)).map tensorOf
  { baseShift := signed 8 (fieldAt img 2 1), compat := bit flags 0, debug := bit flags 1, multi := bit flags 2,
    digest := BitVec.ofNat 256 (fieldAt img 32 32)
    beds := (entries (secBytes img 0) 4 (fieldAt img 4 2)).map fun e => (bits (leNat e) 0 7, bits (leNat e) 8 7)
    lists := dir.map (listOf s1), routes := (routeBytes s1 dir).map routeOf, colls := (collBytes s1 dir).map collOf
    tensors, claims := (entries (secBytes img 3) 16 (fieldAt img 10 2)).map claimOf
    bindings := (entries (secBytes img 4) 48 ((secAt img 4).2 / 48)).map bindingOf
    images := (((enumFrom 0 tensors).filter fun e => e.2.kind == 3).map (·.1)).zip tableDigests
    hints := entries (secBytes img 6) 16 ((secAt img 6).2 / 16)
    digests := (entries (secBytes img 7) 64 ((secAt img 7).2 / 64)).map digEntOf }

/-! ## Checks 1 and 2 -/

/-- The digest of an image with its program_digest read as zero (R184). -/
def imageDigest (img : List Byte) : BitVec 256 := digest (img.take 32 ++ zeros (min 32 (img.length - 32)) ++ img.drop 64)

/-- A section's place: aligned, beyond the program descriptor, within the image (R184). DEDUCED, unsafe: log entry 15.
-/
def secOk (img : List Byte) (i : Nat) : Bool :=
  let s := secAt img i
  s.2 == 0 || (s.1 % 64 == 0 && decide (256 ≤ s.1) && decide (s.1 + s.2 ≤ img.length))

/-- Whether no two sections overlap. DEDUCED, unsafe: log entry 15. -/
def secsApart (img : List Byte) : Bool :=
  (List.range 8).all fun i => (List.range i).all fun j =>
    !overlaps (secAt img i).1 (secAt img i).2 (secAt img j).1 (secAt img j).2

/-- A list's tables lie in section 1, within the limits of R169, R198, R242 and R335. -/
def dirOk (n : Nat) (d : ListDir) : Bool :=
  decide (1 ≤ d.codeCount) && decide (d.codeCount ≤ 65536) && decide (d.codeOff + 16 * d.codeCount ≤ n) &&
    decide (d.walkCount ≤ 4095) && decide (d.walkOff + 48 * d.walkCount ≤ n) &&
    decide (d.routeOff + 64 * d.routeCount ≤ n) && decide (d.barrowCount ≤ 1024) &&
    decide (d.barrowOff + 64 * d.barrowCount ≤ n) && decide (d.collCount ≤ 256) &&
    decide (d.collOff + 64 * d.collCount ≤ n)

/-- Check 2 of Table 8.7: version, counts, reserved fields and section bounds (R184). The spec names no check of
static_length, bytes 16 to 23, and none is made. DESIGN CHOICE, unsafe: log entry 15. -/
def imageOk (img : List Byte) (dir : List ListDir) : Bool :=
  let beds := fieldAt img 4 2
  let lists := fieldAt img 6 2
  let tensors := fieldAt img 8 2
  let claims := fieldAt img 10 2
  let len := fun (i : Nat) => (secAt img i).2
  let map := (entries (secBytes img 0) 4 beds).map leNat
  decide (256 ≤ img.length) && fieldAt img 0 2 == 2 && decide (fieldAt img 3 1 < 8) &&
    decide (1 ≤ beds) && decide (beds ≤ 128) && decide (1 ≤ lists) && decide (lists ≤ 128) &&
    decide (1 ≤ tensors) && decide (tensors ≤ 4096) && decide (1 ≤ claims) && decide (claims ≤ 1024) &&
    fieldAt img 12 4 == 0 && fieldAt img 24 8 == 0 && allZero ((img.drop 128).take 128) &&
    (List.range 8).all (secOk img) && secsApart img &&
    decide (4 * beds ≤ len 0) && decide (64 * tensors ≤ len 2) && decide (16 * claims ≤ len 3) && len 4 % 48 == 0 &&
    len 6 % 16 == 0 && decide (len 6 ≤ 65536) && len 7 % 64 == 0 &&
    dir.length == lists && dir.all (dirOk (len 1)) && map.all (fun e => decide (bits e 8 7 < lists)) &&
    (map.map fun e => e % 128).eraseDups.length == beds

/-! ## Failures of a check -/

/-- A failure of a load check: where it lies, and what the report says of it (R191, R192). -/
structure Fail where
  bed : Nat := 0
  index : Nat := 0
  code : Nat
  holder : Nat := 0
  kind : Nat := 0
  deriving DecidableEq, Repr

/-- Whether a failure is reported before another: the lowest logical bed, then the lowest index (R191). -/
def Fail.before (a b : Fail) : Bool := decide (a.bed < b.bed) || a.bed == b.bed && decide (a.index < b.index)

/-- The failure that a check reports. -/
def firstFail (fs : List Fail) : Option Fail :=
  fs.foldl (fun a f => match a with
    | none => some f
    | some g => some (if f.before g then f else g)) none

/-- The lowest logical bed that runs a list. -/
def Program.firstBed (g : Program) (l : Nat) : Option Nat :=
  ((g.beds.filter fun e => e.2 == l).map (·.1)).foldl (fun a b => match a with
    | none => some b
    | some c => some (min b c)) none

/-- The lists of a program, each with the lowest bed that runs it; one that no bed runs comes after every bed's. DESIGN CHOICE,
safe: log entry 16. -/
def Program.runs (g : Program) : List (Nat × IList) := (enumFrom 0 g.lists).map fun e => ((g.firstBed e.1).getD 128, e.2)

/-- A failure at an instruction for each instruction of the lists for which a test holds. -/
def Program.failsAt (g : Program) (code : Nat) (bad : Instr → Bool) : List Fail :=
  g.runs.flatMap fun r => (enumFrom 0 r.2.code).filterMap fun e => match decodeIns 0 e.2 with
    | some i => if bad i then some { bed := r.1, index := e.1, code } else none
    | none => none

end Sys2Proof.Machine
end

