-- ==== Sys2Proof/Machine/Routes.lean ====
section
/-! DEFINITION. The runner grid (R259, R260), the latency of a route (R264), the links that its words occupy (R265), and
what the loader asks of route entries (R263, R265) and of conflicts between plots' routes. -/

namespace Sys2Proof.Machine

/-! ## The grid -/

/-- The router of a physical bed (R259): die p / 33, position p mod 33. -/
def bedRouter (p : Nat) : Nat × Nat :=
  let d := p / 33
  let q := p % 33
  (6 * (d % 2) + q % 6, 1 + 6 * (d / 2) + q / 6)

/-- A router of row 5 of a die: gardeners and the service port (R259). -/
def dieRouter (d col : Nat) : Nat × Nat := (6 * (d % 2) + col, 1 + 6 * (d / 2) + 5)

/-- The router of an endpoint other than a bed (Table 11.3); none for a reserved one. -/
def unitRouter (e : Nat) : Option (Nat × Nat) :=
  if 0x80 ≤ e ∧ e ≤ 0x87 then some (dieRouter ((e - 0x80) / 2) (3 + e % 2))
  else if 0x88 ≤ e ∧ e ≤ 0x8B then some (dieRouter (e - 0x88) 5)
  else if 0x90 ≤ e ∧ e ≤ 0x9B then some (e - 0x90, 0)
  else if 0xA0 ≤ e ∧ e ≤ 0xAB then some (e - 0xA0, 13)
  else if e = 0x9C then some (5, 0)
  else if e = 0x9D then some (4, 0)
  else if e = 0x9E then some (7, 0)
  else if e = 0x9F then some (6, 0)
  else if e = 0xAC then some (5, 13)
  else if e = 0xAD then some (4, 13)
  else if e = 0xAE then some (7, 13)
  else if e = 0xAF then some (6, 13)
  else if e = 0xB0 then some (2, 13)
  else if e = 0xB1 then some (3, 13)
  else if e = 0xB2 then some (8, 13)
  else if e = 0xB3 then some (9, 13)
  else none

/-- The router of an endpoint under the current fence map. -/
def State.router (s : State) (e : Nat) : Option (Nat × Nat) :=
  if e < 128 then (s.physOf e).map bedRouter else unitRouter e

/-- The block of routers a router belongs to: compute dies 0 to 3, north hub 4, south hub 5. -/
def dieAt (r : Nat × Nat) : Nat := if r.2 = 0 then 4 else if 13 ≤ r.2 then 5 else r.1 / 6 + 2 * ((r.2 - 1) / 6)

/-- The numbers from a to b, both included, in that direction. -/
def along (a b : Nat) : List Nat := if a ≤ b then upFrom a (b + 1 - a) else (upFrom b (a + 1 - b)).reverse

/-- The routers of a branch: along the column first, then along the row (R260). -/
def branch (a b : Nat × Nat) : List (Nat × Nat) :=
  (along a.2 b.2).map (fun y => (a.1, y)) ++ ((along a.1 b.1).drop 1).map fun x => (x, b.2)

/-- A walk along a branch: the block it is in, its routers so far there, and the A-cycles of the blocks before. -/
structure Hop where
  die : Nat
  h : Nat
  base : Nat
  deriving DecidableEq, Repr

/-- The step to the next router: within a block, or over a crossing. -/
def Hop.next (a : Hop) (r : Nat × Nat) : Hop :=
  if dieAt r = a.die then { a with h := a.h + 1 } else { die := dieAt r, h := 1, base := a.base + ceilDiv a.h 8 + 1 }

/-- λ of one branch: the routers of each block by eights, the crossings, encode and write (R264). -/
def branchLambda (rs : List (Nat × Nat)) : Nat :=
  match rs with
  | [] => 2
  | r :: more =>
    let e := more.foldl Hop.next { die := dieAt r, h := 1, base := 0 }
    e.base + ceilDiv e.h 8 + 2

/-- One direction of a link between two routers, and the A-cycle from departure at which a word is on it. -/
structure Occ where
  a : Nat × Nat
  b : Nat × Nat
  delta : Nat
  deriving DecidableEq, Repr

/-- The links of a branch (R265). The spec gives no delta beside lambda: a word passes eight routers of a block in an A-cycle,
counted from the branch's first in that block, and a crossing after all of them. DESIGN CHOICE, unsafe: log entry 61. -/
def linksFrom : Hop → Nat × Nat → List (Nat × Nat) → List Occ
  | _, _, [] => []
  | k, r, q :: more =>
    let d := if dieAt q = k.die then k.base + (k.h - 1) / 8 else k.base + ceilDiv k.h 8
    { a := r, b := q, delta := d } :: linksFrom (k.next q) q more

def branchLinks : List (Nat × Nat) → List Occ
  | [] => []
  | r :: more => linksFrom { die := dieAt r, h := 1, base := 0 } r more

/-! ## Routes -/

/-- The destinations of a route. -/
def Route.dests (r : Route) : List Nat := (List.range 192).filter fun e => r.dest.getLsbD e

/-- The branches of a route; none where an endpoint has no router. -/
def State.branches (s : State) (r : Route) : Option (List (List (Nat × Nat))) :=
  match s.router r.source with
  | none => none
  | some a =>
    let bs := r.dests.map fun e => (s.router e).map (branch a)
    if bs.all (·.isSome) ∧ !bs.isEmpty then some (bs.filterMap id) else none

/-- λ of a route: the greatest over its branches (R264). -/
def State.routeLambda (s : State) (r : Route) : Option Nat :=
  (s.branches r).map fun bs => (bs.map branchLambda).foldl max 0

/-- The links of a route's tree. -/
def State.tree (s : State) (r : Route) : List Occ :=
  match s.branches r with
  | some bs => (bs.flatMap branchLinks).eraseDups
  | none => []

/-- Whether two routes' words, in their claimed slots, can be on one link direction in the same slot (R265). -/
def State.routesMeet (s : State) (r q : Route) : Bool :=
  (s.tree r).any fun x => (s.tree q).any fun y => x.a == y.a && x.b == y.b &&
    r.slotList.any fun i => q.slotList.any fun j => (i + x.delta) % 64 == (j + y.delta) % 64

/-- q of a route: the greatest gap between successive claimed slots around the frame (R266). -/
def Route.gap (r : Route) : Nat :=
  let sl := r.slotList
  match sl with
  | [] => 64
  | a :: _ => ((sl.zip (sl.drop 1 ++ [a + 64])).map fun p => p.2 - p.1).foldl max 0

/-- The route entry of a segment. -/
def Program.findRoute (g : Program) (seg : Nat) : Option Route := g.routes.find? fun r => r.segment == seg

/-- The beds of a program. -/
def Program.has (g : Program) (b : Nat) : Bool := g.beds.any fun e => e.1 == b

/-- What refuses a plot's route entries (R263, R265): reserved bits, an endpoint without a router, λ, the mask, a bed
outside the plot, two entries of one segment; and routes whose source is no bed of the plot that meet another.
DEDUCED, unsafe: log entry 61. -/
def State.routeFails (s : State) (g : Program) (raw : List (List Byte)) : List Fail :=
  let one := fun (k : Nat) (r : Route) =>
    let out := r.dests.filter fun e => decide (e < 128) && !g.has e
    let bad := s.routeLambda r != some r.lambda || g.slotsOf 2 r.segment != r.slots || !g.claimsOf 2 r.segment ||
      (g.routes.filter fun q => q.segment == r.segment).length != 1 ||
      (enumFrom 0 g.routes).any fun q => decide (q.1 < k) && (decide (128 ≤ r.source) || decide (128 ≤ q.2.source)) &&
        s.routesMeet r q.2
    match out with
    | b :: _ => [{ bed := b, index := r.segment, code := 0x20 : Fail }]
    | [] => if bad then [{ bed := 0, index := r.segment, code := 0x20 : Fail }] else []
  (if raw.all routeClean then [] else [{ bed := 0, index := 0, code := 0x20 : Fail }]) ++
    (enumFrom 0 g.routes).flatMap fun e => one e.1 e.2

/-- A conflict of a plot's routes with those of plots in force (R265): the plot and the held segment. -/
def State.routeClash (s : State) (g : Program) : Option (Nat × Nat) :=
  (s.plots.filterMap fun e =>
    if e.2.state = 0 then none
    else (e.2.prog.routes.find? fun q => g.routes.any fun r => s.routesMeet r q).map fun q => (e.1, q.segment)).head?

end Sys2Proof.Machine
end

