-- ==== Sys2Proof/Machine/Transcend.lean ====
section
/-! DEFINITION. Rigorous enclosures of the real functions of Table 6.3: for each precision p, integers lo and hi with
lo <= f(x) * 2^p <= hi. An interval at precision w is a pair of integers in units of 2^-w. -/

namespace Sys2Proof.Machine

/-- An interval of reals in units of 2^-w. -/
abbrev Iv := Int × Int

def floorDiv (a b : Int) : Int := Int.fdiv a b
def ceilDivI (a b : Int) : Int := -(Int.fdiv (-a) b)

def ivAdd (a b : Iv) : Iv := (a.1 + b.1, a.2 + b.2)
def ivNeg (a : Iv) : Iv := (-a.2, -a.1)
def ivSub (a b : Iv) : Iv := (a.1 - b.2, a.2 - b.1)

/-- Product at precision w. -/
def ivMul (w : Nat) (a b : Iv) : Iv :=
  let p := [a.1 * b.1, a.1 * b.2, a.2 * b.1, a.2 * b.2]
  (floorDiv (p.foldl min (a.1 * b.1)) (2 ^ w), ceilDivI (p.foldl max (a.1 * b.1)) (2 ^ w))

/-- Quotient by a positive interval. -/
def ivDiv (w : Nat) (a b : Iv) : Iv :=
  if b.1 ≤ 0 then (-(2 ^ (2 * w)), 2 ^ (2 * w))
  else
    (min (floorDiv (a.1 * 2 ^ w) b.1) (floorDiv (a.1 * 2 ^ w) b.2),
     max (ceilDivI (a.2 * 2 ^ w) b.1) (ceilDivI (a.2 * 2 ^ w) b.2))

/-- An interval over a positive integer. -/
def ivDivN (a : Iv) (n : Nat) : Iv := (floorDiv a.1 n, ceilDivI a.2 n)

def ivInt (w : Nat) (n : Int) : Iv := (n * 2 ^ w, n * 2 ^ w)

/-- m * 2^e at precision w. -/
def ivDy (w : Nat) (m e : Int) : Iv := (shiftFloor m (-(e + w)), shiftCeil m (-(e + w)))

/-- From precision w to precision p. -/
def ivTo (w p : Nat) (a : Iv) : Iv := (shiftFloor a.1 (w - p), shiftCeil a.2 (w - p))

/-- a * 2^k. -/
def ivShift (a : Iv) (k : Int) : Iv := (shiftFloor a.1 (-k), shiftCeil a.2 (-k))

/-- Square root of a nonnegative interval. -/
def ivSqrt (w : Nat) (a : Iv) : Iv :=
  ((isqrt (a.1.toNat * 2 ^ w) : Int), (isqrt (a.2.toNat * 2 ^ w) : Int) + 1)

/-- A power series: the sum of t_k with t_(k+1) = step k t_k, n terms, and the last term; g k t is what is summed. -/
def ivSeries (step : Nat → Iv → Iv) (g : Nat → Iv → Iv) : Nat → Nat → Iv → Iv → Iv × Iv
  | 0, _, t, s => (s, t)
  | n + 1, k, t, s => ivSeries step g n (k + 1) (step k t) (ivAdd s (g k t))

/-- The sum widened on both sides by the first term left out and one unit. -/
def ivTail (r : Iv × Iv) : Iv :=
  let e := max (abs r.2.1) (abs r.2.2) + 1
  (r.1.1 - e, r.1.2 + e)

/-- ln 2 = sum of 1/(k 2^k). -/
def ivLn2 (w : Nat) : Iv :=
  ivTail (ivSeries (fun _ t => ivDivN t 2) (fun k t => ivDivN t k) (w + 4) 1 (ivDivN (ivInt w 1) 2) (0, 0))

/-- atan(1/n) for n >= 2. -/
def ivAtanInv (w n : Nat) : Iv :=
  ivTail (ivSeries (fun _ t => ivNeg (ivDivN t (n * n))) (fun k t => ivDivN t (2 * k + 1)) (w + 4) 0
    (ivDivN (ivInt w 1) n) (0, 0))

/-- pi = 16 atan(1/5) - 4 atan(1/239). -/
def ivPi (w : Nat) : Iv :=
  let a := ivAtanInv w 5
  let b := ivAtanInv w 239
  ivSub (16 * a.1, 16 * a.2) (4 * b.1, 4 * b.2)

/-- e^r for an interval r within [-1, 1]. -/
def ivExpSmall (w : Nat) (r : Iv) : Iv :=
  ivTail (ivSeries (fun k t => ivDivN (ivMul w t r) (k + 1)) (fun _ t => t) (w / 2 + 16) 0 (ivInt w 1) (0, 0))

/-- e^x for an interval of moderate size: by 2^k e^r. -/
def ivExp (w : Nat) (x : Iv) : Iv :=
  let l := ivLn2 w
  let k := floorDiv x.1 l.1
  let r := ivSub x (if 0 ≤ k then (k * l.1, k * l.2) else (k * l.2, k * l.1))
  ivShift (ivExpSmall w r) k

/-- ln of m * 2^e, m positive: s ln 2 + 2 atanh((v - 1)/(v + 1)) with 1 <= v < 2. -/
def ivLn (w : Nat) (m e : Int) : Iv :=
  let s := (Nat.log2 m.toNat : Int)
  let v := ivDy w m (-s)
  let z := ivDiv w (ivSub v (ivInt w 1)) (ivAdd v (ivInt w 1))
  let z2 := ivMul w z z
  let a := ivTail (ivSeries (fun _ t => ivMul w t z2) (fun k t => ivDivN t (2 * k + 1)) (w / 2 + 8) 0 z (0, 0))
  let l := ivLn2 w
  let k := s + e
  ivAdd (2 * a.1, 2 * a.2) (if 0 ≤ k then (k * l.1, k * l.2) else (k * l.2, k * l.1))

/-- sin and cos of an interval within [-2, 2]. -/
def ivSinSmall (w : Nat) (r : Iv) : Iv :=
  let r2 := ivMul w r r
  ivTail (ivSeries (fun k t => ivNeg (ivDivN (ivMul w t r2) ((2 * k + 2) * (2 * k + 3)))) (fun _ t => t) (w / 2 + 16) 0
    r (0, 0))

def ivCosSmall (w : Nat) (r : Iv) : Iv :=
  let r2 := ivMul w r r
  ivTail (ivSeries (fun k t => ivNeg (ivDivN (ivMul w t r2) ((2 * k + 1) * (2 * k + 2)))) (fun _ t => t) (w / 2 + 16) 0
    (ivInt w 1) (0, 0))

/-- sin of m * 2^e, or cos: reduced by multiples of pi/2. -/
def ivTrig (isCos : Bool) (w : Nat) (m e : Int) : Iv :=
  let big := (Nat.log2 m.natAbs + e + 4).toNat
  let v := w + big
  let h := ivDivN (ivPi v) 2
  let x := ivDy v m e
  let q := floorDiv x.1 h.1
  let r := ivTo v w (ivSub x (if 0 ≤ q then (q * h.1, q * h.2) else (q * h.2, q * h.1)))
  match ((q + (if isCos then 1 else 0)) % 4).toNat with
  | 0 => ivSinSmall w r
  | 1 => ivCosSmall w r
  | 2 => ivNeg (ivSinSmall w r)
  | _ => ivNeg (ivCosSmall w r)

/-- erf of an interval of size at most 17: 2/sqrt(pi) times the sum of (-1)^n x^(2n+1) / (n! (2n+1)), with 512 bits
more than asked to hold its large terms. -/
def ivErf (w : Nat) (x : Iv) : Iv :=
  let v := w + 512
  let x := ivShift x 512
  let x2 := ivMul v x x
  let s := ivTail (ivSeries (fun k t => ivNeg (ivDivN (ivMul v t x2) (k + 1))) (fun k t => ivDivN t (2 * k + 1))
    (v + 700) 0 x (0, 0))
  ivTo v w (ivDiv v (2 * s.1, 2 * s.2) (ivSqrt v (ivPi v)))

/-- 1 / (1 + e^(-x)) for an interval of moderate size. -/
def ivSigmoid (w : Nat) (x : Iv) : Iv :=
  ivDiv w (ivInt w 1) (ivAdd (ivInt w 1) (ivExp w (ivNeg x)))

/-- ln of an interval of positive numbers. -/
def ivLnIv (w : Nat) (a : Iv) : Iv := ((ivLn w a.1 (-w)).1, (ivLn w a.2 (-w)).2)

/-- 2^x of m * 2^e. -/
def ivExp2 (w : Nat) (m e : Int) : Iv :=
  let x := ivDy w m e
  let k := floorDiv x.1 (2 ^ w)
  let r := ivSub x (ivInt w k)
  ivShift (ivExpSmall w (ivMul w r (ivLn2 w))) k

end Sys2Proof.Machine
end

