-- ==== Sys2Proof/Machine/Special.lean ====
section
/-! DEFINITION. The special functions (R118 to R125) and logarithmic addition (R126, R127). Each function's exact real
result is enclosed as closely as needed; where it is not representable, the module returns one of the two adjacent
codes, by the polynomials of R120 (the tables of QP2-FT-1 are not in the spec). -/

namespace Sys2Proof.Machine

/-- The exact result of a special function: a known value with the cause of a non-finite one, or a real number that no
code holds, by its enclosures. -/
inductive Sf where
  | known (v : Val) (cause : Nat)
  | near (encl : Nat → Iv)

/-- m * 2^e with m odd. -/
def oddGo : Nat → Int → Int → Int × Int
  | 0, m, e => (m, e)
  | k + 1, m, e => if m % 2 = 0 then oddGo k (m / 2) (e + 1) else (m, e)

def dyOdd (x : Ex) : Int × Int :=
  let d := dyOf x
  if d.1 = 0 then (0, 0) else oddGo (Nat.log2 d.1.natAbs + 1) d.1 d.2

/-- Precision p reached through w = p + 32 bits. -/
def viaW (f : Nat → Iv) (p : Nat) : Iv := ivTo (p + 32) p (f (p + 32))

/-- A real just below m * 2^e in magnitude, by a part in 2^k. -/
def below (m e : Int) (k : Nat) : Sf :=
  .near fun p => ivDy p (m * (2 ^ k - 1)) (e - k)

/-- m * 2^e < n. -/
def dyLt (m e : Int) (n : Int) : Bool := exLt (exDy m e) (exInt n)

/-- The single-argument functions of Table 9.8 at a finite nonzero argument x = m * 2^e, m odd (Table 6.3). -/
def sfFinite (func : Nat) (m e : Int) : Sf :=
  let x : Ex := exDy m e
  let tiny : Sf := .known (.fin (exDy (-1) (-400))) 0
  match func with
  | 0x00 =>
    if dyLt m e (-4096) then .known (.fin (exDy 1 (-4096))) 0
    else if !dyLt m e 4096 then .known (.fin (exDy 1 4096)) 0
    else if 0 ≤ e then .known (.fin (exDy 1 (m * 2 ^ e.toNat))) 0
    else .near (viaW fun w => ivExp2 w m e)
  | 0x01 =>
    if m < 0 then .known .nan 5
    else if m = 1 then .known (.fin (exInt e)) 0
    else .near (viaW fun w => ivDiv w (ivLn w m e) (ivLn2 w))
  | 0x02 =>
    if m.natAbs = 1 then .known (.fin (exDy m (-e))) 0
    else .near fun p =>
      if (p : Int) < e then (-1, 1)
      else (floorDiv (2 ^ (p - e).toNat) m, ceilDivI (2 ^ (p - e).toNat) m)
  | 0x03 =>
    if m < 0 then .known .nan 5
    else
      let n := if e % 2 = 0 then m.toNat else 2 * m.toNat
      let f := if e % 2 = 0 then e else e - 1
      if isqrt n * isqrt n = n then .known (.fin (exDy (isqrt n) (f / 2))) 0
      else .near fun p => let r := isqrt (shiftFloor m (-(e + 2 * p))).toNat; ((r : Int), (r : Int) + 1)
  | 0x04 =>
    if m < 0 then .known .nan 5
    else if m = 1 ∧ e % 2 = 0 then .known (.fin (exDy 1 (-e / 2))) 0
    else .near fun p =>
      let r := isqrt (2 ^ (2 * p - e).toNat / m.toNat)
      if (2 * p : Int) < e then (0, 1) else ((r : Int), (r : Int) + 1)
  | 0x05 => .near (viaW fun w => ivTrig false w m e)
  | 0x06 => .near (viaW fun w => ivTrig true w m e)
  | 0x07 =>
    if !exLt (exAbs x) (exInt 40) then below (Int.sign m) 0 100
    else .near (viaW fun w =>
      let t := ivExp w (ivDy w (2 * m) e)
      ivSub (ivInt w 1) (ivDiv w (ivInt w 2) (ivAdd t (ivInt w 1))))
  | 0x08 =>
    if !dyLt m e 64 then below 1 0 90
    else if dyLt m e (-300) then .known (.fin (exDy 1 (-400))) 0
    else .near (viaW fun w => ivSigmoid w (ivDy w m e))
  | 0x09 =>
    if !dyLt m e 300 then below m e 400
    else if dyLt m e (-300) then tiny
    else .near (viaW fun w => ivMul w (ivDy w m e) (ivSigmoid w (ivDy w m e)))
  | 0x0A =>
    if !exLe x (exInt 32) then .known (.fin x) 0
    else if dyLt m e (-300) then .known (.fin (exDy 1 (-400))) 0
    else .near (viaW fun w => ivLnIv w (ivAdd (ivInt w 1) (ivExp w (ivDy w m e))))
  | 0x0B =>
    if !exLt (exAbs x) (exInt 8) then below (Int.sign m) 0 90
    else .near (viaW fun w => ivErf w (ivDy w m e))
  | 0x0C =>
    if !dyLt m e 24 then below m e 300
    else if dyLt m e (-24) then tiny
    else .near (viaW fun w =>
      let z := ivMul w (ivDy w m e) (ivSqrt w (ivDivN (ivInt w 1) 2))
      ivMul w (ivDy w m (e - 1)) (ivAdd (ivInt w 1) (ivErf w z)))
  | _ =>
    if !dyLt m e 16 then below m e 300
    else if dyLt m e (-16) then tiny
    else .near (viaW fun w =>
      let x := ivDy w m e
      let cube := ivMul w x (ivMul w x x)
      let inner := ivAdd x (ivDivN (44715 * cube.1, 44715 * cube.2) 1000000)
      let u := ivDivN (79788456 * 2 * inner.1, 79788456 * 2 * inner.2) 100000000
      ivMul w x (ivSigmoid w u))

/-- A single-argument function at any value: the special arguments of Table 6.4 (R121). -/
def sfApply (func : Nat) (v : Val) : Sf :=
  match v with
  | .nan => .known .nan 1
  | .inf neg =>
    match func with
    | 0x00 => if neg then .known .zero 0 else .known (.inf false) 2
    | 0x01 => if neg then .known .nan 5 else .known (.inf false) 2
    | 0x02 => .known .zero 0
    | 0x03 => if neg then .known .nan 5 else .known (.inf false) 2
    | 0x04 => if neg then .known .nan 5 else .known .zero 0
    | 0x05 | 0x06 => .known .nan 5
    | 0x07 | 0x0B => .known (.fin (exInt (if neg then -1 else 1))) 0
    | 0x08 => if neg then .known .zero 0 else .known (.fin (exInt 1)) 0
    | _ => if neg then .known .zero 0 else .known (.inf false) 2
  | .fin x =>
    let d := dyOdd x
    if d.1 = 0 then
      match func with
      | 0x00 | 0x06 | 0x0A => .known (.fin (exInt 1)) 0
      | 0x01 => .known (.inf true) 5
      | 0x02 | 0x04 => .known (.inf false) 5
      | 0x08 => .known (.fin (exDy 1 (-1))) 0
      | _ => .known .zero 0
    else sfFinite func d.1 d.2

/-- The activation of a gated form (R125, Table 9.8). -/
def gateOf (func : Nat) : Nat := if func = 0x10 then 0x0C else if func = 0x11 then 0x0D else 0x09

/-- A gated form f(a) * b, by the product classes (R125). -/
def sfGate (func : Nat) (a b : Val) : Sf :=
  let f := sfApply (gateOf func) a
  match f, b with
  | _, .nan => .known .nan 1
  | .known .nan c, _ => .known .nan c
  | .known v c, w =>
    match v, w with
    | .fin x, .fin y => .known (.fin (exMul x y)) 0
    | u, z => if u.isZero || z.isZero then .known .nan 3 else .known (.inf (u.isNeg != z.isNeg)) (max c 2)
  | .near g, .fin y =>
    let d := dyOf y
    if d.1 = 0 then .known .zero 0
    else .near fun p =>
      let w := p + Nat.log2 d.1.natAbs + d.2.natAbs + 8
      let r := g w
      let s := if 0 ≤ d.1 then (r.1 * d.1, r.2 * d.1) else (r.2 * d.1, r.1 * d.1)
      (shiftFloor s.1 (w - p - d.2), shiftCeil s.2 (w - p - d.2))
  | .near g, .inf neg => .known (.inf (decide ((g 64).2 ≤ 0) != neg)) 2

/-- The neighbour above or below a code of a positive value. -/
def codeStep (f : Fmt) (code : Nat) (up : Bool) : Nat :=
  match f with
  | .l8 => toTwos 7 (signed 7 code + (if up then 1 else -1))
  | .l16 => toTwos 15 (signed 15 code + (if up then 1 else -1))
  | .f8 | .b1 => code
  | _ => if up then code + 1 else code - 1

/-! ## Polynomials (R120) -/

/-- S, d and w of the 16-bit and of the 32-bit tables. -/
def polySegs (wide : Bool) : Nat := if wide then 32 else 16
def polyDeg (wide : Bool) : Nat := if wide then 4 else 2
def polyBits (wide : Bool) : Nat := if wide then 60 else 40

/-- horner of R120 in units of 2^-w, on the coefficients from c[0] upward. -/
def horner (w : Nat) (u : Int) (cs : List Int) : Int :=
  match cs.reverse with
  | [] => 0
  | top :: rest => rest.foldl (fun (acc c : Int) => exRound (exDy (acc * u + c * 2 ^ w) (-(2 * w))) w) top

/-- The coefficients of a segment of a table from c[0] upward: p(0) of exp2 is 1, and on the 32-bit tables of the functions of R122
the seams match, c[0] of a segment being the value of the one before it at u = 1. -/
def polyCoefs (digest : BitVec 256) (wide : Bool) (func : Nat) (small : Bool) : Nat → List Int
  | 0 => (List.range (polyDeg wide + 1)).map fun i =>
    if func = 0 ∧ i = 0 then 2 ^ polyBits wide else Config.coef digest wide func small 0 i
  | j + 1 => (List.range (polyDeg wide + 1)).map fun i =>
    if i = 0 ∧ wide ∧ func ≠ 0x05 ∧ func ≠ 0x06 then
      horner (polyBits wide) (2 ^ polyBits wide) (polyCoefs digest wide func small j)
    else Config.coef digest wide func small (j + 1) i

/-- p(r / 3) of a table where `third`, else p(r), in units of 2^-w. -/
def polyVal (digest : BitVec 256) (wide : Bool) (func : Nat) (small third : Bool) (r : Ex) : Int :=
  let w := polyBits wide
  let t := exMul r (exInt (polySegs wide))
  let j := if third then (exFloor t 0).1 / 3 else (exFloor t 0).1
  let u := if third then (2 * (exFloor (exSub t (exInt (3 * j))) w).1 + 3) / 6 else exRound (exSub t (exInt j)) w
  horner w u (polyCoefs digest wide func small j.toNat)

/-- 2^x of Table 6.3. -/
def exp2Poly (digest : BitVec 256) (wide : Bool) (x : Ex) : Ex :=
  let i := (exFloor x 0).1
  exDy (polyVal digest wide 0x00 false false (exSub x (exInt i))) (max (-4096) (min i 4096) - polyBits wide)

/-- log2(x), 1 / x, sqrt(x) and 1 / sqrt(x) of Table 6.3. -/
def leadPoly (digest : BitVec 256) (wide : Bool) (func : Nat) (x : Ex) : Ex :=
  let w : Int := polyBits wide
  let a := exAbs x
  let i := exLead a
  if func = 0x01 then
    let r := exSub (exShift a (-i)) (exInt 1)
    exAdd (exInt i) (exMul r (exDy (polyVal digest wide func false false r) (-w)))
  else if func = 0x02 then
    exDy (exSign x * polyVal digest wide func false false (exSub (exShift a (-i)) (exInt 1))) (-i - w)
  else
    let h := i / 2
    exDy (polyVal digest wide func false true (exSub (exShift a (-2 * h)) (exInt 1))) ((if func = 0x03 then h else -h) - w)

/-- sigmoid(x) of Table 6.3 in units of 2^-w; from 32 on it is 1. DESIGN CHOICE, unsafe: log entry 24. -/
def sigmoidPoly (digest : BitVec 256) (wide : Bool) (x : Ex) : Int :=
  let a := exAbs x
  let p := if exLt a (exInt 32) then polyVal digest wide 0x08 false false (exShift a (-5)) else 2 ^ polyBits wide
  if exSign x = -1 then 2 ^ polyBits wide - p else p

/-- tanh(x) or erf(x) of Table 6.3; from 8 on it is 1. DESIGN CHOICE, unsafe: log entry 24. -/
def oddPoly (digest : BitVec 256) (wide : Bool) (func : Nat) (x : Ex) : Ex :=
  let w : Int := polyBits wide
  let a := exAbs x
  let sq := exMul a a
  if exLt a (exDy 1 (-4)) then exMul x (exAdd (exInt 1) (exMul sq (exDy (polyVal digest wide func true false sq) (-w))))
  else
    let p := if exLt a (exInt 8) then polyVal digest wide func false false (exShift a (-3)) else 2 ^ polyBits wide
    exDy (if exSign x = -1 then -p else p) (-w)

/-- The stored 2/pi, and log2(e): 320 fraction bits. -/
def twoOverPi : Int := roundHE (2 ^ 722 / (ivPi 400).1) true
def log2e : Int := roundHE (2 ^ 721 / (ivLn2 400).1) true

/-- softplus(x) of Table 6.3. -/
def softplusPoly (digest : BitVec 256) (wide : Bool) (x : Ex) : Ex :=
  if exLt (exInt 32) x then x
  else if exLt x (exInt (-32)) then exp2Poly digest wide (exMul x (exDy log2e (-320)))
  else exDy (polyVal digest wide 0x0A false false (exShift (exAdd x (exInt 32)) (-6))) (-polyBits wide)

/-- sin(x) or cos(x) of Table 6.3 in units of 2^-w. -/
def trigPoly (digest : BitVec 256) (wide isCos : Bool) (x : Ex) : Int :=
  let t := exMul x (exDy twoOverPi (-320))
  let q := (exFloor t 0).1
  let r := exSub t (exInt q)
  let p := fun (func : Nat) => polyVal digest wide func false false r
  match ((q + (if isCos then 1 else 0)) % 4).toNat with
  | 0 => p 0x05
  | 1 => p 0x06
  | 2 => -p 0x05
  | _ => -p 0x06

/-- 0.79788456 (x + 0.044715 x^3) rounded to 60 fraction bits (Table 6.3). -/
def geluInner (x : Ex) : Int :=
  let f := exFloor (exMul (exInt 79788456) (exAdd (exMul (exInt 1000000) x) (exMul (exInt 44715) (exMul x (exMul x x))))) 61
  roundHE (f.1 / 10 ^ 14) (f.2 || f.1 % 10 ^ 14 != 0)

/-- The value that the reconstruction of Table 6.3 forms, before it is rounded. -/
def polyOf (digest : BitVec 256) (wide : Bool) (func : Nat) (x : Ex) : Ex :=
  let w : Int := polyBits wide
  let half := fun (p : Ex) => exShift (exMul x (exAdd (exInt 1) p)) (-1)
  match func with
  | 0x00 => exp2Poly digest wide x
  | 0x01 | 0x02 | 0x03 | 0x04 => leadPoly digest wide func x
  | 0x05 => exDy (trigPoly digest wide false x) (-w)
  | 0x06 => exDy (trigPoly digest wide true x) (-w)
  | 0x07 | 0x0B => oddPoly digest wide func x
  | 0x08 => exDy (sigmoidPoly digest wide x) (-w)
  | 0x09 => exMul x (exDy (sigmoidPoly digest wide x) (-w))
  | 0x0A => softplusPoly digest wide x
  | 0x0C => half (oddPoly digest wide 0x0B (exMul x (exPow (-256))))
  | _ => half (oddPoly digest wide 0x07 (exDy (geluInner x) (-60)))

/-! ## The choice between the adjacent codes -/

/-- Whether a value above a magnitude's lower neighbour rounds to more than that neighbour; z is the F8 zero point. -/
def roundsAbove (f : Fmt) (z : Int) (neg : Bool) (low : Nat) (v : Ex) : Bool :=
  let v := if neg then exNeg v else v
  exSign v == 1 && valCmp (decodeEl false f z (encodeEl false f z (.fin v)).1) (decodeEl false f z low) == 1

/-- The first number after lo, up to hi, at which a test that goes from false to true holds, by halving n times. -/
def firstTrue (test : Int → Bool) : Nat → Int → Int → Int
  | 0, _, hi => hi
  | n + 1, lo, hi => if hi - lo ≤ 1 then hi
    else if test ((lo + hi) / 2) then firstTrue test n lo ((lo + hi) / 2) else firstTrue test n ((lo + hi) / 2) hi

/-- The value of a T32 code, as a number that rises with it. -/
def t32Val (k : Int) : Ex :=
  match decodeT false (toTwos 32 k) 32 with
  | .fin x => x
  | _ => []

/-- Whether a monotone function's result is the neighbour greater in magnitude (R122): its polynomial's value is above the lower
neighbour's in rounding from one T32 argument on, or up to one, and the argument lies there. tanh, erf and reciprocal go by the
magnitude of their argument; softplus(32) stays at 32, where the seam to the argument itself is. DEDUCED, safe: log entry 24. -/
def sfStep (digest : BitVec 256) (func : Nat) (f : Fmt) (z : Int) (x : Ex) (neg : Bool) (low : Nat) : Bool :=
  let odd := func == 0x02 || func == 0x07 || func == 0x0B
  let n := neg && !odd
  let falls := n || func == 0x02 || func == 0x04
  let test := fun (k : Int) => roundsAbove f z n low (polyOf digest (decide (f = .t32)) func (t32Val k)) != falls
  let from_ : Int := if odd || func == 0x01 || func == 0x03 || func == 0x04 then 0 else -(2 ^ 31 - 1)
  let at_ := signed 32 (encodeT false 32 (.fin (if odd then exAbs x else x))).1
  if func = 0x0A ∧ exLe (exInt 32) x then false
  else decide (firstTrue test 33 from_ (2 ^ 31 - 1) ≤ at_) != falls

/-- Whether the module returns the neighbour greater in magnitude, where that is the nearer one or not, by the value of R120,
brought between the two neighbours (R119): a monotone function by the argument at which that value passes (R122), but tanh and
erf beyond 8 return 1 where the result rounds to 1. y is the gate of a gated form (R125). -/
def sfUpper (digest : BitVec 256) (func : Nat) (f : Fmt) (z : Int) (x y : Ex) (neg : Bool) (low : Nat) (nearer : Bool) : Bool :=
  let wide := decide (f = .t32)
  if 0x10 ≤ func then roundsAbove f z neg low (exMul (polyOf digest wide (gateOf func) x) y)
  else if func = 0x05 ∨ func = 0x06 ∨ func = 0x09 ∨ 0x0C ≤ func then roundsAbove f z neg low (polyOf digest wide func x)
  else if (func = 0x07 ∨ func = 0x0B) ∧ exLt (exInt 8) (exAbs x) ∧ nearer = true ∧
      valCmp (decodeEl false f z (codeStep f low true)) (.fin (exInt 1)) = 0 then true
  else sfStep digest func f z x neg low

/-- A special function's result in a format: the value, or one in the same gap between codes; its code, counter and cause. -/
structure SfOut where
  v : Val
  code : Nat
  cnv : Cnv
  cause : Nat
  deriving DecidableEq, Repr

/-- The code of a real number that no code holds: the enclosure is narrowed until its nearest code, and the side of the
number on which that code lies, are fixed; then, by magnitude, the lower or the upper neighbour, by a choice given the sign,
the lower neighbour's code and whether the upper is nearer (R119). -/
def sfNear (compat : Bool) (f : Fmt) (z : Int) (upper : Bool → Nat → Bool → Bool) (g : Nat → Iv) : Nat → Nat → SfOut
  | 0, _ => ⟨.zero, 0, .none, 0⟩
  | k + 1, p =>
    let e := g p
    let neg := decide (e.2 < 0)
    let lo := if neg then -e.2 else e.1
    let hi := if neg then -e.1 else e.2
    if lo ≤ 0 then sfNear compat f z upper g k (2 * p)
    else
      let a : Val := .fin (exDy lo (-p))
      let b : Val := .fin (exDy hi (-p))
      let ca := encodeEl compat f z a
      let cb := encodeEl compat f z b
      let v := decodeEl compat f z ca.1
      let isLow := valCmp v a == -1
      let isHigh := valCmp v b == 1
      if ca ≠ cb ∨ (ca.2 = .none ∧ isLow = false ∧ isHigh = false) then sfNear compat f z upper g k (2 * p)
      else
        let low := if isLow then ca.1 else codeStep f ca.1 false
        let c := if ca.2 ≠ .none then ca.1
          else if low = 0 ∨ upper neg low isHigh then (if isLow then codeStep f ca.1 true else ca.1)
          else low
        if neg then ⟨a.neg, (encodeEl compat f z (decodeEl compat f z c).neg).1, ca.2, 0⟩ else ⟨a, c, ca.2, 0⟩

/-- The finite value of an operand; 0 for another. -/
def Val.ex : Val → Ex
  | .fin x => x
  | _ => []

/-- The result of a special function on its operands in a format (R119 to R122, R125). -/
def sfEncode (digest : BitVec 256) (func : Nat) (x y : Val) (compat : Bool) (f : Fmt) (z : Int) (r : Sf) : SfOut :=
  match r with
  | .known v cause => let e := encodeEl compat f z v; ⟨v, e.1, e.2, cause⟩
  | .near g => sfNear compat f z (sfUpper digest func f z x.ex y.ex) g 8 64

/-! ## Logarithmic addition -/

/-- 512 log2(1 + 2^(d/512)) or 512 log2(1 - 2^(d/512)) as an enclosure at precision p. -/
def gaussLog (minus : Bool) (d : Int) (p : Nat) : Iv :=
  viaW (fun w =>
    let l := ivLn2 w
    let y := ivExp w (ivDivN (d * l.2, d * l.1) 512)
    let s := if minus then ivSub (ivInt w 1) y else ivAdd (ivInt w 1) y
    let q := ivDiv w (ivLnIv w s) l
    (512 * q.1, 512 * q.2)) p

/-- The floor of a Gaussian logarithm that is no integer. -/
def gaussFloor (minus : Bool) (d : Int) : Nat → Nat → Int
  | 0, p => (gaussLog minus d p).1 / 2 ^ p
  | k + 1, p =>
    let e := gaussLog minus d p
    if e.1 / 2 ^ p = e.2 / 2 ^ p then e.1 / 2 ^ p else gaussFloor minus d k (2 * p)

/-- An L16 field brought within its limits, with its counter (R126). -/
def l16Limit (v : Int) : Int × Cnv :=
  if 16382 < v then (16382, .overflow) else if v < -16383 then (-16383, .underflow) else (v, .none)

/-- lns_add of R126 on values whose finite magnitudes are 2^(v/512): value, counter, cause. -/
def lnsAdd (digest : BitVec 256) (a b : Val) : Val × Cnv × Nat :=
  match a, b with
  | .nan, _ => (.nan, .none, 1)
  | _, .nan => (.nan, .none, 1)
  | .inf s, .inf t => if s = t then (.inf s, .none, 2) else (.nan, .none, 5)
  | .inf s, _ => (.inf s, .none, 2)
  | _, .inf t => (.inf t, .none, 2)
  | .fin x, .fin y =>
    match exNorm x, exNorm y with
    | [], _ => (b, .none, 0)
    | _, [] => (a, .none, 0)
    | [(m, q)], [(n, r)] =>
      let hiSign := if r ≤ q then m else n
      let hi := max q r
      let d := min q r - hi
      let minus := decide (m * n < 0)
      let out := fun (v : Int) => let w := l16Limit v; ((.fin [(Int.sign hiSign, w.1)] : Val), w.2, 0)
      if minus = false ∧ d < -5632 then out hi
      else if minus = false ∧ d = 0 then out (hi + 512)
      else if minus = true ∧ d = 0 then (.fin [], .none, 0)
      else if minus = true ∧ d = -512 then out (hi - 512)
      else
        let f := gaussFloor minus d 8 64
        out (hi + (if Config.gaussUp digest minus d then f + 1 else f))
    | _, _ => (.nan, .none, 1)

end Sys2Proof.Machine
end

