-- ==== Sys2Proof/Machine/VectorUnit.lean ====
section
/-! DEFINITION. What the vector, special-function, soft-maximum, sieve, normalisation, statistics, record, sprinkler and
table instructions do to their bed (R113 to R144, R216 to R227). -/

namespace Sys2Proof.Machine

/-! ## Registers -/

def Bed.vreg (b : Bed) (i : Nat) : VReg := tget (fun _ => {}) b.vregs i

def Bed.setVreg (b : Bed) (i : Nat) (r : VReg) : Bed := { b with vregs := tset (fun _ => {}) b.vregs i r }

def Bed.kmask (b : Bed) (i : Nat) : W64 := tget (fun _ => 0) b.masks i

def Bed.setKmask (b : Bed) (i : Nat) (m : W64) : Bed := { b with masks := tset (fun _ => 0) b.masks i m }

/-- Lane i of a register (R202). -/
def VReg.lane (r : VReg) (i : Nat) : Nat := (r.lanes.extractLsb' (32 * i) 32).toNat

/-- Sixty-four 32-bit lanes packed, lane 0 lowest. -/
def packLanes : List Nat → Nat
  | [] => 0
  | v :: vs => v % 2 ^ 32 + 2 ^ 32 * packLanes vs

/-- A register with its lanes and tag given (R202). -/
def vregOf (tag : BitVec 4) (lanes : List Nat) : VReg := { tag, lanes := BitVec.ofNat 2048 (packLanes lanes) }

def VReg.all (r : VReg) : List Nat := (List.range 64).map r.lane

/-- The value of a lane under the register's tag; F8 lanes have zero point 0 (R202, R203). -/
def VReg.val (r : VReg) (compat : Bool) (i : Nat) : Val := decodeEl compat (fmtOf r.tag) 0 (r.lane i)

/-! ## Landing (R201)

A write of a register lands a latency after its issue. One that lands later than another has the last word, whichever issued
first; no instruction reads a register between an issue and its landing. -/

/-- The lowest n lanes. -/
def laneMask (n : Nat) : W64 := BitVec.ofNat 64 (2 ^ min n 64 - 1)

/-- Of some lanes, those that no write landing later than an A-cycle takes. -/
def freeLanes (ls : List (Nat × W64)) (land : Nat) (m : W64) : W64 :=
  (ls.filter fun e => decide (land < e.1)).foldl (fun (m : W64) e => m &&& ~~~e.2) m

/-- The writes of a register that can still bar a later one, with a new one of some lanes. -/
def landings (ls : List (Nat × W64)) (cyc land : Nat) (lanes : W64) : List (Nat × W64) :=
  (ls.filter fun e => decide (cyc < e.1)) ++ [(land, lanes)]

/-- A vector register written in some lanes by an instruction of A-cycle cyc, landing at A-cycle land. -/
def Bed.landV (b : Bed) (cyc land i : Nat) (lanes : W64) (r : VReg) : Bed :=
  let ls := tget (fun _ => []) b.vLand i
  let m := freeLanes ls land lanes
  let old := b.vreg i
  let new := if ls.any fun e => decide (land < e.1) then
      vregOf old.tag ((List.range 64).map fun j => if m.getLsbD j then r.lane j else old.lane j)
    else r
  { b.setVreg i new with vLand := tset (fun _ => []) b.vLand i (landings ls cyc land lanes) }

/-- A mask register written in some bits in the same way. -/
def Bed.landK (b : Bed) (cyc land i : Nat) (lanes m : W64) : Bed :=
  let ls := tget (fun _ => []) b.kLand i
  let f := freeLanes ls land lanes
  { b.setKmask i ((b.kmask i &&& ~~~f) ||| (m &&& f)) with kLand := tset (fun _ => []) b.kLand i (landings ls cyc land lanes) }

/-! ## VOP -/

/-- The sum of two values, by the classes of Table 3.5. -/
def valAdd : Val → Val → Val
  | .nan, _ => .nan
  | _, .nan => .nan
  | .inf a, .inf b => if a = b then .inf a else .nan
  | .inf a, _ => .inf a
  | _, .inf b => .inf b
  | .fin x, .fin y => .fin (exAdd x y)

/-- The product of two values, by the classes of R55. -/
def valMul : Val → Val → Val
  | .nan, _ => .nan
  | _, .nan => .nan
  | .fin x, .fin y => .fin (exMul x y)
  | u, v => if u.isZero || v.isZero then .nan else .inf (u.isNeg != v.isNeg)

/-- The smaller or the larger of two values; NaN when either is NaN (R117). -/
def valMin (u v : Val) : Val := if u.isNan || v.isNan then .nan else if valCmp v u == -1 then v else u
def valMax (u v : Val) : Val := if u.isNan || v.isNan then .nan else if valCmp u v == -1 then v else u

/-- The exact result of an elementwise operation in one lane (Table 9.7). -/
def vopVal (op : Nat) (x y z : Val) (imm8 : BitVec 8) (imm : Val) : Val :=
  match op with
  | 0x00 => valAdd x y
  | 0x01 => valAdd x y.neg
  | 0x02 => valMul x y
  | 0x03 => valMin x y
  | 0x04 => valMax x y
  | 0x05 => valAdd (valMul x y) z
  | 0x06 => x.neg
  | 0x07 => if x.isNeg then x.neg else x
  | 0x0D => x.shift (signed 8 imm8.toNat)
  | 0x0F => imm
  | _ => x

/-- The bit of a compare (Table 9.7). -/
def vopCmp (op : Nat) (x y : Val) : Bool :=
  let un := x.isNan || y.isNan
  match op with
  | 0x09 => !un && valCmp x y == 0
  | 0x0A => !un && valCmp x y == -1
  | 0x0B => !un && valCmp x y != 1
  | _ => un

/-- A mask word with some lanes' bits given; the others keep theirs. -/
def maskWord (old : W64) (keep : Nat → Bool) (f : Nat → Bool) : W64 :=
  BitVec.ofNat 64 (((List.range 64).map fun i => if keep i then b2n (f i) * 2 ^ i else b2n (old.getLsbD i) * 2 ^ i).foldl
    (· + ·) 0)

/-- VOP (R216, R117, R152): the operation in all 64 lanes, each result rounded once and counted. A lane masked off keeps
its old value. -/
def vopBody (c : Ctx) (op d s1 s2 s3 : Nat) (fmt : BitVec 4) (km : Nat) (maskEn : Bool) (kd : Nat) (imm8 : BitVec 8)
    (imm32 : BitVec 32) (b : Bed) : Bed × List BOut :=
  let compat := c.prog.compat
  let k := b.kmask km
  let on := fun i => !maskEn || k.getLsbD i
  let r1 := b.vreg s1
  let r2 := b.vreg s2
  let kout := fun (m : W64) => (b.landK c.cyc (c.cyc + 4) kd (laneMask 64) m, ([] : List BOut))
  if op = 0x10 then kout (k &&& b.kmask (s1 % 8))
  else if op = 0x11 then kout (k ||| b.kmask (s1 % 8))
  else if op = 0x12 then kout (~~~k)
  else if 0x09 ≤ op ∧ op ≤ 0x0C then
    (b.landK c.cyc (c.cyc + 4) kd (if maskEn then k else laneMask 64)
      (maskWord (b.kmask kd) on fun i => vopCmp op (r1.val compat i) (r2.val compat i)), [])
  else
    let f := fmtOf fmt
    let imm := decodeEl compat .t32 0 imm32.toNat
    let old := b.vreg d
    let res := (List.range 64).map fun i =>
      if op = 0x08 ∨ on i then
        let src := if op = 0x08 then (if k.getLsbD i then r1 else r2) else r1
        if (op = 0x08 ∨ op = 0x0E) ∧ sameCode compat (fmtOf src.tag) 0 f 0 then (src.lane i, Cnv.none)
        else encodeEl compat f 0 (vopVal op (src.val compat i) (r2.val compat i) ((b.vreg s3).val compat i) imm8 imm)
      else (old.lane i, .none)
    ((b.countAll (res.map (·.2))).landV c.cyc (c.cyc + 4) d (if op = 0x08 ∨ maskEn = false then laneMask 64 else k)
      (vregOf fmt (res.map (·.1))), [])

/-! ## VLD, VST, MCVT -/

/-- Port A-cycles that moving n elements uses: 64 B each, and one more for each T8X block (R161). -/
def Opnd.portUses (o : Opnd) (n : Nat) : Nat := ceilDiv (o.bytesOf n) 64 + o.blocks n

/-- VLD (R217): register first + i takes the 64 elements from 64 i along dimension 0, in format fmt. -/
def vldBody (c : Ctx) (first count : Nat) (src : BitVec 24) (fmt : BitVec 4) (bp : Nat) (b : Bed) : Bed × List BOut :=
  let o := c.opnd src
  let r := (List.range count).foldl
    (fun (s : Bed × Option Nat × List (List Nat)) i =>
      match s.2.1 with
      | some _ => s
      | none =>
        let l := c.load s.1 (o.shift (64 * i) 0) 64 (fmtOf fmt) 0
        (l.bed, l.bad, s.2.2 ++ [l.codes]))
    (b, none, [])
  match r.2.1 with
  | some addr => (r.1, [.halt 0x40 0 addr])
  | none =>
    let at_ := c.cyc + o.moveCycles (64 * count) bp + 3
    (((enumFrom 0 r.2.2).foldl (fun (b : Bed) e => b.landV c.cyc at_ (first + e.1) (laneMask 64) (vregOf fmt e.2)) r.1).gauge 3
      (o.portUses (64 * count)), [])

/-- What a VST stores: lane j of register first + i becomes element 64 i + j; a lane whose mask bit is 0 is not
written. -/
def vstItems (c : Ctx) (b : Bed) (first count : Nat) (o : Opnd) (km : Nat) (maskEn : Bool) : List SItem :=
  (List.range count).flatMap fun i =>
    let r := b.vreg (first + i)
    (List.range 64).map fun j =>
      { o := o.shift (64 * i + j) 0, v := r.val c.prog.compat j,
        code := if sameCode c.prog.compat (fmtOf r.tag) 0 (fmtOf o.t.fmt) (c.zeroOf b o.ti) then some (r.lane j) else none,
        keep := !maskEn || (b.kmask km).getLsbD j : SItem }

/-- VST (R217): registers stored in the format of the output descriptor. -/
def vstBody (c : Ctx) (first count : Nat) (dst : BitVec 24) (bp km : Nat) (maskEn : Bool) (b : Bed) : Bed × List BOut :=
  let o := c.opnd dst
  let s := c.store b o.ti (vstItems c b first count o km maskEn) maskEn
  ((s.bed.gauge 3 (o.portUses (64 * count))).finish (c.cyc + o.moveCycles (64 * count) bp + 3), s.outs)

/-- What an MCVT stores: each source value, or its code where the formats are the same. -/
def mcvtItems (c : Ctx) (b : Bed) (o p : Opnd) (n : Nat) (vs : List (Val × Cnv)) : List SItem :=
  let same := sameCode c.prog.compat (fmtOf o.t.fmt) (c.zeroOf b o.ti) (fmtOf p.t.fmt) (c.zeroOf b p.ti)
  let codes := if same then b.codes o n else []
  (enumFrom 0 vs).map fun e =>
    { o := p.shift e.1 0, v := e.2.1, code := if same then codes[e.1]? else none, pre := e.2.2 : SItem }

/-- MCVT (R218): n elements converted from memory to memory. -/
def mcvtBody (c : Ctx) (src dst : BitVec 24) (n bp : Nat) (b : Bed) : Bed × List BOut :=
  let o := c.opnd src
  let p := c.opnd dst
  let r := b.touch c.index (c.ranges b o n)
  match r.2 with
  | some addr => (r.1, [.halt 0x40 0 addr])
  | none =>
    let vs := c.vals r.1 o n
    let b := c.record r.1 o.ti (vs.map (·.1))
    let s := c.store b p.ti (mcvtItems c b o p n vs) false
    let uses := ceilDiv (max (o.bytesOf n) (p.bytesOf n)) 64 + o.blocks n + p.blocks n
    ((s.bed.gauge 3 uses).finish (c.cyc + mcvtCycles o p n bp + 6), s.outs)

/-! ## SFN -/

/-- The digest of the active table bank. DESIGN CHOICE, unsafe: log entry 7. -/
def Bed.tblDigest (b : Bed) : BitVec 256 := if b.tbank then b.tbank1.digest else b.tbank0.digest

/-- The first result to be flagged: its element and cause (R144). -/
def firstFlag (cs : List Nat) : Option (Nat × Nat) :=
  (enumFrom 0 cs).find? fun e => e.2 == 5 || e.2 == 3

/-- One element of an SFN: its result in a format (R118 to R127). -/
def sfnElem (b : Bed) (func : Nat) (z : Int) (x y : Val) (compat : Bool) (f : Fmt) : SfOut :=
  let dig := b.tblDigest
  if func = 0x18 ∨ func = 0x19 then
    let r := lnsAdd dig x (if func = 0x19 then y.neg else y)
    let e := encodeEl compat f z r.1
    ⟨r.1, e.1, if r.2.1 = .none then e.2 else r.2.1, r.2.2⟩
  else if 0x10 ≤ func then sfEncode dig func x y compat f z (sfGate func x y)
  else sfEncode dig func x y compat f z (sfApply func x)

/-- An element stored from a result in its format, and in T8X, which qp1_compat leaves as it is (R47), from its T32 and its T8
result, each rounded once: the spec names only tapered output formats, and any is taken. DESIGN CHOICE, unsafe: log entry 69. -/
def sfItem (o : Opnd) (compat : Bool) (f : Fmt) (res : Bool → Fmt → SfOut) : SItem × Nat :=
  if f = .t8x then
    let w := res false .t32
    let n := res false .t8
    ({ o, v := w.v, both := some ((w.code, w.cnv), (n.code, n.cnv)) }, w.cause)
  else
    let r := res compat f
    ({ o, v := r.v, code := some r.code, pre := r.cnv }, r.cause)

/-- The elements that an SFN stores, each with its cause. -/
def sfnItems (c : Ctx) (b : Bed) (func : Nat) (p : Opnd) (xs : List (Val × Val)) : List (SItem × Nat) :=
  (enumFrom 0 xs).map fun e =>
    sfItem (p.shift e.1 0) c.prog.compat (fmtOf p.t.fmt) (sfnElem b func (c.zeroOf b p.ti) e.2.1 e.2.2)

/-- SFN (R219): func on n elements, the gate or second addend from op2 where the function has one. -/
def sfnBody (c : Ctx) (func : Nat) (src op2 dst : BitVec 24) (n : Nat) (b : Bed) : Bed × List BOut :=
  let o := c.opnd src
  let q := c.opnd op2
  let p := c.opnd dst
  let r := c.loadVals b o n
  let r2 := if 0x10 ≤ func then c.loadVals r.1 q n else (r.1, none, List.replicate n .nan)
  match r.2.1, r2.2.1 with
  | some addr, _ => (r.1, [.halt 0x40 0 addr])
  | _, some addr => (r2.1, [.halt 0x40 0 addr])
  | none, none =>
    let b := r2.1
    let res := sfnItems c b func p (r.2.2.zip r2.2.2)
    let s := c.store b p.ti (res.map (·.1)) false
    let fl := match firstFlag (res.map (·.2)) with
      | some e => s.bed.sflag c.prog.compat e.2 e.1 c.index
      | none => (s.bed, [])
    let k := ceilDiv n 8
    let late := sfnLatency func (decide (fmtOf p.t.fmt = .t32))
    ((((fl.1.gauge 6 k).gauge 3 (k * (if 0x10 ≤ func then 3 else 2))).holdSf (c.cyc + k)).finish (c.cyc + k + late), s.outs ++ fl.2)

/-! ## Soft maximum -/

def Bed.row (b : Bed) (i : Nat) : SRow := tget (fun _ => {}) b.rows i

def Bed.setRow (b : Bed) (i : Nat) (r : SRow) : Bed := { b with rows := tset (fun _ => {}) b.rows i r }

/-- y with its fraction rounded to 32 bits: the integer part and the fraction (R128). DEDUCED, unsafe: log entry 25.
-/
def smaxSplit (y : Ex) : Int × Nat :=
  let t := exRound y 32
  (t / 2 ^ 32, (t % 2 ^ 32).toNat)

/-- g(y) in units of 2^-27: the 28-bit value of the T32 exp2 at the fraction; 1 exactly at 0. -/
def smaxG (digest : BitVec 256) (frac : Nat) : Nat :=
  let f : Val := .fin (exDy frac (-32))
  let r := sfEncode digest 0x00 f .zero false .t32 0 (sfApply 0x00 f)
  min (exFloor (decodeT false r.code 32).ex 27).1.toNat (2 ^ 28 - 1)

/-- Bins moved up by j places, the lowest emptied, those above 6 discarded (R128, R129). -/
def shiftBins (bins : List Nat) (j : Nat) : List Nat := (List.replicate (min j 7) 0 ++ bins).take 7

/-- The state brought to reference hn (R128). -/
def SRow.raise (r : SRow) (hn : Int) : SRow :=
  if r.empty then { r with h := hn }
  else if r.h < hn then { r with bins := shiftBins r.bins ((hn - r.h) / 16).toNat, h := hn } else r

/-- One unmasked element of pass 1 (R128, R130). DEDUCED, unsafe: log entry 25. -/
def SRow.feed (r : SRow) (digest : BitVec 256) (beta : Ex) (v : Val) : SRow :=
  match v with
  | .nan => { r with sawNan := true }
  | .inf true => r
  | .inf false => { r with sawInf := true }
  | .fin x =>
    let y := exNorm (exMul beta x)
    let m := if r.empty then y else if exLt r.m y then y else r.m
    let r := r.raise (16 * ((smaxSplit m).1 / 16))
    let s := smaxSplit y
    let rel := s.1 - r.h
    let bin := (-(rel / 16)).toNat
    let bins := if bin ≤ 6 ∧ rel ≤ 15 then
        r.bins.set bin (r.bins.getD bin 0 + smaxG digest s.2 * 2 ^ (rel + 16 * bin).toNat)
      else r.bins
    { r with empty := false, m, bins }

/-- The mask bits of n elements (R130). -/
def smaxMask (b : Bed) (m : Option Opnd) (n : Nat) : List Bool :=
  match m with
  | some o => (b.codes o n).map (· == 1)
  | none => List.replicate n false

/-- The betas that a program's SMAX1 instructions name. -/
def Program.betas (g : Program) : List (BitVec 32) :=
  (g.lists.flatMap fun l => (l.code.filterMap (decodeIns 0)).filterMap fun i => match i with
    | .smax1 _ _ _ _ _ _ _ beta _ => some beta
    | _ => none).eraseDups

/-- The scale of an entry as a number. An entry that SMAXM alone has formed has the beta of the parts merged, which the items
do not carry: the one that the program's SMAX1 instructions name, or where they name several a free value (R129, R220).
DESIGN CHOICE, unsafe: log entry 25. -/
def betaOf (c : Ctx) (r : SRow) : Ex :=
  let beta := match r.beta with
    | some v => v
    | none => match c.prog.betas with
      | [v] => v
      | _ => Config.mergedBeta c.log c.index
  match decodeEl c.prog.compat .t32 0 beta.toNat with
  | .fin x => x
  | _ => []

/-- SMAX1 (R220, R128): pass 1 over n elements into a row state. -/
def smax1Body (c : Ctx) (src : BitVec 24) (mask : Option (BitVec 12)) (entry : Nat) (clear : Bool) (beta : BitVec 32)
    (n : Nat) (b : Bed) : Bed × List BOut :=
  let o := c.opnd src
  let m := mask.map fun i => c.opndLike i src
  let r := c.loadVals b o n
  let rm := match m with
    | some q => r.1.touch c.index [q.span n]
    | none => (r.1, none)
  match r.2.1, rm.2 with
  | some addr, _ => (r.1, [.halt 0x40 0 addr])
  | _, some addr => (rm.1, [.halt 0x40 0 addr])
  | none, none =>
    let b := rm.1
    let row := if clear then {} else b.row entry
    let row := { row with beta := some (row.beta.getD beta), q := none }
    let be := betaOf c row
    let dig := b.tblDigest
    let row := ((r.2.2.zip (smaxMask b m n)).filter fun e => !e.2).foldl (fun s e => s.feed dig be e.1) row
    let k := ceilDiv n 8
    let b := ((b.setRow entry row).gauge 6 (k + 14)).gauge 3 (k * (if mask.isSome then 2 else 1))
    ((b.holdSf (c.cyc + k + 14)).holdSmax (c.cyc + k + 14), [])

/-- s of R128: the exact sum of the bins. -/
def binSum (bins : List Nat) : Ex :=
  exDy ((enumFrom 0 bins).foldl (fun a e => a + (e.2 : Int) * 2 ^ (96 - 16 * e.1)) 0) (-123)

/-- The reciprocal q of an entry's sum rounded into T32 (R128, R119). -/
def smaxQ (c : Ctx) (b : Bed) (r : SRow) : BitVec 32 :=
  let s := decodeEl c.prog.compat .t32 0 (encodeT c.prog.compat 32 (.fin (binSum r.bins))).1
  BitVec.ofNat 32 (sfEncode b.tblDigest 0x02 s .zero c.prog.compat .t32 0 (sfApply 0x02 s)).code

/-- One element of pass 2: its value and the cause of a non-finite one (R128, R130). -/
def smax2Elem (c : Ctx) (b : Bed) (r : SRow) (q : Ex) (v : Val) (masked : Bool) : Val × Nat :=
  if r.sawNan then (.nan, 1)
  else if r.sawInf then (.nan, 2)
  else if r.empty then (.nan, 5)
  else if masked then (.zero, 0)
  else match v with
    | .fin x =>
      let s := smaxSplit (exMul (betaOf c r) x)
      let rel := s.1 - r.h
      if rel < -96 then (.zero, 0)
      else (.fin (exMul (exDy (smaxG b.tblDigest s.2) (rel - 27)) q), 0)
    | _ => (.zero, 0)

/-- Exact values stored at consecutive elements. -/
def valItems (p : Opnd) (vs : List Val) : List SItem := (enumFrom 0 vs).map fun e => { o := p.shift e.1 0, v := e.2 : SItem }

/-- SMAX2 (R220, R128): pass 2 over n elements, the reciprocal formed first where recip is set. -/
def smax2Body (c : Ctx) (src : BitVec 24) (mask : Option (BitVec 12)) (entry : Nat) (recip : Bool) (dst : BitVec 12)
    (n : Nat) (b : Bed) : Bed × List BOut :=
  let o := c.opnd src
  let p := c.opndLike dst src
  let m := mask.map fun i => c.opndLike i src
  let r := c.loadVals b o n
  let rm := match m with
    | some q => r.1.touch c.index [q.span n]
    | none => (r.1, none)
  match r.2.1, rm.2 with
  | some addr, _ => (r.1, [.halt 0x40 0 addr])
  | _, some addr => (rm.1, [.halt 0x40 0 addr])
  | none, none =>
    let b := rm.1
    let row := b.row entry
    let row := if recip ∧ row.empty = false then { row with q := some (smaxQ c b row) } else row
    let q := match decodeEl c.prog.compat .t32 0 (row.q.getD 0).toNat with
      | .fin x => x
      | _ => []
    let res := (r.2.2.zip (smaxMask b m n)).map fun e => smax2Elem c b row q e.1 e.2
    let s := c.store (b.setRow entry row) p.ti (valItems p (res.map (·.1))) false
    let fl := match firstFlag (res.map (·.2)) with
      | some e => s.bed.sflag c.prog.compat e.2 e.1 c.index
      | none => (s.bed, [])
    let k := ceilDiv n 8
    let cost := k + 14 + if recip then 14 else 0
    let b := (fl.1.gauge 6 cost).gauge 3 (k * (if mask.isSome then 3 else 2))
    (((b.holdSf (c.cyc + cost)).holdSmax (c.cyc + cost)).finish (c.cyc + cost), s.outs ++ fl.2)

/-- The 64 bytes of a row state (R129). -/
def SRow.toBytes (r : SRow) : List Byte :=
  leBytes 4 (toTwos 32 r.h) ++
  leBytes 58 ((enumFrom 0 r.bins).foldl (fun a e => a + e.2 % 2 ^ 66 * 2 ^ (66 * e.1)) 0) ++
  leBytes 1 (b2n r.empty + 2 * b2n r.sawNan + 4 * b2n r.sawInf) ++ zeros 1

/-- The row state that 64 bytes hold. -/
def rowOfBytes (bs : List Byte) : SRow :=
  let v := fieldAt bs 4 58
  let f := fieldAt bs 62 1
  { h := signed 32 (fieldAt bs 0 4), bins := (List.range 7).map fun i => bits v (66 * i) 66,
    empty := f.testBit 0, sawNan := f.testBit 1, sawInf := f.testBit 2 }

/-- Two row states combined at the larger reference; an empty part takes no part in choosing it (R129). -/
def SRow.merge (r q : SRow) : SRow :=
  let flags := { r with sawNan := r.sawNan || q.sawNan, sawInf := r.sawInf || q.sawInf }
  if q.empty then flags
  else if r.empty then { flags with empty := false, h := q.h, bins := q.bins, m := exInt q.h }
  else
    let hh := max r.h q.h
    let a := (r.raise hh).bins
    let b := (q.raise hh).bins
    { flags with h := hh, bins := (a.zip b).map fun e => e.1 + e.2, m := if exLt r.m (exInt hh) then exInt hh else r.m }

/-- SMAXM (R220, R129): a row state from bed memory combined into an entry. It holds the special-function units. DEDUCED,
unsafe: log entry 65. -/
def smaxmBody (c : Ctx) (src : BitVec 24) (entry : Nat) (b : Bed) : Bed × List BOut :=
  let a := (c.opnd src).addr
  let r := b.touch c.index [(a, 64)]
  match r.2 with
  | some addr => (r.1, [.halt 0x40 0 addr])
  | none =>
    let row := (r.1.row entry).merge (rowOfBytes (r.1.bytes a 64))
    ((((r.1.setRow entry { row with q := none }).gauge 3 1).gauge 6 8).holdSf (c.cyc + 8), [])

/-- SMAXX (R220): the entry written as a 64 B row state. -/
def smaxxBody (c : Ctx) (entry : Nat) (dst : BitVec 24) (b : Bed) : Bed × List BOut :=
  let r := b.putBytes c.index (c.opnd dst).addr (b.row entry).toBytes
  ((r.1.gauge 3 1).finish (c.cyc + 2), r.2)

/-! ## Sieve -/

/-- Whether entry a ranks before entry b: by value in the direction, NaN last, then by lower position (R135, R136). -/
def ranksBefore (compat : Bool) (f : Fmt) (z : Int) (dir : Bool) (a b : BitVec 32 × BitVec 32) : Bool :=
  let u := decodeEl compat f z a.1.toNat
  let v := decodeEl compat f z b.1.toNat
  if u.isNan && v.isNan then decide (a.2.toNat < b.2.toNat)
  else if u.isNan then false
  else if v.isNan then true
  else
    let o := valCmp u v
    if o = 0 then decide (a.2.toNat < b.2.toNat) else if dir then o == -1 else o == 1

/-- An entry put into a ranked list of at most 64. -/
def rankInsert (lt : (BitVec 32 × BitVec 32) → (BitVec 32 × BitVec 32) → Bool) (e : BitVec 32 × BitVec 32) :
    List (BitVec 32 × BitVec 32) → List (BitVec 32 × BitVec 32)
  | [] => [e]
  | x :: xs => if lt e x then e :: x :: xs else x :: rankInsert lt e xs

/-- Entries fed into the list, which keeps its best 64 whatever k is (R137). -/
def Sieve.feed (s : Sieve) (compat : Bool) (es : List (BitVec 32 × BitVec 32)) : Sieve :=
  let lt := ranksBefore compat (fmtOf s.fmt) s.zero s.dir
  { s with entries := es.foldl (fun l e => (rankInsert lt e l).take 64) s.entries, fed := s.fed + es.length, live := true }

/-- SIEVE (R221): n elements with positions base + offset. -/
def sieveBody (c : Ctx) (src : BitVec 24) (n k : Nat) (dir clear : Bool) (base : BitVec 32) (b : Bed) : Bed × List BOut :=
  let o := c.opnd src
  let r := c.loadVals b o n
  match r.2.1 with
  | some addr => (r.1, [.halt 0x40 0 addr])
  | none =>
    let b := r.1
    let s : Sieve := if clear then {} else b.sieve
    let s := { s with k, dir, fmt := o.t.fmt, zero := if s.live then s.zero else (c.zeroOf b o.ti).toNat }
    let es := (enumFrom 0 (b.codes o n)).map fun e => (BitVec.ofNat 32 e.2, base + BitVec.ofNat 32 e.1)
    (({ b with sieve := s.feed c.prog.compat es }).gauge 3 (ceilDiv n 64 * ceilDiv (64 * (fmtOf o.t.fmt).width) 512), [])

/-- SIEVEM (R221): the first k entries of each of some lists of 512 B merged. -/
def sievemBody (c : Ctx) (src : BitVec 24) (count k : Nat) (dir clear : Bool) (fmt : BitVec 4) (b : Bed) :
    Bed × List BOut :=
  let o := c.opnd src
  let r := b.touch c.index ((List.range count).map fun i => (o.addr + 512 * i, 8 * k))
  match r.2 with
  | some addr => (r.1, [.halt 0x40 0 addr])
  | none =>
    let b := r.1
    let s : Sieve := if clear then {} else b.sieve
    let z := if s.live then s.zero else if fmtOf fmt = .f8 then wfld (c.quant b o.ti) 6 8 else 0
    let s := { s with k, dir, fmt, zero := z }
    let es := (List.range count).flatMap fun i => (List.range k).map fun j =>
      let bs := b.bytes (o.addr + 512 * i + 8 * j) 8
      (BitVec.ofNat 32 (fieldAt bs 0 4), BitVec.ofNat 32 (fieldAt bs 4 4))
    (({ b with sieve := s.feed c.prog.compat es }).gauge 3 (8 * count), [])

/-- A code as an output holds it: under qp1_compat no infinity code of T16 or T32 (R47). -/
def outCode (compat : Bool) (f : Fmt) (code : Nat) : Nat :=
  if compat && (decide (f = .t16) || decide (f = .t32)) && (decodeEl true f 0 code).isNan then 2 ^ (f.width - 1) else code

/-- SIEVEO (R221): the entries the list holds, the first k in rank order, 8 B each. -/
def sieveoBody (c : Ctx) (dst : BitVec 24) (b : Bed) : Bed × List BOut :=
  let es := b.sieve.entries.take (min b.sieve.k b.sieve.fed)
  let r := b.putBytes c.index (c.opnd dst).addr 
    (es.flatMap fun e => leBytes 4 (outCode c.prog.compat (fmtOf b.sieve.fmt) e.1.toNat) ++ leBytes 4 e.2.toNat)
  ((r.1.gauge 3 8).finish (c.cyc + 8), r.2)

/-! ## Statistics and normalisation -/

def Bed.stat (b : Bed) (i : Nat) : Stat := tget (fun _ => {}) b.stats i

def Bed.setStat (b : Bed) (i : Nat) (s : Stat) : Bed := { b with stats := tset (fun _ => {}) b.stats i s }

/-- The larger of two values where NaN dominates every value (R116). -/
def statMax (u v : Val) : Val := if u.isNan || v.isNan then .nan else valMax u v

/-- A max merged: an empty max takes the first value; it is held in T32, rounded once, under qp1_compat without an infinity
code (R47, R115). -/
def maxMerge (compat : Bool) (m : Option (BitVec 32)) (v : Val) : BitVec 32 :=
  let w := match m with
    | some k => statMax (decodeT compat k.toNat 32) v
    | none => v
  BitVec.ofNat 32 (encodeT compat 32 w).1

/-- A value as an addend of S1 or S2, in units of 2^-128. -/
def statEntry (v : Val) : Entry :=
  match v with
  | .nan => { n := 0, cls := .nan, cause := 1 }
  | .inf neg => { n := 0, cls := infOf neg, cause := 2 }
  | .fin x => { n := inLsb (dyOf x).1 (dyOf x).2 128 }

/-- One output value taken into an entry (R115, R116); sums are kept for the formats of Table 6.2. -/
def Stat.add (s : Stat) (compat sums : Bool) (v : Val) : Stat :=
  let s := { s with max := some (maxMerge compat s.max v), count := s.count + 1, prep := none }
  if sums then
    let sq := match v with
      | .fin x => Val.fin (exMul x x)
      | .inf _ => .inf false
      | .nan => .nan
    { s with s1 := s.s1.plus (statEntry v), s2 := s.s2.plus (statEntry sq) }
  else s

/-- Two entries merged exactly (R115, R116, R223). -/
def Stat.merge (compat : Bool) (s t : Stat) : Stat :=
  { max := match t.max with
      | some k => some (maxMerge compat s.max (decodeT compat k.toNat 32))
      | none => s.max,
    s1 := s.s1.plus t.s1, s2 := s.s2.plus t.s2, count := s.count + t.count, prep := none }

/-- The 96 bytes of a statistics item (R223). -/
def Stat.toBytes (s : Stat) : List Byte :=
  leBytes 32 (toTwos 256 s.s1.n) ++ leBytes 32 (toTwos 256 s.s2.n) ++ leBytes 4 (s.max.getD 0).toNat ++
  leBytes 4 s.count ++ leBytes 1 (s.s1.cls.code + 4 * s.s2.cls.code + 16 * b2n s.max.isSome) ++ zeros 23

def statOfBytes (bs : List Byte) : Stat :=
  let f := fieldAt bs 72 1
  { s1 := { n := signed 256 (fieldAt bs 0 32), cls := clsOfNat (f % 4) },
    s2 := { n := signed 256 (fieldAt bs 32 32), cls := clsOfNat (f / 4 % 4) },
    max := if f.testBit 4 then some (BitVec.ofNat 32 (fieldAt bs 64 4)) else none,
    count := fieldAt bs 68 4 }

/-- A quotient a / b of integers times 2^e, b positive, as a dyadic number that every format rounds alike: 600 more bits
and a mark for the rest. -/
def quotEx (a : Int) (b : Nat) (e : Int) : Ex :=
  let q := Int.fdiv (a * 2 ^ 600) b
  exDy (2 * q + (if q * b = a * 2 ^ 600 then 0 else 1)) (e - 601)

/-- NPREP (R222, R132, R133): mu and rho from the combined sums and count, as two T32 values. -/
def nprepBody (c : Ctx) (entry : Nat) (rms : Bool) (eps : BitVec 32) (b : Bed) : Bed × List BOut :=
  let b := (b.gauge 6 15).holdSf (c.cyc + 15)
  let s := b.stat entry
  let enc := fun v => encodeEl c.prog.compat .t32 0 v
  let nanCode : BitVec 32 := 0x80000000
  if s.count = 0 then
    (b.setStat entry { s with prep := some (Config.emptyNorm false, Config.emptyNorm true) }, [])
  else if s.s1.cls ≠ .fin ∨ s.s2.cls ≠ .fin then (b.setStat entry { s with prep := some (nanCode, nanCode) }, [])
  else
    let mu := if rms then (0, Cnv.none) else enc (.fin (quotEx s.s1.n s.count (-128)))
    let v := if rms then enc (.fin (quotEx s.s2.n s.count (-128)))
      else enc (.fin (quotEx ((s.count : Int) * s.s2.n * 2 ^ 128 - s.s1.n * s.s1.n) (s.count * s.count) (-256)))
    let ve := enc (valAdd (decodeEl c.prog.compat .t32 0 v.1) (decodeEl c.prog.compat .t32 0 eps.toNat))
    let vv := decodeEl c.prog.compat .t32 0 ve.1
    let bad := vv.isNan || vv.isZero || vv.isNeg
    let rho := sfEncode b.tblDigest 0x04 vv .zero c.prog.compat .t32 0 (sfApply 0x04 vv)
    let b := b.countAll [mu.2, v.2, ve.2, if bad then .none else rho.cnv]
    let p := if bad then (nanCode, nanCode) else (BitVec.ofNat 32 mu.1, BitVec.ofNat 32 rho.code)
    (b.setStat entry { s with prep := some p }, [])

/-- The exact y of each element x with its gamma and beta, from an entry's mu and rho (R132). -/
def napplyVals (compat : Bool) (st : Stat) (xs : List (Val × Val × Val)) : List Val :=
  let pr := st.prep.getD (0, 0)
  let mu := decodeEl compat .t32 0 pr.1.toNat
  let rho := decodeEl compat .t32 0 pr.2.toNat
  xs.map fun e => valAdd (valMul (valMul (valAdd e.1 mu.neg) rho) e.2.1) e.2.2

/-- NAPPLY (R222, R132): y = ((x - mu) rho) gamma + beta, formed exactly and rounded once. A row whose mu and rho are NaN gives
NaN with cause special-function domain (R133), flagged like that of a special function (R144). DEDUCED, unsafe: log entry 69.
-/
def napplyBody (c : Ctx) (src : BitVec 24) (dst gamma : BitVec 12) (beta : Option (BitVec 12)) (entry n : Nat) (b : Bed) :
    Bed × List BOut :=
  let o := c.opnd src
  let p := c.opndLike dst src
  let along := fun (i : BitVec 12) => ({ ti := i.toNat, t := c.tensor i.toNat, at_ := [o.at_.getD 0 0, 0, 0, 0] } : Opnd)
  let r := c.loadVals b o n
  let g := c.loadVals r.1 (along gamma) n
  let be := match beta with
    | some i => c.loadVals g.1 (along i) n
    | none => (g.1, none, List.replicate n Val.zero)
  match r.2.1, g.2.1, be.2.1 with
  | some addr, _, _ => (r.1, [.halt 0x40 0 addr])
  | _, some addr, _ => (g.1, [.halt 0x40 0 addr])
  | _, _, some addr => (be.1, [.halt 0x40 0 addr])
  | none, none, none =>
    let b := be.1
    let st := b.stat entry
    let ys := napplyVals c.prog.compat st (r.2.2.zip (g.2.2.zip be.2.2))
    let s := c.store b p.ti (valItems p ys) false
    let bad := (decodeEl c.prog.compat .t32 0 ((st.prep.getD (0, 0)).2).toNat).isNan
    let fl := if bad then s.bed.sflag c.prog.compat 5 0 c.index else (s.bed, [])
    let k := ceilDiv n 64
    let wide := fun (i : Nat) => ceilDiv (64 * (fmtOf (c.tensor i).fmt).width) 512
    let ports := wide o.ti + wide p.ti + wide gamma.toNat + (match beta with | some i => wide i.toNat | none => 0)
    ((fl.1.gauge 3 (k * ports)).finish (c.cyc + k + 4), s.outs ++ fl.2)

/-- STATX (R223): entries written as 96 B items. -/
def statxBody (c : Ctx) (entry count : Nat) (dst : BitVec 24) (b : Bed) : Bed × List BOut :=
  let r := b.putBytes c.index (c.opnd dst).addr ((upFrom entry count).flatMap fun i => (b.stat i).toBytes)
  ((r.1.gauge 3 (2 * count)).finish (c.cyc + 2 * count), r.2)

/-- STATM (R223): items merged into entries exactly. -/
def statmBody (c : Ctx) (entry count : Nat) (src : BitVec 24) (b : Bed) : Bed × List BOut :=
  let a := (c.opnd src).addr
  let r := b.touch c.index [(a, 96 * count)]
  match r.2 with
  | some addr => (r.1, [.halt 0x40 0 addr])
  | none =>
    (((List.range count).foldl (fun b i =>
      b.setStat (entry + i) (Stat.merge c.prog.compat (b.stat (entry + i)) (statOfBytes (r.1.bytes (a + 96 * i) 96)))) r.1).gauge 3
      (2 * count), [])

/-! ## PICK, RPX, RPM -/

/-- The picks that have reached the copies of quantisation words by an A-cycle, taken into them. -/
def Bed.settle (b : Bed) (cyc : Nat) : Bed :=
  { b with
    quant := (b.picks.filter fun e => decide (e.1 ≤ cyc)).foldl (fun q e => tset (fun _ => none) q e.2.1 (some e.2.2)) b.quant
    picks := b.picks.filter fun e => decide (cyc < e.1) }

/-- PICK (R224, R157): the delta of a target tensor from a range record, for instructions issued when its 8 A-cycles are over
(R148). -/
def pickBody (c : Ctx) (slot target : Nat) (tSrc : BitVec 8) (room : Nat) (b : Bed) : Bed × List BOut :=
  let r := b.range slot
  if r.nonzero = 0 then (b, [])
  else
    let d := r.maxExp + signed 8 tSrc.toNat - 3 + room - c.prog.baseShift
    let clamp := decide (d < -32) || decide (31 < d)
    let d := if d < -32 then -32 else if 31 < d then 31 else d
    let q := wset (c.quant b target) 0 6 (toTwos 6 d)
    let b := b.settle c.cyc
    let b := { b with picks := b.picks ++ [(c.cyc + 8, target, q)] }
    (if clamp then b.countClamp else b, [.event 0x06 (leBytes 2 target ++ leBytes 1 (toTwos 8 d) ++ leBytes 1 (b2n clamp))])

/-- RPX (R224): a range record written, 32 B. -/
def rpxBody (c : Ctx) (slot : Nat) (dst : BitVec 24) (b : Bed) : Bed × List BOut :=
  let r := b.putBytes c.index (c.opnd dst).addr (b.range slot).toBytes
  ((r.1.gauge 3 2).finish (c.cyc + 2), r.2)

/-- RPM (R224, R154): a record merged into a slot, reset first where clear is set. -/
def rpmBody (c : Ctx) (slot : Nat) (clear : Bool) (src : BitVec 24) (b : Bed) : Bed × List BOut :=
  let a := (c.opnd src).addr
  let r := b.touch c.index [(a, 32)]
  match r.2 with
  | some addr => (r.1, [.halt 0x40 0 addr])
  | none =>
    let old : RangeRec := if clear then {} else r.1.range slot
    ((r.1.setRange slot (old.merge (RangeRec.ofBytes (r.1.bytes a 32)))).gauge 3 2, [])

/-! ## Sprinklers -/

def Bed.sprinkler (b : Bed) (i : Nat) : Sprinkler := tget (fun _ => {}) b.sprinklers i

def Bed.setSprinkler (b : Bed) (i : Nat) (s : Sprinkler) : Bed :=
  { b with sprinklers := tset (fun _ => {}) b.sprinklers i s }

/-- One round of sprinkle (R138). -/
def sprRound (seed stream : W64) (x : W64 × W64) (r : Nat × Nat) : W64 × W64 :=
  let kr := if r.1 % 2 = 0 then seed else stream
  let x0 := x.1 + x.2 + kr + BitVec.ofNat 64 r.1
  (x0, x.2.rotateLeft r.2 ^^^ x0)

/-- sprinkle of R138: ten rounds over the two halves of the counter. -/
def sprinkle (seed stream : W64) (ctr : BitVec 128) : BitVec 128 :=
  let x := (enumFrom 0 [11, 29, 47, 13, 37, 53, 19, 41, 7, 31]).foldl (sprRound seed stream)
    (ctr.extractLsb' 0 64, ctr.extractLsb' 64 64)
  x.2 ++ x.1

/-- count draws of a sprinkler, the counter stepping modulo 2^128. -/
def draws (s : Sprinkler) (count : Nat) : List (BitVec 128) :=
  (List.range count).map fun i => sprinkle s.seed s.stream (s.ctr + BitVec.ofNat 128 i)

/-- Lanes of a register replaced from lane 0 upward, the rest keeping their bits under the new tag (R202, R226). -/
def VReg.fill (r : VReg) (tag : BitVec 4) (vs : List Nat) : VReg :=
  vregOf tag (vs ++ r.all.drop vs.length)

/-- SPRD (R226, Table 6.6): draws into lanes of a vector register or bits of a mask register. -/
def sprdBody (c : Ctx) (s form dst count p : Nat) (b : Bed) : Bed × List BOut :=
  let sp := b.sprinkler s
  let ds := draws sp count
  let b := b.setSprinkler s { sp with ctr := sp.ctr + BitVec.ofNat 128 count }
  let words := ds.flatMap fun d => (List.range 4).map fun j => (d.extractLsb' (32 * j) 32).toNat
  let put := fun (b : Bed) (tag : BitVec 4) (vs : List Nat) =>
    b.landV c.cyc (c.cyc + count + 2) dst (laneMask (4 * count)) ((b.vreg dst).fill tag vs)
  let frac := fun (f : Fmt) (tag : BitVec 4) =>
    let es := words.map fun (w : Nat) => encodeEl c.prog.compat f 0 (.fin (exDy ((w / 2 ^ 8 : Nat) : Int) (-24)))
    (put (b.countAll (es.map (·.2))) tag (es.map (·.1)), ([] : List BOut))
  match form with
  | 0 => (put b 11 words, [])
  | 1 => frac .t32 2
  | 2 => frac .t16 1
  | _ =>
    let k := dst % 8
    let bitsOf := ds.flatMap fun d => (List.range 8).map fun j => decide ((d.extractLsb' (16 * j) 16).toNat < p)
    (b.landK c.cyc (c.cyc + count + 2) k (laneMask (8 * count))
      (maskWord (b.kmask k) (fun i => decide (i < 8 * count)) fun i => bitsOf.getD i false), [])

/-! ## Table banks -/

/-- VTLD (R227, R142, R143): the shadow table bank from an image of 32 KiB; an uncorrectable read poisons it. -/
def vtldBody (c : Ctx) (image ports : Nat) (b : Bed) : Bed × List BOut :=
  let t := c.tensor image
  let r := b.touch c.index [(t.base, 32768)]
  let bank : TBank := { image := if r.2.isSome then [] else r.1.bytes t.base 32768,
                        digest := ((c.prog.images.find? fun e => e.1 == image).getD (0, 0)).2, poison := r.2.isSome }
  let b := if r.1.tbank then { r.1 with tbank0 := bank, tbReady := true } else { r.1 with tbank1 := bank, tbReady := true }
  ({ b.gauge 3 512 with reloadTill := c.cyc + ceilDiv 512 ports }, [])

/-- TFLIP (R246, R142, R143): the shadow bank becomes active, unless it is poisoned: then the plot stops. -/
def tflipBody (b : Bed) : Bed × List BOut :=
  let sh := if b.tbank then b.tbank0 else b.tbank1
  if sh.poison then (b, [.halt 0x45 0 0])
  else ({ b with tbank := !b.tbank, tbReady := false }, [.event 0x07 (leBytes 32 sh.digest.toNat)])

end Sys2Proof.Machine
end

