-- ==== Sys2Proof/Machine/Runner.lean ====
section
/-! DEFINITION. Instructions that move bytes over the runner network and hand them to links: RSEND, RRECV, LSEND, LCOLL
(R238 to R241), and the combination of a collective (R336). -/

namespace Sys2Proof.Machine

/-! ## Words on their way -/

/-- The die crossings of a word from a route's source to an endpoint that departs in an A-cycle: the A-cycle and the link of each
(R264, R267). -/
def State.crossings (s : State) (r : Route) (to_ slot : Nat) : List (Nat × Nat) :=
  match s.router r.source, s.router to_ with
  | some a, some b => (branchLinks (branch a b)).filterMap fun o =>
      if dieAt o.a = dieAt o.b then none else some (slot + o.delta, ((o.a.1 * 16 + o.a.2) * 16 + o.b.1) * 16 + o.b.2)
  | _, _ => []

/-- Words put on their way. -/
def State.addWords (s : State) (p : Nat) (ws : List Word) : State :=
  s.setPlot p { s.plot p with words := ws.foldl (fun (l : List Word) w => putWord w l) (s.plot p).words }

/-- The 256 B words of a send to one bed on their way to its region (R238, R264). -/
def State.sendWords (s : State) (p : Nat) (e : Runner) (addr : Nat) : State :=
  let r := (s.plot p).prog.route e.segment
  s.addWords p ((enumFrom 0 (chunks 256 (ceilDiv e.bytes.length 256) e.bytes)).map fun x =>
    let due := e.dues.getD x.1 0
    { segment := e.segment, bed := e.bed, addr := addr + 256 * x.1, bytes := x.2, due,
      cross := s.crossings r (s.bed e.bed).logical (due - r.lambda) })

/-- The words of a send to a hub's unit on their way; `what` gives what arrives with word k (R240, R241, R244). -/
def State.sendHub (s : State) (c : Ctx) (segment : Nat) (bytes : List Byte) (what : Nat → Option Cargo) : State :=
  let r := c.prog.route segment
  let n := ceilDiv bytes.length 256
  let dues := c.dues segment n
  s.addWords c.plot ((enumFrom 0 (chunks 256 n bytes)).map fun x =>
    let due := dues.getD x.1 0
    { segment, bed := 256 + r.dests.headD 0, addr := 0, bytes := x.2, due, cargo := what x.1,
      cross := s.crossings r (r.dests.headD 0) (due - r.lambda) })

/-- One side of a runner transfer meets the other, or waits for it (R239). A disabled send lands nothing. -/
def State.pair (s : State) (p : Nat) (e : Runner) : State :=
  let x := s.plot p
  match x.runner.find? fun o => o.segment == e.segment && o.exec == e.exec && o.bed == e.bed && o.send != e.send with
  | none => s.setPlot p { x with runner := x.runner ++ [e] }
  | some o =>
    let s := s.setPlot p { x with runner := x.runner.erase o }
    let from_ := if e.send then e else o
    let to_ := if e.send then o else e
    if from_.enabled then s.sendWords p from_ to_.addr else s

/-- The beds that a route leads to. -/
def State.routeBeds (s : State) (r : Route) : List Nat :=
  (List.range 128).filterMap fun l => if r.dest.getLsbD l then s.physOf l else none

/-- A bed's read for a runner send, link send or collective: the bed, and the bytes unless a word is damaged. -/
def Bed.sendRead (b : Bed) (counted : Bool) (index addr len : Nat) : Bed × Except Nat (List Byte) :=
  let r := b.touch index [(addr, len)]
  match r.2 with
  | some a => (r.1, .error a)
  | none =>
    let n := ceilDiv len 256
    (if counted then (r.1.gauge 4 n).gauge 3 (4 * n) else r.1, .ok (r.1.bytes addr len))

/-- A read for sending carried out, its last word reaching the end of its route λ after its slot (R238, R264): a damaged word
stops the plot with code 0x51 and nothing is sent (R249, R256). -/
def State.sendFrom (s : State) (c : Ctx) (segment addr len : Nat) (f : List Byte → State → State) : State :=
  let r := (s.bed c.phys).sendRead true c.index addr len
  let s := s.setBed c.phys (r.1.finish ((c.dues segment (ceilDiv len 256)).getLastD c.cyc))
  match r.2 with
  | .error a => (s.outs c [.halt 0x51 0 a]).watchEcc c.phys
  | .ok bytes => (f bytes s).watchEcc c.phys

/-- The k-th send of a route, towards every bed it leads to (R238, R239). -/
def State.send (s : State) (c : Ctx) (segment : Nat) (bytes : List Byte) (on : Bool) : State :=
  let x := s.plot c.plot
  let k := tget (fun _ => 0) x.sentCount segment + 1
  let s := s.setPlot c.plot { x with sentCount := tset (fun _ => 0) x.sentCount segment k }
  let dues := c.dues segment (ceilDiv bytes.length 256)
  (s.routeBeds (c.prog.route segment)).foldl
    (fun (s : State) bed => s.pair c.plot { segment, exec := k, bed, send := true, addr := 0, bytes, enabled := on, dues }) s

/-- RSEND (R238, R239). -/
def execRsend (b : BitVec 7) (h : Head) (route : BitVec 12) (src : BitVec 24) (len : BitVec 15) (s : State) :
    Host.Outcome State Fault Refusal :=
  .next (s.issueBoth b h (.rsend b h route src len) none fun on c s =>
    if on then s.sendFrom c route.toNat (c.opnd src).addr (64 * (len.toNat + 1)) fun bytes s => s.send c route.toNat bytes true
    else s.send c route.toNat [] false)

/-- RRECV (R239): the k-th region of a route in this bed; a disabled one declares it too. -/
def execRrecv (b : BitVec 7) (h : Head) (route : BitVec 12) (dst : BitVec 24) (len : BitVec 15) (s : State) :
    Host.Outcome State Fault Refusal :=
  .next (s.issueBoth b h (.rrecv b h route dst len) none fun _ c s =>
    let x := s.plot c.plot
    let key := 256 * route.toNat + c.phys
    let k := tget (fun _ => 0) x.recvCount key + 1
    let s := s.setPlot c.plot { x with recvCount := tset (fun _ => 0) x.recvCount key k }
    s.pair c.plot { segment := route.toNat, exec := k, bed := c.phys, send := false, addr := (c.opnd dst).addr, bytes := [],
                    enabled := true })

/-! ## Links -/

/-- The flits of a message or a run of items: up to 8 lines each (R319, Table 14.3). -/
def flitsOf (kind flow tag plot : Nat) (bytes : List Byte) : List TxItem :=
  let n := ceilDiv bytes.length 512
  (enumFrom 0 (chunks 512 n bytes)).map fun e =>
    { kind, flow, first := e.1 == 0, last := e.1 + 1 == n, lines := ceilDiv e.2.length 64,
      tag := if kind = 1 ∧ e.1 ≠ 0 then 0 else tag, payload := fitBytes 512 e.2, plot }

/-- Flits put behind those that wait on a link; the plot does not complete until they are acknowledged (R194, R240). -/
def State.queueFlits (s : State) (l : Nat) (fs : List TxItem) : State :=
  let k := s.link l
  let s := s.setLink l { k with queue := k.queue ++ fs }
  fs.foldl (fun (s : State) f => s.setPlot f.plot { s.plot f.plot with sends := (s.plot f.plot).sends + 1 }) s

/-- LSEND (R240): a message of the claimed flow, each of whose flits waits on the link once its words have reached the hub. -/
def execLsend (b : BitVec 7) (h : Head) (link : BitVec 5) (flow : BitVec 4) (len : BitVec 15) (src : BitVec 24)
    (route : BitVec 12) (s : State) : Host.Outcome State Fault Refusal :=
  .next (s.issueWith b h (.lsend b h link flow len src route) none fun c s =>
    s.sendFrom c route.toNat (c.opnd src).addr (64 * (len.toNat + 1)) fun bytes s =>
      let fs := flitsOf 1 flow.toNat len.toNat c.plot bytes
      (s.sendHub c route.toNat bytes fun k => if k % 2 = 1 ∨ k + 1 = ceilDiv bytes.length 256 then
        (fs[k / 2]?).map fun f => .flit link.toNat f else none).compare 1 c.log c.index c.exec
        (s.plot c.plot).sowTick.toNat (crc64 bytes).toNat)

/-! ## Collectives -/

/-- Bytes of one item of a collective operation (Table 10.4). -/
def itemSize (op : Nat) : Nat :=
  match op with
  | 0 => 48
  | 1 => 80
  | 2 => 96
  | 3 => 32
  | 4 => 64
  | _ => 512

/-- Two items of a collective combined, the earlier first (Table 10.4): exact sums with classes, statistics, records, row
states and sieve lists; and whether a sum saturated under qp1_compat (R66). `v` is the sieve whose k, direction and format
rank the lists. -/
def combineItem (op : Nat) (compat : Bool) (v : Sieve) (x y : List Byte) : List Byte × Bool :=
  let sum := fun (paired : Bool) =>
    let e := ((entryOfBytes paired x).plus (entryOfBytes paired y)).limit (barrelBits paired) compat (satBits paired)
    (e.1.toBytes paired, e.2)
  match op with
  | 0 => sum false
  | 1 => sum true
  | 2 => (((statOfBytes x).merge compat (statOfBytes y)).toBytes, false)
  | 3 => (((RangeRec.ofBytes x).merge (RangeRec.ofBytes y)).toBytes, false)
  | 4 => (((rowOfBytes x).merge (rowOfBytes y)).toBytes, false)
  | _ =>
    let es := fun (bs : List Byte) => ((chunks 8 64 bs).take v.k).map fun e =>
      (BitVec.ofNat 32 (fieldAt e 0 4), BitVec.ofNat 32 (fieldAt e 4 4))
    let r := ({ v with entries := [], fed := 0, live := false } : Sieve).feed compat (es x ++ es y)
    (fitBytes 512 ((r.entries.take v.k).flatMap fun e => leBytes 4 e.1.toNat ++ leBytes 4 e.2.toNat), false)

/-- Item by item, two parts combined. -/
def combineParts (op : Nat) (compat : Bool) (v : Sieve) (x : List Byte × Bool) (y : List Byte) : List Byte × Bool :=
  let n := itemSize op
  let items := ((chunks n (x.1.length / n) x.1).zip (chunks n (y.length / n) y)).map fun e => combineItem op compat v e.1 e.2
  (items.flatMap (·.1), x.2 || items.any (·.2))

/-- The sticky bit of a saturated collective set in every bed of it on this module (R66). -/
def State.stickyParts (s : State) (p k : Nat) : State :=
  ((s.plot p).parts.filter fun q => q.coll == k).foldl
    (fun (s : State) q => match s.physOf q.bed with
      | some ph => s.setBed ph (s.bed ph).setSticky
      | none => s) s

/-- The entry of a collective in a plot's program (R335). -/
def Program.coll (g : Program) (k : Nat) : Coll := (g.colls.find? fun e => e.coll == k).getD {}

/-- Credits of a flow owed to a link's sender: the flits' lines have landed, or their items have been combined (R320). -/
def State.owe (s : State) (l flow n : Nat) : State :=
  let k := s.link l
  s.setLink l { k with owed := tset (fun _ => 0) k.owed flow (tget (fun _ => 0) k.owed flow + n) }

/-- Flits of a collective on a link between members of the domain; a link to another domain carries none (R328). -/
def State.queueRun (s : State) (l : Nat) (fs : List TxItem) : State :=
  if (s.link l).inDomain then s.queueFlits l fs else s

/-- A piece of a run of items, from byte `off` of `total` on, as flits (Table 14.3). -/
def runFlits (flow k plot off total : Nat) (bytes : List Byte) : List TxItem :=
  let n := ceilDiv bytes.length 512
  (enumFrom 0 (chunks 512 n bytes)).map fun e =>
    { kind := 2, flow, first := off + e.1 == 0, last := decide (total ≤ off + 512 * e.1 + e.2.length),
      lines := ceilDiv e.2.length 64, tag := k, payload := fitBytes 512 e.2, plot }

/-- How far a collective of a plot has come. -/
def Plot.gather (x : Plot) (k : Nat) : Gather := (x.gathers.find? fun g => g.coll == k).getD { coll := k }

/-- A collective's record replaced. -/
def Plot.setGather (x : Plot) (g : Gather) : Plot :=
  { x with gathers := g :: x.gathers.filter fun h => h.coll != g.coll }

/-- A piece of the final items of a collective: down every child link, and over the result route, from the A-cycle in which
this module's parts have reached the hub on, into the destination region of every bed; with the last piece the collective
ends (R336). DEDUCED, unsafe: log entry 57. -/
def State.deliver (s : State) (p k : Nat) (bytes : List Byte) : State :=
  let e := (s.plot p).prog.coll k
  let g := (s.plot p).gather k
  let total := itemSize e.op * e.count
  let ends := decide (total ≤ g.down + bytes.length)
  let s := ((List.range 24).filter fun l => e.children.getLsbD l).foldl
    (fun (s : State) l => s.queueRun l (runFlits e.flow k p g.down total bytes)) s
  let mine := (s.plot p).parts.filter fun q => q.coll == k
  let r := (s.plot p).prog.route e.resultRoute
  let dues := s.routeDues p r ((mine.map (·.till)).foldl max 0) (ceilDiv bytes.length 256)
  let s := mine.foldl
    (fun (s : State) q =>
      match s.physOf q.bed with
      | none => s
      | some ph =>
        let s := s.sendWords p { segment := r.segment, exec := 0, bed := ph, send := true, addr := 0, bytes, enabled := true, dues }
          (q.dst + g.down)
        if ends then
          let b := s.bed ph
          let landed := tset (fun _ => 0) b.seq.collLanded k (tget (fun _ => 0) b.seq.collLanded k + 1)
          let b := { b with seq := { b.seq with collLanded := landed, collAt := tset (fun _ => 0) b.seq.collAt k (dues.getLastD 0) } }
          s.setBed ph (if q.op < 2 then { b with barrels := tset (fun _ => none) b.barrels q.dst (b.barrel q.src) } else b)
        else s) s
  let x := s.plot p
  s.setPlot p (if ends then
      { x with parts := x.parts.filter fun q => q.coll != k, partials := x.partials.filter fun q => q.coll != k,
               gathers := x.gathers.filter fun g => g.coll != k }
    else x.setGather { g with down := g.down + bytes.length })

/-- The first n flits that have been read for a collective taken out of the buffers. -/
def dropTaken (flow k : Nat) : Nat → List RxItem → List RxItem
  | 0, xs => xs
  | _, [] => []
  | n + 1, x :: xs =>
    if x.taken && x.kind == 2 && x.flow == flow && x.tag % 256 == k then dropTaken flow k n xs
    else x :: dropTaken flow k (n + 1) xs

/-- The flits of a child's partial of which every item has been combined leave the buffers, and their credits are owed (R320). -/
def State.freeFlits (s : State) (p k flow n : Nat) (q : Partial) : State :=
  let x := s.plot p
  let s := s.setPlot p { x with partials := x.partials.map fun o => if o.coll == k && o.link == q.link then { o with freed := n } else o }
  (s.setLink q.link { s.link q.link with rx := dropTaken flow k (n - q.freed) (s.link q.link).rx }).owe q.link flow (n - q.freed)

/-- The sieve that ranks the lists of a collective: that of the lowest bed of its map; on a module none of whose beds pushes, a
free one. DEDUCED, unsafe: log entry 57. -/
def State.collSieve (s : State) (p k : Nat) : Sieve :=
  let g := (s.plot p).prog
  match (List.range 128).find? fun b => (g.coll k).beds.getLsbD b with
  | some b => (match s.physOf b with | some ph => (s.bed ph).sieve | none => {})
  | none =>
    let v := Config.relaySieve g.digest k
    { k := v.k, dir := v.dir, fmt := v.fmt, zero := v.zero.toNat }

/-- Items combined sent on as far as they fill flits: up to the parent, or at the root delivered (R336). -/
def State.passOn (s : State) (p k : Nat) : State :=
  let e := (s.plot p).prog.coll k
  let g := (s.plot p).gather k
  let total := itemSize e.op * e.count
  let till := if total ≤ g.items.length then total else g.items.length / 512 * 512
  if till ≤ g.sent then s
  else
    let bytes := (g.items.drop g.sent).take (till - g.sent)
    let s := s.setPlot p ((s.plot p).setGather { g with sent := till })
    if e.parent = 0x1F then s.deliver p k bytes else s.queueRun e.parent (runFlits e.flow k p g.sent total bytes)

/-- A collective moved on: once every bed of its map has pushed, the items that every child has brought too are combined in rising
logical bed order and then rising link number, and sent on (R336). DEDUCED, unsafe: log entry 57. -/
def State.combine (s : State) (p k : Nat) : State :=
  let x := s.plot p
  let e := x.prog.coll k
  let g := x.gather k
  let n := itemSize e.op
  let beds := (List.range 128).filter fun b => e.beds.getLsbD b
  let kids := (List.range 24).filter fun l => e.children.getLsbD l
  let pushed := beds.map fun b => (x.parts.find? fun q => q.coll == k && q.bed == b).map (·.bytes)
  let brought := kids.map fun l => (x.partials.find? fun q => q.coll == k && q.link == l).getD { coll := k, link := l }
  let here := brought.foldl (fun a q => min a (q.bytes.length / n)) e.count
  let done := g.items.length / n
  if pushed.any (·.isNone) || here ≤ done then s
  else
    match (pushed.filterMap id ++ brought.map (·.bytes)).map fun bs => (bs.drop (n * done)).take (n * (here - done)) with
    | [] => s
    | h :: t =>
      let r := t.foldl (combineParts e.op x.prog.compat (s.collSieve p k)) (h, false)
      let s := s.setPlot p (x.setGather { g with items := g.items ++ r.1 })
      let flits := if here = e.count then ceilDiv (n * here) 512 else n * here / 512
      let s := brought.foldl (fun (s : State) q => s.freeFlits p k e.flow flits q) s
      (if r.2 then s.stickyParts p k else s).passOn p k

/-- LCOLL (R241): this bed's part of a collective, which counts once its last word has reached the hub. -/
def execLcoll (b : BitVec 7) (h : Head) (coll : BitVec 8) (op : BitVec 3) (count : BitVec 16) (src : BitVec 24)
    (dst : BitVec 24) (route : BitVec 12) (s : State) : Host.Outcome State Fault Refusal :=
  .next (s.issueWith b h (.lcoll b h coll op count src dst route) none fun c s =>
    s.sendFrom c route.toNat (c.opnd src).addr (itemSize op.toNat * (count.toNat + 1)) fun bytes s =>
      let x := s.bed c.phys
      let n := tget (fun _ => 0) x.seq.collStarted coll.toNat + 1
      let s := s.setBed c.phys { x with seq := { x.seq with collStarted := tset (fun _ => 0) x.seq.collStarted coll.toNat n } }
      let q : Part := { coll := coll.toNat, bed := c.log, op := op.toNat, src := (c.opnd src).addr, dst := (c.opnd dst).addr,
                        bytes, till := (c.dues route.toNat (ceilDiv (itemSize op.toNat * (count.toNat + 1)) 256)).getLastD c.cyc }
      s.sendHub c route.toNat bytes fun k => if k + 1 = ceilDiv bytes.length 256 then some (.part q) else none)

/-! ## What comes to a hub -/

/-- What has come to a hub with a plot's words is acted on: a flit waits on its link, a bed's part is combined, a tag and its
output-byte digest go into the run record (R240, R241, R244). -/
def State.takeCargo (s : State) (p : Nat) (c : Cargo) : State :=
  match c with
  | .flit l f => s.queueFlits l [f]
  | .part q => (s.setPlot p { s.plot p with parts := (s.plot p).parts ++ [q] }).combine p q.coll
  | .tag bed index exec tensor tag out miss sown =>
    let s := s.event p 0x01 bed index exec (digestBytes tag ++ leBytes 2 tensor)
    let s := s.event p 0x02 bed index exec (digestBytes out ++ leBytes 2 tensor)
    let r := s.runRec p
    let s := if r.isOpen then s.setRunRec p { r with tags := r.tags + 1, unhashed := r.unhashed || miss } else s
    s.compare 2 bed index exec sown (tag.toNat % 2 ^ 128)

/-- What has come to the hubs in this tick, of all plots. -/
def State.takeAll (s : State) : State :=
  s.plots.foldl
    (fun (s : State) e =>
      if (s.plot e.1).came = [] then s
      else (s.plot e.1).came.foldl (fun (s : State) c => s.takeCargo e.1 c) (s.setPlot e.1 { s.plot e.1 with came := [] })) s

end Sys2Proof.Machine
end

