-- ==== Sys2Proof/Machine/Barrow.lean ====
section
/-! DEFINITION. Barrows: descriptors (R273), the movement of a transfer's bytes with conversion and transposition (R275 to
R279), start and completion (R280), bus errors and recovery (R285 to R289), and BRW with its landing (R242, R243). -/

namespace Sys2Proof.Machine

/-! ## Elements -/

/-- The codes packed in bytes (R24). -/
def elemsOf (w : Nat) (bs : List Byte) : List Nat :=
  if 8 ≤ w then (chunks (w / 8) (bs.length / (w / 8)) bs).map leNat
  else bs.flatMap fun b => (List.range (8 / w)).map fun i => bits b.toNat (i * w) w

/-- Codes packed into bytes (R24). -/
def packElems (w : Nat) (cs : List Nat) : List Byte :=
  if 8 ≤ w then cs.flatMap (leBytes (w / 8))
  else
    let n := ceilDiv (cs.length * w) 8
    (List.range n).map fun i =>
      BitVec.ofNat 8 ((enumFrom 0 ((cs.drop (i * (8 / w))).take (8 / w))).foldl (fun v e => v + e.2 * 2 ^ (e.1 * w)) 0)

/-- Elements through the barrow grader (R277): their codes, what was counted, and the values written. -/
def gradeElems (compat : Bool) (d : List Byte) (cs : List Nat) : List (Nat × Cnv × Val) :=
  let f := fmtOf (sideA d).fmt
  let g := fmtOf (sideB d).fmt
  let z := dZero d
  cs.map fun c =>
    if !dConvert d || sameCode compat f z g z then (c, Cnv.none, decodeEl compat f z c)
    else
      let e := encodeEl compat g z (decodeEl compat f z c)
      (e.1, e.2, decodeEl compat g z e.1)

/-- A transposed tile: element (i, j) of A becomes element i of B line j (R278). -/
def transposed (rows cols : Nat) (cs : List Nat) : List Nat :=
  (List.range cols).flatMap fun j => (List.range rows).map fun i => cs.getD (i * cols + j) 0

/-! ## Accesses -/

/-- Whether a line of side A reads; `good` lines outside bed memory have answered well so far. -/
def State.lineOk (s : State) (x : Side) (good i : Nat) : Bool :=
  match x.space with
  | 0 => decide (i < good) && decide (x.line i + x.len ≤ ddrSize) && (s.ddrBad (x.line i) x.len).isNone
  | 1 => true
  | _ => decide (i < good)

/-- The bytes of a line. -/
def State.lineBytes (s : State) (x : Side) (i : Nat) : List Byte :=
  match x.space with
  | 0 => s.ddrBytes (x.line i) x.len
  | 1 => match s.physOf (bits (x.line i) 25 7) with
    | some p => (s.bed p).bytes (x.line i % 2 ^ 25) x.len
    | none => zeros x.len
  | _ => mread 0 s.host.mem (x.line i) x.len

/-- Whether a place lies in a bed whose port is cut, or in none: it has been fenced under a copy (R268, R379). -/
def State.cutOff (s : State) (addr : Nat) : Bool :=
  match s.physOf (bits addr 25 7) with
  | some p => decide (2 ≤ (s.bed p).admin)
  | none => true

/-- The bytes of n lines of side A from one on. What comes from a bed fenced under the copy is a free value: its contents are
lost. DESIGN CHOICE, safe: log entry 41. -/
def State.readLines (s : State) (x : Side) (from_ n : Nat) : List Byte × State :=
  if x.space = 1 ∧ s.cutOff x.addr then
    let r := s.draw (8 * x.len * n)
    (leBytes (x.len * n) r.1.toNat, r.2)
  else ((upFrom from_ n).flatMap (s.lineBytes x), s)

/-- Bytes written to a place of side B. -/
def State.placeBytes (s : State) (counted : Bool) (space addr : Nat) (bytes : List Byte) : State :=
  match space with
  | 0 => s.ddrWrite addr bytes
  | 1 => match s.physOf (bits addr 25 7) with
    | some p => s.landWords counted p (addr % 2 ^ 25) bytes
    | none => s
  | _ => { s with host := { s.host with mem := mwrite 0 s.host.mem addr bytes } }

/-- A byte stream from an offset laid over the lines of a side: addresses and bytes. -/
def Side.lay (x : Side) : Nat → Nat → List Byte → List (Nat × List Byte)
  | 0, _, _ => []
  | n + 1, off, bytes =>
    if bytes.isEmpty ∨ x.len = 0 then []
    else
      let room := x.len - off % x.len
      (x.line (off / x.len) + off % x.len, bytes.take room) :: x.lay n (off + room) (bytes.drop room)

/-- A byte stream written to side B. -/
def State.placeStream (s : State) (counted : Bool) (x : Side) (off : Nat) (bytes : List Byte) : State :=
  (x.lay (x.lines + 1) off bytes).foldl (fun (s : State) e => s.placeBytes counted x.space e.1 e.2) s

/-- A channel's counters and record after elements (R277, R279). -/
def State.gradeCount (s : State) (ch : Nat) (d : List Byte) (es : List (Nat × Cnv × Val)) (bytes : Nat) : State :=
  let n := fun (k : Cnv) => (es.filter fun e => e.2.1 == k).length
  let off := 0x81400 + 8 * ch
  let s := ((s.bump off 0 21 (n .invalid)).bump off 21 21 (n .overflow)).bump off 42 21 (n .underflow)
  let s := s.setReg (0x81600 + 8 * ch) (s.reg (0x81600 + 8 * ch) + BitVec.ofNat 64 bytes)
  if dRange d then
    let k := s.chan ch
    s.setChan ch { k with rng := (es.map (·.2.2)).foldl RangeRec.add k.rng }
  else s

/-- The hub of a channel (Table 12.1). -/
def hubOf (ch : Nat) : Nat := if ch < 32 then 0 else 1

/-- The accesses of a transfer, address and bytes: of a BRW the parts of its lines that lie in one unit of LPDDR5 (R297), of
firmware its lines. -/
def Xfer.accesses (t : Xfer) : List (Nat × Nat) :=
  let a := sideA t.desc
  if t.plot.isSome then a.pieces else (List.range a.lines).map fun i => (a.line i, a.len)

/-- How many they are. -/
def Xfer.count (t : Xfer) : Nat := if t.plot.isSome then t.accesses.length else (sideA t.desc).lines

/-- Whether a channel has begun a transfer and accesses of it have not completed. -/
def Chan.busy (k : Chan) : Bool :=
  match k.cur with
  | some t => t.started && decide (t.pos < t.count) && k.state != 3
  | none => false

/-- Shed buffers that a transfer can hold: one for each burst still to be moved, as many as its depth lets it hold, and until its
last write the last one (R283); and those of a transposition (R278). -/
def Xfer.held (t : Xfer) : Nat :=
  let a := sideA t.desc
  let w := max (fmtOf a.fmt).width (fmtOf (sideB t.desc).fmt).width / 8
  min (dDepth t.desc) (max 1 (ceilDiv (a.len * (a.lines - t.pos)) 512)) + if dTranspose t.desc then 8 * w else 0

/-- Shed buffers that a transfer holds in an A-cycle: of a BRW those that are being filled and those that have not been emptied
(R283), and those of a transposition; of firmware, whose accesses have no slots, those that it can. DEDUCED, unsafe: log entry
32. -/
def Xfer.inUse (t : Xfer) (a : Nat) : Nat :=
  if !t.started then 0
  else if t.plot.isNone then t.held
  else
    let w := max (fmtOf (sideA t.desc).fmt).width (fmtOf (sideB t.desc).fmt).width / 8
    (if dTranspose t.desc then 8 * w else t.issued - t.pos) + (t.free.filter fun c => decide (a < c)).length

/-- The replay log after accesses of a channel that have no slots: its next one, which has not answered, stands in it (R285). -/
def State.logged (s : State) (ch : Nat) : State :=
  let e := s.engine (hubOf ch)
  let rest := e.log.filter fun x => x.chan != ch
  let log := if (s.chan ch).busy then
      (if e.log.any fun x => x.chan == ch then e.log.map fun x => if x.chan = ch then { x with index := ((s.chan ch).cur.getD {}).pos } else x
       else e.log ++ [{ chan := ch, index := ((s.chan ch).cur.getD {}).pos }])
    else rest
  if log = e.log then s else s.setEngine (hubOf ch) { e with log }

/-- A channel's accesses taken off the replay log. -/
def State.unlog (s : State) (ch : Nat) : State :=
  let e := s.engine (hubOf ch)
  s.setEngine (hubOf ch) { e with log := e.log.filter fun x => x.chan != ch }

/-- Side A bytes through the grader: what is counted, and the bytes of side B; a transposed tile has a count of lines (R275, R277,
R278). -/
def gradeBytes (compat : Bool) (d : List Byte) (raw : List Byte) : List (Nat × Cnv × Val) × List Byte :=
  let es := gradeElems compat d (elemsOf (fmtOf (sideA d).fmt).width raw)
  let w := (fmtOf (sideB d).fmt).width
  let codes := es.map (·.1)
  let n := (sideA d).lines
  (es, packElems w (if dTranspose d then transposed n (codes.length / n) codes else codes))

/-- A firmware transfer's accesses carried on up to the first that fails (R275, R281). -/
def State.carry (s : State) (ch good : Nat) : State :=
  let k := s.chan ch
  match k.cur with
  | none => s
  | some t =>
    let d := t.desc
    let a := sideA d
    let b := sideB d
    let upto := ((upFrom t.pos (a.lines - t.pos)).find? fun i => !s.lineOk a good i).getD a.lines
    if upto = t.pos then s
    else if t.probe then s.setChan ch { k with cur := some { t with pos := upto } }
    else
      let l := s.readLines a t.pos (upto - t.pos)
      let raw := k.caught ++ l.1.drop k.caught.length
      let s := l.2
      let g := gradeBytes false d raw
      let off := t.pos * (8 * a.len / (fmtOf a.fmt).width) * (fmtOf b.fmt).width / 8
      let t := { t with pos := upto, passed := if dDigest d then t.passed ++ raw else t.passed }
      let s := s.setChan ch { k with cur := some t, buffers := t.held, cutRead := false, caught := [] }
      (s.gradeCount ch d g.1 g.2.length).placeStream false b off g.2

/-! ## A plot's transfers in their slots -/

/-- The path of a plot's transfer: what its plot claims, its descriptor, and the route that its BRW names (R242, R271). -/
def Program.path (g : Program) (desc : List Byte) (segment : Nat) : Path := { claims := g.ddrSlots, route := g.route segment, desc }

/-- Whether an access of a transfer answers with its data: one outside LPDDR5 while the sender lets it, one of LPDDR5 if its units
read as well (R299). -/
def State.unitAnswers (s : State) (t : Xfer) (good i : Nat) : Bool :=
  let x := t.accesses.getD i (0, 0)
  decide (i < good) && ((sideA t.desc).space != 0 || decide (x.1 + x.2 ≤ ddrSize) && (s.ddrBad x.1 x.2).isNone)

/-- Bytes of side B from an offset depart in the slots of the transfer's route from an A-cycle on and are on their way to the bed:
256 B words, cut at the ends of lines (R238, R264, R271). -/
def State.depart (s : State) (p : Nat) (t : Xfer) (off : Nat) (out : List Byte) (from_ : Nat) : State × Xfer :=
  let r := (s.plot p).prog.route t.route
  let b := sideB t.desc
  let n := ceilDiv out.length 256
  let ds := r.departures (max from_ t.sent) n
  let last := ds.getLastD (max from_ t.sent)
  let ws := (enumFrom 0 (chunks 256 n out)).flatMap fun x => (b.lay (b.lines + 1) (off + 256 * x.1) x.2).filterMap fun e =>
    let log := bits e.1 25 7
    (s.physOf log).map fun bed =>
      ({ segment := t.route, bed, addr := e.1 % 2 ^ 25, bytes := e.2, due := ds.getD x.1 last + r.lambda,
         cross := s.crossings r log (ds.getD x.1 last) } : Word)
  (s.addWords p ws,
   { t with sent := last + 1, till := last + r.lambda, free := (last + 1) :: t.free })

/-- Whether a plot's transfer hashes what it moves: with digest_en, and into an input tensor (R273, R395). -/
def State.hashes (s : State) (t : Xfer) : Bool :=
  dDigest t.desc || (match t.plot with | some o => ((s.plot o.1).prog.tensors.getD t.tensor {}).role == 1 | none => false)

/-- The data of a plot's next access come by an A-cycle: they go through the grader and depart, a transposed tile's when the last
have come (R275 to R278). -/
def State.dataCome (s : State) (ch a : Nat) : State :=
  let k := s.chan ch
  match k.cur with
  | none => s
  | some t => match t.plot with
    | none => s
    | some o =>
      let d := t.desc
      let x := t.accesses.getD t.pos (0, 0)
      let got := match (sideA d).space with
        | 0 => s.ddrBytes x.1 x.2
        | _ => mread 0 s.host.mem x.1 x.2
      let whole := t.pos + 1 == t.count
      let raw := if dTranspose d then t.raw ++ got else got
      let before := ((t.accesses.take t.pos).map (·.2)).sum
      let off := if dTranspose d then 0 else 8 * before / (fmtOf (sideA d).fmt).width * (fmtOf (sideB d).fmt).width / 8
      let t := { t with pos := t.pos + 1, raw := if dTranspose d then raw else [], passed := if s.hashes t then t.passed ++ got else t.passed }
      let e := s.engine (hubOf ch)
      let s := s.setEngine (hubOf ch) { e with log := e.log.filter fun y => y.chan != ch || decide (t.pos ≤ y.index) }
      if dTranspose d && !whole then s.setChan ch { k with cur := some t }
      else
        let g := gradeBytes (s.plot o.1).prog.compat d raw
        let r := s.depart o.1 t off g.2 (a + Config.unitDelay)
        (r.1.setChan ch { k with cur := some r.2 }).gradeCount ch d g.1 g.2.length

/-- The accesses of a channel whose slots have passed when another begins answer in their order up to the first that does not
(R281). -/
def State.dataDue (s : State) (ch j a : Nat) : Nat → State
  | 0 => s
  | n + 1 => match (s.chan ch).cur with
    | none => s
    | some t =>
      if (s.engine (hubOf ch)).log.any (fun y => y.chan == ch && y.index == t.pos && decide (y.slot < j)) && s.unitAnswers t t.good t.pos then
        (s.dataCome ch a).dataDue ch j a n
      else s

/-- The next units of a channel's transfer issued in a data slot that begins in an A-cycle, as many as it serves, as have a buffer
free and as the log, of 64 accesses, has room for (R283, R285, R297). -/
def State.issueIn (s : State) (p : Path) (ch j a : Nat) : Nat → Xfer → Spot → State
  | 0, t, k => s.setChan ch { s.chan ch with cur := some { t with spot := k } }
  | n + 1, t, k =>
    let e := s.engine (hubOf ch)
    let u := (t.accesses.getD t.issued (0, 0)).1 / 512
    let room := dTranspose t.desc || decide (t.inUse a < dDepth t.desc)
    if decide (t.issued < t.count) && room && decide (e.log.length < 64) && p.serves k (j % 64) u then
      (s.setEngine (hubOf ch) { e with log := e.log ++ [{ chan := ch, index := t.issued, slot := j }] }).issueIn p ch j a n
        { t with issued := t.issued + 1 } (p.take k u)
    else s.setChan ch { s.chan ch with cur := some { t with spot := k } }

/-- The controllers that serve some channel in a data slot (R294). -/
def State.takenIn (s : State) (j : Nat) : List Nat :=
  [0, 1].flatMap fun h => ((s.engine h).log.filter fun y => y.slot == j).filterMap fun y =>
    match (s.chan y.chan).cur with
    | some t => if t.plot.isSome then some (ctlOf ((t.accesses.getD y.index (0, 0)).1 / 512)) else none
    | none => none

/-- Whether a channel's transfer goes on in a data slot that begins in an A-cycle: a plot's, begun, its engine running. -/
def State.goes (s : State) (ch a : Nat) : Bool :=
  let k := s.chan ch
  k.state == 1 && (s.engine (hubOf ch)).state == 0 && (match k.cur with
    | some t => t.started && t.plot.isSome && decide (t.due ≤ a)
    | none => false)

/-- A data slot begins for a channel: a controller that serves another channel in it serves this one in a later slot (R294).
DESIGN CHOICE, unsafe: log entry 63. -/
def State.slotFor (s : State) (j a ch : Nat) : State :=
  if s.goes ch a then
    let t := (s.chan ch).cur.getD {}
    let p := (s.plot ((t.plot.getD (0, 0, 0)).1)).prog.path t.desc t.route
    s.issueIn p ch j a 64 t { p.enter t.spot (j % 64) with used := s.takenIn j }
  else s

/-- The buffers of a plot's transfer counted in an A-cycle (R283, R291). -/
def State.countBuffers (s : State) (a ch : Nat) : State :=
  match (s.chan ch).cur with
  | some t => if t.plot.isSome && t.started then s.setChan ch { s.chan ch with buffers := t.inUse a } else s
  | none => s

/-- The data slot of LPDDR5 that begins in this tick, for all channels (R294, R295): what earlier slots read has come, then the
channels are served by rising number. -/
def State.barrowSlots (s : State) : State :=
  let s := match slotIn s.now with
    | none => s
    | some j =>
      let a := s.slotCycle j
      let cs := s.brw.chans.map fun (e : Nat × Chan) => e.1
      let s := cs.foldl (fun (s : State) ch => if s.goes ch a then s.dataDue ch j a 64 else s) s
      cs.foldl (fun (s : State) ch => s.slotFor j a ch) s
  s.brw.chans.foldl (fun (t : State) e => t.countBuffers s.clk.cycles e.1) s

/-! ## Start and completion -/

/-- A transfer begun: a plot's takes its first slot, be it of this tick; firmware's accesses are carried on. `good` counts the
accesses that answer. -/
def State.begin (s : State) (ch good : Nat) : State :=
  let k := s.chan ch
  match k.cur with
  | none => s
  | some t => match t.plot with
    | none =>
      let t := { t with started := true }
      ((s.setChan ch { k with state := 1, cur := some t, buffers := t.held }).carry ch good).logged ch
    | some o =>
      let t := { t with started := true, good, spot := ((s.plot o.1).prog.path t.desc t.route).before }
      let s := s.setChan ch { k with state := 1, cur := some t, buffers := t.inUse s.clk.cycles }
      match slotIn s.now with
      | none => s
      | some j => (s.slotFor j (s.slotCycle j) ch).countBuffers s.clk.cycles ch

/-- BARROW_TRANSFER_START (R280): a channel begins the transfer it has been given. -/
def execBarrowTransferStart (ch : BitVec 6) (good : Nat) (s : State) : Host.Outcome State Fault Refusal :=
  let c := ch.toNat
  let k := s.chan c
  if s.running && k.state == 0 && (s.engine (hubOf c)).state == 0 &&
      (match k.cur with | some t => !t.started && decide (t.due < s.clk.next) | none => false) then
    .next (s.begin c good)
  else .next s

/-- An arrival's digest kept for tags and written into the run record; of one that comes before the plot is sown the event waits
for the record to open (R395, R398). DESIGN CHOICE, unsafe: log entry 29. -/
def State.noteInput (s : State) (p idx bed index : Nat) (d : BitVec 256) : State :=
  let bytes := digestBytes d ++ leBytes 2 idx
  let s := if (s.runRec p).isOpen then s.event p 0x03 bed index 0 bytes
    else
      let e : REvent := { kind := 0x03, bed, index, exec := 0, tick := s.clk.sundial, payload := fitBytes 48 bytes }
      s.setPlot p { s.plot p with early := (s.plot p).early ++ [e] }
  s.setPlot p { s.plot p with inputs := tset (fun _ => none) (s.plot p).inputs idx (some d) }

/-- An arrival into a tensor of role 1 (R395). -/
def State.arrive (s : State) (p tensor bed index : Nat) (bytes : List Byte) : State :=
  let t := (s.plot p).prog.tensors.getD tensor {}
  if t.role = 1 then s.noteInput p t.digestIdx bed index (digest bytes) else s

/-- The first landing of a channel that is not finished marked finished in an A-cycle, with what Λ will merge (R279). -/
def markDone (ch till : Nat) (slot : Option Nat) (r : RangeRec) : List Landing → List Landing
  | [] => []
  | x :: xs =>
    if x.channel = ch ∧ !x.done then { x with done := true, till, slot, rng := r } :: xs else x :: markDone ch till slot r xs

/-- An arrival by COPY_IN with digest (R395): in every plot's tensor of role 1 of which a byte lies in the copy. -/
def State.arriveCopy (s : State) (bed addr len : Nat) (d : BitVec 256) : State :=
  s.plots.foldl
    (fun (s : State) e => (e.2.prog.tensors.filter fun t => t.role == 1 && t.bed == bed && overlaps t.base t.extent addr len).foldl
      (fun (s : State) t => s.noteInput e.1 t.digestIdx bed 0 d) s) s

/-- The claim of a digest engine that firmware takes for a copy or a plant: all its slots (R449). DEDUCED, unsafe: log
entry 58. -/
def engineClaim (engine : Nat) : Claim := { kind := 0xA, first := engine, count := 1, slots := -1 }

/-- Firmware's engine claim for a transfer released. -/
def State.dropEngine (s : State) (t : Xfer) : State :=
  if t.src.isSome ∧ dDigest t.desc then { s with fwClaims := s.fwClaims.erase (engineClaim (bits (dword t.desc 6) 42 2)) }
  else s

/-- Bytes that one firmware transfer moves: 65,536 lines of 64 B. -/
def pieceSize : Nat := 4194304

/-- A firmware descriptor between host and module for one piece of a copy. -/
def copyDesc (aSpace aAddr bSpace bAddr len : Nat) (dig : Bool) (engine : Nat) : List Byte :=
  let n := min len pieceSize
  let side := 64 + (n / 64 - 1) * 2 ^ 24
  descBytes [aAddr, bAddr, side, 64, side, 64, aSpace + bSpace * 4 + b2n dig * 2 ^ 41 + engine * 2 ^ 42, 0]

/-- A firmware transfer's end (R356): the next piece of its copy takes its place; after the last the digest is written,
its arrival noted, and the ring descriptor completes. -/
def State.finishFw (s : State) (ch : Nat) (t : Xfer) : State :=
  let d := t.desc
  let a := sideA d
  let b := sideB d
  let dig := dDigest d
  let n := a.len * a.lines
  if 0 < t.more then
    let t' : Xfer := { t with
      desc := copyDesc a.space (a.addr + n) b.space (b.addr + n) t.more dig (bits (dword d 6) 42 2)
      more := t.more - min t.more pieceSize
      started := false
      pos := 0 }
    s.setChan ch { s.chan ch with cur := some t', next := (s.chan ch).cur }
  else
    let h := digest t.passed
    let s := match t.digestTo with
      | some x => s.placeBytes false 2 x (digestBytes h)
      | none => s
    let s := if dig ∧ b.space = 1 then
        let first := bits (b.addr + n) 0 25 - t.passed.length
        s.arriveCopy (bits b.addr 25 7) first t.passed.length h
      else s
    let s := s.dropEngine t
    match t.src with
    | some src => s.complete src 0 0 0
    | none => s

/-- A transfer's end: its buffers return, and a queued one takes its place (R280, R284). -/
def State.finish (s : State) (ch : Nat) : State :=
  let k := s.chan ch
  match k.cur with
  | none => s
  | some t =>
    let s := s.setChan ch { k with
      state := 0, cur := k.next.map fun (n : Xfer) => { n with due := max n.due (t.till + 1) }, next := none, buffers := 0, cutRead := false, caught := [] }
    match t.plot with
    | some o =>
      let x := s.plot o.1
      let slot := if dRange t.desc then some (dSlot t.desc) else none
      let s := s.setPlot o.1 { x with landings := markDone ch t.till slot k.rng x.landings }
      s.arrive o.1 t.tensor (s.bed o.2.1).logical o.2.2 t.passed
    | none => s.finishFw ch t

/-- Whether a transfer's last write has been made by an A-cycle. -/
def Xfer.over (t : Xfer) (a : Nat) : Bool := t.started && t.pos == t.count && decide (t.till ≤ a)

/-- BARROW_TRANSFER_COMPLETE (R280, R281): the last write of a transfer has been made. -/
def execBarrowTransferComplete (ch : BitVec 6) (s : State) : Host.Outcome State Fault Refusal :=
  let c := ch.toNat
  match (s.chan c).cur with
  | some t => if s.running && t.over (s.clk.next - 1) && (s.engine (hubOf c)).state == 0 then .next (s.finish c) else .next s
  | none => .next s

/-! ## Bus errors and recovery -/

/-- Every begun channel of a hub between running and held (Table 12.3). -/
def State.holdChans (s : State) (h : Nat) (held : Bool) : State :=
  s.brw.chans.foldl
    (fun (s : State) e =>
      if hubOf e.1 = h ∧ (e.2.state = 1 ∨ e.2.state = 2) then s.setChan e.1 { e.2 with state := if held then 2 else 1 } else s) s

/-- What an incident latches and reports the first time (R285): the engine is the unit blamed. -/
def State.incident (s : State) (h cause : Nat) : State :=
  let e := s.engine h
  let s := s.setEngine h { e with incidents := satAdd 32 e.incidents 1 }
  let s := if s.fld (0x80020 + 8 * h) 0 1 = 1 then s
    else s.setReg (0x80020 + 8 * h) (BitVec.ofNat 64 (1 + cause * 4 + (s.now % 2 ^ 48) * 2 ^ 5))
  s.report (unitId 2 h) (unitId 0xE h) 0x86 cause

/-- The access of a transfer that is to answer next. -/
def Xfer.next (t : Xfer) : Nat × Nat := t.accesses.getD t.pos (0, 0)

/-- The causes that a channel's failed access can have (Table 12.3). -/
def Xfer.causeFits (t : Xfer) (cause : Nat) : Bool :=
  if (sideA t.desc).space = 0 then
    if t.next.1 + t.next.2 ≤ ddrSize then cause == 0 else cause == 1
  else decide (2 ≤ cause ∧ cause ≤ 5)

/-- The engine stops on an error response: every begun channel of the hub is held, and the accesses that have not completed stay
in the replay log (R285, R299). -/
def State.busError (s : State) (ch cause : Nat) : State :=
  let h := hubOf ch
  match (s.chan ch).cur with
  | none => s
  | some t =>
    let s := if cause = 0 then s.ddrFail ((s.ddrBad t.next.1 t.next.2).getD (t.next.1 / 512)) else s
    let s := if (s.engine h).state = 0 then s.incident h cause else s
    let e := s.engine h
    (s.setEngine h { e with state := 1, stopAt := s.clk.cycles, cause }).holdChans h true

/-- Whether a channel has an access in the log that could have answered by now: firmware's, or one whose slot has passed. -/
def State.readWaits (s : State) (ch : Nat) : Bool :=
  match (s.chan ch).cur with
  | none => false
  | some t => (s.engine (hubOf ch)).log.any fun x =>
      x.chan == ch && x.index == t.pos && (t.plot.isNone || decide (x.slot < slotBy s.now))

/-- Whether a channel's access can fail now: of a replay the first that has not answered (R285, R286). -/
def State.mayFail (s : State) (ch cause : Nat) : Bool :=
  let e := s.engine (hubOf ch)
  s.running && (e.state == 0 && s.readWaits ch || e.state == 2 && (e.log[e.replayed]?.map (·.chan)) == some ch) &&
    (match (s.chan ch).cur with | some t => t.causeFits cause | none => false)

/-- BUS_ERROR (R285): an error response other than a completion timeout. -/
def execBusError (ch : BitVec 6) (cause : BitVec 3) (s : State) : Host.Outcome State Fault Refusal :=
  if cause ≠ 5 ∧ s.mayFail ch.toNat cause.toNat then .next (s.busError ch.toNat cause.toNat) else .next s

/-- HOST_COMPLETION_TIMEOUT (R285): cause 5. -/
def execHostCompletionTimeout (ch : BitVec 6) (s : State) : Host.Outcome State Fault Refusal :=
  if s.mayFail ch.toNat 5 then .next (s.busError ch.toNat 5) else .next s

/-- A firmware read that has been made up for: its channel is free, and what it read is asked for again. -/
def State.dropProbe (s : State) (ch : Nat) : State :=
  let k := s.chan ch
  match k.cur with
  | some t => if t.probe && decide ((sideA t.desc).lines ≤ t.pos)
    then s.setChan ch { k with state := 0, cur := k.next, next := none, buffers := 0, cutRead := false, caught := [] } else s
  | none => s

/-- Whether a logged access answers when it is replayed and the sender lets it (R286). -/
def State.replays (s : State) (x : Access) : Bool :=
  match (s.chan x.chan).cur with
  | some t =>
    if t.plot.isSome then s.unitAnswers t (x.index + 1) x.index else s.lineOk (sideA t.desc) (x.index + 1) x.index
  | none => true

/-- How many accesses of a log answer in their order when the sender lets `good` (R286). -/
def State.replay (s : State) (log : List Access) (good : Nat) : Nat := ((log.take good).takeWhile s.replays).length

/-- A logged access completes: its data come, and the channel goes on from there (R286). -/
def State.settleAccess (s : State) (x : Access) : State :=
  match (s.chan x.chan).cur with
  | some t => if t.plot.isSome then s.dataCome x.chan s.clk.cycles else ((s.carry x.chan (x.index + 1)).unlog x.chan).dropProbe x.chan
  | none => s.unlog x.chan

/-- The channels of a hub going on with their transfers in order, `good` accesses answering; of a plot's they will in their
slots. -/
def State.goOn (s : State) : List Nat → Nat → State
  | [], _ => s
  | ch :: cs, good =>
    match (s.chan ch).cur with
    | some t =>
      if t.plot.isSome then (s.setChan ch { s.chan ch with cur := some { t with good := t.pos + min good (t.count - t.pos) } }).goOn cs (good - (t.count - t.pos))
      else
        let s' := ((s.carry ch (t.pos + good)).logged ch).dropProbe ch
        s'.goOn cs (good - (((s'.chan ch).cur.getD { t with pos := t.count }).pos - t.pos))
    | none => s.goOn cs good

/-- The channels of a hub that have begun a transfer and are not at its end. -/
def State.busyOn (s : State) (h : Nat) : List Nat := (s.brw.chans.filter fun e => hubOf e.1 == h && e.2.busy).map (·.1)

/-- An incident's end: the engine runs, ENG_ERR says whether no channel halted, the accesses replayed complete in their order,
and the channels go on with `good` accesses that answer, those in the log first (R286, R287). -/
def State.endIncident (s : State) (h : Nat) (transient : Bool) (replayed : List Access) (good : Nat) : State :=
  let s := s.setEngine h { s.engine h with state := 0, retries := 0, replayed := 0 }
  let s := if transient ∧ s.fld (0x80020 + 8 * h) 0 1 = 1 then s.setFld (0x80020 + 8 * h) 1 1 1 else s
  let log := ((s.engine h).log.map (·.chan)).eraseDups
  let s := replayed.foldl State.settleAccess (s.holdChans h false)
  s.goOn (log ++ (s.busyOn h).filter fun c => !log.contains c) good

/-- Whether an engine that has stopped restarts in this tick: 1,024 A-cycles after the stop (R286, R287). -/
def State.restarts (s : State) (e : Engine) : Bool := e.state == 1 && decide (e.stopAt + 1024 < s.clk.next)

/-- ENGINE_RESTART (R286): a retry replays the log in its original order; after the last allowed retry the manager
isolates (R287). `good` counts the accesses that answer; until all of the log have, it stays whole. A replay whose failed access
was dropped with its plot ends the incident too. DESIGN CHOICE, unsafe: log entry 32. -/
def execEngineRestart (hub : Bool) (good : Nat) (s : State) : Host.Outcome State Fault Refusal :=
  let h := if hub then 1 else 0
  let e := s.engine h
  if s.running && e.state == 2 && decide (e.log.length ≤ e.replayed) then .next (s.endIncident h true e.log good)
  else if s.running && s.restarts e then
    if e.retries < s.fld 0x80010 0 3 then
      let n := s.replay e.log good
      let s := s.setEngine h { e with state := 2, retries := e.retries + 1, replayed := n }
      .next (if n = e.log.length then s.endIncident h true e.log (good - n) else s)
    else .next (s.setEngine h { e with state := 3 })
  else .next s

/-- The address of a channel's access that fails: its own, or in LPDDR5 that of its first unit that does not read (R287, Table
12.3). -/
def State.failAddr (s : State) (t : Xfer) : Nat :=
  if (sideA t.desc).space = 0 ∧ t.next.1 + t.next.2 ≤ ddrSize then
    match s.ddrBad t.next.1 t.next.2 with
    | some u => max t.next.1 (512 * u)
    | none => t.next.1
  else t.next.1

/-- A ring whose descriptor could not be read: the slot gets code 0x08, and the ring is in error (R358). -/
def State.unreadRing (s : State) (r : Nat) : State :=
  let x := s.ring r
  if x.state ≠ 1 then s else
  let bad : Slot := { st := 3, started := true, status := 1, code := 0x08, tick := s.now, unread := true }
  s.setRing r { x.setSlot x.fetch bad with state := 3, fetch := (x.fetch + 1) % 2 ^ x.log2 }

/-- A channel halted (R287): its accesses and queued descriptor dropped, its buffers returned, reported with its cause
and address; a firmware channel's descriptor completes with an error (R289, R357), one that could not be read with its ring in
error (R358). -/
def State.haltChan (s : State) (ch cause addr : Nat) : State :=
  let k := s.chan ch
  let s := s.setChan ch { k with state := 3, cur := none, next := none, buffers := 0, cutRead := false, caught := [] }
  let s := s.unlog ch
  let s := s.setReg (0x81200 + 8 * ch) (BitVec.ofNat 64 (1 + cause * 2 + addr / 16 * 16))
  let s := s.report (unitId 3 ch) (unitId 0xE (hubOf ch)) 0x87 addr
  let fail := fun (s : State) (x : Option Xfer) => match x with
    | some t =>
      let s := match t.ring with | some r => s.unreadRing r | none => s
      (match t.src with | some src => (s.dropEngine t).complete src 1 0x02 0 | none => s)
    | none => s
  fail (fail s k.cur) k.next

/-- ISOLATION_ACCESS (R287): the response of the next access of the log, replayed alone: of the channel that issued it. The first
failure halts its channel; the other channels' accesses are replayed in normal order and answer, up to one that cannot be read,
and the channels go on. DESIGN CHOICE, unsafe: log entry 32. -/
def execIsolationAccess (ch : BitVec 6) (good : Nat) (s : State) : Host.Outcome State Fault Refusal :=
  let c := ch.toNat
  let h := hubOf c
  let e := s.engine h
  let all := 65536 * 64 * 64
  match e.log with
  | [] => .next (if s.running && e.state == 3 then s.endIncident h true [] all else s)
  | x :: rest =>
    if s.running && e.state == 3 && x.chan == c then
      if s.replay [x] good = 1 then
        let s := s.settleAccess x
        .next (if rest = [] then s.endIncident h true [] all else s)
      else
        let t := (s.chan c).cur.getD {}
        let addr := s.failAddr t
        let cause := if (sideA t.desc).space = 0 then (if addr < ddrSize then 0 else 1) else e.cause
        let s := if cause = 0 ∧ (sideA t.desc).space = 0 then s.ddrFail (addr / 512) else s
        let s := s.haltChan c cause addr
        let log := (s.engine h).log
        .next (s.endIncident h false (log.take (s.replay log all)) all)
    else .next s

/-- A firmware descriptor of a read of host memory. -/
def readDesc (addr len : Nat) : List Byte := descBytes [addr, 0, len, 0, 0, 0, 2 + 1 * 4, 0]

/-- A firmware read of host memory that fails with a cause: its channel holds it, and the engine stops (R285). -/
def State.failRead (s : State) (ch cause : Nat) (t : Xfer) : State :=
  ((s.setChan ch { s.chan ch with state := 1, cur := some { t with started := true, probe := true }, buffers := 1 }).logged
    ch).busError ch cause

/-- Whether a firmware channel can begin a read of its own. -/
def State.readFree (s : State) (ch : Nat) : Bool :=
  (s.chan ch).state == 0 && (s.chan ch).cur.isNone && (s.engine (hubOf ch)).state == 0

/-- CLEAR_HALT (R289, R291): firmware writes BRW_CH_STATUS_c.clear_halt of a channel it holds. -/
def State.clearHalt (s : State) (ch : Nat) : State :=
  let k := s.chan ch
  if k.state = 3 ∧ 28 ≤ ch % 32 then s.setChan ch { k with state := 0 } else s

/-! ## BRW -/

/-- A transfer given to a channel: it waits behind one that the channel has (R280). -/
def State.give (s : State) (ch : Nat) (t : Xfer) : State :=
  let k := s.chan ch
  match k.cur, k.next with
  | none, _ => s.setChan ch { k with cur := some t }
  | some _, none => s.setChan ch { k with next := some t }
  | some _, some _ => s

/-- The descriptor of a BRW execution: the external address moved on by its loop's iteration, side B the bed's region
(R242, R274). -/
def brwDesc (c : Ctx) (d : List Byte) (bed : BitVec 24) (level : Nat) (stepEn : Bool) (step : BitVec 32) : List Byte :=
  let o := c.opnd bed
  let a := (dword d 0 : Int) + (if stepEn then (c.iters.getD level 0 : Int) * step.toInt * 64 else 0)
  let w5 := setBits (dword d 5) 0 40 (o.t.stride.getD 0 0)
  descBytes [toTwos 64 a, c.log * 2 ^ 25 + o.addr, dword d 2, dword d 3, dword d 4, w5, dword d 6, dword d 7]

/-- The landing A-cycle of a BRW that issues now (R243, R288): its transfer starts at its issue, or in the A-cycle after the landing
of the one before it on its channel (R280). DEDUCED, unsafe: log entry 63. -/
def State.landingAt (s : State) (c : Ctx) (ch segment : Nat) (d : List Byte) : Nat :=
  let before := (s.plot c.plot).landings.filter fun x => x.channel == ch
  let start := before.foldl (fun (m : Nat) x => max m (x.due + 1)) c.cyc
  (c.prog.path d segment).landing start (decide (0 < (s.bed c.phys).seq.waits.toNat) || start != c.cyc)

/-- BRW (R242, R279): a barrow given its descriptor; its range record is cleared at issue, and its landing is due at Λ. -/
def execBrw (b : BitVec 7) (h : Head) (channel : BitVec 6) (desc : BitVec 10) (bed : BitVec 24) (level : BitVec 2)
    (stepEn : Bool) (extStep : BitVec 32) (route : BitVec 12) (s : State) : Host.Outcome State Fault Refusal :=
  .next (s.issueWith b h (.brw b h channel desc bed level stepEn extStep route) none fun c s =>
    let ch := channel.toNat
    let d := brwDesc c (c.list.barrows.getD desc.toNat []) bed level.toNat stepEn extStep
    let s := s.setPlot c.plot { s.plot c.plot with
      landings := (s.plot c.plot).landings ++
        [{ channel := ch, bed := c.phys, index := c.index, due := s.landingAt c ch route.toNat d }] }
    let s := if (s.chan ch).state = 3 then s
      else s.give ch { desc := d, plot := some (c.plot, c.phys, c.index), tensor := (c.opnd bed).ti, route := route.toNat, due := c.cyc }
    s.setChan ch { s.chan ch with rng := {} })

/-- The landings of a channel in a plot, first first. -/
def State.landingOf (s : State) (ch : Nat) : Option (Nat × Landing) :=
  (s.plots.filterMap fun e => (e.2.landings.find? fun x => x.channel == ch).map fun x => (e.1, x)).head?

/-- A landing over: its record merged into its bed's slot (R279). -/
def State.mergeLanding (s : State) (p : Nat) (y : Landing) : State :=
  let s := s.setPlot p { s.plot p with landings := (s.plot p).landings.erase y }
  match y.slot with
  | some k => s.setBed y.bed ((s.bed y.bed).setRange k (((s.bed y.bed).range k).merge y.rng))
  | none => s

/-- BRW_LANDING_DEADLINE (R243, R249, R279, R289): once Λ has come, the record of a transfer whose last write was made by then is
merged into its bed slot; one whose was not stops its plot with code 0x50 when Λ's tick has ended, the channel blamed (R405).
DEDUCED, unsafe: log entry 63. -/
def execBrwLandingDeadline (ch : BitVec 6) (s : State) : Host.Outcome State Fault Refusal :=
  let c := ch.toNat
  match s.landingOf c with
  | none => .next s
  | some e =>
    if !s.running || decide (s.clk.next ≤ e.2.due) then .next s
    else if e.2.done && decide (e.2.till ≤ e.2.due) then .next (s.mergeLanding e.1 e.2)
    else if !e.2.done && (match (s.chan c).cur with | some t => t.over e.2.due && t.plot.isSome | none => false) then
      let s := s.finish c
      .next (match (s.plot e.1).landings.find? fun y => y.channel == c with
        | some y => s.mergeLanding e.1 y
        | none => s)
    else if s.clk.cycles ≤ e.2.due then .next s
    else
      .next ((s.report (unitId 3 c) (unitId 0xE (hubOf c)) 0x50 e.2.index).stopPlot e.1 0x50
        (some (e.2.bed, e.2.index, 0, 0)))

end Sys2Proof.Machine
end

