-- ==== Sys2Proof/Machine/Control.lean ====
section
/-! DEFINITION. The control, synchronisation, tag and varying-read instructions of a bed (R230 to R236, R244 to R247), and
the end or timeout of a synchronisation wait (R174, R175). -/

namespace Sys2Proof.Machine

/-! ## Control -/

/-- NOP (R231): nothing but its issue. -/
def execNop (b : BitVec 7) (h : Head) (s : State) : Host.Outcome State Fault Refusal :=
  .next (s.issueWith b h (.nop b h) none fun _ s => s)

/-- The bed stays idle until its plot completes; after the last END the plot is completing (R172, R372). -/
def State.endBed (s : State) (c : Ctx) : State :=
  let b := s.bed c.phys
  let s := s.setBed c.phys { b with seq := { b.seq with state := 5 } }
  if (s.bedsOf c.plot).all fun x => (s.bed x).seq.state == 5 then s.setPlot c.plot { s.plot c.plot with state := 4 } else s

/-- END (R172). -/
def execEndList (b : BitVec 7) (h : Head) (s : State) : Host.Outcome State Fault Refusal :=
  .next (s.issueWith b h (.endList b h) none fun c s => s.endBed c)

/-- LOOP (R177, R231): count − 1 and body − 1 in its fields. -/
def execLoop (b : BitVec 7) (h : Head) (count : BitVec 16) (body : BitVec 12) (s : State) :
    Host.Outcome State Fault Refusal :=
  .next (s.issueWith b h (.loop b h count body) (some (count.toNat + 1, body.toNat + 1)) fun _ s => s)

/-! ## Synchronisation -/

/-- A bed put into a synchronisation wait (R174). -/
def State.startWait (s : State) (c : Ctx) (w : Wait) : State :=
  let b := s.bed c.phys
  s.setBed c.phys { b with seq := { b.seq with state := 4, wait := some { w with index := c.index, iters := c.iters, start := c.cyc } } }

/-- SDWAIT (R231 to R233). -/
def execSdwait (b : BitVec 7) (h : Head) (target : BitVec 48) (d : BitVec 48) (s : State) :
    Host.Outcome State Fault Refusal :=
  .next (s.issueWith b h (.sdwait b h target d) none fun c s =>
    s.startWait c { kind := 0, link := 31, target := target.toNat, deadline := d.toNat })

/-- LRECV (R232, R233, R235). -/
def execLrecv (b : BitVec 7) (h : Head) (link : BitVec 5) (flow : BitVec 4) (len : BitVec 15) (dst : BitVec 24)
    (d : BitVec 48) (s : State) : Host.Outcome State Fault Refusal :=
  .next (s.issueWith b h (.lrecv b h link flow len dst d) none fun c s =>
    s.startWait c { kind := 1, link := link.toNat, flow := flow.toNat, deadline := d.toNat })

/-- CWAIT (R233, R236). -/
def execCwait (b : BitVec 7) (h : Head) (coll : BitVec 8) (d : BitVec 48) (s : State) :
    Host.Outcome State Fault Refusal :=
  .next (s.issueWith b h (.cwait b h coll d) none fun c s =>
    s.startWait c { kind := 2, link := 31, coll := coll.toNat, deadline := d.toNat })

/-- CBAR (R233, R237). -/
def execCbar (b : BitVec 7) (h : Head) (link : BitVec 5) (flows : BitVec 16) (d : BitVec 48) (s : State) :
    Host.Outcome State Fault Refusal :=
  .next (s.issueWith b h (.cbar b h link flows d) none fun c s =>
    s.startWait c { kind := 3, link := link.toNat, flows, deadline := d.toNat })

/-- A wait of a bed ended 4 A-cycles after the one in which the plot's last condition was observed (R174): the next gap counts
from there, and the A-cycles it took are counted. -/
def Bed.endWait (b : Bed) (a : Nat) : Bed :=
  match b.seq.wait with
  | none => b
  | some w =>
    let n := a + 4 - w.start
    let q := b.seq
    let q := if w.kind = 1 ∧ w.link < 24 then
        { q with recvEnded := tset (fun _ => 0) q.recvEnded w.index (tget (fun _ => 0) q.recvEnded w.index + 1)
                 recvOpen := tset (fun _ => 0) q.recvOpen w.index (a + 4) }
      else if w.kind = 2 then
        { q with collEnded := tset (fun _ => 0) q.collEnded w.coll (tget (fun _ => 0) q.collEnded w.coll + 1) }
      else q
    ({ b with seq := { q with
        state := 3, wait := none, last := a + 4, reckoned := q.reckoned + 4, seg := q.seg + 1, waits := q.waits + 1, waitCycles := q.waitCycles + BitVec.ofNat 32 n } } : Bed).gauge
      7 n

/-- The A-cycle in which the last of the conditions that a plot's beds wait for was observed, once all are (R174). -/
def State.lastObserved (s : State) (p : Nat) : Option Nat :=
  let bs := s.bedsOf p
  if !bs.isEmpty && bs.all (fun b => s.observed b) then some ((bs.map fun b => (s.observedAt b).getD 0).foldl max 0) else none

/-- SYNC_WAIT_END (R174): when every bed's condition has been observed the wait ends in every bed at once, in the A-cycle that
is 4 after the last observation. -/
def execSyncWaitEnd (p : BitVec 4) (s : State) : Host.Outcome State Fault Refusal :=
  match s.lastObserved p.toNat with
  | some a =>
    if s.running && (s.plot p.toNat).state == 3 && decide (a + 4 < s.clk.next) then
      .next (s.mapBeds p.toNat fun (b : Bed) => b.endWait a)
    else .next s
  | none => .next s

/-- SYNC_TIMEOUT (R175, R376): a condition not observed by the end of its deadline tick stops the plot with code 0x58;
the report names the plot, the first bed whose condition was missing, by logical number, and the index at which it waits. -/
def execSyncTimeout (p : BitVec 4) (s : State) : Host.Outcome State Fault Refusal :=
  let bs := s.bedsOf p.toNat
  let missing := (bs.filter fun b => match (s.bed b).seq.wait with
    | some w => !s.observed b && decide (w.deadline < s.plotTime p.toNat)
    | none => false).map fun b => ((s.bed b).logical, match (s.bed b).seq.wait with | some w => w.index | none => 0)
  if s.running && (s.plot p.toNat).state == 3 && !missing.isEmpty then
    let first := (missing.map (·.1)).foldl min 127
    let index := match missing.find? fun e => e.1 == first with | some e => e.2 | none => 0
    .next ((s.report (unitId 0xC p.toNat) (unitId 0xE 0) 0x58 (index + first * 2 ^ 16)).stopPlot p.toNat 0x58 none)
  else .next s

/-! ## Hints, flips and tags -/

/-- TFLIP (R142, R143, R246). -/
def execTflip (b : BitVec 7) (h : Head) (s : State) : Host.Outcome State Fault Refusal :=
  .next (s.issue b h (.tflip b h) fun _ => tflipBody)

/-- HINT (R245): the plot's current weather-hint entry. -/
def execHint (b : BitVec 7) (h : Head) (entry : BitVec 12) (s : State) : Host.Outcome State Fault Refusal :=
  .next (s.issueWith b h (.hint b h entry) none fun c s =>
    s.setPlot c.plot { s.plot c.plot with hint := some entry.toNat })

/-- The bytes of a tensor in element order, packed by R24 (R396). -/
def tensorBytes (b : Bed) (t : Tensor) : List Byte :=
  let w := (fmtOf t.fmt).width
  let e0 := t.ext.getD 0 1
  if e0 * w % 8 = 0 then (tensorLines t).flatMap fun o => b.bytes (o.span e0).1 (o.span e0).2
  else
    let codes := (tensorLines t).flatMap fun o => b.codes o e0
    leBytes (ceilDiv (codes.length * w) 8) ((enumFrom 0 codes).foldl (fun n e => n + e.2 * 2 ^ (e.1 * w)) 0)

/-- The bytes that a tag is the digest of (R396). -/
def tagInput (g : Program) (inputs : Tbl (Option (BitVec 256))) (ti exec : Nat) : List Byte :=
  let ws := g.digests.filter fun e => e.role == 2
  let is := (enumFrom 0 g.digests).filter fun e => e.2.role == 1
  ascii "QP2TAG01" ++ digestBytes g.digest ++ leBytes 2 ws.length ++ ws.flatMap (fun e => digestBytes e.digest) ++
    leBytes 2 is.length ++ is.flatMap (fun e => digestBytes ((tget (fun _ => none) inputs e.1).getD 0)) ++
    leBytes 2 ti ++ leBytes 4 exec

/-- A-cycles that a digest engine works on a string after its last byte: 136 B in 2 C-cycles of 2 A-cycles each (R397). -/
def engineCycles (n : Nat) : Nat := 4 * ceilDiv (n + 1) 136

/-- TAG (R244, R396, R397): its words go to the engine, and when the last has come and the engine has formed both digests one after
the other, the tag and the output-byte digest go into the run record; a damaged word stops the plot with code 0x51 and
nothing is sent (R249, R256). -/
def execTag (b : BitVec 7) (h : Head) (tensor : BitVec 12) (engine : BitVec 2) (route : BitVec 12) (s : State) :
    Host.Outcome State Fault Refusal :=
  .next (s.issueWith b h (.tag b h tensor engine route) none fun c s =>
    let t := c.tensor tensor.toNat
    let bed := s.bed c.phys
    let r := bed.touch c.index ((tensorLines t).map fun o => o.span (t.ext.getD 0 1))
    match r.2 with
    | some a => ((s.setBed c.phys r.1).outs c [.halt 0x51 0 a]).watchEcc c.phys
    | none =>
      let bytes := tensorBytes r.1 t
      let n := ceilDiv bytes.length 256
      let last := (c.dues route.toNat n).getLastD c.cyc
      let s := s.setBed c.phys (((r.1.gauge 4 n).gauge 3 (4 * n)).finish last)
      let x := s.plot c.plot
      let input := tagInput c.prog x.inputs tensor.toNat c.exec
      let miss := (enumFrom 0 c.prog.digests).any fun e => e.2.role == 1 && (tget (fun _ => none) x.inputs e.1).isNone
      let done : Word := {
        segment := route.toNat, bed := 256 + engineEndpoint engine.toNat, addr := 0, bytes := []
        due := last + engineCycles input.length + engineCycles bytes.length
        cargo := some (.tag c.log c.index c.exec tensor.toNat (digest input) (digest bytes) miss x.sowTick.toNat) }
      ((s.sendHub c route.toNat bytes fun _ => none).addWords c.plot [done]).watchEcc c.phys)

/-! ## Varying reads -/

/-- A register with some lanes replaced, tagged binary32 (R203, R247). -/
def VReg.put (r : VReg) (vs : List (Nat × Nat)) : VReg :=
  vregOf 0xB ((List.range 64).map fun i => match vs.find? fun e => e.1 == i with
    | some e => e.2
    | none => r.lane i)

/-- A 64-bit value into lanes l and l + 1 (R247). -/
def VReg.put64 (r : VReg) (l v : Nat) : VReg := r.put [(l, v % 2 ^ 32), (l + 1, v / 2 ^ 32 % 2 ^ 32)]

/-- ENTR (R247, R450): fresh entropy words; too few of them buffered once the source has failed stop the plot with
code 0x5B. DESIGN CHOICE, safe: log entry 59. -/
def entrBody (c : Ctx) (d words : Nat) (b : Bed) : Bed × List BOut :=
  if b.entropy.length < words then (b, [.halt 0x5B 0 0])
  else
    let vs := (enumFrom 0 (b.entropy.take words)).flatMap fun e =>
      [(2 * e.1, e.2.toNat % 2 ^ 32), (2 * e.1 + 1, e.2.toNat / 2 ^ 32)]
    (({ b with entropy := b.entropy.drop words } : Bed).landV c.cyc (c.cyc + 64 * words + 4) d (laneMask (2 * words)) ((b.vreg d).put vs), [])

def execEntr (b : BitVec 7) (h : Head) (d : BitVec 4) (words : BitVec 5) (s : State) :
    Host.Outcome State Fault Refusal :=
  .next (s.issueFresh b h (.entr b h d words) (words.toNat + 1) fun c => entrBody c d.toNat (words.toNat + 1))

/-- A snapshot put into two lanes of a register (R247). -/
def snapBody (c : Ctx) (d lane v : Nat) (b : Bed) : Bed × List BOut :=
  (b.landV c.cyc (c.cyc + 4) d (BitVec.ofNat 64 (3 * 2 ^ lane)) ((b.vreg d).put64 lane v), [])

/-- SDRD (R247): the sundial count of the tick in which it issues. -/
def execSdrd (b : BitVec 7) (h : Head) (d : BitVec 4) (lane : BitVec 6) (s : State) : Host.Outcome State Fault Refusal :=
  .next (s.issue b h (.sdrd b h d lane) fun c => snapBody c d.toNat lane.toNat (s.tickAt c.cyc))

/-- The A-cycles of the wait that a bed is in (R196, R459). -/
def Seq.waiting (q : Seq) (cycles : Nat) : Nat := match q.wait with | some w => cycles - w.start | none => 0

/-- A rain gauge (Table 21.3): gauge 0 counts A-cycles since the plot was sown (R459). -/
def Bed.gaugeAt (b : Bed) (cycles g : Nat) : Nat :=
  if g = 0 then (match b.seq.sowCycle with | some c => cycles - c | none => 0)
  else if g = 7 then (tget (fun _ => 0) b.gauges g).toNat + b.seq.waiting cycles
  else (tget (fun _ => 0) b.gauges g).toNat

/-- ARY_PASS_CNT_a (Table 4.7). -/
def MArray.counts (x : MArray) : Nat := x.passes.toNat + x.fences.toNat * 2 ^ 32

/-- A counter that CTRRD selects (Table 10.7). -/
def Bed.counter (b : Bed) (cycles sel : Nat) : Nat :=
  if sel = 0 then (b.reg 0xC00).toNat
  else if sel = 1 then (b.reg 0xC08).toNat
  else if sel < 6 then (tget (fun _ => ({} : MArray)) b.arrays (sel - 2)).counts
  else if sel = 6 then b.seq.waitCycles.toNat + b.seq.waits.toNat * 2 ^ 32
  else if 8 ≤ sel ∧ sel < 16 then b.gaugeAt cycles (sel - 8)
  else 0

/-- CTRRD (R247): a counter's snapshot. -/
def execCtrrd (b : BitVec 7) (h : Head) (d : BitVec 4) (lane : BitVec 6) (sel : BitVec 8) (s : State) :
    Host.Outcome State Fault Refusal :=
  .next (s.issue b h (.ctrrd b h d lane sel) fun c (x : Bed) =>
    snapBody c d.toNat lane.toNat (x.counter c.cyc sel.toNat) x)

end Sys2Proof.Machine
end

