-- ==== Sys2Proof/Machine/Schedule.lean ====
section
/-! DEFINITION. The static schedule of a list (R170, R174, R177, R178): every issue with its A-cycle, and the costs and
latencies of Tables 9.4 to 9.11 and 10.1 that the loader reckons with. -/

namespace Sys2Proof.Machine

/-- One issue of a list: how many synchronisation instructions issued before it, its A-cycle when every wait ends as it
issues, its index, loop iterations, whether it is enabled, which execution of its index it is, and its instruction. -/
structure Iss where
  seg : Nat := 0
  cyc : Nat := 0
  index : Nat := 0
  iters : List Nat := []
  on : Bool := true
  exec : Nat := 1
  ins : Instr
  deriving DecidableEq, Repr

/-- Loops around a place, outermost first: iteration and count. -/
abbrev Nest := List (Nat × Nat)

/-- Whether an instruction is enabled in a nest of loops (R178). -/
def onIn (h : Head) (ns : Nest) : Bool := enabled h (ns.map fun e => { iter := e.1, count := e.2 })

/-- The issues of a list in order: a loop repeats its body; one that is disabled opens nothing (R177, R178). The first
argument bounds the recursion and is the number of instructions left. DEDUCED, unsafe: log entry 13. -/
def expand : Nat → List (Nat × Instr) → Nest → List (Nat × Instr × Nest)
  | 0, _, _ => []
  | _, [], _ => []
  | n + 1, (k, i) :: rest, ns =>
    match i with
    | .loop _ h count body =>
      if onIn h ns then
        (k, i, ns) :: ((List.range (count.toNat + 1)).flatMap fun j =>
          expand n (rest.take (body.toNat + 1)) (ns ++ [(j, count.toNat + 1)])) ++ expand n (rest.drop (body.toNat + 1)) ns
      else (k, i, ns) :: expand n rest ns
    | _ => (k, i, ns) :: expand n rest ns

/-- Whether an instruction is a synchronisation instruction (Table 8.1). -/
def isSync : Instr → Bool
  | .sdwait .. => true
  | .lrecv .. => true
  | .cwait .. => true
  | .cbar .. => true
  | _ => false

/-- The head of a bed instruction. -/
def insHead (i : Instr) : Head := (headOfIns i).getD { varies := false, cond := 0, level := 0, gap := 0 }

/-- A-cycles put to the issues; a synchronisation wait ends 4 A-cycles after its issue (R174). DEDUCED, unsafe: log
entry 13. -/
def timed : Nat → Nat → Tbl Nat → List (Nat × Instr × Nest) → List Iss
  | _, _, _, [] => []
  | seg, base, execs, (k, i, ns) :: rest =>
    let h := insHead i
    let cyc := base + h.gap.toNat
    let e := tget (fun _ => 0) execs k + 1
    let now : Iss := { seg, cyc, index := k, iters := ns.map (·.1), on := onIn h ns, exec := e, ins := i }
    let execs := tset (fun _ => 0) execs k e
    if isSync i && now.on then now :: timed (seg + 1) (cyc + 4) execs rest else now :: timed seg cyc execs rest

/-- The instructions of a list with their indices; a word that is no instruction is left out. -/
def IList.indexed (l : IList) : List (Nat × Instr) :=
  (enumFrom 0 l.code).filterMap fun e => (decodeIns 0 e.2).map fun i => (e.1, i)

/-- The static schedule of a list. -/
def IList.issues (l : IList) : List Iss := timed 0 0 [] (expand l.code.length l.indexed [])

/-! ## Costs -/

/-- The formats' widths in bits. -/
def fmtBits (f : BitVec 4) : Nat := (fmtOf f).width

/-- Whether a code of Table 2.1 is reserved. -/
def fmtReserved (f : BitVec 4) : Bool := decide (0xC ≤ f.toNat)

/-- c of a pass (Table 4.3, Table 5.1). -/
def stepCount (p : Prec) : Nat :=
  match p.path.toNat with
  | 0 => if fmtOf p.mov = .f8 then 8 else p.p.toNat
  | 1 => 2
  | 2 => 2
  | _ => match p.sem.toNat with
    | 0 => 1
    | 1 => if fmtOf p.mov = .t16 then 4 else 2
    | _ => 2

end Sys2Proof.Machine
end

