-- ==== Sys2Proof/Machine/Regions.lean ====
section
/-! DEFINITION. The bed-memory regions that an instruction's execution names (R197 to R199, R217 to R227, R238 to R244):
what the loader's checks of walks, ports, windows and first reads go by. -/

namespace Sys2Proof.Machine

/-- A region of bed memory: the tensor reference that names it, its shape in elements (or, when it is made of runs of
bytes, the length of a run in `bytes`, their number and the step from one to the next), what is done with it, the A-cycles
[lo, lo + dur) that its accesses fall in, those of each of its lines where the spec gives them, and the ports it uses for
how long from when. -/
structure Region where
  r : BitVec 24
  n0 : Nat := 1
  n1 : Nat := 1
  /-- lines of the tensor before the region's own -/
  row0 : Nat := 0
  bytes : Option Nat := none
  /-- only the dimension-0 coordinate of the reference counts (R222) -/
  flat : Bool := false
  runs : Nat := 1
  pitch : Nat := 0
  wr : Bool := false
  lo : Nat := 0
  dur : Nat := 1
  rowAt : List (Nat × Nat) := []
  ports : Nat := 0
  pLo : Nat := 0
  pDur : Nat := 0
  /-- ports in the last of those A-cycles, when they are fewer -/
  pLast : Option Nat := none
  /-- A-cycles in which one port more reads a side list (R161) -/
  extra : List Nat := []
  /-- the segment that its A-cycles belong to, when it is not the instruction's own -/
  seg : Option Nat := none
  /-- bytes that the region of its tensor has at least (Table 11.5), and the alignment of its place -/
  room : Nat := 0
  align : Nat := 1
  /-- which of its tensor's planes of dimensions 0 and 1, from its place on, the lines lie in -/
  plane : Nat := 0
  /-- its codes are moved as they are, without side list or codebook -/
  plain : Bool := false
  deriving DecidableEq, Repr

/-- The reference to a tensor that an instruction names without a walk: it uses the walk of src (Table 9.9). -/
def likeRef (t : BitVec 12) (src : BitVec 24) : BitVec 24 := BitVec.ofNat 24 (t.toNat + src.toNat / 4096 * 4096)

/-- Item bytes of a collective operation (Table 10.4); 0 for a reserved one. -/
def itemBytes (op : Nat) : Nat := [48, 80, 96, 32, 64, 512].getD op 0

/-- Bytes of a barrel that holds the items of a collective operation (Table 10.4, Table 11.5). -/
def itemRoom (op : Nat) : Nat := [196608, 163840].getD op 0

/-- Bytes of a barrel (Table 11.5). -/
def barrelSize (paired : Bool) : Nat := if paired then 163840 else 196608

/-- What the place of an instruction in the schedule gives its regions: the A-cycle it starts at, the columns of the plane
it feeds, the A-cycles at which a pass's rows first commit, for each part of a drain its columns and the A-cycles at which
its rows are read, how long after that they are stored, the segment that those A-cycles belong to, whether its array is paired
or its moving format B1, its route, whether it issues after a wait, and the entries that the sieve list holds. -/
structure Shape where
  at_ : Nat := 0
  nn : Nat := 64
  commits : List Nat := []
  parts : List (Nat × List Nat) := []
  late : Nat := 6
  rowSeg : Option Nat := none
  paired : Bool := false
  b1 : Bool := false
  route : Route := {}
  waited : Bool := false
  held : Nat := 0
  deriving DecidableEq, Repr

/-- The phases of the frame at which a segment can begin: its own before the first wait, any after one. -/
def phasesOf (waited : Bool) : List Nat := if waited then List.range 64 else [0]

/-- The A-cycles of n words sent at an A-cycle: exact before the first wait, and after one by the phase of the frame at its
end (R238, R262). -/
def Route.departsAt (r : Route) (waited : Bool) (c n phase : Nat) : List Nat :=
  if waited then (r.departures (c + phase) n).map (· - phase) else r.departures c n

/-- The A-cycle of the last slot of n words at the latest, and that of their first at the earliest (R238). -/
def Route.lastSlot (r : Route) (waited : Bool) (c n : Nat) : Nat :=
  ((phasesOf waited).map fun k => (r.departsAt waited c n k).getLastD c).foldl max c
def Route.firstSlot (r : Route) (waited : Bool) (c n : Nat) : Nat :=
  let fs := (phasesOf waited).map fun k => (r.departsAt waited c n k).headD c
  fs.foldl min (fs.headD c)

/-- The operand of a reference at some loop iterations. -/
def Program.opnd (g : Program) (l : IList) (iters : List Nat) (r : BitVec 24) : Opnd :=
  ({ prog := g, list := l, iters } : Ctx).opnd r

/-- A region read in the A-cycles of a cost, from a port for each of its share. -/
def Region.read (r : BitVec 24) (lo dur ports : Nat) : Region := { r, lo, dur, ports, pLo := lo, pDur := dur }

/-- A region written within an instruction's cost and its latency after it. -/
def Region.write (r : BitVec 24) (lo dur late ports : Nat) : Region :=
  { r, wr := true, lo, dur := dur + late + 1, ports, pLo := lo + late, pDur := dur }

/-- Distinct T8X blocks that lines of n elements lie in (R161). -/
def Opnd.blocksOf (o : Opnd) (n lines : Nat) : Nat :=
  if fmtOf o.t.fmt = .t8x then
    ((List.range lines).foldl (fun (e : Nat × Nat) i =>
      let p := o.shift 0 i
      let first := max e.1 (p.elem / 256)
      let last := (p.elem + n - 1) / 256 + 1
      (max first last, e.2 + (last - first))) (0, 0)).2
  else 0

/-- The A-cycles of an MLOAD of `count` lines of k elements (R208). -/
def Opnd.mloadCycles (o : Opnd) (k count b : Nat) : Nat :=
  loadCycles (count * ceilDiv (k * (fmtOf o.t.fmt).width) 8) (o.blocksOf k count) (max 1 b)

/-- The A-cycles in which row m of a preload is read: as many as it has lines, before its first commit (R58). -/
def preloadAt (g : Program) (l : IList) (iters : List Nat) (r : BitVec 24) (nn : Nat) (commits : List Nat) : List (Nat × Nat) :=
  (enumFrom 0 commits).map fun e =>
    let n := ceilDiv (((g.opnd l iters r).shift 0 e.1).span nn).2 64
    (e.2 - n, e.2)

/-- The bytes of a tensor packed in element order (R24, R396). -/
def Tensor.packed (t : Tensor) : Nat := ceilDiv (t.size * (fmtOf t.fmt).width) 8

/-- The A-cycles in which the port of a region read at 64 elements an A-cycle reads the side lists of its T8X blocks (R161). -/
def Opnd.sideReads (o : Opnd) (t n : Nat) : List Nat :=
  (upFrom (o.elem / 256) (o.blocks n)).map fun k => t + (256 * k - o.elem) / 64

/-- The regions of an instruction. -/
def regionsOf (g : Program) (l : IList) (iters : List Nat) (w : Shape) (i : Instr) : List Region :=
  let o := g.opnd l iters
  let fmt := fun (r : BitVec 24) => (g.tensors.getD (refTensor r) {}).fmt
  let rows8 := fun (r : BitVec 24) (n : Nat) => if fmtOf (fmt r) = .b1 then 8 * n else n
  let t := w.at_
  let barrel := fun (r : BitVec 24) (cycles ports : Nat) =>
    { Region.read r t cycles ports with bytes := some (barrelSize w.paired), room := barrelSize w.paired, align := 64 }
  let word := barrelSize w.paired / 64
  let sent := fun (r : BitVec 24) (n : Nat) =>
    { Region.read r t (w.route.lastSlot w.waited t (ceilDiv n 256) + 1 - t) 0 with bytes := some n }
  match i with
  | .fill _ _ _ src kn nn bs =>
    let k := fillCycles (fmt src) bs.toNat
    [{ Region.read src t k bs.toNat with
       n0 := nn.toNat + 1, n1 := rows8 src (kn.toNat + 1), pLast := some (fillLines (fmt src) - bs.toNat * (k - 1)) }]
  | .mload _ _ _ _ _ count kn src bm =>
    let k := if w.b1 then 8 * (kn.toNat + 1) else kn.toNat + 1
    [{ Region.read src t ((o src).mloadCycles k (count.toNat + 1) bm.toNat) bm.toNat with n0 := k, n1 := count.toNat + 1 }]
  | .pass _ _ _ _ _ mt _ _ preEn corrEn pre corr =>
    let rows := preloadAt g l iters pre w.nn w.commits
    (if preEn then [{ r := pre, n0 := w.nn, n1 := mt.toNat + 1, rowAt := rows
                      extra := if fmtOf (fmt pre) = .t8x then rows.map (·.1) else [] }] else []) ++
      (if corrEn then [{ Region.read corr (w.commits.headD 0 - 32) 32 1 with bytes := some 2048, room := 2048 }] else [])
  | .spill _ _ _ _ first r bp =>
    let b := bp.toNat + 1
    if first then [{ barrel r (ceilDiv word b) b with wr := true }]
    else [barrel r (ceilDiv (2 * word) b) b, { barrel r (ceilDiv (2 * word) b) 0 with wr := true }]
  | .rdrain _ _ _ r _ _ bp => [barrel r (ceilDiv word (bp.toNat + 1)) (bp.toNat + 1)]
  | .drain _ _ _ _ source _ _ toReg dst _ _ _ _ _ _ r bp =>
    (if source then [barrel r (ceilDiv word (bp.toNat + 1)) (bp.toNat + 1)] else []) ++
      (if toReg then []
       else (w.parts.foldl (fun (e : List Region × Nat) (p : Nat × List Nat) =>
        (e.1 ++ [{ r := dst, n0 := p.1, n1 := p.2.length, row0 := e.2, wr := true, lo := t, seg := w.rowSeg
                   rowAt := p.2.map fun x => (x + w.late, x + w.late + 1) }], e.2 + p.2.length)) ([], 0)).1)
  | .vld _ _ _ count src _ bp =>
    let n := 64 * (count.toNat + 1)
    [{ Region.read src t ((o src).moveCycles n bp.toNat) bp.toNat with n0 := n }]
  | .vst _ _ _ count dst bp _ _ =>
    let n := 64 * (count.toNat + 1)
    [{ Region.write dst t ((o dst).moveCycles n bp.toNat) 3 bp.toNat with n0 := n }]
  | .mcvt _ _ src dst n bp =>
    let n := n.toNat + 1
    let k := mcvtCycles (o src) (o dst) n bp.toNat
    [{ Region.read src t k bp.toNat with n0 := n }, { Region.write dst t k 6 0 with n0 := n }]
  | .sfn _ _ func src op2 dst n =>
    let n := n.toNat + 1
    let k := ceilDiv n 8
    [{ Region.read src t k 1 with n0 := n }] ++ (if func.toNat < 16 then [] else [{ Region.read op2 t k 1 with n0 := n }]) ++
      [{ Region.write dst t k (sfnLatency func.toNat (decide (fmtOf (fmt dst) = .t32))) 1 with n0 := n }]
  | .smax1 _ _ src mask maskEn _ _ _ n =>
    let n := n.toNat + 1
    let k := ceilDiv n 8
    [{ Region.read src t k 1 with n0 := n }] ++ (if maskEn then [{ Region.read (likeRef mask src) t k 1 with n0 := n }] else [])
  | .smax2 _ _ src mask maskEn _ recip dst n =>
    let n := n.toNat + 1
    let k := ceilDiv n 8
    let late := if recip then 14 else 0
    [{ Region.read src (t + late) k 1 with n0 := n }] ++
      (if maskEn then [{ Region.read (likeRef mask src) (t + late) k 1 with n0 := n }] else []) ++
      [{ Region.write (likeRef dst src) (t + late) k 14 1 with n0 := n }]
  | .smaxm _ _ src _ => [{ Region.read src t 8 0 with bytes := some 64, ports := 1, pDur := 1 }]
  | .smaxx _ _ _ dst => [{ Region.write dst t 1 1 1 with bytes := some 64 }]
  | .sieve _ _ src n _ _ _ _ =>
    let n := n.toNat + 1
    [{ Region.read src t (ceilDiv n 64) (ceilDiv (64 * (fmtOf (fmt src)).width) 512) with n0 := n }]
  | .sievem _ _ src count k _ _ _ =>
    [{ Region.read src t (count.toNat + 1) 8 with bytes := some (8 * (k.toNat + 1)), runs := count.toNat + 1, pitch := 512 }]
  | .sieveo _ _ dst => [{ Region.write dst t 8 0 1 with bytes := some (8 * w.held) }]
  | .napply _ _ src dst gamma beta betaEn _ n =>
    let n := n.toNat + 1
    let k := ceilDiv n 64
    let part := fun (r : BitVec 24) =>
      { Region.read r t k (ceilDiv (64 * (fmtOf (fmt r)).width) 512) with n0 := n, extra := (o r).sideReads t n : Region }
    let flat := fun (r : BitVec 24) =>
      { part r with flat := true, extra := ({ o r with at_ := [(o r).at_.getD 0 0, 0, 0, 0] } : Opnd).sideReads t n : Region }
    [part src, flat (likeRef gamma src)] ++ (if betaEn then [flat (likeRef beta src)] else []) ++
      [{ Region.write (likeRef dst src) t k 4 (ceilDiv (64 * (fmtOf (fmt (likeRef dst src))).width) 512) with n0 := n }]
  | .statx _ _ _ count dst =>
    [{ Region.write dst t (2 * (count.toNat + 1)) 0 1 with bytes := some (96 * (count.toNat + 1)) }]
  | .statm _ _ _ count src =>
    [{ Region.read src t (2 * (count.toNat + 1)) 1 with bytes := some (96 * (count.toNat + 1)) }]
  | .rpx _ _ _ dst => [{ Region.write dst t 2 0 1 with bytes := some 32 }]
  | .rpm _ _ _ _ src => [{ Region.read src t 2 1 with bytes := some 32 }]
  | .vtld _ _ image bp => [{ Region.read (image.setWidth 24) t (ceilDiv 512 (bp.toNat + 1)) (bp.toNat + 1) with
                       bytes := some 32768, room := 32768 }]
  | .tag _ _ tensor _ _ =>
    let e := g.tensors.getD tensor.toNat {}
    let all := sent (tensor.setWidth 24) e.packed
    (List.range (e.ext.getD 2 1 * e.ext.getD 3 1)).map fun k =>
      { all with bytes := none, n0 := e.ext.getD 0 1, n1 := e.ext.getD 1 1, plane := k, plain := true }
  | .rsend _ _ _ src len => [sent src (64 * (len.toNat + 1))]
  | .lsend _ _ _ _ len src _ => [sent src (64 * (len.toNat + 1))]
  | .lcoll _ _ _ op count src _ _ => [{ sent src (itemBytes op.toNat * (count.toNat + 1)) with room := itemRoom op.toNat }]
  | _ => []

/-! ## Bounds (R198) -/

/-- The coordinates of a walk, as integers. -/
def walkInts (walks : List Walk) (iters : List Nat) (k : Nat) : List Int :=
  if k = 0 then [0, 0, 0, 0]
  else
    let e := walks.getD (k - 1) {}
    (List.range 4).map fun d => (e.origin.getD d 0 : Int) +
      ((List.range 4).map fun l => (iters.getD l 0 : Int) * (e.steps.getD l []).getD d 0).foldl (· + ·) 0

/-- The regions that an instruction names for words to land in later (R235, R239, R241, R242). -/
def landsIn (g : Program) (l : IList) : Instr → List Region
  | .rrecv _ _ _ dst len => [{ r := dst, bytes := some (64 * (len.toNat + 1)) }]
  | .lrecv _ _ link _ len dst _ => if link = 31 then [] else [{ r := dst, bytes := some (64 * (len.toNat + 1)) }]
  | .lcoll _ _ _ op count _ dst _ => [{ r := dst, bytes := some (itemBytes op.toNat * (count.toNat + 1)), room := itemRoom op.toNat }]
  | .brw _ _ _ desc bed _ _ _ _ =>
    let b := sideB (l.barrows.getD desc.toNat [])
    [{ r := bed, bytes := some b.len, runs := b.lines, pitch := (g.tensors.getD (refTensor bed) {}).stride.getD 0 0 }]
  | _ => []

/-- Whether a region stays within its tensor's extents; a run of bytes begins within them and stays within the bytes that its
tensor has (R60, R198). -/
def Region.inside (g : Program) (l : IList) (iters : List Nat) (x : Region) : Bool :=
  let t := g.tensors.getD (refTensor x.r) {}
  let k := walkInts l.walks iters (x.r.toNat / 4096)
  let at_ := fun (d : Nat) => if x.flat && d != 0 then 0 else k.getD d 0
  let ext := fun (d : Nat) => ((t.ext.getD d 1 : Nat) : Int)
  decide (x.r.toNat / 4096 ≤ l.walks.length) && k.all (fun v => decide (0 ≤ v)) &&
    match x.bytes with
    | some n => (List.range 4).all (fun d => decide (at_ d < ext d)) &&
        (g.opnd l iters x.r).addr % x.align == 0 &&
        decide ((g.opnd l iters x.r).addr + (x.runs - 1) * x.pitch + n ≤ t.base + max t.extent x.room)
    | none => decide (at_ 0 + x.n0 ≤ ext 0) && decide (at_ 1 + x.row0 + x.n1 ≤ ext 1) && decide (at_ 2 < ext 2) && decide (at_ 3 < ext 3)

/-! ## Accesses -/

/-- An access to bed memory in the static schedule: bytes [addr, addr + len) of a bed, by an instruction, within the
A-cycles [lo, hi) of a segment. -/
structure Acc where
  bed : Nat
  index : Nat
  /-- the place in the bed's order of issue -/
  order : Nat
  seg : Nat
  lo : Nat
  hi : Nat
  addr : Nat
  len : Nat
  wr : Bool
  /-- every byte is written, or read -/
  sure : Bool := true
  deriving DecidableEq, Repr

/-- A unit or a link held for the A-cycles [lo, hi) of a segment, by an instruction of a bed (R201, R265): units are the
bed's own, a link is the grid's and has no bed of its own. -/
structure Use where
  bed : Nat
  own : Nat
  index : Nat
  seg : Nat
  lo : Nat
  hi : Nat
  res : Nat
  deriving DecidableEq, Repr

/-- Port A-cycles of one bank that an instruction needs within [lo, hi) (R252). -/
structure BankUse where
  index : Nat
  seg : Nat
  lo : Nat
  hi : Nat
  bank : Nat
  n : Nat
  deriving DecidableEq, Repr

/-- Ports that an instruction uses in each A-cycle of [lo, hi) (R72, Table 11.2). -/
structure PortUse where
  index : Nat
  seg : Nat
  lo : Nat
  hi : Nat
  n : Nat
  deriving DecidableEq, Repr

/-- Whether two uses meet: within a segment their A-cycles overlap; a wait between them can last any time, so that the
later one may fall on any A-cycle from its own on. -/
def Use.meets (a b : Use) : Bool :=
  a.bed == b.bed && a.res == b.res &&
    (if a.seg = b.seg then decide (a.lo < b.hi) && decide (b.lo < a.hi)
     else if a.seg < b.seg then decide (b.lo < a.hi) else decide (a.lo < b.hi))

/-- The byte range of one line of a region (R160, R185). -/
def Region.row (x : Region) (o : Opnd) (i : Nat) : Nat × Nat := (o.shift 0 (x.row0 + i)).span x.n0

/-- The byte ranges of a region besides its lines: the side lists of its T8X blocks, and the codebook it reads by. -/
def Region.beside (x : Region) (o : Opnd) : List (Nat × Nat) :=
  (if fmtOf o.t.fmt = .t8x then (List.range x.n1).flatMap fun i =>
    let p := o.shift 0 (x.row0 + i)
    (upFrom (p.elem / 256) (p.blocks x.n0)).map fun k => (sideAddr o.t.quant k, 16)
   else []) ++
    (if fmtOf o.t.fmt = .c4 ∧ !x.wr then [(o.t.codebook, 32)] else [])

/-- The place at which a region begins. -/
def Region.place (g : Program) (l : IList) (iters : List Nat) (x : Region) : Opnd :=
  let o := g.opnd l iters x.r
  if x.flat then { o with at_ := [o.at_.getD 0 0, 0, 0, 0] }
  else if x.plane = 0 then o
  else
    let e2 := o.t.ext.getD 2 1
    { o with at_ := [o.at_.getD 0 0, o.at_.getD 1 0, o.at_.getD 2 0 + x.plane % e2, o.at_.getD 3 0 + x.plane / e2] }

/-- The byte ranges of a region, each with its A-cycles. -/
def Region.spans (g : Program) (l : IList) (iters : List Nat) (x : Region) : List ((Nat × Nat) × Nat × Nat) :=
  let o := x.place g l iters
  let all := (x.lo, x.lo + x.dur)
  match x.bytes with
  | some n => (List.range x.runs).map fun i => ((o.addr + i * x.pitch, n), all)
  | none =>
    let lo := x.rowAt.foldl (fun (m : Nat) e => min m e.1) (x.rowAt.headD all).1
    let hi := x.rowAt.foldl (fun (m : Nat) e => max m e.2) (x.rowAt.headD all).2
    ((List.range x.n1).map fun i => (x.row o i, x.rowAt.getD i all)) ++ (if x.plain then [] else x.beside o).map fun e => (e, lo, hi)

/-- Whether an instruction stores with a lane mask, so that each of its granules is written in part (R217). -/
def masked : Instr → Bool
  | .vst _ _ _ _ _ _ _ maskEn => maskEn
  | _ => false

/-- The accesses of a region; those of an instruction that writes begin when its first result can be read (R201). -/
def Region.accs (g : Program) (l : IList) (bed order : Nat) (s : Iss) (x : Region) : List Acc :=
  (x.spans g l s.iters).map fun e =>
    { bed, index := s.index, order, seg := x.seg.getD s.seg, lo := if x.wr && x.rowAt.isEmpty then x.pLo + 1 else e.2.1
      hi := e.2.2, addr := e.1.1, len := e.1.2, wr := x.wr, sure := !masked s.ins }

/-- The lines of 64 B that a byte range touches. -/
def linesOf (e : Nat × Nat) : List Nat :=
  if e.2 = 0 then [] else upFrom (e.1 / 64) ((e.1 + e.2 - 1) / 64 + 1 - e.1 / 64)

/-- A list without the members that repeat the one before them. -/
def noRepeats : List Nat → List Nat
  | a :: b :: rest => if a = b then noRepeats (b :: rest) else a :: noRepeats (b :: rest)
  | l => l

/-- Whether a byte range written covers a line of it in part of a granule, so that the line is read first (R253).
DEDUCED, unsafe: log entry 68. -/
def partLine (e : Nat × Nat) (ln : Nat) : Bool :=
  (decide (e.1 / 64 = ln) && e.1 % 16 != 0) || (decide ((e.1 + e.2 - 1) / 64 = ln) && (e.1 + e.2) % 16 != 0)

/-- Port A-cycles that each bank must give byte ranges within [lo, hi); a line that is written in part is also read, from
the A-cycle before. -/
def bankNeeds (index seg : Nat) (wr every : Bool) (sp : List (Nat × Nat)) (lo hi : Nat) : List BankUse :=
  let part := if wr then noRepeats (sp.flatMap fun e => (linesOf e).filter fun ln => every || partLine e ln) else []
  let ls := noRepeats (sp.flatMap linesOf)
  (List.range 32).filterMap fun b =>
    let k := (part.filter fun ln => ln % 32 == b).length
    let n := k + (ls.filter fun ln => ln % 32 == b).length
    if n = 0 then none else some { index, seg, lo := if 0 < k then lo - 1 else lo, hi, bank := b, n }

/-- Whether an instruction's reads leave as runner words, in the slots of its route (R238). -/
def sends : Instr → Bool
  | .rsend .. => true
  | .lsend .. => true
  | .lcoll .. => true
  | .tag .. => true
  | _ => false

/-- What a region asks of the banks: for a line whose A-cycles the spec gives, within those; for the others within those of
the whole region, in whatever order; the words of a send are reckoned at their slots (R252). -/
def Region.banks (g : Program) (l : IList) (s : Iss) (x : Region) : List BankUse :=
  let sp := x.spans g l s.iters
  if sends s.ins then []
  else if x.rowAt.isEmpty then
    match sp.head? with
    | some e => bankNeeds s.index (x.seg.getD s.seg) x.wr (masked s.ins) (sp.map (·.1)) e.2.1 e.2.2
    | none => []
  else sp.flatMap fun e => bankNeeds s.index (x.seg.getD s.seg) x.wr false [e.1] e.2.1 e.2.2

/-- The lines of a byte range written that are first read (R253). -/
def partLines (e : Nat × Nat) : List Nat := (linesOf e).filter (partLine e)

/-- The ports of a region (Table 11.2): of a line with A-cycles of its own, its 64 B lines spread over them. A line that is
written in part is read in the A-cycle before, the first of an instruction's stores by its first A-cycle and the last by its
last; a masked store reads before every one of its writes (R253). DEDUCED, unsafe: log entry 68. -/
def Region.uses (g : Program) (l : IList) (s : Iss) (x : Region) : List PortUse :=
  let use := fun (lo hi n : Nat) =>
    if n = 0 ∨ hi ≤ lo then [] else [{ index := s.index, seg := x.seg.getD s.seg, lo, hi, n : PortUse }]
  (x.extra.flatMap fun t => use t (t + 1) 1) ++
  if x.rowAt.isEmpty then
    let hi := x.pLo + x.pDur
    let first := fun (lo : Nat) => if !x.wr then []
      else if masked s.ins then use (lo - 1) (hi - 1) x.ports
      else
        let part := (x.spans g l s.iters).flatMap fun e => partLines e.1
        match part with
        | [] => []
        | [_] => use (lo - 1) lo 1
        | _ => if part.length = 2 then use (lo - 1) lo 1 ++ use (hi - 2) (hi - 1) 1 else use (lo - 1) (hi - 1) (ceilDiv part.length x.pDur)
    first x.pLo ++ match x.pLast with
    | some n => use x.pLo (hi - 1) x.ports ++ use (hi - 1) hi n
    | none => use x.pLo hi x.ports
  else
    let o := x.place g l s.iters
    (enumFrom 0 x.rowAt).flatMap fun e =>
      let n := e.2.2 - e.2.1
      use e.2.1 e.2.2 (ceilDiv (ceilDiv (x.row o e.1).2 64) n) ++
        if x.wr then use (e.2.1 - 1) (e.2.2 - 1) (ceilDiv (partLines (x.row o e.1)).length n) else []

end Sys2Proof.Machine
end

