-- ==== Sys2Proof/Machine/Static.lean ====
section
/-! DEFINITION. One bed's list followed through its static schedule: what the loader knows of every array, register,
statistics entry, row state, list, record and table at each issue, and what it refuses there (R58, R74 to R85, R91, R95,
R100, R110, R113 to R115, R123, R130, R136, R142, R149, R150, R161, R201 to R227, R236, R247). -/

namespace Sys2Proof.Machine

/-! ## What is followed -/

/-- A plane: what fills it, the first A-cycles at which its fill and its codebook allow a SWAP, and the tensor whose codebook its
bank holds (R100). -/
structure SPlane where
  fmt : BitVec 4 := 0
  kn : Nat := 0
  nn : Nat := 0
  tensor : Nat := 0
  filled : Bool := false
  till : Nat := 0
  bookTill : Nat := 0
  booked : Option Nat := none
  deriving DecidableEq, Repr

/-- A half of the moving-operand buffer: its slots' format and the A-cycle from which each may be fed, the A-cycle after the
last in which an MLOAD writes it, and after the last in which a PASS feeds from it. -/
structure SHalf where
  tensor : Nat := 0
  kn : Nat := 0
  slots : Tbl (Option (BitVec 4 × Nat)) := []
  wrEnd : Nat := 0
  fedTill : Nat := 0
  deriving DecidableEq, Repr

/-- A tile: its reduction, the start, c and m_t of the last pass into it, the passes that lack the reduction's correction vector, the last commit of each row,
and the last A-cycle in which each row is still taken, also of a reduction that has left it. -/
structure STile where
  isOpen : Bool := false
  redn : Redn := {}
  fed : Option (Nat × Nat × Nat) := none
  corr : Bool := false
  lacks : List Nat := []
  pre : List Nat := []
  adds : Nat := 0
  done : List Nat := []
  taken : List Nat := []
  deriving DecidableEq, Repr

/-- The pass that was the last instruction of an array: its tile, start, c and m_t, whether it was enabled, and the segment that
its A-cycles belong to. -/
structure SPass where
  tile : Bool
  s0 : Nat
  c : Nat
  mt : Nat
  on : Bool := true
  seg : Nat := 0
  deriving DecidableEq, Repr

structure SArr where
  prec : Option Prec := none
  tag : Bool := false
  p0 : SPlane := {}
  p1 : SPlane := {}
  h0 : SHalf := {}
  h1 : SHalf := {}
  t0 : STile := {}
  t1 : STile := {}
  /-- the first A-cycle at which row 0 is free of passes, and of a fence -/
  feedEnd : Nat := 0
  fence : Nat := 0
  last : Option SPass := none
  deriving DecidableEq, Repr

/-- A barrel: the reduction that wrote it, its preloads, its correction vector and the passes that lack one, and whether SPILLs of
both forms, or of both tiles, did. -/
structure SBar where
  redn : Redn
  pre : List Nat
  corr : Bool := false
  lacks : List Nat := []
  mixed : Bool := false
  tiles : Bool := false
  deriving DecidableEq, Repr

/-- An entry's `from_` names the items merged into it: the place in the order of issue at which each was read, and its
address. -/
structure SStat where
  ready : Nat := 0
  prepped : Bool := false
  count : Nat := 0
  from_ : List (Nat × Nat) := []
  deriving DecidableEq, Repr

structure SRowst where
  ready : Nat := 0
  beta : Option (BitVec 32) := none
  fresh : Bool := true
  count : Nat := 0
  from_ : List (Nat × Nat) := []
  deriving DecidableEq, Repr

structure SList where
  ready : Nat := 0
  live : Bool := false
  k : Nat := 0
  dir : Bool := false
  fmt : BitVec 4 := 0
  zero : Nat := 0
  fed : Nat := 0
  deriving DecidableEq, Repr

/-- An item written to bed memory for other beds to merge, or the entry that an item is merged into: a soft-maximum row
state (kind 0), a sieve list (1) or a statistics item (2); what its bed itself has put into it, and the items merged into
it before (R130, R136, R115). -/
structure Item where
  bed : Nat
  index : Nat
  order : Nat
  /-- where it is written, or where the merged item is read, and how many bytes; none where nothing is read -/
  addr : Option Nat
  len : Nat := 0
  kind : Nat
  beta : Option (BitVec 32) := none
  zero : Nat := 0
  fmt : BitVec 4 := 0
  count : Nat := 0
  from_ : List (Nat × Nat) := []
  deriving DecidableEq, Repr

/-- The followed state of a bed, with what has been found. -/
structure SV where
  bed : Nat := 0
  arrs : Tbl SArr := []
  bars : Tbl (Option SBar) := []
  vReady : Tbl Nat := []
  vTag : Tbl (BitVec 4) := []
  kReady : Tbl Nat := []
  stats : Tbl SStat := []
  rows : Tbl SRowst := []
  sieve : SList := {}
  recReady : Tbl Nat := []
  bound : List Nat := []
  /-- a reload of the shadow tables: the A-cycle after it; the end of the last lookup; when the last flip took effect -/
  reload : Option Nat := none
  lookEnd : Nat := 0
  flip : Nat := 0
  colls : List Nat := []
  /-- issues so far -/
  order : Nat := 0
  fails : List Fail := []
  uses : List Use := []
  banks : List BankUse := []
  ports : List PortUse := []
  accs : List Acc := []
  made : List Item := []
  merges : List Item := []
  deriving DecidableEq, Repr

def SV.arr (v : SV) (a : BitVec 2) : SArr := tget (fun _ => {}) v.arrs a.toNat
def SV.setArr (v : SV) (a : BitVec 2) (x : SArr) : SV := { v with arrs := tset (fun _ => {}) v.arrs a.toNat x }
def SArr.plane (x : SArr) (b : Bool) : SPlane := if b then x.p1 else x.p0
def SArr.setPlane (x : SArr) (b : Bool) (p : SPlane) : SArr := if b then { x with p1 := p } else { x with p0 := p }
def SArr.half (x : SArr) (b : Bool) : SHalf := if b then x.h1 else x.h0
def SArr.setHalf (x : SArr) (b : Bool) (p : SHalf) : SArr := if b then { x with h1 := p } else { x with h0 := p }
def SArr.tile (x : SArr) (b : Bool) : STile := if b then x.t1 else x.t0
def SArr.setTile (x : SArr) (b : Bool) (p : STile) : SArr := if b then { x with t1 := p } else { x with t0 := p }
def SV.stat (v : SV) (e : Nat) : SStat := tget (fun _ => {}) v.stats e
def SV.setStat (v : SV) (e : Nat) (x : SStat) : SV := { v with stats := tset (fun _ => {}) v.stats e x }
def SV.row (v : SV) (e : Nat) : SRowst := tget (fun _ => {}) v.rows e
def SV.setRow (v : SV) (e : Nat) (x : SRowst) : SV := { v with rows := tset (fun _ => {}) v.rows e x }

/-- A rule that an instruction's own fields must meet, refused with a code. -/
def SV.form (v : SV) (s : Iss) (code : Nat) (ok : Bool) : SV :=
  if ok then v else { v with fails := { bed := v.bed, index := s.index, code } :: v.fails }

/-- A rule of what an enabled instruction finds at its issue; a disabled one reads and changes nothing (R178). -/
def SV.need (v : SV) (s : Iss) (code : Nat) (ok : Bool) : SV := v.form s code (ok || !s.on)

/-- A unit held for [lo, lo + n). -/
def SV.hold (v : SV) (s : Iss) (res lo n : Nat) : SV :=
  if n = 0 then v else { v with uses := { bed := v.bed, own := v.bed, index := s.index, seg := s.seg, lo, hi := lo + n, res } :: v.uses }

/-- A vector register read at an issue, and one written that lands later (R201). -/
def SV.readV (v : SV) (s : Iss) (r : Nat) : SV := v.need s 0x20 (decide (tget (fun _ => 0) v.vReady r ≤ s.cyc))
def SV.writeV (v : SV) (s : Iss) (r lands : Nat) (tag : BitVec 4) : SV :=
  let old := tget (fun _ => 0) v.vReady r
  ({ v with vReady := tset (fun _ => 0) v.vReady r (max lands old),
            vTag := if old ≤ lands then tset (fun _ => 2) v.vTag r tag else v.vTag } : SV).hold s (70 + r) lands 1
def SV.readK (v : SV) (s : Iss) (k : Nat) : SV := v.need s 0x20 (decide (tget (fun _ => 0) v.kReady k ≤ s.cyc))
def SV.writeK (v : SV) (s : Iss) (k lands : Nat) : SV :=
  ({ v with kReady := tset (fun _ => 0) v.kReady k (max lands (tget (fun _ => 0) v.kReady k)) } : SV).hold s (90 + k) lands 1
def SV.tagOf (v : SV) (r : Nat) : BitVec 4 := tget (fun _ => 2) v.vTag r

/-- A range record slot updated from an issue until it lands: one instruction at a time (R156). -/
def SV.writeRec (v : SV) (s : Iss) (slot n : Nat) : SV :=
  ({ v with recReady := tset (fun _ => 0) v.recReady slot (max (s.cyc + n) (tget (fun _ => 0) v.recReady slot)) } : SV).hold s
    (310 + slot) s.cyc n

/-- A record slot read for n A-cycles, with no update of it in flight (R156). -/
def SV.readRec (v : SV) (s : Iss) (slot n : Nat) : SV :=
  (v.need s 0x20 (decide (tget (fun _ => 0) v.recReady slot ≤ s.cyc))).hold s (310 + slot) s.cyc n

/-- The graders' updates of the slots that the quantisation words of an instruction's tensors name, each tensor with how
long its updates last: a slot is the instruction's for the longest of them (R154, R156). -/
def SV.grades (v : SV) (g : Program) (s : Iss) (us : List (Nat × Nat)) : SV :=
  (List.range 8).foldl
    (fun (v : SV) k =>
      let n := (us.map fun u =>
        let q := (g.tensors.getD u.1 {}).quant
        if wfld q 33 1 = 1 ∧ wfld q 30 3 = k then u.2 else 0).foldl max 0
      if n = 0 then v else v.writeRec s k n) v

/-! ## Formats and shifts -/

def Program.tensorAt (g : Program) (r : BitVec 24) : Tensor := g.tensors.getD (refTensor r) {}
def Program.fmtAt (g : Program) (r : BitVec 24) : Fmt := fmtOf (g.tensorAt r).fmt
/-- t of a tensor by its descriptor (R147). -/
def Program.shiftAt (g : Program) (t : Nat) : Int := g.baseShift + qDelta (g.tensors.getD t {}).quant
/-- The zero point of a tensor (R148). -/
def Program.zeroAt (g : Program) (t : Nat) : Nat :=
  if fmtOf (g.tensors.getD t {}).fmt = .f8 then wfld (g.tensors.getD t {}).quant 6 8 else 0

/-- Exponents between which the bits of a format's nonzero magnitudes lie (Tables 2.3 and 2.4); an L8 or L16 value enters
rounded to 24 significand bits, the least of them 23 below its own exponent (R58). -/
def fmtSpan : Fmt → Int × Int
  | .t8 => (-24, 24)
  | .t16 => (-56, 52)
  | .t32 => (-120, 116)
  | .t8x => (-120, 116)
  | .l8 => (-31, 8)
  | .l16 => (-55, 32)
  | .f8 => (0, 8)
  | .c4 => (-56, 52)
  | .b1 => (0, 0)
  | .bin16 => (-24, 16)
  | .bf16 => (-133, 128)
  | .bin32 => (-149, 128)

/-- Whether a precision state is one of Table 5.1, within R93 and R95 (R205). -/
def precOk (compat : Bool) (p : Prec) : Bool :=
  let m := fmtOf p.mov
  let t := fmtOf p.sta
  let k := p.p.toNat
  !fmtReserved p.mov && !fmtReserved p.sta &&
    match p.path.toNat with
    | 0 =>
      if p.paired then decide (m = .t32) && decide (t = .t32) && decide (1 ≤ k) && decide (k ≤ 28)
      else (decide (t = .t8) || decide (t = .t16) || decide (t = .f8)) &&
        ((decide (m = .t8) && decide (1 ≤ k) && decide (k ≤ 4)) || (decide (m = .t16) && decide (1 ≤ k) && decide (k ≤ 12)) ||
          (decide (m = .f8) && k == 8))
    | 1 => !p.paired && k == 0 && (decide (m = .t8) || decide (m = .t16)) && decide (t = .c4)
    | 2 => !p.paired && k == 0 && (decide (m = .l8) || decide (m = .l16)) && (decide (t = .l8) || decide (t = .l16))
    | _ => !p.paired && k == 0 && !compat && decide (m = t) &&
        (match p.sem.toNat with
         | 0 => decide (m = .b1)
         | 1 => decide (m = .t8) || decide (m = .t16) || decide (m = .f8)
         | _ => decide (m = .t8) || decide (m = .t16))

/-- The precision state in force, the semiring taking part only on the compare path (R205). -/
def Prec.norm (p : Prec) : Prec := if p.path = 3 then p else { p with sem := 0 }

/-- s of Table 7.3 for a drain of a reduction into an output shift. -/
def Program.combined (g : Program) (r : Redn) (out : Int) : Int :=
  if r.prec.path = 3 then (if r.prec.sem = 0 then -out else g.shiftAt r.mov - out)
  else g.shiftAt r.mov + g.shiftAt r.sta - out

/-- Whether a preload fits its reduction's drain (R58, R150). -/
def Program.preOk (g : Program) (r : Redn) (out : Int) (t : Nat) : Bool :=
  let s := g.combined r out
  let e := fmtSpan (fmtOf (g.tensors.getD t {}).fmt)
  g.shiftAt t == out &&
    (if r.prec.paired then decide (-256 ≤ e.1 - s) && decide (e.2 - s ≤ 232)
     else decide (-128 ≤ e.1 - s) && decide (e.2 - s ≤ 104))

/-- A T32 immediate that is NaN or infinite (R28, R204). -/
def immBad (v : BitVec 32) : Bool := v == 0x80000000 || v == 0x7FFFFFFF || v == 0x80000001

/-! ## Arrays -/

/-- A-cycles that a PSET's or a SWAP's fence holds row 0 idle after the last old element (R84); before any element was fed
they count from A-cycle 0 of the plot. DESIGN CHOICE, unsafe: log entry 65. -/
def SArr.fenced (x : SArr) : SArr := { x with fence := max x.fence (x.feedEnd + 192) }

/-- Whether both tiles are empty when a fence from an A-cycle on has ended: neither holds an open reduction, and the last row of
each has been read (R81, R82, R84, R85). -/
def SArr.closed (x : SArr) (at_ : Nat) : Bool :=
  let end_ := max at_ x.fenced.fence
  [x.t0, x.t1].all fun t => !t.isOpen && t.taken.all fun r => decide (r < end_)

/-- PSET (R84, R85, R205). -/
def SV.pset (v : SV) (g : Program) (s : Iss) (a : BitVec 2) (p : Prec) : SV :=
  let v := v.form s 0x24 (precOk g.compat p)
  let x := v.arr a
  match x.prec with
  | none => v.setArr a { x with prec := some p.norm, last := none }
  | some old =>
    if old = p.norm then v.setArr a { x with last := none }
    else (v.need s 0x20 (x.closed s.cyc)).setArr a { x.fenced with prec := some p.norm, last := none }

/-- FILL of the shadow plane (R75, R206). -/
def SV.fill (v : SV) (g : Program) (s : Iss) (a : BitVec 2) (src : BitVec 24) (kn nn bs : Nat) : SV :=
  let x := v.arr a
  let f := (g.tensorAt src).fmt
  let n := fillCycles f bs
  let v := v.form s 0x20 (decide (1 ≤ bs) && decide (bs ≤ 8))
  let v := v.form s 0x24 (!decide (fmtOf f = .b1) || (g.tensorAt src).ext.getD 1 1 % 8 == 0)
  let old := x.plane (!x.tag)
  let v := (v.need s 0x20 (decide (old.till ≤ s.cyc))).hold s (40 + a.toNat) s.cyc n
  v.setArr a { x.setPlane (!x.tag) { old with fmt := f, kn, nn, tensor := refTensor src, filled := true, till := s.cyc + n }
               with last := none }

/-- CBLD into the bank of the shadow plane (R100, R207). Beside a fill it takes the fill's added last A-cycle. DESIGN CHOICE,
unsafe: log entry 65. -/
def SV.cbld (v : SV) (g : Program) (s : Iss) (a : BitVec 2) (t : Nat) : SV :=
  let x := v.arr a
  let p := x.plane (!x.tag)
  let v := v.form s 0x24 (decide (fmtOf (g.tensors.getD t {}).fmt = .c4))
  let v := v.need s 0x20 (decide (p.bookTill ≤ s.cyc))
  let sharing := decide (s.cyc < p.till)
  let till := if sharing then p.till + 1 else p.till
  let at_ := if sharing then p.till else s.cyc
  let v := { v with ports := { index := s.index, seg := s.seg, lo := at_, hi := at_ + 1, n := 1 } :: v.ports
                    banks := bankNeeds s.index s.seg false false [((g.tensors.getD t {}).codebook, 32)] s.cyc (s.cyc + 1) ++ v.banks }
  v.setArr a { x.setPlane (!x.tag) { p with bookTill := s.cyc + 1, till, booked := some t } with last := none }

/-- MLOAD (R107, R208). A PASS that waits at its fence counts as feeding from its issue on. DESIGN CHOICE, unsafe: log entry 65. -/
def SV.mload (v : SV) (g : Program) (l : IList) (s : Iss) (a : BitVec 2) (half : Bool) (m0 n kn : Nat) (src : BitVec 24) (bm : Nat) : SV :=
  let x := v.arr a
  let h := x.half half
  let o := g.tensorAt src
  let f := match x.prec with | some p => p.mov | none => 0
  let cost := (g.opnd l s.iters src).mloadCycles (if fmtOf f = .b1 then 8 * kn else kn) n bm
  let v := v.form s 0x20 (decide (1 ≤ bm) && decide (bm ≤ 8) && decide (m0 + n ≤ 64))
  let v := (v.need s 0x20 (x.prec.isSome && decide (h.fedTill ≤ s.cyc))).hold s (36 + a.toNat) s.cyc cost
  let v := v.grades g s [(refTensor src, cost + 3)]
  let b1 := fmtOf f = .b1 ∧ fmtOf o.fmt = .b1 ∧ o.ext.getD 0 1 % 8 ≠ 0
  let v := v.need s 0x24 (!decide b1)
  let slots := (upFrom m0 n).foldl (fun (t : Tbl (Option (BitVec 4 × Nat))) m =>
    tset (fun _ => none) t m (some (f, s.cyc + cost + 3))) h.slots
  v.setArr a { x.setHalf half { h with tensor := refTensor src, kn, slots, wrEnd := max h.wrEnd (s.cyc + cost) } with last := none }

/-- SWAP (R74, R75, R77, R96, R100, R206, R209). The first SWAP, which retires a plane that nothing has filled, changes no
precision. DESIGN CHOICE, unsafe: log entry 65. -/
def SV.swap (v : SV) (g : Program) (s : Iss) (a : BitVec 2) : SV :=
  let x := v.arr a
  let p := x.plane (!x.tag)
  let old := x.plane x.tag
  let v := v.need s 0x20 (p.filled && decide (p.till ≤ s.cyc) && decide (p.bookTill ≤ s.cyc) && decide (x.feedEnd ≤ s.cyc))
  let book := fun (t : Nat) => (g.tensors.getD t {}).codebook
  let v := v.need s 0x20 (!decide (fmtOf p.fmt = .c4) || p.booked.any fun t => book t == book p.tensor)
  let v := v.need s 0x20 (match x.prec with | some q => q.sta == p.fmt && (!q.paired || decide (p.nn ≤ 32)) | none => true)
  let change := old.filled && old.fmt != p.fmt
  let v := v.need s 0x20 (!change || x.closed s.cyc)
  let x := if change then x.fenced else x
  v.setArr a { x.setPlane x.tag { old with filled := false, till := 0, bookTill := 0 } with tag := !x.tag, last := none }

/-- The rows' commits of a pass that starts at s0 (R79, R80). -/
def passDone (old : List Nat) (s0 c mt : Nat) : List Nat :=
  (List.range 64).map fun m => if m < mt then s0 + (m + 1) * c + 190 else old.getD m 0

/-- The A-cycle of row m's first commit: of column 0, or of column pair 0 at the time of column 1 (R79). -/
def firstCommit (p : Prec) (s0 c m : Nat) : Nat := s0 + (m + 1) * c + 127 + b2n p.paired

/-- PASS (R53, R58, R79 to R81, R91, R95, R96, R107, R149, R208, R210). -/
def SV.passing (v : SV) (g : Program) (s : Iss) (a : BitVec 2) (half : Bool) (m0 mt : Nat) (tile begins : Bool)
    (pre : Option (BitVec 24)) (corr : Bool) : SV :=
  let x := v.arr a
  match x.prec with
  | none => v.need s 0x20 false
  | some p =>
    let c := stepCount p
    let s0 := max s.cyc x.fence
    let h := x.half half
    let pl := x.plane x.tag
    let t := x.tile tile
    let slotOk := decide (h.wrEnd ≤ s0) && (List.range mt).all fun m => match tget (fun _ => none) h.slots (m0 + m) with
      | some e => e.1 == p.mov && decide (e.2 ≤ s0 + m * c)
      | none => false
    let after := match t.fed with
      | some b => b.2.1 != c || decide (b.1 + max (b.2.2 * c) 65 ≤ s0)
      | none => true
    let rowOk := !begins || !t.isOpen && after && (List.range mt).all fun m =>
      decide (t.taken.getD m 0 = 0) || decide (t.taken.getD m 0 < firstCommit p s0 c m)
    let compare_ := p.path == 3
    let zm := if fmtOf p.mov = .f8 then g.zeroAt h.tensor else 0
    let zw := g.zeroAt pl.tensor
    let sameShift := !(compare_ && p.sem != 0) || g.shiftAt h.tensor == g.shiftAt pl.tensor
    let f8 := p.path == 0 && (zm != 0 || zw != 0)
    let l1f8 := compare_ && p.sem == 1 && decide (fmtOf p.mov = .f8)
    let side := p.path == 0 && zw != 0
    let adds := (if begins then (if pre.isSome || corr then 1 else 0) else t.adds) + 128 + if side then 1 else 0
    let v := v.form s 0x20 (decide (m0 + mt ≤ 64) && (begins || (pre.isNone && !corr)))
    let v := v.need s 0x20 (slotOk && rowOk && decide (x.feedEnd ≤ s0))
    let v := v.need s 0x20 (pl.fmt == p.sta && (!p.paired || decide (pl.nn ≤ 32)) &&
      (begins || (t.isOpen && t.redn.prec == p && t.redn.mov == h.tensor && t.redn.sta == pl.tensor)))
    let v := v.need s 0x20 (sameShift && decide (adds ≤ 2 ^ 23))
    let v := v.need s 0x20 (match begins, pre with
      | true, some r => g.preOk { prec := p, mov := h.tensor, sta := pl.tensor } (g.shiftAt (refTensor r)) (refTensor r)
      | _, _ => true)
    let v := v.need s 0x20 (!l1f8 || zm == zw)
    let v := v.hold s (32 + a.toNat) s0 (mt * c)
    let redn : Redn := { prec := p, mov := h.tensor, sta := pl.tensor, nn := pl.nn, tile,
                         mt := if begins then mt else max t.redn.mt mt }
    let t' : STile := {
      isOpen := true, redn, adds
      fed := some (s0, c, mt)
      corr := if begins then corr else t.corr
      lacks := (if begins then [] else t.lacks) ++ if f8 then [s.index] else []
      pre := if begins then (match pre with | some r => [refTensor r] | none => []) else t.pre
      done := passDone (if begins then [] else t.done) s0 c mt, taken := t.taken }
    let x := (x.setTile tile t').setHalf half { h with fedTill := s0 + mt * c }
    v.setArr a { x with feedEnd := s0 + mt * c, last := some { tile, s0, c, mt, on := s.on, seg := s.seg } }

/-- A reduction that leaves: an F8 pass of it with a zero point other than 0 names a correction vector, or another pass of the
reduction does (R95, R210). -/
def SV.lacking (v : SV) (on corr : Bool) (lacks : List Nat) : SV :=
  if on && !corr then { v with fails := lacks.map (fun k => { bed := v.bed, index := k, code := 0x20 }) ++ v.fails } else v

/-- A barrel's place. -/
def Program.barAt (g : Program) (l : IList) (s : Iss) (r : BitVec 24) : Nat := (g.opnd l s.iters r).addr

/-- SPILL (R61, R83, R210, R211). -/
def SV.spill (v : SV) (g : Program) (l : IList) (s : Iss) (a : BitVec 2) (tile first : Bool) (barrel : BitVec 24) (b : Nat) : SV :=
  let x := v.arr a
  let t := x.tile tile
  let k := g.barAt l s barrel
  let paired := t.redn.prec.paired
  let n := ceilDiv (if paired then (if first then 2560 else 5120) else (if first then 3072 else 6144)) b
  let v := v.need s 0x20 (t.isOpen && decide (t.done.foldl max 0 < s.cyc))
  let old := tget (fun _ => none) v.bars k
  let v := v.need s 0x20 (first || match old with
    | some o => o.redn.mov == t.redn.mov && o.redn.sta == t.redn.sta
    | none => false)
  let v := v.hold s (44 + a.toNat) s.cyc n
  let v := match first, old with
    | true, some o => v.lacking s.on o.corr o.lacks
    | _, _ => v
  let bar : SBar := match first, old with
    | false, some o => { redn := { o.redn with mt := max o.redn.mt t.redn.mt }, pre := o.pre ++ t.pre
                         corr := o.corr || t.corr, lacks := o.lacks ++ t.lacks
                         mixed := o.mixed || o.redn.prec.paired != paired, tiles := o.tiles || o.redn.tile != tile }
    | _, _ => { redn := t.redn, pre := t.pre, corr := t.corr, lacks := t.lacks }
  let x := x.setTile tile { fed := t.fed, taken := List.replicate 64 (s.cyc + n - 1) }
  ({ v with bars := tset (fun _ => none) v.bars k (some bar) } : SV).setArr a { x with last := none }

/-- RDRAIN (R155, R212). -/
def SV.rdrain (v : SV) (g : Program) (l : IList) (s : Iss) (a : BitVec 2) (barrel : BitVec 24) (slot b : Nat) : SV :=
  match tget (fun _ => none) v.bars (g.barAt l s barrel) with
  | none => v.need s 0x20 false
  | some k =>
    let n := ceilDiv (if k.redn.prec.paired then 2560 else 3072) b
    let v := (v.need s 0x20 (!k.mixed)).hold s (44 + a.toNat) s.cyc n
    (v.writeRec s slot n).setArr a { v.arr a with last := none }

/-- The codes of single-argument functions, and of all of them (Table 9.8). -/
def oneArg (f : Nat) : Bool := decide (f ≤ 0x0D)
def funcOk (f : Nat) : Bool := oneArg f || decide (0x10 ≤ f ∧ f ≤ 0x12) || f == 0x18 || f == 0x19

/-- Element ranges joined where one begins at the end of the one before. -/
def joinRanges : List (Nat × Nat) → List (Nat × Nat)
  | a :: rest =>
    match joinRanges rest with
    | b :: more => if a.2 = b.1 then (a.1, b.2) :: more else a :: b :: more
    | [] => [a]
  | [] => []

/-- Whether the element ranges that one instruction stores in a tensor are whole T8X blocks of it (R161). -/
def wholeBlocks (t : Tensor) (rs : List (Nat × Nat)) : Bool :=
  !decide (fmtOf t.fmt = .t8x) ||
    (joinRanges rs).all fun r => r.1 % 256 == 0 && (r.2 % 256 == 0 || r.2 == t.size)

/-- The range of n elements from an operand's place. -/
def Opnd.range (o : Opnd) (n : Nat) : Nat × Nat := (o.elem, o.elem + n)

/-- What a drain reads: for each tile or barrel in turn its reduction, its preloads and the A-cycles at which its rows are
read (R80 to R82, R213). -/
structure DrainPart where
  tile : Bool
  redn : Redn
  pre : List Nat
  reads : List Nat
  deriving DecidableEq, Repr

/-- Where a drain's rows go. -/
structure DrainTo where
  toReg : Bool
  dst : BitVec 24
  regFmt : BitVec 4
  func : Nat
  fuse : Bool
  e0 : Nat
  statEn : Bool
  statClear : Bool
  deriving DecidableEq, Repr

/-- A-cycles of a row at the drain input (R113, R214). -/
def DrainTo.per (d : DrainTo) : Nat := if d.fuse then 8 else 1
/-- The output format of a drain. -/
def DrainTo.fmt (d : DrainTo) (g : Program) : BitVec 4 := if d.toReg then d.regFmt else (g.tensorAt d.dst).fmt
/-- How long after it is read a row is written (R114, R214). -/
def DrainTo.late (d : DrainTo) (g : Program) : Nat := 6 + if d.fuse then sfnLatency d.func (decide (fmtOf (d.fmt g) = .t32)) else 0

/-- A statistics entry that a row of n columns updates at an A-cycle (R115). -/
def SV.statRow (v : SV) (s : Iss) (e n lands : Nat) : SV :=
  let x := v.stat e
  let v := v.need s 0x20 (decide (x.ready ≤ lands) && decide (x.count + n ≤ 2 ^ 23))
  let v := if x.from_ = [] then v
    else { v with merges := { bed := v.bed, index := s.index, order := v.order, addr := none, kind := 2, count := x.count + n, from_ := x.from_ } :: v.merges }
  (v.setStat e { x with ready := max x.ready lands, prepped := false, count := x.count + n }).hold s (100 + e) lands 1

/-- The rows of one part of a drain, the first of them into register reg0 where it writes registers. -/
def SV.drainRows (v : SV) (g : Program) (s : Iss) (d : DrainTo) (p : DrainPart) (reg0 : Nat) : SV :=
  let out : Int := if d.toReg then g.baseShift else g.shiftAt (refTensor d.dst)
  let fmt := d.fmt g
  let minMax := p.redn.prec.path == 3 && decide (2 ≤ p.redn.prec.sem.toNat)
  let late := d.late g
  let v := v.need s 0x20 (p.pre.all (g.preOk p.redn out))
  let v := v.need s 0x20 (!minMax || decide (fmtOf fmt = .t16) || decide (fmtOf fmt = .t32))
  let v := v.need s 0x20 (!d.statEn || decide (d.e0 + p.reads.length ≤ 64))
  let v := (enumFrom 0 p.reads).foldl
    (fun (v : SV) e =>
      let v := if d.fuse then
          { v.need s 0x20 (decide (v.flip ≤ e.2)) with lookEnd := max v.lookEnd (e.2 + late + 1) }
        else v
      let v := if d.toReg then v.writeV s (reg0 + e.1) (e.2 + late) d.regFmt else v
      if d.statEn then v.statRow s (d.e0 + e.1) p.redn.nn (e.2 + late) else v) v
  if d.toReg then v.need s 0x20 (decide (reg0 + p.reads.length ≤ 16)) else v

/-- A-cycles for which a drain of a barrel holds the drain port and the drain input: H of R213, and seven more for each of
its last 64 A-cycles when it is fused (R214). DEDUCED, unsafe: log entry 65. -/
def barrelHold (r : Redn) (b per : Nat) : Nat := max 64 (ceilDiv (if r.prec.paired then 2560 else 3072) b) + 64 * (per - 1)

/-- The tiles that a separate drain reads, in turn: both of them by when their reductions completed (R82). -/
def SArr.drainOrder (x : SArr) (tile both : Bool) : List Bool :=
  let done := fun (t : Bool) => (x.tile t).done.foldl max 0
  if both then (if done true < done false then [true, false] else [false, true]) else [tile]

/-- The parts of a drain. -/
def SV.drainParts (v : SV) (g : Program) (l : IList) (s : Iss) (a : BitVec 2) (mode source tile both : Bool) (per : Nat)
    (barrel : BitVec 24) (b : Nat) : List DrainPart :=
  let x := v.arr a
  if source then
    match tget (fun _ => none) v.bars (g.barAt l s barrel) with
    | none => []
    | some k => [{ tile, redn := k.redn, pre := k.pre
                   reads := (List.range k.redn.mt).map fun m => s.cyc + barrelHold k.redn b per - 64 * per + per * m }]
  else if mode then
    match x.last with
    | none => []
    | some q =>
      [{ tile := q.tile, redn := (x.tile q.tile).redn, pre := (x.tile q.tile).pre
         reads := (List.range q.mt).map fun m => q.s0 + (m + 1) * q.c + 191 }]
  else
    (enumFrom 0 (x.drainOrder tile both)).map fun e =>
      let y := x.tile e.2
      { tile := e.2, redn := y.redn, pre := y.pre, reads := (List.range y.redn.mt).map fun m => s.cyc + 64 * per * e.1 + per * m }

/-- The units that a drain holds: its array's drain port, the drain input, and when fused the special-function units
(R83, R113, R124, R213, R214). -/
def SV.drainHolds (v : SV) (s : Iss) (a : BitVec 2) (mode source : Bool) (d : DrainTo) (b : Nat) (parts : List DrainPart) : SV :=
  let per := d.per
  let both := fun (v : SV) (lo n : Nat) => (v.hold s (44 + a.toNat) lo n).hold s 48 lo n
  (enumFrom 0 parts).foldl
    (fun (v : SV) e =>
      let rows := e.2.reads.length
      let lookups := fun (v : SV) => if d.fuse then v.hold s 49 (e.2.reads.headD 0) (8 * rows) else v
      if source then lookups (both v s.cyc (barrelHold e.2.redn b per))
      else if mode then
        e.2.reads.foldl (fun (v : SV) r =>
          let v := (v.hold s (44 + a.toNat) r 1).hold s 48 r per
          if d.fuse then v.hold s 49 r 8 else v) v
      else lookups (both v (s.cyc + 64 * per * e.1) (64 * per))) v

/-- The issue whose segment a drain's rows belong to: on the wavefront that of its PASS, whatever waits lie between (R213). -/
def SArr.rowIssue (x : SArr) (mode : Bool) (s : Iss) : Iss :=
  match mode, x.last with
  | true, some q => { s with seg := q.seg }
  | _, _ => s

/-- DRAIN (R80 to R82, R113 to R115, R124, R161, R213 to R215). A drain on the wavefront names the tile of its PASS. DESIGN
CHOICE, unsafe: log entry 65. -/
def SV.draining (v : SV) (g : Program) (l : IList) (s : Iss) (a : BitVec 2) (mode source tile both : Bool) (d : DrainTo)
    (barrel : BitVec 24) (b : Nat) : SV :=
  let x := v.arr a
  let s := x.rowIssue mode s
  let per := d.per
  let fmt := d.fmt g
  let parts := v.drainParts g l s a mode source tile both per barrel b
  let v := v.form s 0x20 ((!both || (!mode && !source)) && (!source || !mode) && (!d.fuse || oneArg d.func))
  let v := v.form s 0x24 (!fmtReserved d.regFmt && !fmtReserved fmt && !decide (fmtOf fmt = .c4) &&
    (!d.toReg || !decide (fmtOf fmt = .t8x)))
  let v := v.need s 0x20 (!parts.isEmpty)
  let v := v.need s 0x20 (
    if source then match tget (fun _ => none) v.bars (g.barAt l s barrel) with
      | some k => k.redn.tile == tile && !k.mixed && !k.tiles
      | none => false
    else if mode then match x.last with
      | some q => q.on && q.tile == tile && (!d.fuse || decide (8 ≤ q.c))
      | none => false
    else (enumFrom 0 parts).all fun e =>
      let y := x.tile e.2.tile
      y.isOpen && (List.range 64).all fun m => decide (y.done.getD m 0 < s.cyc + 64 * per * e.1 + per * m) || y.done.getD m 0 == 0)
  let v := if source then match tget (fun _ => none) v.bars (g.barAt l s barrel) with
      | some k => v.lacking s.on k.corr k.lacks
      | none => v
    else parts.foldl (fun (v : SV) e => v.lacking s.on (x.tile e.tile).corr (x.tile e.tile).lacks) v
  let v := v.drainHolds s a mode source d b parts
  let rows := (parts.map (·.reads.length)).foldl max 0
  let v := if d.statEn ∧ d.statClear then (upFrom d.e0 rows).foldl
      (fun (v : SV) e => v.setStat e { v.stat e with count := 0, prepped := false, from_ := [] }) v else v
  let v := (parts.foldl (fun (p : SV × Nat) e => (p.1.drainRows g s d e p.2, p.2 + e.reads.length)) (v, d.dst.toNat % 16)).1
  let v := if d.toReg then v
    else
      let o := g.opnd l s.iters d.dst
      let lines := (parts.foldl (fun (r : List (Nat × Nat) × Nat) e =>
        (r.1 ++ (List.range e.reads.length).map fun m => (o.shift 0 (r.2 + m)).range e.redn.nn, r.2 + e.reads.length)) ([], 0)).1
      let last := (parts.flatMap (·.reads)).foldl max s.cyc
      (v.need s 0x20 (wholeBlocks o.t lines)).grades g s [(refTensor d.dst, last + d.late g - s.cyc)]
  let taken := fun (e : DrainPart) (k : Nat) =>
    if mode then (List.range 64).map fun m => e.reads.getD m 0
    else (List.range 64).map fun m => s.cyc + per * (64 * k + m)
  let x := if source then x else (enumFrom 0 parts).foldl (fun (x : SArr) e => x.setTile e.2.tile { fed := (x.tile e.2.tile).fed, taken := taken e.2 e.1 }) x
  v.setArr a { x with last := none }

/-! ## The vector unit -/

/-- The source registers and masks that a VOP reads (Table 9.7). -/
def vopReads (op s1 s2 s3 : Nat) : List Nat :=
  if op = 5 then [s1, s2, s3]
  else if op ≤ 4 ∨ op = 8 ∨ (9 ≤ op ∧ op ≤ 12) then [s1, s2]
  else if op = 6 ∨ op = 7 ∨ op = 13 ∨ op = 14 then [s1]
  else []

/-- VOP (R23, R117, R203, R204, R216). -/
def SV.vop (v : SV) (s : Iss) (op d s1 s2 s3 : Nat) (fmt : BitVec 4) (km : Nat) (maskEn : Bool) (kd : Nat) (imm : BitVec 32) : SV :=
  let v := v.form s 0x20 (decide (op < 0x13))
  let rs := vopReads op s1 s2 s3
  let v := rs.foldl (fun (v : SV) r => v.readV s r) v
  let toMask := decide (9 ≤ op ∧ op ≤ 12) || decide (16 ≤ op)
  let v := if maskEn || op = 8 || 16 ≤ op then v.readK s km else v
  let v := if op = 16 ∨ op = 17 then v.readK s (s1 % 8) else v
  let v := v.need s 0x24 (op == 8 || op == 14 || rs.all fun r => (v.tagOf r).toNat < 9)
  let v := v.form s 0x24 (!fmtReserved fmt && (toMask || (!decide (fmtOf fmt = .t8x) && !decide (fmtOf fmt = .c4))))
  let v := v.form s 0x24 (op != 15 || !immBad imm)
  let v := v.hold s 50 s.cyc 1
  if toMask then v.writeK s kd (s.cyc + 4) else v.writeV s d (s.cyc + 4) fmt

/-- VLD (R161, R217). -/
def SV.vld (v : SV) (g : Program) (l : IList) (s : Iss) (first n : Nat) (src : BitVec 24) (fmt : BitVec 4) (b : Nat) : SV :=
  let o := g.opnd l s.iters src
  let cost := o.moveCycles (64 * n) b
  let v := v.form s 0x24 (!fmtReserved fmt && !decide (fmtOf fmt = .t8x) && !decide (fmtOf fmt = .c4))
  let v := v.form s 0x20 (decide (1 ≤ b) && decide (b ≤ 8) && decide (first + n ≤ 16))
  let v := (v.hold s 51 s.cyc cost).grades g s [(refTensor src, cost + 3)]
  (upFrom first n).foldl (fun (v : SV) r => v.writeV s r (s.cyc + cost + 3) fmt) v

/-- Whether n elements may be stored by one instruction at an operand's place: C4 is never written (R40), T8X in whole blocks
(R161). -/
def storable (o : Opnd) (n : Nat) : Bool := !decide (fmtOf o.t.fmt = .c4) && wholeBlocks o.t [o.range n]

/-- VST (R161, R217). -/
def SV.vst (v : SV) (g : Program) (l : IList) (s : Iss) (first n : Nat) (dst : BitVec 24) (b km : Nat) (maskEn : Bool) : SV :=
  let o := g.opnd l s.iters dst
  let cost := o.moveCycles (64 * n) b
  let v := v.form s 0x20 (decide (1 ≤ b) && decide (b ≤ 8) && decide (first + n ≤ 16) &&
    (!decide (fmtOf o.t.fmt = .t8x) || n % 4 == 0))
  let v := (v.need s 0x20 (storable o (64 * n))).hold s 52 s.cyc cost
  let v := (upFrom first n).foldl (fun (v : SV) r => v.readV s r) v
  let v := if maskEn then v.readK s km else v
  v.grades g s [(refTensor dst, cost + 3)]

/-- MCVT (R161, R218). -/
def SV.mcvt (v : SV) (g : Program) (l : IList) (s : Iss) (src dst : BitVec 24) (n b : Nat) : SV :=
  let o := g.opnd l s.iters src
  let q := g.opnd l s.iters dst
  let cost := mcvtCycles o q n b
  let v := (v.form s 0x20 (decide (1 ≤ b) && decide (b ≤ 8))).need s 0x20 (storable q n)
  (v.hold s 53 s.cyc cost).grades g s [(refTensor src, cost + 6), (refTensor dst, cost + 6)]

/-- An instruction that looks up tables for n A-cycles, its last result `late` A-cycles after the last of them: the units it
holds, and the flip it must not precede (R123, R142, R246): a flip takes effect once the last result before it has left the
units. DESIGN CHOICE, unsafe: log entry 65. -/
def SV.lookup (v : SV) (s : Iss) (n late : Nat) : SV :=
  let v := v.need s 0x20 (decide (v.flip ≤ s.cyc))
  ({ v with lookEnd := max v.lookEnd (s.cyc + n + late) } : SV).hold s 49 s.cyc n

/-- SFN (R118, R123, R126, R219). -/
def SV.sfn (v : SV) (g : Program) (l : IList) (s : Iss) (func : Nat) (src op2 dst : BitVec 24) (n : Nat) : SV :=
  let f := g.fmtAt src
  let lns := func = 0x18 ∨ func = 0x19
  let two := decide (16 ≤ func)
  let tapered := fun (f : Fmt) => decide (f = .t8) || decide (f = .t16) || decide (f = .t32)
  let logs := fun (f : Fmt) => decide (f = .l8) || decide (f = .l16)
  let ok := if lns then logs f && logs (g.fmtAt op2) else tapered f && (!two || tapered (g.fmtAt op2))
  let k := ceilDiv n 8
  let late := sfnLatency func (decide (g.fmtAt dst = .t32))
  let v := (v.form s 0x20 (funcOk func)).form s 0x24 ok
  let v := (v.need s 0x20 (storable (g.opnd l s.iters dst) n)).lookup s k late
  v.grades g s ([(refTensor src, k + 3), (refTensor dst, k + late)] ++ if two then [(refTensor op2, k + 3)] else [])

/-- The mask tensor of a soft-maximum pass is B1 (R220). -/
def maskOk (g : Program) (mask : Option (BitVec 12)) : Bool :=
  match mask with
  | some m => decide (g.fmtAt (m.setWidth 24) = .b1)
  | none => true

/-- SMAX1 (R130, R131, R220). -/
def SV.smax1 (v : SV) (g : Program) (s : Iss) (src : BitVec 24) (mask : Option (BitVec 12)) (e : Nat) (clear : Bool) (beta : BitVec 32) (n : Nat) : SV :=
  let x := v.row e
  let x := if clear then { ready := x.ready } else x
  let v := v.form s 0x24 (!immBad beta && !beta.getLsbD 31 && beta != 0 && maskOk g mask)
  let v := v.need s 0x20 (decide (x.ready ≤ s.cyc) && (x.beta == none || x.beta == some beta) && decide (x.count + n ≤ 2 ^ 23))
  let cost := ceilDiv n 8 + 14
  let v := (v.lookup s cost 0).grades g s [(refTensor src, cost)]
  let y : SRowst := { x with ready := s.cyc + cost, beta := some beta, fresh := true, count := x.count + n }
  let v := if x.from_ = [] then v
    else { v with merges := { bed := v.bed, index := s.index, order := v.order, addr := none, kind := 0, beta := y.beta, count := y.count, from_ := y.from_ } :: v.merges }
  (v.setRow e y).hold s (200 + e) (s.cyc + cost) 1

/-- SMAX2 (R131, R161, R220). -/
def SV.smax2 (v : SV) (g : Program) (l : IList) (s : Iss) (src : BitVec 24) (mask : Option (BitVec 12)) (e : Nat) (recip : Bool)
    (dst : BitVec 12) (n : Nat) : SV :=
  let x := v.row e
  let cost := ceilDiv n 8 + 14 + if recip then 14 else 0
  let v := v.form s 0x24 (maskOk g mask)
  let v := v.need s 0x20 (decide (x.ready ≤ s.cyc) && recip == x.fresh && (x.beta.isSome || x.from_ != []))
  let v := v.need s 0x20 (storable (g.opnd l s.iters (likeRef dst src)) n)
  ((v.lookup s cost 0).grades g s [(refTensor src, cost), (dst.toNat, cost)]).setRow e { x with fresh := false }

/-- SMAXM: the item in memory merged into a row state (R129, R131, R220). The spec gives its cost and names no unit: it holds
the special-function units. DEDUCED, unsafe: log entry 65. -/
def SV.smaxm (v : SV) (g : Program) (l : IList) (s : Iss) (src : BitVec 24) (e : Nat) : SV :=
  let x := v.row e
  let a := (g.opnd l s.iters src).addr
  let v := (v.need s 0x20 (decide (x.ready ≤ s.cyc))).lookup s 8 0
  let v := { v with merges := { bed := v.bed, index := s.index, order := v.order, addr := some a, kind := 0, beta := x.beta, count := x.count, from_ := x.from_ } :: v.merges }
  (v.setRow e { x with ready := s.cyc + 8, fresh := true, from_ := (v.order, a) :: x.from_ }).hold s (200 + e) (s.cyc + 8) 1

/-- SMAXX: a row state written as an item (R129, R220). -/
def SV.smaxx (v : SV) (g : Program) (l : IList) (s : Iss) (e : Nat) (dst : BitVec 24) : SV :=
  let x := v.row e
  let v := (v.need s 0x20 (decide (x.ready ≤ s.cyc))).hold s 55 s.cyc 2
  { v with made := { bed := v.bed, index := s.index, order := v.order, addr := some (g.opnd l s.iters dst).addr, len := 64, kind := 0
                     beta := x.beta, count := x.count, from_ := x.from_ } :: v.made }

/-- SIEVE, and SIEVEM of lists in memory (R136, R137, R221). -/
def SV.feed (v : SV) (g : Program) (l : IList) (s : Iss) (src : BitVec 24) (n k cost : Nat) (dir clear : Bool) (fmt : BitVec 4)
    (lists : Nat) : SV :=
  let x := v.sieve
  let x := if clear then { ready := x.ready } else x
  let z := g.zeroAt (refTensor src)
  let zp := if x.live then x.zero else z
  let v := v.need s 0x20 (decide (x.ready ≤ s.cyc) && (!x.live || (x.fmt == fmt && x.dir == dir)))
  let v := v.need s 0x24 (!x.live || !decide (fmtOf fmt = .f8) || x.zero == z)
  let v := v.form s 0x24 (!fmtReserved fmt && !decide (fmtOf fmt = .t8x) && !decide (fmtOf fmt = .c4) && !decide (fmtOf fmt = .b1))
  let a := (g.opnd l s.iters src).addr
  let v := { v with merges := ((List.range lists).map fun i =>
    { bed := v.bed, index := s.index, order := v.order, addr := some (a + 512 * i), len := 8 * k, kind := 1, zero := zp, fmt : Item }) ++ v.merges }
  ({ v with sieve := { ready := s.cyc + cost, live := true, k, dir, fmt, zero := zp, fed := x.fed + n } } : SV).hold s
    56 s.cyc cost

/-- SIEVEO: the list written as an item (R135, R221). -/
def SV.sieveo (v : SV) (g : Program) (l : IList) (s : Iss) (dst : BitVec 24) : SV :=
  let x := v.sieve
  let v := (v.need s 0x20 (x.live && decide (x.ready ≤ s.cyc))).hold s 56 s.cyc 8
  { v with made := { bed := v.bed, index := s.index, order := v.order, addr := some (g.opnd l s.iters dst).addr, len := 8 * min x.k x.fed
                     kind := 1, zero := x.zero, fmt := x.fmt } :: v.made }

/-- STATX: entries written as items (R223). -/
def SV.statx (v : SV) (g : Program) (l : IList) (s : Iss) (e n : Nat) (dst : BitVec 24) : SV :=
  let v := v.form s 0x20 (decide (e + n ≤ 64))
  let v := ((upFrom e n).foldl (fun (v : SV) k => v.need s 0x20 (decide ((v.stat k).ready ≤ s.cyc))) v).hold s 54 s.cyc (2 * n)
  let a := (g.opnd l s.iters dst).addr
  { v with made := ((List.range n).map fun i =>
    { bed := v.bed, index := s.index, order := v.order, addr := some (a + 96 * i), len := 96, kind := 2, count := (v.stat (e + i)).count
      from_ := (v.stat (e + i)).from_ : Item }) ++ v.made }

/-- A statistics entry written, landing after n A-cycles. -/
def SV.statLand (v : SV) (s : Iss) (e n : Nat) (prepped : Bool) (from_ : List (Nat × Nat)) : SV :=
  let x := v.stat e
  let v := v.need s 0x20 (decide (x.ready ≤ s.cyc))
  (v.setStat e { x with ready := s.cyc + n, prepped, from_ }).hold s (100 + e) (s.cyc + n) 1

/-- STATM: items merged into entries whose mu and rho have not been formed (R115, R223). -/
def SV.statm (v : SV) (g : Program) (l : IList) (s : Iss) (e n : Nat) (src : BitVec 24) : SV :=
  let v := (v.form s 0x20 (decide (e + n ≤ 64))).hold s 54 s.cyc (2 * n)
  let a := (g.opnd l s.iters src).addr
  (List.range n).foldl
    (fun (v : SV) i =>
      let x := v.stat (e + i)
      let v := v.need s 0x20 (!x.prepped)
      let v := { v with merges := { bed := v.bed, index := s.index, order := v.order, addr := some (a + 96 * i), kind := 2, count := x.count, from_ := x.from_ } :: v.merges }
      v.statLand s (e + i) (2 * n) false ((v.order, a + 96 * i) :: x.from_)) v

/-- NAPPLY (R132, R161, R222). -/
def SV.napply (v : SV) (g : Program) (l : IList) (s : Iss) (src : BitVec 24) (dst gamma beta : BitVec 12) (betaEn : Bool) (e n : Nat) : SV :=
  let x := v.stat e
  let k := ceilDiv n 64
  let v := v.need s 0x20 (x.prepped && decide (x.ready ≤ s.cyc) && storable (g.opnd l s.iters (likeRef dst src)) n)
  (v.hold s 50 s.cyc k).grades g s
    ([(refTensor src, k + 3), (gamma.toNat, k + 3), (dst.toNat, k + 4)] ++ if betaEn then [(beta.toNat, k + 3)] else [])

/-- An instruction that writes lanes of a register as binary32 pairs (R247). -/
def SV.pairs (v : SV) (s : Iss) (d n late : Nat) : SV := v.writeV s d (s.cyc + n + late) 0xB

/-- Bindings of a program. -/
def Program.binding (g : Program) (k : Nat) : Option Binding := g.bindings[k]?

/-! ## One issue -/

/-- What an instruction asks of its place, holds and leaves behind. -/
def SV.issue (g : Program) (l : IList) (v : SV) (s : Iss) : SV :=
  match s.ins with
  | .pset _ _ a path mov sta p sem paired => v.pset g s a { path, mov, sta, p, sem, paired }
  | .fill _ _ a src kn nn bs => v.fill g s a src (kn.toNat + 1) (nn.toNat + 1) bs.toNat
  | .cbld _ _ a t => v.cbld g s a t.toNat
  | .mload _ _ a half m0 count kn src bm => v.mload g l s a half m0.toNat (count.toNat + 1) (kn.toNat + 1) src bm.toNat
  | .swap _ _ a => v.swap g s a
  | .pass _ _ a half m0 mt tile begins preEn corrEn pre _ =>
    v.passing g s a half m0.toNat (mt.toNat + 1) tile begins (if preEn then some pre else none) corrEn
  | .spill _ _ a tile first barrel bp => v.spill g l s a tile first barrel (bp.toNat + 1)
  | .rdrain _ _ a barrel slot _ bp => v.rdrain g l s a barrel slot.toNat (bp.toNat + 1)
  | .drain _ _ a mode source tile both toReg dst regFmt func fuse e0 statEn statClear barrel bp =>
    v.draining g l s a mode source tile both { toReg, dst, regFmt, func := func.toNat, fuse, e0 := e0.toNat, statEn, statClear }
      barrel (bp.toNat + 1)
  | .vop _ _ op d s1 s2 s3 fmt km maskEn kd _ imm32 =>
    v.vop s op.toNat d.toNat s1.toNat s2.toNat s3.toNat fmt km.toNat maskEn kd.toNat imm32
  | .vld _ _ first count src fmt bp => v.vld g l s first.toNat (count.toNat + 1) src fmt bp.toNat
  | .vst _ _ first count dst bp km maskEn => v.vst g l s first.toNat (count.toNat + 1) dst bp.toNat km.toNat maskEn
  | .mcvt _ _ src dst n bp => v.mcvt g l s src dst (n.toNat + 1) bp.toNat
  | .sfn _ _ func src op2 dst n => v.sfn g l s func.toNat src op2 dst (n.toNat + 1)
  | .smax1 _ _ src mask maskEn entry clear beta n =>
    v.smax1 g s src (if maskEn then some mask else none) entry.toNat clear beta (n.toNat + 1)
  | .smax2 _ _ src mask maskEn entry recip dst n =>
    v.smax2 g l s src (if maskEn then some mask else none) entry.toNat recip dst (n.toNat + 1)
  | .smaxm _ _ src entry => v.smaxm g l s src entry.toNat
  | .smaxx _ _ entry dst => v.smaxx g l s entry.toNat dst
  | .sieve _ _ src n k dir clear _ =>
    v.feed g l s src (n.toNat + 1) (k.toNat + 1) (ceilDiv (n.toNat + 1) 64 + 14) dir clear (g.tensorAt src).fmt 0
      |>.grades g s [(refTensor src, ceilDiv (n.toNat + 1) 64 + 14)]
  | .sievem _ _ src count k dir clear fmt =>
    v.feed g l s src ((count.toNat + 1) * (k.toNat + 1)) (k.toNat + 1) (count.toNat + 15) dir clear fmt (count.toNat + 1)
  | .sieveo _ _ dst => v.sieveo g l s dst
  | .nprep _ _ entry _ eps =>
    let v := v.form s 0x24 (!immBad eps)
    (v.statLand s entry.toNat 15 true (v.stat entry.toNat).from_).lookup s 15 0
  | .napply _ _ src dst gamma beta betaEn entry n => v.napply g l s src dst gamma beta betaEn entry.toNat (n.toNat + 1)
  | .statx _ _ entry count dst => v.statx g l s entry.toNat (count.toNat + 1) dst
  | .statm _ _ entry count src => v.statm g l s entry.toNat (count.toNat + 1) src
  | .pick _ _ slot _ _ _ => v.readRec s slot.toNat 8
  | .rpx _ _ slot _ => v.readRec s slot.toNat 2
  | .rpm _ _ slot _ _ => v.writeRec s slot.toNat 2
  | .sprb _ _ sp entropy binding =>
    let ok := match g.binding binding.toNat with
      | some b => b.bed == v.bed && b.spr == sp.toNat
      | none => false
    ({ v.form s 0x23 ok with bound := sp.toNat :: v.bound } : SV).hold s (60 + sp.toNat) s.cyc (if entropy then 64 else 1)
  | .sprd _ _ sp form dst count _ =>
    let n := count.toNat + 1
    let v := (v.need s 0x23 (v.bound.contains sp.toNat)).form s 0x20 (form != 3 || decide (n ≤ 8))
    let v := v.hold s (60 + sp.toNat) s.cyc n
    if form = 3 then v.writeK s (dst.toNat % 8) (s.cyc + n + 2)
    else v.writeV s dst.toNat (s.cyc + n + 2) (if form = 0 then 0xB else if form = 1 then 2 else 1)
  | .vtld _ _ _ bp =>
    let n := ceilDiv 512 (bp.toNat + 1)
    ({ v.need s 0x20 (decide (v.flip ≤ s.cyc)) with reload := some (s.cyc + n) } : SV).hold s 64 s.cyc n
  | .tflip _ _ =>
    let v := v.need s 0x20 (match v.reload with | some t => decide (t ≤ s.cyc) | none => false)
    { v with reload := none, flip := max s.cyc v.lookEnd }
  | .entr _ _ d words =>
    (v.hold s 65 s.cyc (64 * (words.toNat + 1))).pairs s d.toNat (64 * (words.toNat + 1)) 4
  | .sdrd _ _ d lane => (v.form s 0x24 (lane.toNat % 2 == 0)).pairs s d.toNat 0 4
  | .ctrrd _ _ d lane sel =>
    ((v.form s 0x24 (lane.toNat % 2 == 0)).form s 0x24 (decide (sel.toNat ≤ 6) || decide (8 ≤ sel.toNat ∧ sel.toNat < 16))).pairs s
      d.toNat 0 4
  | .lcoll _ _ coll _ _ _ _ _ => { v.need s 0x29 (!v.colls.contains coll.toNat) with colls := coll.toNat :: v.colls }
  | .cwait _ _ coll _ => { v.need s 0x29 (v.colls.contains coll.toNat) with colls := v.colls.filter fun c => c != coll.toNat }
  | .sdwait _ _ target d => v.form s 0x29 (decide (target.toNat ≤ d.toNat))
  | .lrecv _ _ link _ _ _ _ => v.form s 0x24 (decide (link.toNat < 24) || link == 31)
  | .cbar _ _ link _ _ => v.form s 0x24 (decide (link.toNat < 24) || link == 31)
  | _ => v

/-- What a disabled instruction leaves of following it: the units, ports and banks it occupies all the same, but nothing that it
would write, and that it stands in the list before the array's next instruction (R178, R201, R213). -/
def SV.skipped (v w : SV) : SV :=
  let units := (w.uses.take (w.uses.length - v.uses.length)).filter fun u => decide (u.res < 70)
  let v : SV := { v with fails := w.fails, uses := units ++ v.uses, ports := w.ports, banks := w.banks }
  [0, 1, 2, 3].foldl (fun (v : SV) (a : BitVec 2) =>
    if (v.arr a).last = (w.arr a).last then v else v.setArr a { v.arr a with last := (w.arr a).last }) v

/-- The shape that a bed's followed state gives an instruction's regions. -/
def SV.shape (v : SV) (g : Program) (l : IList) (s : Iss) : Shape :=
  let w : Shape := { at_ := s.cyc, waited := decide (0 < s.seg) }
  let q := fun (seg : BitVec 12) => (g.findRoute seg.toNat).getD {}
  match s.ins with
  | .mload _ _ a _ _ _ _ _ _ => { w with b1 := match (v.arr a).prec with | some p => decide (fmtOf p.mov = .b1) | none => false }
  | .pass _ _ a _ _ mt _ _ _ _ _ _ =>
    let x := v.arr a
    let p := x.prec.getD {}
    { w with nn := (x.plane x.tag).nn
             commits := (List.range (mt.toNat + 1)).map fun m => firstCommit p (max s.cyc x.fence) (stepCount p) m }
  | .spill _ _ a tile _ _ _ => { w with paired := ((v.arr a).tile tile).redn.prec.paired }
  | .rdrain _ _ _ barrel _ _ _ =>
    { w with paired := match tget (fun _ => none) v.bars (g.barAt l s barrel) with | some k => k.redn.prec.paired | none => false }
  | .drain _ _ a mode source tile both toReg dst regFmt func fuse _ _ _ barrel bp =>
    let d : DrainTo := { toReg, dst, regFmt, func := func.toNat, fuse, e0 := 0, statEn := false, statClear := false }
    let parts := v.drainParts g l s a mode source tile both d.per barrel (bp.toNat + 1)
    { w with parts := parts.map fun e => (e.redn.nn, e.reads)
             paired := match parts.head? with | some e => e.redn.prec.paired | none => false
             late := d.late g
             rowSeg := some ((v.arr a).rowIssue mode s).seg }
  | .sieveo _ _ _ => { w with held := min v.sieve.k v.sieve.fed }
  | .rsend _ _ route _ _ => { w with route := q route }
  | .lsend _ _ _ _ _ _ route => { w with route := q route }
  | .lcoll _ _ _ _ _ _ _ route => { w with route := q route }
  | .tag _ _ _ _ route => { w with route := q route }
  | _ => w

/-- One issue followed: its regions' bounds, accesses, banks and ports, then what it does to the followed state; a disabled
one accesses nothing (R178). -/
def SV.follow (g : Program) (l : IList) (v : SV) (s : Iss) : SV :=
  let rs := regionsOf g l s.iters (v.shape g l s) s.ins
  let v := v.form s 0x24 ((rs ++ landsIn g l s.ins).all (·.inside g l s.iters))
  let v := { v with
    accs := (if s.on then rs.flatMap fun (x : Region) => x.accs g l v.bed v.order s else []) ++ v.accs
    banks := (rs.flatMap fun (x : Region) => x.banks g l s) ++ v.banks
    ports := (rs.flatMap fun (x : Region) => x.uses g l s) ++ v.ports }
  let w := v.issue g l s
  { if s.on then w else v.skipped w with order := v.order + 1 }

/-- Issues up to the first END that is enabled (R172, R178). -/
def upToEnd : List Iss → List Iss
  | [] => []
  | s :: ss => match s.ins with
    | .endList _ _ => if s.on then [s] else s :: upToEnd ss
    | _ => s :: upToEnd ss

/-- The sprinklers of a bed that its program's bindings bind at load: those that no SPRB names (R183, R225). -/
def Program.boundAtLoad (g : Program) (bed : Nat) : List Binding :=
  let named := g.lists.flatMap fun l => l.ins.filterMap fun i => match i with
    | .sprb _ _ _ _ binding => some binding.toNat
    | _ => none
  ((enumFrom 0 g.bindings).filter fun e => e.2.bed == bed && !named.contains e.1).map (·.2)

/-- The reductions that a list leaves in its tiles and barrels (R95, R210). -/
def SV.ended (v : SV) : SV :=
  let v := v.arrs.foldl (fun (v : SV) e => [e.2.t0, e.2.t1].foldl (fun (v : SV) t => v.lacking true t.corr t.lacks) v) v
  v.bars.foldl (fun (v : SV) e => match e.2 with | some k => v.lacking true k.corr k.lacks | none => v) v

/-- A bed's list followed from its start. -/
def Program.followed (g : Program) (bed : Nat) (l : IList) : SV :=
  ((upToEnd l.issues).foldl (SV.follow g l) { bed, bound := (g.boundAtLoad bed).map (·.spr) }).ended

/-! ## Beds and their sends -/

/-- A bed of the plot with its list, what following it has found, and its issues. -/
structure Run where
  bed : Nat
  list : IList
  v : SV
  iss : List Iss
  deriving DecidableEq, Repr

def Program.followAll (g : Program) : List Run :=
  g.beds.map fun e =>
    let l := g.lists.getD e.2 {}
    { bed := e.1, list := l, v := g.followed e.1 l, iss := upToEnd l.issues }

/-- A send over a route: the bed, the issue, its segment, its bytes, and the byte ranges that they are read from in turn. -/
structure Send where
  bed : Nat
  s : Iss
  order : Nat
  seg : Nat
  bytes : Nat
  ranges : List (Nat × Nat)
  deriving DecidableEq, Repr

/-- The sends of a bed: RSEND, LSEND, LCOLL and TAG (R238, R240, R241, R244). -/
def Program.sends (g : Program) (r : Run) : List Send :=
  (enumFrom 0 r.iss).filterMap fun e =>
    let at_ := fun (x : BitVec 24) => (g.opnd r.list e.2.iters x).addr
    let mk := fun (seg : BitVec 12) (n addr : Nat) =>
      some { bed := r.bed, s := e.2, order := e.1, seg := seg.toNat, bytes := n, ranges := [(addr, n)] : Send }
    match e.2.ins with
    | .rsend _ _ route src len => mk route (64 * (len.toNat + 1)) (at_ src)
    | .lsend _ _ _ _ len src route => mk route (64 * (len.toNat + 1)) (at_ src)
    | .lcoll _ _ _ op count src _ route => mk route (itemBytes op.toNat * (count.toNat + 1)) (at_ src)
    | .tag _ _ tensor _ route =>
      let t := g.tensors.getD tensor.toNat {}
      (mk route t.packed t.base).map fun x => { x with ranges := (tensorLines t).map fun o => o.span (t.ext.getD 0 1) }
    | _ => none

def Send.words (x : Send) : Nat := ceilDiv x.bytes 256
def Send.addr (x : Send) : Nat := (x.ranges.headD (0, 0)).1

/-- The bytes of a list of ranges from an offset on, as ranges. -/
def cutRanges : List (Nat × Nat) → Nat → Nat → List (Nat × Nat)
  | [], _, _ => []
  | e :: rest, off, n =>
    if n = 0 then []
    else if e.2 ≤ off then cutRanges rest (off - e.2) n
    else
      let k := min n (e.2 - off)
      (e.1 + off, k) :: cutRanges rest 0 (n - k)

/-- The byte ranges that word k of a send is read from. -/
def Send.word (x : Send) (k : Nat) : List (Nat × Nat) := cutRanges x.ranges (256 * k) (min 256 (x.bytes - 256 * k))

/-- The A-cycles of a send's words, that of its last slot at the latest, and that of its first at the earliest (R238). -/
def Send.departs (x : Send) (r : Route) (phase : Nat) : List Nat := r.departsAt (decide (0 < x.s.seg)) x.s.cyc x.words phase
def Send.last (x : Send) (r : Route) : Nat := r.lastSlot (decide (0 < x.s.seg)) x.s.cyc x.words
def Send.first (x : Send) (r : Route) : Nat := r.firstSlot (decide (0 < x.s.seg)) x.s.cyc x.words

/-! ## What it leaves idle -/

/-- What the words of a bed's sends ask of its banks, each in the A-cycles in which its slot can fall (R238, R252). -/
def Program.sendBanks (g : Program) (r : Run) : List BankUse :=
  (g.sends r).flatMap fun x =>
    let q := (g.findRoute x.seg).getD {}
    let all := (phasesOf (decide (0 < x.s.seg))).map (x.departs q)
    (List.range x.words).flatMap fun k =>
      let ts := all.map fun d => d.getD k x.s.cyc
      bankNeeds x.s.index x.s.seg false false (x.word k) (ts.foldl min (ts.headD 0)) (ts.foldl max 0 + 1)

/-- What the static schedule of a bed asks of its banks, if it runs one or has ended it (R172, R257). -/
def State.bankUses (s : State) (p : Nat) : List BankUse :=
  let b := s.bed p
  match b.job with
  | some j =>
    if b.seq.state = 3 ∨ b.seq.state = 4 ∨ b.seq.state = 5 then
      let g := (s.plot j.plot).prog
      let l := g.lists.getD j.list {}
      let r : Run := { bed := b.logical, list := l, v := g.followed b.logical l, iss := upToEnd l.issues }
      r.v.banks ++ g.sendBanks r
    else []
  | none => []

/-- Whether an A-cycle of this tick leaves some banks of a bed idle (R257, R307): no instruction issued, or due, by then has
an access to one of them that may fall there, and no word lands there. What was issued before the last wait may fall on any
A-cycle up to its last. DEDUCED, safe: log entry 34. -/
def State.banksIdle (s : State) (p : Nat) (banks : List Nat) : Bool :=
  let q := (s.bed p).seq
  let mine := (s.bankUses p).filter fun e => banks.contains e.bank && decide (e.seg ≤ q.seg)
  let lands := (s.plots.flatMap fun e => e.2.words).filter fun w =>
    w.bed == p && (linesOf (w.addr, w.bytes.length)).any fun ln => banks.contains (ln % 32)
  (upFrom s.clk.cycles s.clk.tickCycles).any fun t =>
    let u := q.reckoned + (t - q.last)
    (mine.all fun e => (e.seg == q.seg && decide (u < e.lo)) || decide (e.hi ≤ u)) &&
      lands.all fun w => w.due != t && !(w.due == t + 1 && !(partLines (w.addr, w.bytes.length)).isEmpty)

end Sys2Proof.Machine
end

