-- ==== Sys2Proof/Machine/Nursery.lean ====
section
/-! DEFINITION. The session nursery: the session table (R302), orders and their checks (R303 to R306, R309), walkers
(R304, R307, R308) and outcomes (R310, R311), and the scrubber (R257). -/

namespace Sys2Proof.Machine

/-! ## Sessions -/

/-- Bytes of a page (R301). -/
def pageSize : Nat := 196608

/-- The module address of a session's entry (R302). -/
def State.sessAddr (s : State) (i : Nat) : Nat := s.fld 0xA0000 0 40 + 64 * i

/-- A session's entry: 64 bytes (Table 13.5). -/
def State.sess (s : State) (i : Nat) : List Byte := s.ddrBytes (s.sessAddr i) 64

def sessDir (e : List Byte) : Nat := fieldAt e 32 5
def sessPages (e : List Byte) : Nat := fieldAt e 37 2
def sessState (e : List Byte) : Nat := fieldAt e 39 1
def sessGen (e : List Byte) : Nat := fieldAt e 44 4
def sessKey (e : List Byte) : Nat := fieldAt e 48 8

/-- The bytes of an entry (Table 13.5). -/
def sessBytes (dig : Option (BitVec 256)) (dir pages st plot gen key : Nat) : List Byte :=
  (match dig with | some d => digestBytes d | none => zeros 32) ++ leBytes 5 dir ++ leBytes 2 pages ++ leBytes 1 st ++
    leBytes 1 plot ++ leBytes 1 (b2n dig.isSome) ++ zeros 2 ++ leBytes 4 gen ++ leBytes 8 key ++ zeros 8

/-- An entry with its state and plot replaced. -/
def sessWith (e : List Byte) (st plot : Nat) : List Byte := e.take 39 ++ leBytes 1 st ++ leBytes 1 plot ++ e.drop 41

def State.setSess (s : State) (i : Nat) (e : List Byte) : State := s.ddrWrite (s.sessAddr i) e

/-- The state and plot of an entry alone written: what does not read is written nowhere (R299). -/
def State.setSessState (s : State) (i st plot : Nat) : State := s.ddrWrite (s.sessAddr i + 39) (leBytes 1 st ++ leBytes 1 plot)

/-- The sessions in a state other than free, by index. -/
def State.sessionsIn (s : State) (st : Nat) : List Nat :=
  let base := s.fld 0xA0000 0 40
  (s.ddr.mem.filter fun e => decide (base ≤ e.1) && decide (e.1 < base + 2 ^ 24) && (e.1 - base) % 64 == 39 && e.2.toNat == st).map
    fun e => (e.1 - base) / 64

/-- The first entries of a directory (Table 13.4). -/
def State.directory (s : State) (a pages : Nat) : List DirEnt :=
  (words64 pages (s.ddrBytes a (8 * pages))).map fun w =>
    { page := bits w 0 40, bed := bits w 40 7, place := bits w 47 17 * 256 }

/-- A directory as an entry names it. -/
def State.dirOf (s : State) (e : List Byte) : List DirEnt := s.directory (sessDir e) (min (sessPages e) 4096)

/-- The planted sessions with a page on a logical bed. -/
def State.plantedOn (s : State) (bed : Nat) : List Nat :=
  (s.sessionsIn 2).filter fun i => (s.dirOf (s.sess i)).any fun d => d.bed == bed

/-! ## Orders -/

/-- The fields of Table 13.7 in a NURSERY descriptor (Table 15.3). -/
def orderOf (d : List Byte) (src : Src) (now : W64) : Order :=
  let w := fieldAt d 16 8
  { op := bits w 0 3, session := bits w 5 18, key := BitVec.ofNat 64 (fieldAt d 8 8), limit := bits w 23 13,
    plot := bits w 36 4, digest := bit w 40, engine := bits w 41 2, dest := bits (fieldAt d 32 8) 0 18,
    plan := bits (fieldAt d 40 8) 0 40, entries := bits (fieldAt d 48 8) 0 17,
    destLimit := bits w 23 13, src, accepted := now }

/-- Whether bytes lie in the map and outside the firmware region (R293, Table 13.2). -/
def nurSpace (a n : Nat) : Bool := decide (a + n ≤ ddrSize) && !overlaps a n 0x1000000 0x3F000000

/-- The windows of a plot (R306): tensors of role 1 that no instruction of the plot names. -/
def Program.windows (g : Program) : List Tensor :=
  ((enumFrom 0 g.tensors).filter fun e => e.2.role == 1 && !g.names e.1).map (·.2)

/-- Whether a page's place lies in a window (R306). -/
def State.inWindow (s : State) (p : Nat) (d : DirEnt) : Bool :=
  if p = 15 then decide (d.place + pageSize ≤ 2 ^ 25) && (s.physOf d.bed).isSome
  else (s.plot p).prog.windows.any fun t =>
    t.bed == d.bed && decide (t.base ≤ d.place) && decide (d.place + pageSize ≤ t.base + t.extent) &&
      decide (2 ≤ (s.plot p).state)

/-- Whether a page's place overlaps a page of another planted session (R306). -/
def State.overlapsPlanted (s : State) (session : Nat) (d : DirEnt) : Bool :=
  (s.sessionsIn 2).any fun i => i != session &&
    (s.dirOf (s.sess i)).any fun x => x.bed == d.bed && overlaps x.place pageSize d.place pageSize

/-- A transplant plan (R309, Table 13.8). -/
def State.planOf (s : State) (a n : Nat) : List PlanEnt :=
  (chunks 16 n (s.ddrBytes a (16 * n))).map fun e =>
    { srcPage := fieldAt e 0 2, srcWord := fieldAt e 2 2, dstPage := fieldAt e 4 2, dstWord := fieldAt e 6 2, len := fieldAt e 8 2 }

/-- Whether an entry's words lie inside their pages, and the pages inside their sessions. -/
def PlanEnt.ok (e : PlanEnt) (srcPages dstPages : Nat) : Bool :=
  decide (e.srcPage < srcPages) && decide (e.dstPage < dstPages) && decide (1 ≤ e.len) && decide (e.srcWord + e.len ≤ 768) &&
    decide (e.dstWord + e.len ≤ 768)

/-- Whether two entries write a common destination word. -/
def PlanEnt.meets (a b : PlanEnt) : Bool := a.dstPage == b.dstPage && overlaps a.dstWord a.len b.dstWord b.len

def planMeets : List PlanEnt → Bool
  | [] => false
  | e :: es => es.any e.meets || planMeets es

/-- Whether a plan is valid (R309). -/
def planOk (ps : List PlanEnt) (srcPages dstPages : Nat) : Bool :=
  ps.all (fun e => e.ok srcPages dstPages) && !planMeets ps

/-- Whether a session's state is the one that an order requires (Table 13.6). -/
def orderState (op st : Nat) : Bool :=
  match op with
  | 1 => st == 0
  | 2 => st == 1
  | 3 => st == 2
  | 4 => st == 1
  | _ => st == 1 || st == 4

/-- What refuses an order before any access (R303, R306, R309): a code of Table 13.9, or 0. DEDUCED, unsafe: log entry
34. -/
def State.orderCode (s : State) (o : Order) : Nat :=
  let e := s.sess o.session
  let f := s.sess o.dest
  if !orderState o.op (sessState e) || (o.op == 4 && (!orderState 4 (sessState f) || o.session == o.dest)) then 0x60
  else if o.op ≠ 1 ∧ sessKey e ≠ o.key.toNat then 0x61
  else if 2 ≤ o.op ∧ o.op ≤ 4 ∧ (o.limit < sessPages e ∨ (o.op = 4 ∧ o.destLimit < sessPages f)) then 0x62
  else if (o.op = 2 ∨ o.op = 3) ∧ (s.ddrBad (sessDir e) 32768).isNone ∧
      (s.dirOf e).any (fun d => !s.inWindow o.plot d || s.overlapsPlanted o.session d) then 0x63
  else if o.op = 4 ∧ ((s.ddrBad o.plan (16 * o.entries)).isSome ∨ !planOk (s.planOf o.plan o.entries) (sessPages e) (sessPages f)) then 0x69
  else 0

/-- An order ended without an error, or with a code of Table 13.9 (R310, R357). -/
def State.orderDone (s : State) (src : Src) (code : Nat) : State :=
  if code = 0 then s.complete src 0 0 0 else s.complete src 1 0x07 code

/-- An entry that an order must read and cannot: the session, and the unit (R299, Table 13.9). -/
def State.badEntry (s : State) (o : Order) : Option (Nat × Nat) :=
  match s.ddrBad (s.sessAddr o.session) 64 with
  | some u => some (o.session, u)
  | none => if o.op = 4 then (s.ddrBad (s.sessAddr o.dest) 64).map fun u => (o.dest, u) else none

/-- An order whose entry does not read: the read is counted and reported, the session is damaged, and the order ends with code 0x6A
(R299, Table 13.9). DEDUCED, unsafe: log entry 34. -/
def State.entryLost (s : State) (src : Src) (e : Nat × Nat) : State := ((s.ddrFail e.2).setSessState e.1 4 15).orderDone src 0x6A

/-- An order refused: a plan that does not read is counted and reported (R299). -/
def State.orderRefused (s : State) (o : Order) (code : Nat) : State :=
  let s := match if code = 0x69 then s.ddrBad o.plan (16 * o.entries) else none with
    | some u => s.ddrFail u
    | none => s
  s.orderDone o.src code

/-- Whether a descriptor is a NURSERY order of an op. -/
def State.orderAsked (s : State) (src : Src) (op : Nat) : Bool :=
  s.descriptor src 6 && bits (fieldAt (s.request src) 16 8) 0 3 == op

/-- NURSERY_OPEN (R303): a free entry becomes parked with the key, directory and page count given. DEDUCED, unsafe:
log entry 34. -/
def execNurseryOpen (src : Src) (s : State) : Host.Outcome State Fault Refusal :=
  if s.orderAsked src 1 then
    let d := s.request src
    let o := orderOf d src s.clk.sundial
    let dir := bits (fieldAt d 24 8) 0 40
    let pages := bits (fieldAt d 24 8) 40 13
    if dir % pageSize ≠ 0 ∨ 4096 < pages then .next (s.complete src 1 0x01 0)
    else if !nurSpace dir 32768 then .next (s.complete src 1 0x03 0)
    else
      match s.badEntry o with
      | some e => .next (s.entryLost src e)
      | none =>
        let code := s.orderCode o
        let s := if code = 0 then
            s.setSess o.session (sessBytes none dir pages 1 15 (sessGen (s.sess o.session)) o.key.toNat)
          else s
        .next (s.orderDone src code)
  else .next s

/-- NURSERY_CLOSE (R303): the entry is cleared. -/
def execNurseryClose (src : Src) (s : State) : Host.Outcome State Fault Refusal :=
  if s.orderAsked src 5 then
    let o := orderOf (s.request src) src s.clk.sundial
    match s.badEntry o with
    | some e => .next (s.entryLost src e)
    | none =>
      let code := s.orderCode o
      let s := if code = 0 then s.setSess o.session (zeros 64) else s
      .next (s.orderDone src code)
  else .next s

/-- An order of a walker accepted, or refused before any access (R303, R308). -/
def State.acceptOrder (s : State) (src : Src) : State :=
  let d := s.request src
  let o := orderOf d src s.clk.sundial
  if o.limit = 0 ∨ 4096 < o.limit then s.complete src 1 0x01 0
  else
    match s.badEntry o with
    | some e => s.entryLost src e
    | none =>
      let code := s.orderCode o
      if code ≠ 0 then s.orderRefused o code
      else
        let w := bits (fieldAt d 16 8) 3 2
        let k := s.walker w
        (s.setWalker w { k with queue := k.queue ++ [o] }).await 6 w src 0

/-- NURSERY_PLANT (R303). -/
def execNurseryPlant (src : Src) (s : State) : Host.Outcome State Fault Refusal :=
  if s.orderAsked src 2 then .next (s.acceptOrder src) else .next s

/-- NURSERY_LIFT (R303). -/
def execNurseryLift (src : Src) (s : State) : Host.Outcome State Fault Refusal :=
  if s.orderAsked src 3 then .next (s.acceptOrder src) else .next s

/-- NURSERY_TRANSPLANT (R303, R309): its plan lies at a 64-byte-aligned address outside the firmware region. -/
def execNurseryTransplant (src : Src) (s : State) : Host.Outcome State Fault Refusal :=
  if s.orderAsked src 4 then
    let o := orderOf (s.request src) src s.clk.sundial
    if o.plan % 64 ≠ 0 then .next (s.complete src 1 0x01 0)
    else if !nurSpace o.plan (16 * o.entries) then .next (s.complete src 1 0x03 0)
    else .next (s.acceptOrder src)
  else .next s

/-! ## Walkers -/

/-- n of a slot mask: the smallest number of its slots in one bank set (R304). -/
def walkRate (slots : W64) : Nat :=
  ((List.range 16).map fun b => ((List.range 4).filter fun i => slots.getLsbD (16 * i + b)).length).foldl min 4

/-- The slot mask by which a plot holds a walker (R304, R305). -/
def State.walkMask (s : State) (p w : Nat) : W64 :=
  match (s.plot p).prog.claims.find? fun c => c.kind == 0xB && decide (c.first ≤ w) && decide (w < c.first + c.count) with
  | some c => if 2 ≤ (s.plot p).state then c.slots else 0
  | none => 0

/-- The claims that firmware takes for an order on free beds, with one slot of every bank set (R305). Which route segment it takes
is left open: segment 4092 + w. DESIGN CHOICE, unsafe: log entry 34. -/
def freeClaims (w : Nat) (beds : List Nat) (slots : W64) : List Claim :=
  beds.eraseDups.map (fun b => { kind := 1, first := b, count := 1 }) ++
    [{ kind := 0xB, first := w, count := 1, slots }, { kind := 5, first := 0, count := 24, slots },
     { kind := 4, first := 1, count := 48 }, { kind := 2, first := 4092 + w, count := 1, slots := -1 }]

/-- Slots 16 i to 16 i + 15. -/
def slotGroup (i : Nat) : W64 := BitVec.ofNat 64 (65535 * 2 ^ (16 * i))

/-- The group of slots that firmware takes: the highest without a conflict, else the highest. -/
def State.freeGroup (s : State) (w : Nat) (beds : List Nat) : List Claim :=
  (([3, 2, 1, 0].map fun i => freeClaims w beds (slotGroup i)).find? fun cs => (s.clash cs).isNone).getD
    (freeClaims w beds (slotGroup 3))

/-- What a plot's claims lack for an order on its beds, as a kind and an index: the walker, shed buffers beside those of its other
orders, or a route from the walker to a bed of the directory (R304, R305). DEDUCED, unsafe: log entry 34. -/
def State.orderLacks (s : State) (w : Nat) (o : Order) (dir : List DirEnt) : Option (Nat × Nat) :=
  let g := (s.plot o.plot).prog
  let busy := (s.ddr.walkers.filter fun e => match e.2.work with | some k => k.order.plot == o.plot | none => false).length
  if walkRate (s.walkMask o.plot w) = 0 then some (0xB, w)
  else if shedOf 1 g.claims < 48 * (busy + 1) then some (4, 1)
  else
    (dir.find? fun d => !(g.routes.any fun r => g.claimsOf 2 r.segment && r.source == 0xB0 + w && r.dest.getLsbD d.bed)).map
      fun d => (2, d.bed)

/-- The frame that walkers are in: in a frost that of the cut (R312). -/
def State.walkFrame (s : State) : Nat := if s.dbg.frozen then s.dbg.cut.toNat / 80 else s.frame

/-- A walker's words out of every landing stage. -/
def State.unstage (s : State) (w : Nat) : State :=
  s.beds.foldl
    (fun (s : State) e => if e.2.stage.any fun x => x.walker == w
      then s.setBed e.1 { s.bed e.1 with stage := e.2.stage.filter fun x => x.walker != w } else s) s

/-- The walker's first error: its code, page and frame, latched and reported with the walker blamed (R310). -/
def State.walkFail (s : State) (w : Nat) (k : Work) (code page : Nat) (dest : Bool) : State :=
  let o := k.order
  let session := if dest then o.dest else o.session
  let s := if s.fld (0xA0040 + 8 * w) 0 1 = 1 then s
    else s.setReg (0xA0040 + 8 * w) (BitVec.ofNat 64 (1 + code * 2 + session * 2 ^ 9 + page * 2 ^ 27))
  let s := s.report (unitId 7 w) (unitId 7 w) 0x8C (code + session * 2 ^ 8)
  (s.unstage w).setWalker w { s.walker w with
    work := some { k with err := code, errPage := page, errFrame := max k.errFrame s.walkFrame, errDest := dest } }

/-- A directory of an order that does not read: whether the destination's, and the unit (Table 13.9). -/
def State.badDir (s : State) (o : Order) : Option (Bool × Nat) :=
  match s.ddrBad (sessDir (s.sess o.session)) 32768 with
  | some u => some (false, u)
  | none => if o.op = 4 then (s.ddrBad (sessDir (s.sess o.dest)) 32768).map fun u => (true, u) else none

/-- The sessions of an order made moving (R303). -/
def State.makeMoving (s : State) (o : Order) : State :=
  let s := s.setSess o.session (sessWith (s.sess o.session) 3 (fieldAt (s.sess o.session) 40 1))
  if o.op = 4 then s.setSess o.dest (sessWith (s.sess o.dest) 3 15) else s

/-- NURSERY_ORDER_START (R305, R308): the walker's next order begins with a frame that starts at least 8 ticks after it
was accepted; it is checked, its claims are taken, its session becomes moving and its directory is read; a directory that does
not read is met in the order's second frame. -/
def execNurseryOrderStart (w : BitVec 2) (s : State) : Host.Outcome State Fault Refusal :=
  let w := w.toNat
  let k := s.walker w
  match k.work, k.queue with
  | none, o :: rest =>
    if !s.dbg.frozen && s.now % 80 == 0 && decide (o.accepted.toNat + 8 ≤ s.now) then
      let s := s.setWalker w { k with queue := rest }
      match s.badEntry o with
      | some e =>
        .next (((s.ddrFail e.2).setSessState e.1 3 15).walkFail w { order := o, frame := s.frame } 0x6A 0 (e.1 != o.session))
      | none =>
        let code := s.orderCode o
        let dir := s.dirOf (s.sess o.session)
        let engine : List Claim := if o.digest ∧ o.op ≠ 4 then [engineClaim o.engine] else []
        let mine := engine ++ if o.plot = 15 then s.freeGroup w (if o.op = 4 then [] else dir.map (·.bed)) else []
        let lacks := if o.plot = 15 then none else s.orderLacks w o (if o.op = 4 then [] else dir)
        if code ≠ 0 then .next (s.orderRefused o code)
        else
          match lacks, s.clash mine with
          | some e, _ => .next (s.orderDone o.src (reportWord 0x10 15 e.1 e.2 0))
          | none, some e => .next (s.orderDone o.src (reportWord 0x10 e.1 e.2.1 e.2.2 0))
          | none, none =>
            let s : State := { s with fwClaims := s.fwClaims ++ mine }
            let work : Work := {
              order := o, frame := s.frame, claims := mine, rate := if o.plot = 15 then 1 else walkRate (s.walkMask o.plot w) }
            match s.badDir o with
            | some e => .next (((s.makeMoving o).ddrFail e.2).walkFail w { work with errFrame := s.frame + 1 } 0x6A 0 e.1)
            | none =>
              let work := { work with
                dir
                destDir := if o.op = 4 then s.dirOf (s.sess o.dest) else []
                plan := if o.op = 4 then s.planOf o.plan o.entries else [] }
              let s := (s.setWalker w { s.walker w with work := some work }).makeMoving o
              .next (if o.op = 2 ∧ o.digest ∧ dir = [] ∧ fieldAt (s.sess o.session) 0 32 ≠ (digest []).toNat then
                s.walkFail w { work with errFrame := s.frame + 1 } 0x66 0 false else s)
    else .next s
  | _, _ => .next s

/-- The words that a transplant's plan moves. -/
def Work.planned (k : Work) : Nat := (k.plan.map (·.len)).sum

/-- The 256 B words that an order moves; of a transplant those of its plan and those that are written as zero (R309). -/
def Work.total (k : Work) : Nat := 768 * (if k.order.op = 4 then k.destDir.length else k.dir.length)

/-- The n-th word of a plan in list order: its entry, and its place among the entry's words (R309). -/
def planWord : List PlanEnt → Nat → Option (PlanEnt × Nat)
  | [], _ => none
  | e :: es, n => if n < e.len then some (e, n) else planWord es (n - e.len)

/-- Whether an entry of a plan writes a destination word. -/
def Work.isPlanned (k : Work) (n : Nat) : Bool :=
  k.plan.any fun e => e.dstPage == n / 768 && decide (e.dstWord ≤ n % 768) && decide (n % 768 < e.dstWord + e.len)

/-- The n-th destination word, counted from a place on, that no entry writes (R309). -/
def Work.unplanned (k : Work) : Nat → Nat → Nat → Nat
  | 0, at_, _ => at_
  | fuel + 1, at_, n =>
    if k.isPlanned at_ then k.unplanned fuel (at_ + 1) n else if n = 0 then at_ else k.unplanned fuel (at_ + 1) (n - 1)

/-- The n-th word that a transplant writes, and where it comes from: the entries in list order, then zeros (R309). -/
def Work.move (k : Work) (n : Nat) : Nat × Option (Nat × Nat) :=
  match planWord k.plan n with
  | some e => (768 * e.1.dstPage + e.1.dstWord + e.2, some (e.1.srcPage, e.1.srcWord + e.2))
  | none => (k.unplanned k.total 0 (n - k.planned), none)

/-- The order at work with a word taken up in this frame (R304). -/
def Work.takeUp (k : Work) (frame page : Nat) : Work :=
  { k with
    reads := tset (fun _ => 0) k.reads page (tget (fun _ => 0) k.reads page + 1)
    quota := (frame, if k.quota.1 = frame then k.quota.2 + 1 else 1) }

/-- The order with a word done. -/
def Work.wordDone (k : Work) (page : Nat) : Work :=
  { k with words := k.words + 1, landed := tset (fun _ => 0) k.landed page (tget (fun _ => 0) k.landed page + 1) }

/-- The order with bytes of a page gone to its digest engine. -/
def Work.hash (k : Work) (page : Nat) (bytes : List Byte) : Work :=
  if k.order.digest then { k with passed := tset (fun _ => []) k.passed page (tget (fun _ => []) k.passed page ++ bytes) } else k

/-- The digest of the pages in directory order (R302). -/
def Work.sum (k : Work) : BitVec 256 :=
  digest ((List.range k.dir.length).flatMap fun i => tget (fun _ => []) k.passed i)

/-- What a walker works on replaced. -/
def State.setWork (s : State) (w : Nat) (k : Work) : State := s.setWalker w { s.walker w with work := some k }

/-- The words that a landing stage holds (R307). -/
def stageSize : Nat := 16

/-- The first frame in which a page's words may move: after the entries and directories, n pages a frame (R308). -/
def Work.pageFrame (k : Work) (page : Nat) : Nat := k.frame + (if k.order.op = 4 then 3 else 2) + page / max 1 k.rate

/-- Whether a walker may take up a word of a page in this frame: n pages a frame (R304). -/
def Work.mayTake (k : Work) (frame page : Nat) : Bool :=
  decide (k.pageFrame page ≤ frame) && (k.quota.1 != frame || decide (k.quota.2 < 768 * max 1 k.rate))

/-- Whether the 4 banks of a word of bed memory are idle in an A-cycle of this tick (R307). -/
def State.wordIdle (s : State) (p off : Nat) : Bool := s.banksIdle p ((upFrom (off / 64) 4).map fun ln => ln % 32)

/-- A plant's word landed in its bed (R307). -/
def State.plantLands (s : State) (w : Nat) (k : Work) (p page off : Nat) (bytes : List Byte) : State :=
  (s.landWords false p off bytes).setWork w (k.wordDone page)

/-- A lift's word departs from its bed: an uncorrectable one ends the order (R310). -/
def State.liftWord (s : State) (w : Nat) (k : Work) (p page off : Nat) : State :=
  let d := k.dir.getD page ⟨0, 0, 0⟩
  let r := (s.bed p).sendRead false 0 off 256
  let s := s.setBed p r.1
  match r.2 with
  | .error a => ((s.report (unitId 1 p) (unitId 1 p) 0x88 a).walkFail w k 0x68 page false).watchEcc p
  | .ok bytes => ((s.ddrWrite (d.page + (off - d.place)) bytes).setWork w ((k.wordDone page).hash page bytes)).watchEcc p

/-- The first of a walker's words in a bed's landing stage goes (R307). -/
def State.unstageWord (s : State) (w : Nat) (k : Work) (p : Nat) (x : Staged) : State :=
  let s := s.setBed p { s.bed p with stage := (s.bed p).stage.erase x }
  if k.order.op = 3 then s.liftWord w k p x.page x.off else s.plantLands w k p x.page x.off x.bytes

/-- The first bed in whose landing stage the oldest of a walker's words has its banks idle. -/
def State.readyStage (s : State) (w : Nat) : Option (Nat × Staged) :=
  (s.beds.filterMap fun e => match e.2.stage.find? fun x => x.walker == w with
    | some x => if s.wordIdle e.1 x.off then some (e.1, x) else none
    | none => none).head?

/-- The next page of a plant or lift of which a word can be taken up: in directory order, its bed's stage having room (R307). -/
def State.nextPage (s : State) (k : Work) : Option Nat :=
  ((enumFrom 0 k.dir).find? fun e => decide (tget (fun _ => 0) k.reads e.1 < 768) && k.mayTake s.frame e.1 &&
    match s.physOf e.2.bed with
    | some p => decide ((s.bed p).stage.length < stageSize)
    | none => true).map (·.1)

/-- A word of a plant or lift taken up: it goes at once when its banks are idle and none of the walker's waits before it, else into
the landing stage of its bed (R307). The digest of a plant is known with its last word (R303, R310). -/
def State.takeWord (s : State) (w : Nat) (k : Work) (page : Nat) : State :=
  let d := k.dir.getD page ⟨0, 0, 0⟩
  let n := 256 * tget (fun _ => 0) k.reads page
  match s.physOf d.bed with
  | none => s.walkFail w k 0x67 page false
  | some p =>
    let off := d.place + n
    let now := s.wordIdle p off && !((s.bed p).stage.any fun x => x.walker == w)
    let k := k.takeUp s.frame page
    let hold := fun (s : State) (bytes : List Byte) =>
      s.setBed p { s.bed p with stage := (s.bed p).stage ++ [{ walker := w, page, off, bytes }] }
    if k.order.op = 3 then (if now then s.liftWord w k p page off else (hold s []).setWork w k)
    else
      match s.ddrBad (d.page + n) 256 with
      | some u => (s.ddrFail u).walkFail w k 0x65 page false
      | none =>
        let bytes := s.ddrBytes (d.page + n) 256
        let k := k.hash page bytes
        let s := if now then s.plantLands w k p page off bytes else (hold s bytes).setWork w k
        let k := (s.walker w).work.getD k
        if k.order.digest && (List.range k.dir.length).all (fun i => tget (fun _ => 0) k.reads i == 768) &&
            fieldAt (s.sess k.order.session) 0 32 != k.sum.toNat then
          s.walkFail w k 0x66 (k.dir.length - 1) false
        else s

/-- One destination word of a transplant; an unreadable source latches the destination's session and page (R310). DESIGN CHOICE,
unsafe: log entry 34. -/
def State.moveWord (s : State) (w : Nat) (k : Work) : State :=
  let m := k.move k.words
  let to_ := (k.destDir.getD (m.1 / 768) ⟨0, 0, 0⟩).page + 256 * (m.1 % 768)
  let k' := (k.takeUp s.frame (m.1 / 768)).wordDone (m.1 / 768)
  match m.2 with
  | none => (s.ddrWrite to_ (zeros 256)).setWork w k'
  | some e =>
    let a := (k.dir.getD e.1 ⟨0, 0, 0⟩).page + 256 * e.2
    match s.ddrBad a 256 with
    | some u => (s.ddrFail u).walkFail w k 0x65 (m.1 / 768) true
    | none => (s.ddrWrite to_ (s.ddrBytes a 256)).setWork w k'

/-- WALKER_WORD_TRANSFER (R304, R307, R308, R309): one word of a walker's order. Of a plant or lift the oldest word in a landing
stage goes whose banks the bed's static schedule leaves idle in an A-cycle of this tick; else the next word is taken up. Of a
transplant the next word moves within LPDDR5. DEDUCED, safe: log entry 34. -/
def execWalkerWordTransfer (w : BitVec 2) (s : State) : Host.Outcome State Fault Refusal :=
  let w := w.toNat
  match (s.walker w).work with
  | none => .next s
  | some k =>
    if !s.running || k.err != 0 || decide (k.total ≤ k.words) then .next s
    else if k.order.op = 4 then .next (if k.mayTake s.frame (k.words / 768) then s.moveWord w k else s)
    else
      match s.readyStage w with
      | some e => .next (s.unstageWord w k e.1 e.2)
      | none =>
        match s.nextPage k with
        | some page => .next (s.takeWord w k page)
        | none => .next s

/-- The frames that an order is charged (R308). -/
def orderFrames (o : Order) (n : Nat) : Nat :=
  if o.op = 4 then 4 + ceilDiv (o.limit + o.destLimit + ceilDiv o.entries 12288) n else 3 + ceilDiv o.limit n

/-- The frame in which an order's entries are written: its last; after an error, the one after that of the error (R303, R310). -/
def Work.lastFrame (k : Work) : Nat := if k.err ≠ 0 then k.errFrame + 1 else k.frame + orderFrames k.order k.rate - 1

/-- The tick in which an order's last frame has ended. -/
def Work.orderEnd (k : Work) : Nat := 80 * (k.lastFrame + 1)

/-- The arrival of a plant with digest into the plot's inputs (R395): one for each digest-table entry of a window that
took a page. -/
def State.plantArrives (s : State) (k : Work) (dig : BitVec 256) : State :=
  let p := k.order.plot
  let ts := ((s.plot p).prog.windows.filter fun t =>
    k.dir.any fun d => t.bed == d.bed && decide (t.base ≤ d.place) && decide (d.place < t.base + t.extent)).map (·.digestIdx)
  ts.eraseDups.foldl (fun (s : State) i => s.noteInput p i 0xFF 0 dig) s

/-- The entries that an order leaves, by its code (Tables 13.6 and 13.9). -/
def State.orderEntries (s : State) (k : Work) (code : Nat) : State :=
  let o := k.order
  let e := s.sess o.session
  let gen := (sessGen e + 1) % 2 ^ 32
  let damage := fun (s : State) (i : Nat) => s.setSessState i 4 15
  match o.op with
  | 2 =>
    if code = 0 then s.setSess o.session (sessWith e 2 o.plot)
    else if code = 0x6A then damage s o.session
    else s.setSess o.session (sessWith e 1 15)
  | 3 =>
    if code = 0 then
      s.setSess o.session (sessBytes (if o.digest then some k.sum else none) (sessDir e) (sessPages e) 1 15 gen (sessKey e))
    else damage s o.session
  | _ =>
    let f := s.sess o.dest
    let s := s.setSess o.session (sessWith e 1 15)
    if code = 0 then s.setSess o.dest (sessBytes none (sessDir f) (sessPages f) 1 15 ((sessGen f + 1) % 2 ^ 32) (sessKey f))
    else if k.errDest then damage s o.dest
    else damage (s.setSess o.dest (sessWith f 1 15)) o.session

/-- The entries of an order written once, by its code (R303). -/
def State.enterOrder (s : State) (w : Nat) (k : Work) : State :=
  if k.entered = some k.err then s else (s.orderEntries k k.err).setWork w { k with entered := some k.err }

/-- Whether an order's entries can be written: after an error, or with every word of its pages taken up, of a lift departed. -/
def Work.filled (k : Work) : Bool :=
  k.err != 0 || k.words == k.total || k.order.op == 2 && (List.range k.dir.length).all fun i => tget (fun _ => 0) k.reads i == 768

/-- The walkers whose orders are in their last frame write the entries (R303, R310). -/
def State.walkEntries (s : State) : State :=
  s.ddr.walkers.foldl
    (fun (s : State) e => match e.2.work with
      | some k => if k.filled && decide (k.lastFrame ≤ s.frame) then s.enterOrder e.1 k else s
      | none => s) s

/-- NURSERY_ORDER_COMPLETE (R303, R308, R310): the last frame has ended and the last word has moved; firmware's claims are released
and the request completes. -/
def execNurseryOrderComplete (w : BitVec 2) (s : State) : Host.Outcome State Fault Refusal :=
  let w := w.toNat
  match (s.walker w).work with
  | none => .next s
  | some k =>
    if !s.dbg.frozen && (k.err != 0 || k.words == k.total) && decide (k.orderEnd ≤ s.now) then
      let o := k.order
      let s := s.enterOrder w k
      let s := if o.op = 2 ∧ k.err = 0 ∧ o.digest ∧ o.plot ≠ 15 then s.plantArrives k k.sum else s
      let s := s.setWalker w { s.walker w with work := none }
      let s : State := { s with fwClaims := k.claims.foldl (fun cs c => cs.erase c) s.fwClaims }
      .next (s.orderDone o.src k.err)
    else .next s

/-! ## The scrubber -/

/-- The granules of a bed-memory line that hold an error. -/
def Bed.lineErrs (b : Bed) (line : Nat) : List (Nat × Nat) := b.ecc.filter fun e => e.1 / 4 == line

/-- Whether the scrubber may use a bank in this tick: it is idle, and no walker's word waits for it (R257, R307). -/
def State.scrubIdle (s : State) (p bank : Nat) : Bool :=
  s.banksIdle p [bank] && !((s.bed p).stage.any fun x => (upFrom (x.off / 64) 4).any fun ln => ln % 32 == bank)

/-- SCRUB_READ (R255, R257): the next line is read; correctable granules are counted and their line waits to be
written back; an uncorrectable one is latched and reported, and stops no plot. DEDUCED, unsafe: log entry 35. -/
def execScrubRead (p : BitVec 8) (s : State) : Host.Outcome State Fault Refusal :=
  let p := p.toNat
  let b := s.bed p
  if p < 132 ∧ s.running ∧ wfld (b.reg 0x818) 0 1 = 1 ∧ b.scrubPending = none ∧ b.admin < 2 ∧ s.scrubIdle p (b.scrubLine % 32) then
    let line := b.scrubLine
    let errs := b.lineErrs line
    let b := errs.foldl
      (fun (b : Bed) e => if e.2 < 138 then b.correct e.1 (e.2 - 1) else b.uncorrect e.1 true 0) b
    let b := { b with
      scrubPending := if errs.any fun e => decide (e.2 < 138) then some line else none
      scrubLine := (line + 1) % 524288 }
    let b := if line + 1 = 524288 then
        b.setReg 0x818 (wset (b.reg 0x818) 15 32 (wfld (b.reg 0x818) 15 32 + 1))
      else b
    let s := s.setBed p b
    let s := (errs.filter fun e => decide (138 ≤ e.2)).foldl
      (fun (s : State) e => s.report (unitId 1 p) (unitId 1 p) 0x88 (16 * e.1)) s
    .next (s.watchEcc p)
  else .next s

/-- SCRUB_WRITEBACK (R257): the corrected line is written back; a granule that a write has replaced in between is clean
already. -/
def execScrubWriteback (p : BitVec 8) (s : State) : Host.Outcome State Fault Refusal :=
  let p := p.toNat
  let b := s.bed p
  match b.scrubPending with
  | none => .next s
  | some line =>
    if s.running ∧ s.scrubIdle p (line % 32) then
      .next (s.setBed p ((b.lineErrs line).foldl
        (fun (b : Bed) e => if e.2 < 138 then b.setEcc e.1 0 else b) { b with scrubPending := none }))
    else .next s

end Sys2Proof.Machine
end

