-- ==== Sys2Proof/Machine/Power.lean ====
section
/-! DEFINITION. Power, clocks and temperature: the module power sample and the fast clamp (R413 to R417, R471), mulch (R420),
droop (R411), temperature (R421), operating-point holds (R409), loss of the root PLL (R407), conservation faults (R403) and
entropy (R450). -/

namespace Sys2Proof.Machine

/-- Bits of PWR_EVENT set, with the tick of the latest event (R422). -/
def State.powerEvent (s : State) (b : Nat) : State :=
  (s.setFld 0x40018 b 1 1).setFld 0x40018 6 48 s.now

/-- E of a sample, in mW: the base and the power of every sown plot's current entry at the point in force (R416).
DESIGN CHOICE, unsafe: log entry 51. -/
def State.estimate (s : State) : Nat :=
  1000 * s.fld 0x40008 24 12 +
    (((s.plotsIn [3, 4]).map fun p => fieldAt (s.plot p).hintNow 0 2 * pointFactor s.clk.point).sum)

/-- Every mulch level set to 0. -/
def State.noMulch (s : State) : State :=
  s.beds.foldl (fun (s : State) e => s.setBed e.1 { e.2 with mulch := 0 }) s

/-- The over-estimate excursion (R417): its 100th sample raises the event; k rises to the greatest ratio. -/
def State.overSample (s : State) (m e : Nat) : State :=
  let p := s.pwr
  if 5 * e < 4000 * m then
    let better := p.overs = 0 ∨ p.bestM * e < m * p.bestE
    let p := { p with overs := p.overs + 1, bestM := if better then m else p.bestM, bestE := if better then e else p.bestE }
    let k := if p.bestE = 0 then 255 else min 255 (ceilDiv (64000 * p.bestM) p.bestE)
    let p := if 100 ≤ p.overs then { p with k64 := max p.k64 k } else p
    let s : State := { s with pwr := p }
    if p.overs = 100 then (s.powerEvent 0).setDoor 3 else s
  else { s with pwr := { p with overs := 0 } }

/-- The under-estimate run (R417). -/
def State.underSample (s : State) (m e : Nat) : State :=
  if 2000 * m < e then
    let s : State := { s with pwr := { s.pwr with unders := s.pwr.unders + 1 } }
    if s.pwr.unders = 100 then s.powerEvent 1 else s
  else { s with pwr := { s.pwr with unders := 0 } }

/-- The fast clamp and the shedding of mulch (R414, R471). -/
def State.clampSample (s : State) (m a : Nat) : State :=
  let c := s.clk
  let high := 100 * m > 97 * s.pwr.cap ∨ 340 < a
  let s : State := { s with pwr := { s.pwr with shed := high } }
  let s := if high then s.noMulch else s
  let byPower := if s.pwr.cap < m then true else decide (100 * m > 97 * s.pwr.cap) && c.clamp
  let byAmps := if 340 < a then true else if a ≤ 330 then false else c.clampAmps
  let s' : State := { s with clk := { c with clamp := byPower, clampAmps := byAmps } }
  if (byPower || byAmps) && !(c.clamp || c.clampAmps) then s'.powerEvent 2 else s'

/-- POWER_SAMPLE (R413, R414, R416, R417, R471): the mean power and current of 100 ticks. The estimate is shown in
whole watts; whether a fraction rounds up is left open. DESIGN CHOICE, unsafe: log entry 51. -/
def execPowerSample (watts : BitVec 12) (amps : BitVec 9) (s : State) : Host.Outcome State Fault Refusal :=
  if s.clk.locked ∧ s.pwr.lastSample.toNat + 100 ≤ s.now then
    let m := watts.toNat
    let e := s.estimate
    let s : State := { s with pwr := { s.pwr with lastSample := s.clk.sundial } }
    let r := s.draw 1
    let shown := if e % 1000 = 0 then e / 1000 else e / 1000 + r.1.toNat
    let s := (r.2.setFld 0x40008 0 12 m).setFld 0x40008 12 12 shown
    .next (((s.overSample m e).underSample m e).clampSample m amps.toNat)
  else .next s

/-- PWR_CORR_CLEAR (R417): k becomes 1. -/
def State.corrClear (s : State) : State := { s with pwr := { s.pwr with k64 := 64 } }

/-- POWER_CAP (R414): 800 to 2,000 W; a change rings doorbell bit 3. -/
def execPowerCap (src : Src) (s : State) : Host.Outcome State Fault Refusal :=
  if s.service src 0x40 then
    let v := fieldAt (s.request src) 16 2
    if v < 800 ∨ 2000 < v then .next (s.serve src 0x71 0)
    else
      let changed := v ≠ s.pwr.cap
      let s : State := { s with pwr := { s.pwr with cap := v } }
      let s := s.serve src 0 0
      .next (if changed then s.setDoor 3 else s)
  else .next s

/-! ## Mulch -/

/-- The level that a bed's mulch moves toward (R420). -/
def State.mulchTarget (s : State) (b : Bed) : Nat :=
  match b.job with
  | none => s.fld 0x40028 1 8
  | some j =>
    let h := (s.plot j.plot).hintNow
    if ((s.plot j.plot).state = 3 ∨ (s.plot j.plot).state = 4) ∧ fieldAt h 4 1 = 1 then fieldAt h 5 1 else 0

/-- A level moved by at most 16 toward its target. -/
def mulchMove (m target : Nat) : Nat := if m < target then min target (m + 16) else max target (m - 16)

/-- Whether an idle cell of row k mulches in A-cycle t at level m: it computes and discards a product, and changes no state
(R419, R420). -/
def mulches (m k t : Nat) : Bool := decide ((t + k) * m / 256 < (t + k + 1) * m / 256)

/-- MULCH_LEVEL_STEP (R420): every 100 ticks; a frost holds the levels (R453). -/
def execMulchLevelStep (s : State) : Host.Outcome State Fault Refusal :=
  if s.clk.locked ∧ s.running ∧ s.pwr.lastMulch.toNat + 100 ≤ s.now then
    let s : State := { s with pwr := { s.pwr with lastMulch := s.clk.sundial } }
    if s.clk.hold.isSome ∨ s.fld 0x40028 0 1 = 0 ∨ s.pwr.shed then .next s.noMulch
    else
      .next ((List.range 132).foldl
        (fun (s : State) p =>
          let b := s.bed p
          s.setBed p { b with mulch := BitVec.ofNat 8 (mulchMove b.mulch.toNat (s.mulchTarget b)) }) s)
  else .next s

/-! ## Droop and temperature -/

/-- DROOP_DETECT (R411): the next run is stretched; in a frost a detection stretches nothing (R453). -/
def execDroopDetect (source : BitVec 3) (s : State) : Host.Outcome State Fault Refusal :=
  if source.toNat < 6 ∧ s.clk.locked ∧ s.running then
    .next { s with clk := { s.clk with droop := some (match s.clk.droop with
      | some d => min d source.toNat
      | none => source.toNat) } }
  else .next s

/-- Reading u of a sensor group, signed. -/
def tempAt (ts : List (BitVec 12)) (u : Nat) : Int := (ts.getD u 0).toInt

/-- The hottest reading of the module and its group. -/
def hottestOf (ts : List (BitVec 12)) : Int × Nat :=
  (List.range 7).foldl (fun (a : Int × Nat) u => if a.1 < tempAt ts u then (tempAt ts u, u) else a) (tempAt ts 0, 0)

/-- A reading every 1,000 ticks: the hottest of the module meets the warn, clamp and trip thresholds (R421). -/
def State.readTemps (s : State) (hottest : List (BitVec 12)) (sensor : List (BitVec 6)) (coolest : List (BitVec 12)) : State :=
  let s : State := { s with pwr := { s.pwr with lastTherm := s.clk.sundial } }
  let s := (List.range 7).foldl
    (fun (s : State) u => s.setReg (0x40100 + 8 * u) (BitVec.ofNat 64
      ((hottest.getD u 0).toNat + (sensor.getD u 0).toNat * 2 ^ 12 + (coolest.getD u 0).toNat * 2 ^ 18))) s
  let t := hottestOf hottest
  let limit := fun (lo : Nat) => (4 * s.fld 0x40040 lo 8 : Int)
  let s := if limit 0 ≤ t.1 then (s.powerEvent 3).setDoor 3 else s
  let s : State := if limit 8 ≤ t.1 then
      (if s.clk.thermClamp then s else ({ s with clk := { s.clk with thermClamp := true } } : State).powerEvent 4)
    else if t.1 < limit 8 - 8 then { s with clk := { s.clk with thermClamp := false } }
    else s
  if limit 16 ≤ t.1 ∧ s.clk.trip = none then
    let s := s.powerEvent 5
    { s with
      clk := { s.clk with trip := some (s.clk.sundial, toTwos 12 t.1, t.2) }
      pins := { s.pins with thermtrip := true } }
  else s

/-- THERMAL_TRIP_STOP (R421): after tick t + 8 of a trip reading every sown plot stops with code 0x59, the A-clock of the
compute dies stops, and the module enters recovery. -/
def execThermalTripStop (s : State) : Host.Outcome State Fault Refusal :=
  match s.clk.trip with
  | none => .next s
  | some t =>
    if t.1.toNat + 8 ≤ s.now ∧ !s.clk.stopped then
      let s := s.stopSown 0x59
      let s := s.report (unitId 0xE 0) (unitId 0xE 0) 0x8D (t.2.1 + t.2.2 * 2 ^ 12)
      let s : State := { s with clk := { s.clk with stopped := true } }
      .next (s.recover 0x8D)
    else .next s

/-! ## Operating points -/

/-- The last tick before which no sow may fall: the end of a hold that begins now (R409). -/
def holdEnd (h0 target : Nat) : Nat := ceilDiv (h0 + 2000) (windowTicks target) * windowTicks target

/-- HOLD_BEGIN (R409, R452): a change waits, no plot is sown or completing, a run that is not stretched starts now, no
accepted sow falls before the hold's end, and no frost is accepted or in force. -/
def execHoldBegin (s : State) : Host.Outcome State Fault Refusal :=
  let c := s.clk
  if c.pending ∧ c.hold = none ∧ (s.plotsIn [3, 4]).isEmpty ∧ s.running ∧ s.dbg.frostAt = none ∧
      c.runStart = c.sundial ∧ !c.runStretched ∧
      s.plots.all (fun e => match e.2.sowAt with
        | some t => decide (holdEnd s.now c.target ≤ t.toNat)
        | none => true) then
    .next (({ s with clk := { c with hold := some c.sundial } } : State).noMulch)
  else .next s

/-- HOLD_END (R408, R409, R416): at the first multiple of the new point's window at or after h0 + 2,000 the point takes
effect, its window 0 begins, and the base power measured in the hold is kept. -/
def execHoldEnd (base : BitVec 12) (s : State) : Host.Outcome State Fault Refusal :=
  let c := s.clk
  match c.hold with
  | none => .next s
  | some h0 =>
    if h0.toNat + 2000 ≤ s.now ∧ s.now % windowTicks c.target = 0 ∧ s.running then
      let s : State := { s with clk := { c with
        hold := none, pending := false, point := c.target, since := c.sundial, run := 0, ticks := 0,
        runStart := c.sundial, runPaced := pacedRun c.target 0 } }
      .next (s.setFld 0x40008 24 12 base.toNat)
    else .next s

/-! ## Faults of the whole module -/

/-- PLL_LOCK_LOSS (R407): the clocks and link transmitters stop and the module enters recovery. -/
def execPllLockLoss (s : State) : Host.Outcome State Fault Refusal :=
  if s.clk.locked then
    let s := s.report (unitId 0xE 0) (unitId 0xE 0) 0x8E 0
    let s := s.setFld 0x30000 1 1 1
    let s : State := { s with clk := { s.clk with locked := false, stopped := true } }
    .next (s.recover 0x8E)
  else .next s

/-- CONSERVATION_FREEZE (R403): a fault detected in tick t freezes the module after tick t + 8, which is this command's
tick; it cannot be thawed, and the module enters recovery. -/
def execConservationFreeze (pool : BitVec 3) (index : BitVec 8) (tally : W64) (s : State) :
    Host.Outcome State Fault Refusal :=
  if pool.toNat < 5 ∧ s.clk.locked ∧ 8 ≤ s.now then
    let t := s.now - 8
    let now := s.clk.sundial
    let s : State := { s with clk := { s.clk with sundial := BitVec.ofNat 64 t } }
    let s := s.report (unitId 0xD 0) (unitId 0xD 0) 0x8F (pool.toNat + tally.toNat * 2 ^ 3)
    let s : State := { s with clk := { s.clk with sundial := now } }
    let s := s.setReg 0x10300 (BitVec.ofNat 64 (1 + pool.toNat * 2 + index.toNat * 2 ^ 4 + (t % 2 ^ 48) * 2 ^ 12))
    let s := if pool = 0 then s.setFld (0xB0028 + 0x100 * index.toNat) 55 1 1 else s
    let s := if pool = 1 then s.setFld (0x80040 + 8 * index.toNat) 39 1 1 else s
    let s := if pool = 2 then s.setRing index.toNat { s.ring index.toNat with mismatch := true } else s
    let s : State := { s with
      freeN := s.freeN + 1
      dbg := { s.dbg with
        frozen := true, conservation := true, multi := false, cut := now, frostAt := none, thawAt := none, scan := s.freeN } }
    .next (s.recover 0x8F)
  else .next s

/-! ## Entropy -/

/-- ENTROPY_HEALTH_FAIL (R450): the die's source stops delivering and is reported. -/
def execEntropyHealthFail (die : BitVec 2) (s : State) : Host.Outcome State Fault Refusal :=
  if s.sec.entropyFail.getLsbD die.toNat then .next s
  else
    let s : State := { s with sec := { s.sec with entropyFail := s.sec.entropyFail ||| (1 <<< die.toNat) } }
    .next (s.report (unitId 0xE 0) (unitId 0xE 0) 0x90 die.toNat)

/-- ENTROPY_WORD_DELIVERY (R450): once in every 64 A-cycles a die's source brings one word to each of its 32 logical beds, whose buffer
holds 32. -/
def execEntropyWordDelivery (die : BitVec 2) (words : List W64) (s : State) : Host.Outcome State Fault Refusal :=
  let frame := s.clk.cycles / 64
  if s.running ∧ s.clk.locked ∧ !s.sec.entropyFail.getLsbD die.toNat ∧ words.length = 32 ∧
      tget (fun _ => none) s.sec.entropyFrame die.toNat ≠ some frame then
    let s : State := { s with sec := { s.sec with
      entropyFrame := tset (fun _ => none) s.sec.entropyFrame die.toNat (some frame) } }
    .next ((enumFrom 0 words).foldl
      (fun (s : State) e => match s.physOf (32 * die.toNat + e.1) with
        | none => s
        | some p =>
          let b := s.bed p
          if b.entropy.length < 32 then s.setBed p { b with entropy := b.entropy ++ [e.2] } else s) s)
  else .next s

end Sys2Proof.Machine
end

