-- ==== Sys2Proof/Machine/Fec.lean ====
section
/-! DEFINITION. Forward error correction and scrambling of a flit on the wire (R317, R318). -/

namespace Sys2Proof.Machine

/-! ## GF(2^8), field polynomial x^8 + x^4 + x^3 + x^2 + 1 -/

/-- A number times alpha. -/
def gfDouble (a : Nat) : Nat := if 128 ≤ a then (2 * a) ^^^ 0x11D else 2 * a

/-- The product of two field elements. -/
def gfMul (a b : Nat) : Nat :=
  ((List.range 8).foldl (fun (s : Nat × Nat) i => (if b.testBit i then s.1 ^^^ s.2 else s.1, gfDouble s.2)) (0, a)).1

/-- A power of a field element. -/
def gfPow (a : Nat) : Nat → Nat
  | 0 => 1
  | n + 1 => gfMul a (gfPow a n)

/-- alpha^n for n from 0 up, as many as asked. -/
def gfAlphas (n : Nat) : List Nat := ((List.range n).foldl (fun (s : List Nat × Nat) _ => (s.2 :: s.1, gfDouble s.2)) ([], 1)).1.reverse

def gfInv (a : Nat) : Nat := gfPow a 254

/-- A polynomial's value; coefficient 0 first. -/
def gfEval (p : List Nat) (x : Nat) : Nat := p.foldr (fun c acc => c ^^^ gfMul acc x) 0

/-- The generator polynomial with roots alpha^0 to alpha^8, coefficient 0 first. -/
def rsGen : List Nat :=
  (gfAlphas 9).foldl
    (fun g r => (List.range (g.length + 1)).map fun i =>
      gfMul r (g.getD i 0) ^^^ (if i = 0 then 0 else g.getD (i - 1) 0))
    [1]

/-- The nine parity symbols of 133 data symbols, first symbol first. -/
def rsParity (d : List Nat) : List Nat :=
  let g := (rsGen.take 9).reverse
  d.foldl
    (fun r x =>
      let f := x ^^^ r.headD 0
      (List.range 9).map fun i => r.getD (i + 1) 0 ^^^ gfMul f (g.getD i 0))
    (List.replicate 9 0)

/-- The nine syndromes of a codeword, first symbol the coefficient of the highest power. -/
def rsSyndromes (w : List Nat) : List Nat :=
  (gfAlphas 9).map fun a => w.foldl (fun s x => gfMul s a ^^^ x) 0

/-- Berlekamp and Massey's shortest recurrence of the syndromes: the error locator, coefficient 0 first. -/
def rsLocator (syn : List Nat) : List Nat × Nat :=
  let r := (List.range 9).foldl
    (fun (s : List Nat × List Nat × Nat × Nat × Nat) n =>
      let c := s.1
      let b := s.2.1
      let l := s.2.2.1
      let m := s.2.2.2.1
      let bd := s.2.2.2.2
      let d := ((List.range (l + 1)).map fun i => gfMul (c.getD i 0) (if i ≤ n then syn.getD (n - i) 0 else 0)).foldl (· ^^^ ·) 0
      if d = 0 then (c, b, l, m + 1, bd)
      else
        let k := gfMul d (gfInv bd)
        let c' := (List.range (max c.length (b.length + m))).map fun i =>
          c.getD i 0 ^^^ (if m ≤ i then gfMul k (b.getD (i - m) 0) else 0)
        if 2 * l ≤ n then (c', c, n + 1 - l, 1, d) else (c', b, l, m + 1, bd))
    ([1], [1], 0, 1, 1)
  (r.1, r.2.2.1)

/-- One codeword of 142 symbols corrected: its symbols and whether any was wrong; none where no codeword lies within 4
symbols of it (R318). -/
def rsDecode (w : List Nat) : Option (List Nat × Bool) :=
  let syn := rsSyndromes w
  if syn.all (· == 0) then some (w, false)
  else
    let r := rsLocator syn
    let loc := r.1
    let inv := (gfAlphas 255).reverse
    -- positions, counted from the last symbol, at which the locator has a root
    let pos := (List.range 142).filter fun j =>
      gfEval loc (if j = 0 then 1 else inv.getD (j - 1) 0) == 0
    if r.2 ≤ 4 ∧ pos.length = r.2 then
      let omega := (List.range 9).map fun i =>
        ((List.range (i + 1)).map fun t => gfMul (loc.getD t 0) (syn.getD (i - t) 0)).foldl (· ^^^ ·) 0
      let deriv := (List.range 9).map fun i => if i % 2 = 0 then loc.getD (i + 1) 0 else 0
      let fixed := pos.foldl
        (fun (w : List Nat) j =>
          let xi := if j = 0 then 1 else inv.getD (j - 1) 0
          let x := gfPow 2 j
          let e := gfMul x (gfMul (gfEval omega xi) (gfInv (gfEval deriv xi)))
          w.set (141 - j) (w.getD (141 - j) 0 ^^^ e))
        w
      if (rsSyndromes fixed).all (· == 0) then some (fixed, true) else none
    else none

/-- Byte i of 532 goes to codeword i mod 4 (R317): the data of codeword c. -/
def fecData (bs : List Byte) (c : Nat) : List Nat := (List.range 133).map fun j => (bs.getD (4 * j + c) 0).toNat

/-- The 568 bytes of a flit: its 532 bytes, then the four codewords' parity, codeword 0 first (R317). -/
def fecEncode (bs : List Byte) : List Byte :=
  bs ++ (List.range 4).flatMap fun c => (rsParity (fecData bs c)).map (BitVec.ofNat 8)

/-- 568 received bytes corrected: the 532 bytes and how many codewords were corrected; none where one is
uncorrectable (R318). -/
def fecDecode (bs : List Byte) : Option (List Byte × Nat) :=
  let ws := (List.range 4).map fun c =>
    rsDecode (fecData bs c ++ (List.range 9).map fun j => (bs.getD (532 + 9 * c + j) 0).toNat)
  if ws.any (·.isNone) then none
  else
    let cs := ws.map fun w => w.getD ([], false)
    some ((List.range 532).map fun i => BitVec.ofNat 8 ((cs.getD (i % 4) ([], false)).1.getD (i / 4) 0),
      (cs.filter (·.2)).length)

/-! ## Scrambling -/

/-- The scrambler of x^31 + x^28 + 1 advanced by one byte: its new state and the eight bits it adds, the first the
most significant. DEDUCED, unsafe: log entry 56. -/
def scrambleByte (s : BitVec 31) : BitVec 31 × Byte :=
  (List.range 8).foldl
    (fun (r : BitVec 31 × Byte) _ =>
      let b := r.1.getLsbD 30 != r.1.getLsbD 27
      (r.1 <<< 1 ||| BitVec.ofNat 31 (b2n b), r.2 <<< 1 ||| BitVec.ofNat 8 (b2n b)))
    (s, 0)

/-- 568 bytes scrambled or descrambled: byte j goes over lane j mod 8, each lane with its own state (R317). DEDUCED,
unsafe: log entry 56. -/
def scramble (st : List (BitVec 31)) (bs : List Byte) : List (BitVec 31) × List Byte :=
  let r := bs.foldl
    (fun (s : List (BitVec 31) × Nat × List Byte) b =>
      let k := scrambleByte (s.1.getD (s.2.1 % 8) 0)
      (s.1.set (s.2.1 % 8) k.1, s.2.1 + 1, (b ^^^ k.2) :: s.2.2))
    (st, 0, [])
  (r.1, r.2.2.reverse)

end Sys2Proof.Machine
end

