-- ==== Sys2Proof/Machine/Link.lean ====
section
/-! DEFINITION. The Pabu links: flits on the wire (R317, R318, Table 14.3), sending (R319, R320, R322), receiving,
acknowledgement and replay (R322, R323), link down (R324), landing of messages (R235, R321), collectives (R336), control
flits (R332, R333) and the companion sideband (R338, R339). -/

namespace Sys2Proof.Machine

/-! ## Flits -/

/-- A flit's header (Table 14.3). -/
structure Hdr where
  kind : Nat := 0
  flow : Nat := 0
  seq : Nat := 0
  ack : Nat := 0
  creditFlow : Nat := 0
  creditCount : Nat := 0
  first : Bool := false
  last : Bool := false
  lines : Nat := 1
  tag : Nat := 0
  sideband : BitVec 32 := 0
  deriving DecidableEq, Repr

/-- The 12 bytes of a header. -/
def Hdr.bytes (h : Hdr) : List Byte :=
  leBytes 8 (h.kind + h.flow * 2 ^ 4 + h.seq * 2 ^ 8 + h.ack * 2 ^ 20 + h.creditFlow * 2 ^ 32 + h.creditCount * 2 ^ 36 +
    b2n h.first * 2 ^ 40 + b2n h.last * 2 ^ 41 + (h.lines - 1) * 2 ^ 42 + (h.tag % 2 ^ 15) * 2 ^ 48) ++ leBytes 4 h.sideband.toNat

/-- The header that 12 bytes hold. -/
def hdrOf (bs : List Byte) : Hdr :=
  let w := fieldAt bs 0 8
  { kind := bits w 0 4, flow := bits w 4 4, seq := bits w 8 12, ack := bits w 20 12, creditFlow := bits w 32 4,
    creditCount := bits w 36 4, first := bit w 40, last := bit w 41, lines := bits w 42 3 + 1, tag := bits w 48 15,
    sideband := BitVec.ofNat 32 (fieldAt bs 8 4) }

/-- A flit of 524 bytes put on the wire: CRC, error correction and scrambling (R317). -/
def State.wire (s : State) (l : Nat) (bytes : List Byte) : State :=
  let k := s.link l
  let r := scramble k.txScramble (fecEncode (bytes ++ leBytes 8 (crc64 bytes).toNat))
  s.setLink l { k with txScramble := r.1, wireOut := r.2 :: k.wireOut }

/-- The plots that hold flows of a link (R324): those whose claims name it under kind 0x06. -/
def State.linkPlots (s : State) (l : Nat) : List Nat :=
  (s.plots.filter fun e => e.2.state != 0 && e.2.prog.claims.any fun c =>
    c.kind == 6 && decide (c.first ≤ l) && decide (l < c.first + c.count) && c.slots != 0).map (·.1)

/-- The plot that holds a flow of a link. -/
def State.flowPlot (s : State) (l flow : Nat) : Option Nat :=
  (s.plots.find? fun e => e.2.state != 0 && e.2.prog.claims.any fun c =>
    c.kind == 6 && decide (c.first ≤ l) && decide (l < c.first + c.count) && c.slots.getLsbD flow).map (·.1)

/-! ## Lanes -/

/-- The level of a pair of bits under Gray coding, the more significant bit first (R314). -/
def pamLevel (hi lo : Bool) : Int := if hi then (if lo then 1 else 3) else if lo then -1 else -3

/-- The 284 symbols that a lane carries of 568 bytes: byte j goes on lane j mod 8 (R314, R317). DEDUCED, unsafe: log entry
56. -/
def laneSymbols (wire : List Byte) (lane : Nat) : List Int :=
  ((enumFrom 0 wire).filter fun e => e.1 % 8 == lane).flatMap fun e =>
    [7, 5, 3, 1].map fun i => pamLevel (e.2.getLsbD i) (e.2.getLsbD (i - 1))

/-! ## Link trace -/

/-- Whether the link trace records a link: one whose sideband the trace buffer's holder claims (R461). -/
def State.traces (s : State) (l : Nat) : Bool :=
  let cfg := s.reg 0x100200
  wfld cfg 15 1 == 1 && wfld cfg 16 5 == l && wfld cfg 0 4 != 15 &&
    (s.plot (wfld cfg 0 4)).prog.claims.any fun c => c.kind == 7 && decide (c.first ≤ l) && decide (l < c.first + c.count)

/-- A link trace record (R461, Table 21.4); idles are not recorded. Where within its tick a flit is sent or received is left
open. DESIGN CHOICE, safe: log entry 45. -/
def State.traceLink (s : State) (l : Nat) (kind : Byte) (h : Hdr) (sender : Nat) : State :=
  if s.traces l ∧ h.kind ≠ 0 then
    let r := s.draw 6
    r.2.trace (leBytes 6 s.now ++ [kind] ++ leBytes 1 l ++ h.bytes.take 4 ++ zeros 1 ++ leBytes 2 r.1.toNat ++ leBytes 1 sender)
  else s

/-! ## Sending -/

/-- Credits returned with the next header: those owed on the lowest flow that is owed any, up to 15. DEDUCED, unsafe:
log entry 21. -/
def Link.returns (k : Link) : Nat × Nat :=
  match (List.range 16).find? fun f => tget (fun _ => 0) k.owed f != 0 with
  | some f => (f, min 15 (tget (fun _ => 0) k.owed f))
  | none => (0, 0)

/-- The sideband word of the next flit: of companion mode, of the link trace, or 0 (R338, R462). -/
def State.sideband (s : State) (l : Nat) : BitVec 32 × State :=
  let c := s.lnk.comp
  if c.enable ∧ c.link = l then
    (c.out.headD 0, { s with lnk := { s.lnk with comp := { c with out := c.out.drop 1 } } })
  else if s.traces l then (BitVec.ofNat 32 (s.now % 2 ^ 24), s)
  else (0, s)

/-- A flit of a header and payload sent: the header carries the ack, a credit return and the sideband word. -/
def State.launch (s : State) (l : Nat) (h : Hdr) (payload : List Byte) : State × List Byte :=
  let k := s.link l
  let c := k.returns
  let r := s.sideband l
  let h := { h with ack := k.rxSeq, creditFlow := c.1, creditCount := c.2, sideband := r.1 }
  let s := r.2
  let k := s.link l
  let s := s.setLink l { k with owed := tset (fun _ => 0) k.owed c.1 (tget (fun _ => 0) k.owed c.1 - c.2) }
  let bytes := h.bytes ++ fitBytes 512 payload
  ((s.traceLink l 2 h 0).wire l bytes, bytes)

/-- The flow that is served next: the next one in rising order after the last with a flit ready and a credit (R319). -/
def Link.nextFlow (k : Link) : Option Nat :=
  ((List.range 16).map fun i => (k.turn + 1 + i) % 16).find? fun f =>
    k.queue.any (fun t => t.kind != 3 && t.flow == f) && tget (fun _ => 64) k.credits f != 0

/-- A probe's reply as it leaves: the last pipeline stage writes t3 into it (R329). Where the stamps stand in the flit is the
model's. DESIGN CHOICE, unsafe: log entry 19. -/
def State.stamped (s : State) (t : TxItem) : List Byte × State :=
  if t.kind = 3 ∧ t.tag = 2 then
    let r := s.draw 6
    (t.payload.take 18 ++ leBytes 9 (64 * s.now + r.1.toNat) ++ t.payload.drop 27, r.2)
  else (t.payload, s)

/-- A new flit sent: it takes the next sequence number and is held until acknowledged (R322); a data or collective flit
consumes a credit (R320). -/
def State.sendItem (s : State) (l : Nat) (t : TxItem) : State :=
  let k := s.link l
  let seq := k.txSeq
  let h : Hdr := { kind := t.kind, flow := t.flow, seq, first := t.first, last := t.last, lines := t.lines, tag := t.tag }
  let k := { k with
    txSeq := (seq + 1) % 4096
    queue := k.queue.erase t
    turn := if t.kind = 3 then k.turn else t.flow
    credits := if t.kind = 3 then k.credits
      else tset (fun _ => 64) k.credits t.flow (tget (fun _ => 64) k.credits t.flow - 1) }
  let y := s.stamped t
  let r := (y.2.setLink l k).launch l h y.1
  let k := r.1.link l
  r.1.setLink l { k with held := k.held ++ [{ seq, item := t, bytes := r.2, since := s.clk.sundial }] }

/-- Whether a link's layers are frozen too: in a multi-module frost, and after a conservation fault (R334, R403). -/
def State.linkFrozen (s : State) : Bool := s.dbg.frozen && (s.dbg.multi || s.dbg.conservation)

/-- FLIT_SEND (R319, R322, R454): a NAK goes first, then replays, control flits and the flows by rotation; else an idle.
In a frost of this module alone no new flit is sent. In a multi-module frost only the order that ends it crosses. -/
def execFlitSend (l : BitVec 5) (s : State) : Host.Outcome State Fault Refusal :=
  let l := l.toNat
  let k := s.link l
  if k.state ≠ 2 ∨ !s.clk.locked then .next s
  else if s.linkFrozen then
    match k.queue.find? fun t => t.kind == 3 && t.tag == 5 with
    | some t => .next (if s.dbg.conservation then s else s.sendItem l t)
    | none => .next s
  else
    match k.nak with
    | some n => .next ((s.setLink l { k with nak := none }).launch l { kind := 4, tag := n } []).1
    | none =>
      match k.replay with
      | q :: rest =>
        let s := s.setLink l { k with replay := rest }
        (match k.held.find? fun x => x.seq == q with
         | some x => .next ((s.traceLink l 2 (hdrOf x.bytes) 0).wire l x.bytes)
         | none => .next s)
      | [] =>
        if s.dbg.frozen then .next (s.launch l {} []).1
        else
          match k.queue.find? fun t => t.kind == 3 with
          | some t => .next (s.sendItem l t)
          | none =>
            match k.nextFlow with
            | some f =>
              (match k.queue.find? fun t => t.kind != 3 && t.flow == f with
               | some t => .next (s.sendItem l t)
               | none => .next s)
            | none => .next (s.launch l {} []).1

/-! ## Link down -/

/-- Flits handed to a link leave the account of their plots (R194); control flits are in none. -/
def State.unsend (s : State) (ts : List TxItem) : State :=
  ts.foldl (fun (s : State) t =>
    if t.plot < 16 then s.setPlot t.plot { s.plot t.plot with sends := (s.plot t.plot).sends - 1 } else s) s

/-! ## The sow tree -/

/-- This module's domain and position. -/
def State.domain (s : State) : Nat := s.fld 0x60008 0 16
def State.position (s : State) : Nat := s.fld 0x60008 16 6

/-- The positions of the members whose parent this module is, as their links told in training (R328). -/
def State.kids (s : State) : List Nat := (s.lnk.links.filter fun e => e.2.child).map fun e => e.2.partnerPos

/-- Whether the first of two neighbours is before the second: nearer to the root, then the lower position, then link (R328). -/
def nearer (k b : Nat × Nat × Nat) : Bool :=
  decide (k.1 < b.1) || k.1 == b.1 && (decide (k.2.1 < b.2.1) || k.2.1 == b.2.1 && decide (k.2.2 < b.2.2))

/-- The tree links (R328): of this module, among trained links to members of the domain, the one to the neighbour nearest to the
root, ties going to the lower position and then the lower link (the root has none); and that of each child, the lowest of
its links to this module. -/
def State.retree (s : State) (kids : List Nat) : State :=
  let cands := s.lnk.links.filter fun e => e.2.state == 2 && e.2.inDomain
  let best := cands.foldl
    (fun (a : Option (Nat × Nat × Nat)) e =>
      let k := (e.2.rootDist, e.2.partnerPos, e.1)
      match a with
      | none => some k
      | some b => if nearer k b then some k else some b)
    none
  let tree := if s.position = 0 then none else best.map (·.2.2)
  let child := fun (k : Link) => kids.contains k.partnerPos &&
    cands.all fun e => e.2.partnerPos != k.partnerPos || decide (k.partnerLink ≤ e.2.partnerLink)
  s.lnk.links.foldl
    (fun (s : State) e =>
      let up := e.2.state == 2 && e.2.inDomain
      s.setLink e.1 { s.link e.1 with tree := up && tree == some e.1, child := up && child e.2 }) s

/-- A link declared down (R324): latched, reported with the link blamed, the plots that hold its flows stopped with code
0x52, what it holds counted back, and the tree links chosen anew among the links that are left (R328). -/
def State.linkDown (s : State) (l cause : Nat) : State :=
  let k := s.link l
  let kids := s.kids
  let off := 0xB0020 + 0x100 * l
  let s := if s.fld off 0 1 = 1 then s else s.setReg off (BitVec.ofNat 64 (1 + cause * 2 + (s.now % 2 ^ 48) * 2 ^ 4))
  let s := s.unsend (k.queue ++ k.held.map (·.item))
  let s := s.setLink l { k with
    state := 0, queue := [], held := [], replay := [], nak := none, credits := [], rx := [], arrived := [], owed := [],
    nakSent := none, ctlIn := [], captured := [], partnerFormed := false, fresh := false }
  let s := s.retree kids
  let s := s.report (unitId 5 l) (unitId 0xE (if l < 12 then 0 else 1)) 0x83 cause
  (s.linkPlots l).foldl
    (fun (s : State) p => if (s.plot p).state = 3 ∨ (s.plot p).state = 4 then s.stopPlot p 0x52 none else s) s

/-- LINK_SILENCE_TIMEOUT (R324): no valid flit for 1,000 ticks, the expiry tick included (R405); the timer stands still in a
multi-module frost. -/
def execLinkSilenceTimeout (l : BitVec 5) (s : State) : Host.Outcome State Fault Refusal :=
  let k := s.link l.toNat
  if k.state = 2 ∧ !s.linkFrozen ∧ k.lastValid.toNat + 1000 < s.now then .next (s.linkDown l.toNat 2) else .next s

/-- FLIT_ALIGNMENT_LOST (R324): cause 1. -/
def execFlitAlignmentLost (l : BitVec 5) (s : State) : Host.Outcome State Fault Refusal :=
  if (s.link l.toNat).state = 2 then .next (s.linkDown l.toNat 1) else .next s

/-! ## Replay -/

/-- The first replay of a sequence number, in the run record of every plot that holds a flow of the link (R323). -/
def State.replayEvent (s : State) (l : Nat) (x : TxHeld) : State :=
  (s.linkPlots l).foldl
    (fun (s : State) p => s.event p 0x08 0xFF 0 0 (leBytes 1 l ++ leBytes 2 x.seq ++ leBytes 1 x.item.flow)) s

/-- A replay of every unacknowledged flit from one on (R322, R323); the eighth consecutive one of a sequence number
declares the link down (Table 14.4). -/
def State.startReplay (s : State) (l seq : Nat) : State :=
  let k := s.link l
  let again := k.held.dropWhile fun x => x.seq != seq
  if again.isEmpty then s
  else
    let s := s.bump (0xB0018 + 0x100 * l) 0 32 1
    let s := (s.linkPlots l).foldl
      (fun (s : State) p =>
        let r := s.runRec p
        if r.isOpen then s.setRunRec p { r with retried := true, replays := satAdd 32 r.replays 1 } else s) s
    let s := (again.filter fun x => x.replays == 0).foldl (fun (s : State) x => s.replayEvent l x) s
    let held := k.held.takeWhile (fun x => x.seq != seq) ++
      again.map fun x => { x with replays := x.replays + 1, since := s.clk.sundial }
    let s := s.setLink l { s.link l with held, replay := again.map (·.seq) }
    if held.any fun x => 8 ≤ x.replays then s.linkDown l 0 else s

/-- REPLAY_TIMEOUT (R322): the oldest unacknowledged flit has been held for 200 ticks, and no ack came in the expiry tick
(R405). -/
def execReplayTimeout (l : BitVec 5) (s : State) : Host.Outcome State Fault Refusal :=
  let l := l.toNat
  let k := s.link l
  match k.held with
  | [] => .next s
  | x :: _ =>
    if k.state = 2 ∧ !s.linkFrozen ∧ x.since.toNat + 200 < s.now then
      .next ((s.bump (0xB0018 + 0x100 * l) 32 16 1).startReplay l x.seq)
    else .next s

/-! ## Receiving -/

/-- An ack: every held flit up to the one named is acknowledged (R322). -/
def State.ackTo (s : State) (l n : Nat) : State :=
  let k := s.link l
  if k.held.any fun x => x.seq == n then
    let done := k.held.takeWhile (fun x => x.seq != n) ++ (k.held.find? fun x => x.seq == n).toList
    let held := (k.held.dropWhile fun x => x.seq != n).drop 1
    (s.unsend (done.map (·.item))).setLink l { k with
      held, replay := k.replay.filter fun q => held.any fun x => x.seq == q,
      creditAt := done.foldl (fun t x => if x.item.kind = 3 then t else tset (fun _ => 0) t x.item.flow s.clk.cycles) k.creditAt }
  else s

/-- Credits returned by the partner (R320). -/
def State.credit (s : State) (l flow n : Nat) : State :=
  let k := s.link l
  s.setLink l { k with
    credits := tset (fun _ => 64) k.credits flow (tget (fun _ => 64) k.credits flow + n)
    creditAt := if n = 0 then k.creditAt else tset (fun _ => 0) k.creditAt flow s.clk.cycles }

/-- A sideband word of companion mode: eight words make the partner's next record, none of which begins with 0 (R338). -/
def State.sidebandIn (s : State) (l : Nat) (w : BitVec 32) : State :=
  let c := s.lnk.comp
  if c.enable ∧ c.link = l ∧ (w ≠ 0 ∨ c.arriving ≠ []) then
    let ws := c.arriving ++ [w]
    if ws.length < 8 then { s with lnk := { s.lnk with comp := { c with arriving := ws } } }
    else
      let r : CmpRec := { bytes := ws.flatMap fun x => leBytes 4 x.toNat, tick := s.clk.sundial }
      ({ s with lnk := { s.lnk with comp := { c with arriving := [], partner := c.partner ++ [r] } } } : State).settle
  else s

/-- What every accepted flit brings: its ack, its credit return and its sideband word. -/
def State.headerIn (s : State) (l : Nat) (h : Hdr) : State :=
  ((((s.traceLink l 3 h (bits h.sideband.toNat 16 8)).ackTo l h.ack).credit l h.creditFlow h.creditCount).sidebandIn l
    h.sideband)

/-- A flit out of order is discarded, with a NAK for the number expected: one until a flit with that number has
arrived or 200 ticks have passed (R322). DEDUCED, unsafe: log entry 21. -/
def State.outOfOrder (s : State) (l : Nat) : State :=
  let k := s.link l
  let n := (k.rxSeq + 1) % 4096
  match k.nakSent with
  | some e => if e.1 = n ∧ s.now < e.2.toNat + 200 then s
    else s.setLink l { k with nak := some n, nakSent := some (n, s.clk.sundial) }
  | none => s.setLink l { k with nak := some n, nakSent := some (n, s.clk.sundial) }

/-- A flit captured in a multi-module frost is read for a thaw order, which is kept for its own row and goes on down the
tree (R334). -/
def State.thawOrderIn (s : State) (l : Nat) (wire : List Byte) : State :=
  let k := s.link l
  let before := k.captured.foldl (fun (st : List (BitVec 31)) w => (scramble st w).1) k.rxScramble
  match fecDecode (scramble before wire).2 with
  | none => s
  | some d =>
    let body := d.1.take 524
    let h := hdrOf body
    if s.dbg.multi ∧ fieldAt d.1 524 8 = (crc64 body).toNat ∧ h.kind = 3 ∧ h.tag % 256 = 5 then
      let order := (body.drop 12).take 42
      (s.setLink l { k with ctlIn := k.ctlIn ++ [leBytes 1 5 ++ order] }).flood (some l) 5 order
    else s

/-- A flit that arrives while the links are frozen: up to 64 are captured (R334). -/
def State.capture (s : State) (l kind : Nat) (wire : List Byte) : State :=
  if (s.link l).captured.length < 64 then
    let s := if kind = 3 then s.thawOrderIn l wire else s
    s.setLink l { s.link l with captured := (s.link l).captured ++ [wire] }
  else s

/-- 568 bytes of the wire received on a link, for the row of one flit type: descrambled, corrected, checked (R317, R318),
and, for a type with a sequence number, accepted only in order (R322). `f` is what an accepted flit does. A flit of
another type is another row's; one of a reserved type is not used. -/
def State.receive (s : State) (l kind : Nat) (wire : List Byte) (f : Hdr → List Byte → State → State) : State :=
  let k := s.link l
  if k.state ≠ 2 ∨ wire.length ≠ 568 ∨ !s.clk.locked then s
  else if s.linkFrozen then s.capture l kind wire
  else
    let r := scramble k.rxScramble wire
    let s' := s.setLink l { k with rxScramble := r.1 }
    let err := 0xB0010 + 0x100 * l
    match fecDecode r.2 with
    | none => s'.bump err 48 16 1
    | some d =>
      let body := d.1.take 524
      let s' := s'.bump err 0 32 d.2
      if fieldAt d.1 524 8 ≠ (crc64 body).toNat then s'.bump err 32 16 1
      else
        let h := hdrOf body
        if 4 < h.kind then s'
        else if h.kind ≠ kind then s
        else
          let s' := s'.setLink l { s'.link l with lastValid := s.clk.sundial }
          let seqd := kind == 1 || kind == 2 || kind == 3
          if seqd && h.seq != (k.rxSeq + 1) % 4096 then s'.outOfOrder l
          else
            let s' := if seqd then s'.setLink l { s'.link l with rxSeq := h.seq, nakSent := none } else s'
            f h (body.drop 12) (s'.headerIn l h)

/-- A received flit as its flow's buffer holds it. -/
def State.rxOf (s : State) (h : Hdr) (payload : List Byte) : RxItem :=
  { afterCut := s.dbg.frozen,
    kind := h.kind, flow := h.flow, first := h.first, last := h.last, lines := h.lines, tag := h.tag, payload }

/-- IDLE_FLIT_RECEIVE: its ack, credit return and sideband word. -/
def execIdleFlitReceive (l : BitVec 5) (wire : List Byte) (s : State) : Host.Outcome State Fault Refusal :=
  .next (s.receive l.toNat 0 wire fun _ _ s => s)

/-- NAK_RECEIVE (R322): a replay from the flit named. -/
def nakIn (l : Nat) (h : Hdr) (s : State) : State :=
  (s.bump (0xB0018 + 0x100 * l) 48 16 1).startReplay l (bits h.tag 0 12)

def execNakReceive (l : BitVec 5) (wire : List Byte) (s : State) : Host.Outcome State Fault Refusal :=
  .next (s.receive l.toNat 4 wire fun h _ s => nakIn l.toNat h s)

/-- A data flit waits in its flow's buffers until its message lands (R235, R320). -/
def dataIn (l : Nat) (h : Hdr) (payload : List Byte) (s : State) : State :=
  let k := s.link l
  s.setLink l { k with rx := k.rx ++ [s.rxOf h payload] }

/-- DATA_FLIT_RECEIVE (R322). -/
def execDataFlitReceive (l : BitVec 5) (wire : List Byte) (s : State) : Host.Outcome State Fault Refusal :=
  .next (s.receive l.toNat 1 wire fun h p s => dataIn l.toNat h p s)

/-! ## Collectives -/

/-- The flits of the oldest run of a collective that have not been read, up to its last: their number, their bytes, whether the
last is among them, and the buffers with them marked. -/
def readRun (flow c : Nat) : List RxItem → (Nat × List Byte × Bool) × List RxItem
  | [] => ((0, [], false), [])
  | x :: xs =>
    if x.kind == 2 && x.flow == flow && x.tag % 256 == c && !x.taken then
      let here := x.payload.take (64 * x.lines)
      if x.last then ((1, here, true), { x with taken := true } :: xs)
      else
        let r := readRun flow c xs
        ((r.1.1 + 1, here ++ r.1.2.1, r.1.2.2), { x with taken := true } :: r.2)
    else
      let r := readRun flow c xs
      (r.1, x :: r.2)

/-- Collective flits that have arrived are read: a child's go into its partial, one run at a time, and keep their buffers until
their items have been combined; the parent's result goes on to the children and the beds (R336), and its credits return
(R320). -/
def State.takeRun (s : State) (l flow c : Nat) : State :=
  match s.flowPlot l flow with
  | none => s
  | some p =>
    let e := (s.plot p).prog.coll c
    let r := readRun flow c (s.link l).rx
    if r.1.1 = 0 then s
    else if e.parent = l then
      let s := s.setLink l { s.link l with rx := dropTaken flow c r.1.1 r.2 }
      (s.owe l flow r.1.1).deliver p c (r.1.2.1.take (itemSize e.op * e.count - ((s.plot p).gather c).down))
    else
      let x := s.plot p
      let q := (x.partials.find? fun q => q.coll == c && q.link == l).getD { coll := c, link := l }
      if q.whole then s
      else
        let q := { q with bytes := q.bytes ++ r.1.2.1, whole := r.1.2.2 }
        let s := s.setLink l { s.link l with rx := r.2 }
        (s.setPlot p { x with partials := (x.partials.filter fun o => o.coll != c || o.link != l) ++ [q] }).combine p c

/-- A collective flit waits in its flow's buffers until it is read; in a frost it waits on (R454). One that comes from another
domain is discarded, and its credit returns: collectives use links between members of one domain (R328). -/
def collIn (l : Nat) (h : Hdr) (payload : List Byte) (s : State) : State :=
  let k := s.link l
  if !k.inDomain then s.owe l h.flow 1
  else
    let t := s.setLink l { k with rx := k.rx ++ [s.rxOf h payload] }
    if s.dbg.frozen then t else t.takeRun l h.flow (h.tag % 256)

/-- The flits of collectives that arrived in a frost. -/
def State.takeRuns (s : State) (l : Nat) : State :=
  ((s.link l).rx.filter fun x => x.kind == 2 && !x.taken).foldl (fun (s : State) x => s.takeRun l x.flow (x.tag % 256)) s

/-- COLLECTIVE_FLIT_RECEIVE (R336). -/
def execCollectiveFlitReceive (l : BitVec 5) (wire : List Byte) (s : State) : Host.Outcome State Fault Refusal :=
  .next (s.receive l.toNat 2 wire fun h p s => collIn l.toNat h p s)

/-! ## Landing of messages -/

/-- The messages of a flow whose flits have all arrived, or at least their first: the flits of the oldest one. -/
def Link.message (k : Link) (flow : Nat) : List RxItem :=
  let mine := k.rx.filter fun x => x.kind == 1 && x.flow == flow
  mine.takeWhile (fun x => !x.last) ++ ((mine.dropWhile fun x => !x.last).take 1)

/-- An LRECV execution at which a message of a link's flow could land: the index, its destination and length in lines. -/
structure Window where
  index : Nat
  exec : Nat
  addr : Nat
  tensor : Nat
  len : Nat
  isOpen : Bool
  /-- the A-cycle from which it is open -/
  opens : Nat
  deriving DecidableEq, Repr

/-- Where a bed's control flow goes from an instruction: its loops opened, or its place moved on (R177, R178). -/
def walkOn (pc : Nat) (loops : List LoopFrame) (i : Option Instr) : Nat × List LoopFrame :=
  match i with
  | some (.loop _ h count body) =>
    if enabled h loops then
      (pc + 1, loops ++ [{ start := pc + 1, stop := pc + 1 + body.toNat + 1, count := count.toNat + 1, iter := 0 }])
    else stepLoops (pc + 1) loops
  | _ => stepLoops (pc + 1) loops

/-- The next LRECV executions of a bed on a link's flow that no message has landed for, found along the static control
flow from a place: `done` counts, by index, the executions passed on the way. -/
def seekRecv (b : Bed) (c : Ctx) (link flow : Nat) : Nat → Nat → List LoopFrame → Tbl Nat → Option Window
  | 0, _, _, _ => none
  | fuel + 1, pc, loops, passed =>
    let i := decodeIns 0 (tget (fun _ => 0) b.store pc)
    let next := walkOn pc loops i
    match i with
    | none => none
    | some (.endList _ h) => if enabled h loops then none else seekRecv b c link flow fuel next.1 next.2 passed
    | some (.lrecv _ h l f len dst _) =>
      if l.toNat = link ∧ f.toNat = flow ∧ enabled h loops then
        let n := tget (fun _ => 0) b.seq.recvEnded pc + tget (fun _ => 0) passed pc + 1
        if n ≤ tget (fun _ => 0) b.seq.recvLanded pc then
          seekRecv b c link flow fuel next.1 next.2 (tset (fun _ => 0) passed pc (tget (fun _ => 0) passed pc + 1))
        else
          let o := ({ c with iters := loops.map (·.iter) } : Ctx).opnd dst
          some { index := pc, exec := n, addr := o.addr, tensor := o.ti, len := len.toNat + 1,
                 isOpen := n == tget (fun _ => 0) b.seq.recvEnded pc + 1, opens := tget (fun _ => 0) b.seq.recvOpen pc }
      else seekRecv b c link flow fuel next.1 next.2 passed
    | some _ => seekRecv b c link flow fuel next.1 next.2 passed

/-- The window of a bed: from the LRECV it waits at, if it waits, else from where its sequencer stands. -/
def State.window (s : State) (p link flow : Nat) : Option Window :=
  let b := s.bed p
  let c := s.ctx p
  let here := match b.seq.wait with
    | some w => if w.kind = 1 ∧ w.link = link ∧ w.flow = flow ∧
        tget (fun _ => 0) b.seq.recvLanded w.index ≤ tget (fun _ => 0) b.seq.recvEnded w.index then some w else none
    | none => none
  match here with
  | some w =>
    match decodeIns 0 (tget (fun _ => 0) b.store w.index) with
    | some (.lrecv _ _ _ _ len dst _) =>
      let o := ({ c with iters := w.iters } : Ctx).opnd dst
      some { index := w.index, exec := tget (fun _ => 0) b.seq.recvEnded w.index + 1, addr := o.addr, tensor := o.ti,
             len := len.toNat + 1, isOpen := true, opens := tget (fun _ => 0) b.seq.recvOpen w.index }
    | _ => none
  | none =>
    let passed := match b.seq.wait with
      | some w => if w.kind = 1 then tset (fun _ => 0) [] w.index 1 else []
      | none => []
    seekRecv b c link flow 4000000 b.seq.pc b.seq.loops passed

/-- The route over which a link's messages land in a bed of a plot (R321, R263). -/
def State.messageRoute (s : State) (p b l : Nat) : Route :=
  ((s.plot p).prog.routes.find? fun q => q.source == linkEndpoint l && q.dest.getLsbD (s.bed b).logical).getD {}

/-- Bytes of a message from `off` on put on their way to the window of a bed; with its last byte, the A-cycle of that byte is kept
for the LRECV, and the message has arrived (R233, R321, R395). -/
def State.landMessage (s : State) (p l : Nat) (b : Nat) (w : Window) (before bytes : List Byte) (ends : Bool) (dues : List Nat) : State :=
  let s := s.sendWords p { segment := (s.messageRoute p b l).segment, exec := w.exec, bed := b, send := true, addr := 0, bytes,
                           enabled := true, dues } (w.addr + before.length)
  if ends then
    let x := s.bed b
    let n := tget (fun _ => 0) x.seq.recvLanded w.index + 1
    let s := s.setBed b { x with seq := { x.seq with
      recvLanded := tset (fun _ => 0) x.seq.recvLanded w.index n, recvAt := tset (fun _ => 0) x.seq.recvAt w.index (dues.getLastD 0) } }
    s.arrive p w.tensor x.logical w.index (before ++ bytes)
  else s

/-- Flits that have left a flow's buffers: their credits are owed, and the bytes of a message still in progress are kept. -/
def State.takeFlits (s : State) (l f : Nat) (m : List RxItem) (kept : List Byte) : State :=
  let k := s.link l
  (s.setLink l { k with rx := m.foldl (fun r y => r.erase y) k.rx, arrived := tset (fun _ => []) k.arrived f kept }).owe l f m.length

/-- MESSAGE_LAND (R235, R320, R321, R395): the flits of a flow's oldest message that have arrived go on their way into every bed
whose next LRECV names the flow, once the window of that execution is open, and their credits return; a wrong length in the
first flit stops the plot with code 0x54 at that LRECV. Flits of a message whose beginning a stopped plot took are
discarded. -/
def execMessageLand (l : BitVec 5) (f : BitVec 4) (s : State) : Host.Outcome State Fault Refusal :=
  let l := l.toNat
  let f := f.toNat
  let m := (s.link l).message f
  let before := tget (fun _ => []) (s.link l).arrived f
  match m, s.flowPlot l f with
  | x :: _, some p =>
    let ws := (s.bedsOf p).filterMap fun b => (s.window b l f).map fun w => (b, w)
    if before = [] ∧ !x.first then .next (s.takeFlits l f m [])
    else if !s.running || (s.plot p).state != 3 || ws.isEmpty || !(ws.all fun e => e.2.isOpen) then .next s
    else
      match if x.first then ws.find? fun e => e.2.len != x.tag + 1 else none with
      | some e =>
        .next ((s.report (unitId 5 l) (unitId 0xE (if l < 12 then 0 else 1)) 0x54 e.2.index).stopPlot p 0x54
          (some (e.1, e.2.index, 0, 0)))
      | none =>
        let len := 64 * ws.foldl (fun a e => max a e.2.len) 0
        let bytes := (m.flatMap fun y => y.payload.take (64 * y.lines)).take (len - before.length)
        let ends := m.any (·.last)
        let s := s.takeFlits l f m (if ends then [] else before ++ bytes)
        let start := ws.foldl (fun a e => max a e.2.opens) 0
        let es := ws.map fun e => (e, s.routeDues p (s.messageRoute p e.1 l) start (ceilDiv bytes.length 256))
        .next (es.foldl (fun (s : State) e => s.landMessage p l e.1.1 e.1.2 before bytes ends e.2) s)
  | _, _ => .next s

end Sys2Proof.Machine
end

