-- ==== Sys2Proof/Machine/Train.lean ====
section
/-! DEFINITION. Training and retraining of links (R325, R326), the sow tree (R328), probe measurements and the sundial's
recheck (R329, R331), the link services, and companion mode (R338, R339). -/

namespace Sys2Proof.Machine

/-! ## Probe exchanges -/

/-- Twice theta of one exchange, in 1/64 tick (R329). -/
def probeTheta (p : Probe) : Int :=
  ((p.t2.toNat : Int) - p.t1.toNat) - ((p.t4.toNat : Int) - p.t3.toNat)

/-- Twice the delay of one exchange. -/
def probeDelay (p : Probe) : Int :=
  ((p.t2.toNat : Int) - p.t1.toNat) + ((p.t4.toNat : Int) - p.t3.toNat)

/-- Whether four timestamps can be those of an exchange that has ended: the probe leaves before its reply comes, the partner
answers after it came, and the reply has arrived (R329). -/
def State.exchanged (s : State) (q : Probe) : Bool :=
  decide (q.t1 ≤ q.t4) && decide (q.t2 ≤ q.t3) && decide (q.t4.toNat / 64 ≤ s.now)

/-- The mean of 16 exchanges, in 1/64 tick: their doubled sum over 32. Which way a fraction rounds is left open.
DESIGN CHOICE, unsafe: log entry 23. -/
def probeMean (sum2 : Int) (up : Bool) : Int := if sum2 % 32 ≠ 0 ∧ up then sum2 / 32 + 1 else sum2 / 32

/-- theta and d of 16 exchanges from their doubled sums. -/
def State.means (s : State) (theta2 delay2 : Int) : (Int × Int) × State :=
  let r := s.draw 2
  ((probeMean theta2 (r.1.getLsbD 0), probeMean delay2 (r.1.getLsbD 1)), r.2)

/-- A link's measurement written into SDL_OFFSET and SDL_DELAY (R329). -/
def State.measured (s : State) (l : Nat) (theta delay : Int) : State :=
  (s.setReg (0x60100 + 8 * l) (BitVec.ofNat 64 (toTwos 64 theta))).setReg (0x60200 + 8 * l)
    (BitVec.ofNat 64 (toTwos 24 delay + 2 ^ 24))

/-! ## Training -/

/-- A link trained (R325): its steps in order; a failure leaves it down, a partner other than the one before declares it
down with cause 4 (R326). -/
def State.train (s : State) (l : Nat) (env : LinkEnv) : State :=
  let k := s.link l
  let self := env.identity = s.sec.identity
  let kids := s.kids
  if env.failStep ≠ 0 ∨ self then (s.setLink l { k with state := 0, failedAt := some s.clk.sundial }).retree kids
  else
    let changed := match k.partnerId with
      | some d => d != env.identity
      | none => false
    let inDomain := env.domain.toNat == s.domain
    let k : Link := {
      state := 2, laneRev := env.laneRev, polarity := env.polarity, partnerLink := env.partnerLink.toNat,
      partnerPos := env.position.toNat, partnerDomain := env.domain.toNat, partnerId := some env.identity,
      rootDist := env.rootDist.toNat, inDomain, child := env.child && inDomain,
      txScramble := env.txScramble, rxScramble := env.rxScramble, lastValid := s.clk.sundial,
      lastCheck := s.clk.sundial, wireOut := k.wireOut }
    let s := s.setLink l k
    let kids := if k.child then k.partnerPos :: kids else kids
    if changed then s.linkDown l 4
    else
      let s := if env.probes.length = 16 then
          let r := s.means ((env.probes.map probeTheta).sum) ((env.probes.map probeDelay).sum)
          r.2.measured l r.1.1 r.1.2
        else s
      s.retree kids

/-- What ends a retraining asked for through the service (R326, R387): doorbell bit 7, and the request completes.
DEDUCED, unsafe: log entry 22. -/
def State.trainEnd (s : State) (l : Nat) : State :=
  if s.host.waiters.any fun w => w.svc == 0x10 && w.unit == l then (s.answer 0x10 l 0 0 0).setDoor 7 else s

/-- LINK_TRAIN (R325): a link in training. -/
def execLinkTrain (l : BitVec 5) (env : LinkEnv) (s : State) : Host.Outcome State Fault Refusal :=
  let n := l.toNat
  if (s.link n).state = 1 then .next ((s.train n env).trainEnd n) else .next s

/-- Ticks between the trainings of a link that fails them: 100 ms (R325). -/
def retryTicks : Nat := 10000000

/-- Whether a link's last training failed 100 ms ago or earlier. -/
def Link.retryDue (k : Link) (now : Nat) : Bool :=
  match k.failedAt with
  | some t => decide (t.toNat + retryTicks ≤ now)
  | none => false

/-- LINK_TRAIN_RETRY (R325): a link that a failed training left down, and that is not held down, is trained again by firmware,
which runs from step 7 of start-up on. -/
def execLinkTrainRetry (l : BitVec 5) (env : LinkEnv) (s : State) : Host.Outcome State Fault Refusal :=
  let n := l.toNat
  if n < 24 ∧ (s.link n).state = 0 ∧ s.clk.locked ∧ tget (fun _ => 0) s.grd.gardState 8 = 1 ∧ (s.link n).retryDue s.now
  then .next (s.train n env) else .next s

/-- A retraining asked for: the link is first declared down with cause 3, then trains (R326). A disabled link stays
down. DEDUCED, unsafe: log entry 22. -/
def State.retrain (s : State) (l : Nat) : State :=
  if (s.link l).state = 3 then s
  else
    let s := if (s.link l).state = 2 then s.linkDown l 3 else s
    s.setLink l { s.link l with state := 1 }

/-- A link held down, or released to be trained again (R326, R386). -/
def State.disable (s : State) (l : Nat) (on : Bool) : State :=
  if on then
    let s := if (s.link l).state = 2 then s.linkDown l 3 else s
    s.setLink l { s.link l with state := 3 }
  else if (s.link l).state = 3 then s.setLink l { s.link l with state := 0 }
  else s

/-- LINK_RETRAIN (R326): the service; it is done once the training ends. -/
def execLinkRetrain (src : Src) (s : State) : Host.Outcome State Fault Refusal :=
  if s.service src 0x10 then
    let l := fieldAt (s.request src) 16 1
    if 24 ≤ l then .next (s.serve src 0x71 0)
    else if (s.link l).state = 3 then .next (s.serve src 0x72 0)
    else .next ((s.retrain l).await 0x10 l src 0)
  else .next s

/-- LINK_DISABLE (R386). -/
def execLinkDisable (src : Src) (s : State) : Host.Outcome State Fault Refusal :=
  if s.service src 0x11 then
    let l := fieldAt (s.request src) 16 1
    let on := bit (fieldAt (s.request src) 17 1) 0
    if 24 ≤ l then .next (s.serve src 0x71 0)
    else
      let s := s.setFld (0xB0008 + 0x100 * l) 1 1 (b2n on)
      .next (((s.disable l on).serve src 0 0).setDoor 7)
  else .next s

/-! ## The sundial's recheck -/

/-- SUNDIAL_RECHECK (R331): 1,000,000 ticks after its last measurement a trained in-domain link is measured again; an
offset of more than 1 tick is a sundial slip, with the link blamed. DESIGN CHOICE, unsafe: log entry 23. -/
def execSundialRecheck (l : BitVec 5) (probes : List Probe) (s : State) : Host.Outcome State Fault Refusal :=
  let l := l.toNat
  let k := s.link l
  if k.state = 2 ∧ k.inDomain ∧ s.clk.locked ∧ !s.linkFrozen ∧ probes.length = 16 ∧ probes.all s.exchanged ∧ k.lastCheck.toNat + 1000000 ≤ s.now then
    let r := s.means ((probes.map probeTheta).sum) ((probes.map probeDelay).sum)
    let theta := r.1.1
    let s := (r.2.setLink l { k with lastCheck := s.clk.sundial }).measured l theta r.1.2
    if theta < -64 ∨ 64 < theta then
      let s := if s.fld 0x60018 0 1 = 1 then s
        else s.setReg 0x60018 (BitVec.ofNat 64 (1 + l * 2 + (s.now % 2 ^ 48) * 2 ^ 6))
      let s : State := { s with lnk := { s.lnk with slipped := true } }
      .next (s.report (unitId 5 l) (unitId 0xE (if l < 12 then 0 else 1)) 0x84 (toTwos 64 theta))
    else .next s
  else .next s

/-! ## Companion mode -/

/-- COMPANION_START (R338, R386): the sideband of one link is claimed as holder 0xF, and comparison begins. -/
def execCompanionStart (src : Src) (s : State) : Host.Outcome State Fault Refusal :=
  if s.service src 0x18 then
    let l := fieldAt (s.request src) 16 1
    let timeout := fieldAt (s.request src) 24 4
    if 24 ≤ l then .next (s.serve src 0x71 0)
    else
      match s.holder 7 l 0 with
      | some h => .next (s.complete src 1 0x07 (reportWord 0x10 h 7 l 0))
      | none =>
        if s.lnk.comp.enable then .next (s.serve src 0x72 0)
        else
          let s : State := { s with
            fwClaims := s.fwClaims ++ [{ kind := 7, first := l, count := 1 }]
            lnk := { s.lnk with comp := { enable := true, link := l } } }
          let s := ((s.setFld 0xB1800 0 1 1).setFld 0xB1800 1 5 l).setFld 0xB1800 7 32 timeout
          .next (s.serve src 0 0)
  else .next s

/-- COMPANION_STOP (R386): the sideband claim is released. -/
def execCompanionStop (src : Src) (s : State) : Host.Outcome State Fault Refusal :=
  if s.service src 0x19 then
    if s.lnk.comp.enable then
      let s : State := { s with
        fwClaims := s.fwClaims.filter fun c => !(c.kind == 7 && c.first == s.lnk.comp.link)
        lnk := { s.lnk with comp := {} } }
      .next ((s.setFld 0xB1800 0 6 0).serve src 0 0)
    else .next (s.serve src 0x72 0)
  else .next s

/-- COMPANION_RECORD_TIMEOUT (R339): a record unmatched for the timeout, the expiry tick included (R405), is a mismatch of kind
2. -/
def execCompanionRecordTimeout (s : State) : Host.Outcome State Fault Refusal :=
  let c := s.lnk.comp
  let late := fun (r : CmpRec) => decide (r.tick.toNat + s.fld 0xB1800 7 32 < s.now)
  if c.enable ∧ !s.linkFrozen then
    match (c.own ++ c.partner).find? late with
    | none => .next s
    | some r =>
      let s : State := { s with lnk := { s.lnk with comp := { c with own := c.own.erase r, partner := c.partner.erase r } } }
      .next (s.mismatch 2 r.bytes)
  else .next s

end Sys2Proof.Machine
end

