-- ==== Sys2Proof/Machine/Sow.lean ====
section
/-! DEFINITION. Sowing, completing and unloading plots (R193, R194, R262, R333, R372 to R374), run records as bytes
(R398, R399, R375), and control flits (R332). -/

namespace Sys2Proof.Machine

/-! ## Answers to a multi-module sow (R333) -/

/-- What a member answers: sown, refused, or without the plot. -/
inductive SowAns where
  | sown | refused | without
  deriving DecidableEq, Repr

/-- An answer as a control flit's payload. DESIGN CHOICE, unsafe: log entry 19. -/
def ansBytes (a : SowAns) (code tick : Nat) (dig : BitVec 256) : List Byte :=
  leBytes 1 (match a with | .sown => 0 | .refused => 1 | .without => 2) ++ leBytes 1 code ++ leBytes 8 tick ++ digestBytes dig

/-- An answer counted. -/
def Asked.add (q : Asked) (a : SowAns) (code : Nat) : Asked :=
  match a with
  | .sown => { q with sown := q.sown + 1 }
  | .refused => { q with refused := q.refused + 1, code := if q.code = 0 then code else q.code }
  | .without => { q with without := q.without + 1 }

def Asked.total (q : Asked) : Nat := q.sown + q.refused + q.without

/-- A sow without a plot of its own on this module is posted once every member has answered (R373). -/
def State.askedDone (s : State) (q : Asked) : State :=
  if q.plot = none ∧ s.lnk.members ≤ q.total then
    let s : State := { s with lnk := { s.lnk with asked := s.lnk.asked.erase q } }
    s.complete q.src (b2n q.bad) (if q.bad then 0x07 else 0)
      (q.sown + q.refused * 2 ^ 16 + q.without * 2 ^ 32 + q.code * 2 ^ 48)
  else s

/-- An answer, of this module or of one further from the sender: counted here if this module is the sender, else sent on
toward it. -/
def State.sowAnswer (s : State) (tick : Nat) (dig : BitVec 256) (a : SowAns) (code : Nat) : State :=
  match s.lnk.asked.find? fun q => q.tick.toNat == tick && q.digest == dig with
  | some q =>
    let q' := q.add a code
    ({ s with lnk := { s.lnk with asked := s.lnk.asked.map fun x => if x = q then q' else x } } : State).askedDone q'
  | none =>
    match s.lnk.askedBy.find? fun e => e.1 == tick && e.2.1 == dig with
    | some e => s.sendControl e.2.2 6 (ansBytes a code tick dig)
    | none => s

/-! ## Control flits -/

/-- A control flit accepted (R329, R332, R333): a probe is answered with its arrival's tick (this module is B); an order is kept
for its own row and goes on down the tree; an answer is counted or sent on; the partner's domain may report formed. A thaw order
acts only on a frozen module, as it is captured (R334). On a link to another domain no control flit acts (R328). DESIGN CHOICE,
unsafe: log entry 19. -/
def ctlIn (l : Nat) (h : Hdr) (payload : List Byte) (s : State) : State :=
  let code := h.tag % 256
  let body := payload.take 42
  let tick := fieldAt body 0 8
  match if (s.link l).inDomain then code else 0 with
  | 1 =>
    let r := s.draw 6
    r.2.sendControl l 2 (body.take 9 ++ leBytes 9 (64 * s.now + r.1.toNat))
  | 3 =>
    let s : State := { s with lnk := { s.lnk with askedBy := (tick, BitVec.ofNat 256 (fieldAt body 8 32), l) :: s.lnk.askedBy } }
    let s := s.setLink l { s.link l with ctlIn := (s.link l).ctlIn ++ [leBytes 1 3 ++ body] }
    s.flood (some l) 3 body
  | 4 => (s.setLink l { s.link l with ctlIn := (s.link l).ctlIn ++ [leBytes 1 4 ++ body] }).flood (some l) 4 body
  | 6 =>
    let a := match fieldAt body 0 1 with
      | 0 => SowAns.sown
      | 1 => SowAns.refused
      | _ => SowAns.without
    s.sowAnswer (fieldAt body 2 8) (BitVec.ofNat 256 (fieldAt body 10 32)) a (fieldAt body 1 1)
  | 7 => s.setLink l { s.link l with partnerFormed := true, probes := 0, sumTheta := 0, sumDelay := 0 }
  | _ => s

/-- CONTROL_FLIT_RECEIVE (R332). -/
def execControlFlitReceive (l : BitVec 5) (wire : List Byte) (s : State) : Host.Outcome State Fault Refusal :=
  .next (s.receive l.toNat 3 wire fun h p s => ctlIn l.toNat h p s)

/-- An order kept on a link, taken off it. -/
def State.takeOrder (s : State) (l code tick : Nat) (rest : List Byte) : Option State :=
  let k := s.link l
  match k.ctlIn.find? fun e => e.take (9 + rest.length) == leBytes 1 code ++ leBytes 8 tick ++ rest with
  | some e => some (s.setLink l { k with ctlIn := k.ctlIn.erase e })
  | none => none

/-- MM_SOW_ORDER (R331, R333): the loaded multi-module plot of the order's digest is to be sown at S, or the order is
refused; a member with no such plot answers so. -/
def execMmSowOrder (l : BitVec 5) (tick : W64) (digest : BitVec 256) (s : State) : Host.Outcome State Fault Refusal :=
  match s.takeOrder l.toNat 3 tick.toNat (digestBytes digest) with
  | none => .next s
  | some s =>
    match s.plots.find? fun e => e.2.state == 2 && e.2.prog.multi && e.2.prog.digest == digest && e.2.sowAt == none with
    | none => .next (s.sowAnswer tick.toNat digest .without 0)
    | some e =>
      if s.lnk.slipped then .next (s.sowAnswer tick.toNat digest .refused 0x32)
      else if tick.toNat < s.now then .next (s.sowAnswer tick.toNat digest .refused 0x30)
      else .next (s.setPlot e.1 { e.2 with sowAt := some tick })

/-! ## SOW -/

/-- The tick a descriptor's rules count from: the fetch tick of a ring slot (R349). -/
def State.fetchTick (s : State) (src : Src) : Nat :=
  if src.mailbox then s.now else ((s.ring src.idx.toNat).slot src.slot.toNat).fetchTick

/-- The first tick at which a hold in progress may end; 0 with no hold (R409, R410). -/
def State.holdUntil (s : State) : Nat :=
  match s.clk.hold with
  | some h0 => holdEnd h0.toNat s.clk.target
  | none => 0

/-- Whether a tick falls in a hold in progress (R410). -/
def State.inHold (s : State) (t : Nat) : Bool :=
  match s.clk.hold with
  | some h0 => decide (h0.toNat ≤ t) && decide (t < s.holdUntil)
  | none => false

/-- SOW (R193, R262, R331 to R333, R410): of a loaded plot with no sow accepted; a multi-module plot is sown at least 64 ticks
ahead, in a domain of one too. Its completion comes when the plot completes or stops (R373); of a multi-module plot the order
goes out along the sow tree. DEDUCED, unsafe: log entry 18. -/
def execSow (src : Src) (s : State) : Host.Outcome State Fault Refusal :=
  if s.descriptor src 2 then
    let d := s.request src
    let p := fieldAt d 8 1
    let t := fieldAt d 16 8
    let x := s.plot p
    let refuse := fun (code : Nat) => s.complete src 1 0x07 (2 ^ 16 + code * 2 ^ 48)
    if 16 ≤ p then .next (s.complete src 1 0x06 0)
    else if x.state = 5 then .next (refuse x.stopCode)
    else if x.state ≠ 2 ∨ x.sowAt.isSome then .next (s.complete src 1 0x06 0)
    else
      let lead := if x.prog.multi then 64 * max 1 s.lnk.reach else 8
      if x.prog.multi ∧ s.lnk.slipped then .next (refuse 0x32)
      else if t < s.fetchTick src + lead then .next (refuse 0x30)
      else if t % 4 ≠ 0 then .next (refuse 0x31)
      else if s.inHold t then .next (refuse 0x33)
      else
        let s := s.setPlot p { x with sowAt := some (BitVec.ofNat 64 t), sowSrc := some src }
        let s := s.await 2 p src 0
        if x.prog.multi then
          let a : Asked := { plot := some p, src, digest := x.prog.digest, tick := BitVec.ofNat 64 t }
          let s : State := { s with lnk := { s.lnk with asked := s.lnk.asked ++ [a] } }
          .next (s.flood none 3 (leBytes 8 t ++ digestBytes x.prog.digest))
        else .next s
  else .next s

/-- The 264 bytes of the fence map (R447). -/
def State.fenceMap (s : State) : List Byte :=
  (List.range 132).flatMap fun p =>
    let b := s.bed p
    leBytes 1 (b.admin % 4) ++ leBytes 1 (if b.mapped then b.logical % 128 + 128 else 0)

/-- A bed started (R170, R176, R182, R196). -/
def Bed.sow (b : Bed) (t : W64) (cycles : Nat) : Bed :=
  { b with seq := { state := 3, sowTick := t, sowCycle := some cycles, last := cycles }, busyTill := cycles }

/-- The run record opened at a sowing (R398). -/
def State.openRec (s : State) (p : Nat) : State :=
  let g := (s.plot p).prog
  s.setRunRec p {
    valid := true, isOpen := true, compat := g.compat, debug := g.debug, sowTick := s.clk.sundial,
    progDigest := g.digest, fwDigest := s.sec.fwDigest, fenceDigest := digest s.fenceMap, opPoint := s.clk.point,
    events := (s.plot p).early.take recLimit }

/-- A plot sown at the current tick. A run that is stretched and begins with it counts as the plot's own (R412). -/
def State.sowPlot (s : State) (p : Nat) : State :=
  let x := s.plot p
  let t := s.clk.sundial
  let s := s.setPlot p { x with
    state := 3, sowAt := none, sowTick := t, sowCycle := s.clk.cycles, frozenTicks := 0, slow := [], hint := none, episode := none,
    landings := [], runner := [], words := [], parts := [], partials := [], gathers := [], sentCount := [], recvCount := [],
    early := [] }
  let s := (s.mapBeds p fun (b : Bed) => b.sow t s.clk.cycles).openRec p
  if s.clk.runStretched then
    let r := s.runRec p
    (s.setRunRec p { r with stretched := true, stretches := 1 }).setPlot p { s.plot p with
      episode := some { tick := t, runs := 1, source := s.clk.runSource } }
  else s

/-- What refuses a sowing at its tick (R193, R262, R410, R418): a code, or 0. -/
def State.sowCode (s : State) (p t : Nat) : Nat :=
  if t < s.now then 0x30
  else if t % 4 ≠ 0 ∨ s.clk.runStart ≠ s.clk.sundial then 0x31
  else if s.inHold t then 0x33
  else if !s.admits s.clk.point (p :: s.plotsIn [3, 4]) then 0x34
  else 0

/-- The answers to a sow gathered on without this module's plot, which was refused or is gone. -/
def State.dropAsked (s : State) (p : Nat) (bad : Bool) : State :=
  let f := fun (q : Asked) => if q.plot == some p then { q with plot := none, bad := bad } else q
  { s with lnk := { s.lnk with asked := s.lnk.asked.map f } }

/-- A sow refused at its tick: the plot stays loaded and may be sown again; the SOW of this module completes, or, of a
multi-module plot, waits for the other members' answers. -/
def State.refuseSow (s : State) (p code : Nat) : State :=
  let x := s.plot p
  let s := s.setPlot p { x with sowAt := none, sowSrc := none }
  match x.sowSrc with
  | none => s
  | some src =>
    if x.prog.multi then
      s.dropAsked p true
    else s.complete src 1 0x07 (2 ^ 16 + code * 2 ^ 48)

/-- PLOT_SOW (R193, R262): in tick S every bed of the plot starts at the next A-clock edge, or the order is refused.
DEDUCED, unsafe: log entry 18. -/
def execPlotSow (p : BitVec 4) (s : State) : Host.Outcome State Fault Refusal :=
  let p := p.toNat
  let x := s.plot p
  match x.sowAt with
  | none => .next s
  | some t =>
    if x.state = 2 ∧ s.running ∧ s.clk.locked ∧ t.toNat ≤ s.now then
      let code := s.sowCode p t.toNat
      if code = 0 then
        let s := s.sowPlot p
        .next (if x.prog.multi then s.sowAnswer t.toNat x.prog.digest .sown 0 else s)
      else
        let s := s.refuseSow p code
        .next (if x.prog.multi then s.sowAnswer t.toNat x.prog.digest .refused code else s)
    else .next s

/-! ## Completion and unloading -/

/-- The links of a plot that is released: its flits that are not acknowledged go on under no plot's number (R322), and what waits
for it in the buffers of its flows is discarded, the credits owed. DESIGN CHOICE, unsafe: log entry 71. -/
def State.leaveLinks (s : State) (p : Nat) : State :=
  let cs := (s.plot p).prog.claims.filter fun c => c.kind == 6
  let gone := fun (t : TxItem) => if t.plot = p then { t with plot := 17 } else t
  s.lnk.links.foldl
    (fun (s : State) e =>
      let mine := fun (f : Nat) => cs.any fun c => decide (c.first ≤ e.1) && decide (e.1 < c.first + c.count) && c.slots.getLsbD f
      let k := e.2
      let owed := (k.rx.filter fun x => mine x.flow).foldl
        (fun (o : Tbl Nat) x => tset (fun _ => 0) o x.flow (tget (fun _ => 0) o x.flow + 1)) k.owed
      s.setLink e.1 { k with
        queue := k.queue.map gone
        held := k.held.map fun (x : TxHeld) => { x with item := gone x.item }
        rx := k.rx.filter fun x => !mine x.flow
        arrived := k.arrived.filter fun x => !mine x.1
        owed }) s

/-- A plot's claims released (R194, R195, R289, R374): what was issued has landed (R228), its number is free, its beds are idle and
keep their memory, its halted channels serve again, the trace buffer is free. -/
def State.release (s : State) (p : Nat) : State :=
  let ws := (s.plot p).words
  let s := ws.foldl State.landWord s
  let s := (((s.plot p).came ++ (ws.filter fun (w : Word) => !w.damaged).filterMap (·.cargo)).foldl (fun (s : State) c => s.takeCargo p c) s).leaveLinks p
  let x := s.plot p
  let s := (x.prog.claims.filter fun c => c.kind == 3).foldl
    (fun (s : State) c => (upFrom c.first c.count).foldl
      (fun (s : State) ch => if (s.chan ch).state = 3 then s.setChan ch { s.chan ch with state := 0 } else s) s) s
  let s := s.mapBeds p fun (b : Bed) => { b with job := none, seq := { b.seq with state := 0 } }
  let s := if s.fld 0x100200 0 4 = p then s.setFld 0x100200 0 4 15 else s
  s.setPlot p { stopCode := x.stopCode }

/-- Whether a completing plot has finished everything (R194). -/
def State.finished (s : State) (p : Nat) : Bool :=
  let x := s.plot p
  x.sends == 0 && x.landings.all (·.done) && !(x.runner.any fun r => r.send && r.enabled) && x.words.isEmpty &&
    decide (s.busyTill p < s.clk.next) &&
    !(s.brw.chans.any fun e => match e.2.cur with
      | some t => (match t.plot with | some o => o.1 == p | none => false)
      | none => false)

/-- PLOT_COMPLETE (R194, R372, R373): the record closes, the claims are released, the SOW completes. The plots of a gardener
whose watchdog has expired stay completing (R371). -/
def execPlotComplete (p : BitVec 4) (s : State) : Host.Outcome State Fault Refusal :=
  let p := p.toNat
  let x := s.plot p
  if x.state = 4 ∧ s.running ∧ tget (fun _ => 0) s.grd.gardState x.gardener ≠ 2 ∧ s.finished p then
    let s := s.closeRec p 0 0
    let s := s.compare 3 0xFF 0 0 x.sowTick.toNat 0
    let word := s.sowWord p true 0
    let s := s.release p
    let s := match x.sowSrc with
      | some src => (s.complete src 0 0 word).unask p
      | none => s
    .next ((s.answer 3 p 0 0 0).boundary)
  else .next s

/-- UNLOAD (R374): a loaded or stopped plot is released, and an UNLOAD that waits for its stop ends with it; a sown or
completing one first stops after tick t + 8. DESIGN
CHOICE, unsafe: log entry 11. -/
def execUnload (src : Src) (s : State) : Host.Outcome State Fault Refusal :=
  if s.descriptor src 3 then
    let p := fieldAt (s.request src) 8 1
    let x := s.plot p
    if 16 ≤ p ∨ x.state = 0 ∨ x.state = 1 then .next (s.complete src 1 0x06 0)
    else if x.state = 3 ∨ x.state = 4 then
      .next ((s.setPlot p { x with unloadAt := some (x.unloadAt.getD s.now) }).await 3 p src 0)
    else
      let s := match x.sowSrc with
        | some o =>
          if x.prog.multi then
            (s.dropAsked p false).sowAnswer (x.sowAt.getD 0).toNat x.prog.digest .without 0
          else s.complete o 1 0x06 0
        | none => match x.sowAt with
          | some t => s.sowAnswer t.toNat x.prog.digest .without 0
          | none => s
      .next (((s.release p).answer 3 p 0 0 0).complete src 0 0 0)
  else .next s

/-- UNLOAD_STOP (R374): after tick t + 8 the plot stops with code 0x57, unless it has stopped already, and is
unloaded. DESIGN CHOICE, unsafe: log entry 11. -/
def execUnloadStop (p : BitVec 4) (s : State) : Host.Outcome State Fault Refusal :=
  let p := p.toNat
  match (s.plot p).unloadAt with
  | none => .next s
  | some t =>
    if s.running ∧ t + 8 ≤ s.now then .next (((s.stopPlot p 0x57 none).release p).answer 3 p 0 0 0) else .next s

/-! ## Run records -/

/-- An event's 64 bytes (R399). -/
def REvent.bytes (e : REvent) : List Byte :=
  leBytes 1 e.kind ++ leBytes 1 e.bed ++ leBytes 2 e.index ++ leBytes 4 e.exec ++ leBytes 8 e.tick.toNat ++ fitBytes 48 e.payload

/-- The Revision ID of a stepping (Table 0.1). -/
def revisionId : Nat := if Config.stepping = 0 then 0x00 else if Config.stepping = 1 then 0x01 else 0x10

/-- A header's first 224 bytes (Table 17.3). -/
def Rec.head (r : Rec) (plot : Nat) : List Byte :=
  fitBytes 224 (
    leBytes 2 1 ++ leBytes 1 plot ++ leBytes 1 r.outcome ++ leBytes 1 r.stopCode ++
    leBytes 1 (b2n r.varied + 2 * b2n r.compat + 4 * b2n r.debug + 8 * b2n r.retried + 16 * b2n r.stretched +
      32 * b2n r.frozen + 64 * b2n r.truncated + 128 * b2n r.unhashed) ++
    leBytes 1 revisionId ++ zeros 1 ++ leBytes 8 r.sowTick.toNat ++ leBytes 8 r.endTick.toNat ++ leBytes 8 r.endCycle ++
    digestBytes r.progDigest ++ digestBytes r.fwDigest ++ digestBytes r.fenceDigest ++ leBytes 4 r.replays ++
    leBytes 4 r.stretches ++ leBytes 4 r.frosts ++ leBytes 4 r.events.length ++ leBytes 4 r.dropped ++ leBytes 4 r.tags ++
    leBytes 1 r.opPoint)

/-- A record's bytes: header and events, with its digest (Table 17.3). -/
def Rec.bytes (r : Rec) (plot : Nat) : List Byte :=
  let h := r.head plot
  let es := r.events.flatMap REvent.bytes
  h ++ digestBytes (digest (h ++ zeros 32 ++ es)) ++ es

/-- RECORD (R289, R357, R375, R398): the latest closed record of a plot number copied to host memory through the gardener's
firmware channel, which serves none halted, is held while its engine is stopped (R285), and moves nothing in a frost (R453). -/
def execRecord (src : Src) (s : State) : Host.Outcome State Fault Refusal :=
  if s.descriptor src 7 then
    let d := s.request src
    let p := fieldAt d 8 1
    let a := fieldAt d 16 8
    let n := fieldAt d 28 4
    let r := s.runRec p
    if a % 64 ≠ 0 ∨ n % 64 ≠ 0 ∨ n = 0 then .next (s.complete src 1 0x01 0)
    else if 16 ≤ p ∨ !r.valid ∨ r.isOpen then .next (s.complete src 1 0x06 0)
    else if (s.chan (28 + src.idx.toNat / 16)).state = 3 then .next (s.complete src 1 0x02 0)
    else if !s.running ∨ (s.engine (hubOf (28 + src.idx.toNat / 16))).state ≠ 0 then .next s
    else
      let bytes := (r.bytes p).take n
      let s : State := { s with host := { s.host with mem := mwrite 0 s.host.mem a bytes } }
      .next (s.complete src 0 0 bytes.length)
  else .next s

end Sys2Proof.Machine
end

