-- ==== Sys2Proof/Machine/Frost.lean ====
section
/-! DEFINITION. Frost and thaw (R452 to R455, R332 to R334), harvest and its window (R456 to R458, R469), and the sampler
(R460). -/

namespace Sys2Proof.Machine

/-! ## Frost -/

/-- FROST (R452, R331, R332): a cut tick accepted; with multi-module set its order goes out along the sow tree.
DEDUCED, unsafe: log entry 43. -/
def execFrost (src : Src) (s : State) : Host.Outcome State Fault Refusal :=
  if s.service src 0x20 then
    let d := s.request src
    let multi := bit (fieldAt d 24 1) 0
    let asked := fieldAt d 16 8
    let t := if multi ∨ asked ≠ 0 then asked else s.now + 8
    let first := if multi then s.fetchTick src + 64 * s.lnk.reach else s.now + 8
    if !s.ready ∨ s.dbg.frozen ∨ s.dbg.frostAt.isSome ∨ s.inHold t then .next (s.serve src 0x72 0)
    else if multi ∧ s.lnk.slipped then .next (s.serve src 0x32 0)
    else if t < first then .next (s.serve src 0x71 0)
    else
      let s : State := { s with dbg := { s.dbg with frostAt := some (BitVec.ofNat 64 t, multi) } }
      let s := if multi then s.flood none 4 (leBytes 8 t) else s
      .next (s.serve src 0 0)
  else .next s

/-- MM_FROST_ORDER (R331, R334): the cut tick of a received order. -/
def execMmFrostOrder (l : BitVec 5) (tick : W64) (s : State) : Host.Outcome State Fault Refusal :=
  match s.takeOrder l.toNat 4 tick.toNat [] with
  | none => .next s
  | some s =>
    if s.lnk.slipped ∨ s.dbg.frozen ∨ s.dbg.frostAt.isSome then .next s
    else .next { s with dbg := { s.dbg with frostAt := some (tick, true) } }

/-- The host reads of channels that are outstanding at a cut: they complete into their buffers and are marked (R290). -/
def State.markReads (s : State) : State :=
  s.brw.chans.foldl
    (fun (s : State) e => match e.2.cur with
      | some t =>
        if e.2.busy && (sideA t.desc).space == 2 && (s.engine (hubOf e.1)).state == 0 then
          s.setChan e.1 { e.2 with cutRead := true, caught := mread 0 s.host.mem t.next.1 t.next.2 }
        else s
      | none => s) s

/-- At the thaw a channel goes on with what was caught at the cut (R290). -/
def State.resumeReads (s : State) : State :=
  s.brw.chans.foldl
    (fun (s : State) e => match e.2.cur with
      | some t => if e.2.cutRead then ((s.carry e.1 (t.pos + 1)).logged e.1).dropProbe e.1 else s
      | none => s) s

/-- FROST_CUT (R453): at the first A-clock edge after tick T every unit of the dies is held as it is. -/
def execFrostCut (s : State) : Host.Outcome State Fault Refusal :=
  match s.dbg.frostAt with
  | none => .next s
  | some f =>
    if f.1.toNat ≤ s.now ∧ s.running ∧ s.clk.locked then
      let s : State := { s with
        freeN := s.freeN + 1
        dbg := { s.dbg with frostAt := none, frozen := true, multi := f.2, cut := f.1, scan := s.freeN } }
      .next (s.markReads.setDoor 9)
    else .next s

/-! ## Thaw -/

/-- THAW (R455, R331, R332): the sender of a multi-module thaw refuses a tick earlier than R332 allows with code 0x30, every other
violation with 0x71. DEDUCED, unsafe: log entry 43. -/
def execThaw (src : Src) (s : State) : Host.Outcome State Fault Refusal :=
  if s.service src 0x21 then
    let u := fieldAt (s.request src) 16 8
    let t := s.dbg.cut.toNat
    let multi := s.dbg.multi
    let first := if multi then s.fetchTick src + 64 * s.lnk.reach else s.now + 8
    if !s.dbg.frozen ∨ s.dbg.conservation ∨ s.dbg.thawAt.isSome then .next (s.serve src 0x72 0)
    else if multi ∧ s.lnk.slipped then .next (s.serve src 0x32 0)
    else if multi ∧ u < first then .next (s.serve src 0x30 0)
    else if u < first ∨ u ≤ t ∨ (u - t) % 1920 ≠ 0 then .next (s.serve src 0x71 0)
    else
      let w : W64 := BitVec.ofNat 64 u
      let s : State := { s with dbg := { s.dbg with thawAt := some w, thaw := w } }
      let s := if multi then s.flood none 5 (leBytes 8 u) else s
      .next (s.serve src 0 0)
  else .next s

/-- MM_THAW_ORDER (R331, R334): the thaw tick of a received order. -/
def execMmThawOrder (l : BitVec 5) (tick : W64) (s : State) : Host.Outcome State Fault Refusal :=
  match s.takeOrder l.toNat 5 tick.toNat [] with
  | none => .next s
  | some s =>
    if s.lnk.slipped ∨ !s.dbg.frozen ∨ !s.dbg.multi ∨ s.dbg.thawAt.isSome then .next s
    else .next { s with dbg := { s.dbg with thawAt := some tick, thaw := tick } }

/-- A tick that stood still for d ticks. -/
def later (t : W64) (d : Nat) : W64 := t + BitVec.ofNat 64 d

/-- A link's timers after its layers stood still for d ticks (R334). -/
def Link.shift (k : Link) (d : Nat) : Link :=
  { k with
    held := k.held.map fun (x : TxHeld) => { x with since := later x.since d }
    lastValid := later k.lastValid d
    nakSent := k.nakSent.map fun e => (e.1, later e.2 d) }

/-- The timers of links and companion records that stood still in a multi-module frost. -/
def State.shiftLinks (s : State) (d : Nat) : State :=
  let recs := fun (rs : List CmpRec) => rs.map fun (r : CmpRec) => { r with tick := later r.tick d }
  let s : State := { s with lnk := { s.lnk with comp := { s.lnk.comp with own := recs s.lnk.comp.own, partner := recs s.lnk.comp.partner } } }
  s.lnk.links.foldl (fun (s : State) e => s.setLink e.1 (e.2.shift d)) s

/-- The row whose flit 568 bytes of the wire are; an unreadable flit's errors are counted by any. -/
def State.wireKind (s : State) (l : Nat) (wire : List Byte) : Nat :=
  match fecDecode (scramble (s.link l).rxScramble wire).2 with
  | none => 0
  | some d => if fieldAt d.1 524 8 = (crc64 (d.1.take 524)).toNat then (hdrOf (d.1.take 524)).kind else 0

/-- A captured flit delivered (R334). -/
def State.deliverFlit (s : State) (l : Nat) (wire : List Byte) : State :=
  match s.wireKind l wire with
  | 0 => s.receive l 0 wire fun _ _ s => s
  | 1 => s.receive l 1 wire fun h p s => dataIn l h p s
  | 2 => s.receive l 2 wire fun h p s => collIn l h p s
  | 3 => s.receive l 3 wire fun h p s => ctlIn l h p s
  | _ => s.receive l 4 wire fun h _ s => nakIn l h s

/-- Every receive port delivers its captured flits in order (R334). -/
def State.deliverCaptured (s : State) : State :=
  s.lnk.links.foldl
    (fun (s : State) e =>
      e.2.captured.foldl (fun (s : State) w => s.deliverFlit e.1 w) (s.setLink e.1 { s.link e.1 with captured := [] })) s

/-- Walker frames, and fences asked for during the frost, after it (R312, R379). -/
def State.shiftUnits (s : State) (t u : Nat) : State :=
  let f := (u - t) / 80
  let s := (List.range 4).foldl
    (fun (s : State) w =>
      let k := s.walker w
      s.setWalker w { k with work := k.work.map fun (x : Work) => { x with frame := x.frame + f, errFrame := x.errFrame + f, quota := (x.quota.1 + f, x.quota.2) } }) s
  s.beds.foldl
    (fun (s : State) e => match e.2.fencePending with
      | some q => if t ≤ q.1 then s.setBed e.1 { e.2 with fencePending := some (u, q.2) } else s
      | none => s) s

/-- Every plot sown at the cut records the frost (R399, R455). -/
def State.frostEvents (s : State) (t u : Nat) : State :=
  s.sownPlots.foldl
    (fun (s : State) p =>
      let s := s.event p 0x0E 0xFF 0 0 (leBytes 8 t ++ leBytes 8 u)
      let r := s.runRec p
      if r.isOpen then s.setRunRec p { r with frozen := true, frosts := satAdd 32 r.frosts 1 } else s) s

/-- THAW_RESUME (R334, R455): at the first A-clock edge after tick U captured flits are delivered and every frozen unit
takes the A-cycle that follows the cut. A harvest in progress has ended first (R456). -/
def execThawResume (s : State) : Host.Outcome State Fault Refusal :=
  match s.dbg.thawAt with
  | none => .next s
  | some u =>
    if s.dbg.frozen ∧ u.toNat ≤ s.now ∧ s.dbg.harvest = none ∧ s.clk.locked then
      let t := s.dbg.cut.toNat
      let multi := s.dbg.multi
      let s : State := { s with
        dbg := { s.dbg with frozen := false, multi := false, thawAt := none }
        clk := { s.clk with runStart := later s.clk.runStart (u.toNat - t) } }
      let s := if multi then (s.shiftLinks (u.toNat - t)).deliverCaptured
        else s.lnk.links.foldl (fun (s : State) e => s.takeRuns e.1) s
      .next ((((s.shiftUnits t u.toNat).frostEvents t u.toNat).resumeReads).setDoor 9)
    else .next s

/-! ## The scan of a frozen state -/

/-- Harvest sections: ID, bytes per unit, units (Table 21.2). -/
def harvestSections : List (Nat × Nat × Nat) :=
  [(0x01, 4096, 132), (0x02, 131072, 528), (0x03, 327680, 528), (0x04, 327680, 528), (0x05, 98304, 132), (0x06, 65536, 6),
   (0x07, 65536, 2), (0x08, 2097152, 2), (0x09, 40960, 24), (0x0A, 16384, 4), (0x0B, 65536, 1)]

/-- A word of a trough entry: words 0 to 3 its value, word 4 its extension, class and cause (R49, R51, Table 3.8); the spec gives
words 5 to 7 nothing, and they read 0. DESIGN CHOICE, unsafe: log entry 45. -/
def MArray.troughWord (x : MArray) (tile : Bool) (row col word : Nat) : Nat :=
  let t := if tile then x.tile1 else x.tile0
  let paired := t.redn.prec.paired
  let e := tget (fun _ => ({} : Entry)) t.entries (64 * row + if paired then col / 2 else col)
  if word < 4 then bits (toTwos 514 e.n) (64 * word + if paired ∧ col % 2 = 1 then 256 else 0) 64
  else if word ≠ 4 ∨ (paired ∧ col % 2 = 0) then 0
  else bits (toTwos 514 e.n) (if paired then 512 else 256) 2 + e.cls.code * 4 + e.cause.toNat * 16

/-- Which free values a section's unstated bytes are: one scan of the cut, but for the links and the module's clocks and
faults, which go on during a frost. -/
def State.scanOf (s : State) (sec : Nat) : Nat := if sec = 0x09 ∨ sec = 0x0B then s.freeN else s.dbg.scan

/-- A byte of a unit (Table 21.2): trough entries are 40 B each, by tile, row and column. DESIGN CHOICE, safe: log
entry 44. -/
def State.unitByte (s : State) (sec unit off : Nat) : Byte :=
  let e := off / 40
  let i := off % 40
  let x := tget (fun _ => ({} : MArray)) (s.bed (unit / 4)).arrays (unit % 4)
  if sec = 0x04 ∧ i < 33 then
    BitVec.ofNat 8 (x.troughWord (decide (4096 ≤ e)) (e / 64 % 64) (e % 64) (i / 8) / 256 ^ (i % 8))
  else Config.scanByte (s.scanOf sec) sec unit off

/-- Every unit of an image in its order: section, unit and length. -/
def harvestUnits : List (Nat × Nat × Nat) :=
  harvestSections.flatMap fun x => (List.range x.2.2).map fun u => (x.1, u, x.2.1)

/-- The units that fit in a length after the header (R458). -/
def unitsWithin : Nat → List (Nat × Nat × Nat) → List (Nat × Nat × Nat)
  | _, [] => []
  | room, u :: us => if u.2.2 ≤ room then u :: unitsWithin (room - u.2.2) us else []

/-- The bytes of an image of a given length, and whether it is truncated: nothing if the header does not fit. -/
def harvestLen (len : Nat) : Nat × Bool :=
  let us := unitsWithin (len - 4096) harvestUnits
  if len < 4096 then (0, true) else (4096 + (us.map (·.2.2)).sum, decide (us.length < harvestUnits.length))

/-- The directory of an image: ID, unit count, image offset and length per unit (R458). -/
def harvestDir (scan : Nat) : Nat → List (Nat × Nat × Nat) → List Byte
  | _, [] => []
  | off, x :: xs => leBytes 1 x.1 ++ [Config.scanByte scan 0 1 x.1] ++ leBytes 2 x.2.2 ++ leBytes 8 off ++ leBytes 4 x.2.1 ++ harvestDir scan (off + x.2.1 * x.2.2) xs

/-- The header of an image (R458); what it does not name is left open. -/
def State.harvestHead (s : State) (truncated : Bool) : List Byte :=
  let free := fun (lo n : Nat) => (upFrom lo n).map fun i => Config.scanByte s.dbg.scan 0 0 i
  ascii "QP2HRV01" ++ leBytes 8 s.dbg.cut.toNat ++
    leBytes 1 (b2n s.dbg.multi + 2 * b2n s.dbg.conservation + 4 * b2n truncated) ++ leBytes 1 (s.fld 0x60008 16 6) ++ free 18 14 ++
    digestBytes s.sec.identity ++ digestBytes (digest s.fenceMap) ++ free 96 32 ++ harvestDir s.dbg.scan 4096 harvestSections ++ free 304 3792

/-- A harvest image within a length (R458). DESIGN CHOICE, safe: log entry 44. -/
def State.harvestImage (s : State) (len : Nat) : List Byte :=
  if len < 4096 then []
  else s.harvestHead (harvestLen len).2 ++ (unitsWithin (len - 4096) harvestUnits).flatMap fun u =>
    (List.range u.2.2).map fun i => s.unitByte u.1 u.2.1 i

/-! ## Harvest -/

/-- HARVEST (R457): accepted only while the module is frozen. -/
def execHarvest (src : Src) (s : State) : Host.Outcome State Fault Refusal :=
  if s.service src 0x22 then
    let d := s.request src
    if !s.dbg.frozen ∨ s.dbg.harvest.isSome then .next (s.serve src 0x72 0)
    else
      let s : State := { s with dbg := { s.dbg with harvest := some { src, addr := fieldAt d 16 8, len := fieldAt d 24 4, start := s.now } } }
      .next ((s.setFld 0x100010 0 1 1).await 0x22 0 src 0)
  else .next s

/-- A harvest ended with some bytes written (R456, R458). -/
def State.endHarvest (s : State) (h : Harvest) (n : Nat) (stopped : Bool) : State :=
  let bytes := (s.harvestImage h.len).take n
  let s : State := { s with
    freeN := s.freeN + 1
    host := { s.host with mem := mwrite 0 s.host.mem h.addr bytes }
    dbg := { s.dbg with harvest := none } }
  let s := (((s.setFld 0x100010 0 1 0).setFld 0x100010 1 1 (b2n (harvestLen h.len).2)).setFld 0x100010 3 1 (b2n stopped)).setFld
    0x100010 4 32 n
  s.serve h.src (if stopped then 0x72 else 0) n

/-- The most bytes that a harvest can have written: 16 GB/s are 160 bytes a tick (R457). -/
def Harvest.room (h : Harvest) (now : Nat) : Nat := 160 * (now - h.start)

/-- HARVEST_COMPLETE (R456 to R458): the last byte has been written, or tick U has come first. -/
def execHarvestComplete (written : BitVec 32) (s : State) : Host.Outcome State Fault Refusal :=
  match s.dbg.harvest with
  | none => .next s
  | some h =>
    let n := (harvestLen h.len).1
    if h.room s.now < written.toNat then .next s
    else if written.toNat = n then .next (s.endHarvest h n false)
    else
      match s.dbg.thawAt with
      | some u => if u.toNat ≤ s.now ∧ written.toNat < n then .next (s.endHarvest h written.toNat true) else .next s
      | none => .next s

/-! ## The harvest window -/

/-- Whether a line of bed memory holds an uncorrectable granule. -/
def Bed.linePoisoned (b : Bed) (off : Nat) : Bool := (b.lineErrs (off / 64)).any fun e => decide (138 ≤ e.2)

/-- The 8 bytes at the selected place, and whether it met a poisoned line (R469). A place that no section has is left
open in a frost and reads the register's reset value 0 else; open is the trace buffer while no plot holds it. DESIGN CHOICE,
unsafe: log entry 70. -/
def State.hvWord (s : State) : W64 × Bool :=
  let sel := s.reg 0x100018
  let sec := wfld sel 0 8
  let unit := wfld sel 8 12
  let off := wfld sel 20 25
  let free : W64 := Config.freeValue 64 s.freeN
  let word := fun (bs : List Byte) => (BitVec.ofNat 64 (leNat bs) : W64)
  if off % 8 ≠ 0 then (free, false)
  else if sec = 0x20 then
    if s.fld 0x100200 0 4 < 15 ∧ off < 4194304 then (word (mread 0 s.dbg.trace off 8), false) else (free, false)
  else if sec = 0x21 then if off < 262144 then (word (mread 0 s.dbg.samples off 8), false) else (free, false)
  else if sec = 0x22 then
    if !s.dbg.frozen then (0, false)
    else if 132 ≤ unit ∨ (s.bed unit).lost then (free, false)
    else if (s.bed unit).linePoisoned off then (0, true)
    else (word ((s.bed unit).bytes off 8), false)
  else
    if !s.dbg.frozen then (0, false)
    else match harvestSections.find? fun x => x.1 == sec with
    | none => (free, false)
    | some x =>
      if x.2.2 ≤ unit ∨ x.2.1 < off + 8 then (free, false)
      else (word ((upFrom off 8).map fun i => s.unitByte sec unit i), false)

/-- A read of DBG_HV_DATA: its word, and the state after it. -/
def State.readHv (s : State) : W64 × State :=
  let r := s.hvWord
  let t : State := { s with freeN := s.freeN + 1 }
  let t := t.setFld 0x100018 20 25 (s.fld 0x100018 20 25 + 8)
  (r.1, if r.2 then t.setFld 0x100010 2 1 1 else t)

/-- HV_DATA_READ (R469): the word returned is kept in the model's own record of reads. -/
def execHvDataRead (s : State) : Host.Outcome State Fault Refusal :=
  let r := s.readHv
  .next { r.2 with dbg := { r.2.dbg with hvOut := r.1 :: r.2.dbg.hvOut } }

/-! ## The sampler -/

/-- A sample (R460): tick, number, four bytes that the spec does not name, and each selected gauge of each selected
bed. DESIGN CHOICE, unsafe: log entry 45. -/
def State.sampleBytes (s : State) : List Byte :=
  let cfg := s.reg 0x100100
  let gs := (List.range 8).filter fun g => bit (wfld cfg 6 8) g
  leBytes 8 s.now ++ leBytes 4 (s.fld 0x100108 0 32) ++ leBytes 4 (Config.freeValue 32 s.freeN).toNat ++
    (upFrom (wfld cfg 14 7) (wfld cfg 21 7 + 1)).flatMap fun b => gs.flatMap fun g =>
      leBytes 8 (match s.physOf b with
        | some p => (s.bed p).gaugeAt s.clk.cycles g
        | none => 0)

/-- SAMPLER_SAMPLE (R460): at a tick that is a multiple of the period. DESIGN CHOICE, unsafe: log entry 45. -/
def execSamplerSample (s : State) : Host.Outcome State Fault Refusal :=
  let cfg := s.reg 0x100100
  if wfld cfg 0 1 = 1 ∧ s.now % 2 ^ wfld cfg 1 5 = 0 ∧ s.running ∧ s.clk.locked ∧ s.dbg.sampled ≠ some s.clk.sundial then
    let bytes := s.sampleBytes
    let s : State := { s with freeN := s.freeN + 1, dbg := { s.dbg with sampled := some s.clk.sundial } }
    let fits := decide (s.dbg.sampNext + bytes.length ≤ 262144)
    let at_ := if fits then s.dbg.sampNext else 0
    if fits ∨ wfld cfg 28 1 = 1 then
      let s : State := { s with dbg := { s.dbg with
        samples := mwrite 0 s.dbg.samples at_ bytes, sampNext := at_ + bytes.length } }
      .next ((s.bump 0x100108 0 32 1).setFld 0x100108 32 18 (at_ + bytes.length))
    else .next (s.bump 0x100108 50 14 1)
  else .next s

end Sys2Proof.Machine
end

