-- ==== Sys2Proof/Machine/Rings.lean ====
section
/-! DEFINITION. The host's rings (R347 to R359), doorbells (R360 to R362), mailboxes (R363, R364, R386), power management
(R342), and the guards of host writes (R343, R344, R365). -/

namespace Sys2Proof.Machine

/-! ## Guards of host writes -/

/-- Whether a requester's writes are accepted (R344). -/
def State.mine (s : State) (rid : BitVec 16) : Bool := s.fld 0x8 16 1 == 0 || s.fld 0x8 0 16 == rid.toNat

/-- A write to BAR0 by a requester: done, or dropped and counted (R344). A module held in cold reset takes none. -/
def State.bar0 (s : State) (rid : BitVec 16) (f : State → State) : State :=
  if !s.alive then s else if s.mine rid then f s else s.bump 0x10 12 12 1

/-- A write to BAR2 by a requester: dropped and counted before ready, or from another requester (R344, R365). -/
def State.bar2 (s : State) (rid : BitVec 16) (f : State → State) : State :=
  if !s.alive then s else if !s.ready then s.bump 0x10 54 10 1 else s.bar0 rid f

/-! ## Ring positions and slots -/

/-- Slots of a ring. -/
def Ring.size (x : Ring) : Nat := 2 ^ x.log2

/-- How many slots are in a state other than free. -/
def Ring.count (x : Ring) (st : Nat) : Nat := (x.slots.filter fun e => e.2.st == st).length

/-- Free slots (R354). -/
def Ring.free (x : Ring) : Nat := x.size - (x.slots.filter fun e => e.2.st != 0).length

/-- The distance from one position to another. -/
def Ring.span (x : Ring) (from_ to_ : Nat) : Nat := (to_ + x.size - from_) % x.size

/-- Slots from a position on, a number of them, changed. -/
def Ring.mapSlots (x : Ring) (from_ n : Nat) (f : Slot → Slot) : Ring :=
  (List.range n).foldl (fun (x : Ring) i => x.setSlot ((from_ + i) % x.size) (f (x.slot ((from_ + i) % x.size)))) x

/-- A draining ring whose active and held slots are all posted becomes disabled (R355). DEDUCED, unsafe: log entry 36.
-/
def Ring.settle (x : Ring) : Ring :=
  if x.state = 2 ∧ x.count 2 = 0 ∧ x.count 3 = 0 then { x with state := 0 } else x

/-- A tail write (R348): valid, it makes free slots pending and sets the inbound doorbell bit; else it is counted.
DEDUCED, unsafe: log entry 36. -/
def State.writeTail (s : State) (r v : Nat) : State :=
  let x := s.ring r
  let a := x.span x.tail v
  if (x.state = 1 ∨ x.state = 3) ∧ v < x.size ∧ a ≤ x.free then
    let x := { x.mapSlots x.tail a (fun (y : Slot) => { y with st := 1 }) with tail := v }
    let s := s.setRing r x
    { s with host := { s.host with dbIn := s.host.dbIn ||| (1 <<< (r / 2)) } }
  else s.bump 0x10 24 12 1

/-- SQ_TAIL_WRITE (R348). -/
def execSqTailWrite (rid : BitVec 16) (r : BitVec 6) (v : W64) (s : State) : Host.Outcome State Fault Refusal :=
  .next (s.bar2 rid fun s => s.writeTail r.toNat (bits v.toNat 0 16))

/-- A head write (R352): the posted slots it passes return to the host, those of a ring that has been disabled too; a value
that passes another slot does nothing. -/
def State.writeHead (s : State) (r v : Nat) : State :=
  let x := s.ring r
  let a := x.span x.head v
  if v < x.size ∧ (List.range a).all (fun i => (x.slot ((x.head + i) % x.size)).st == 4) then
    s.setRing r { x.mapSlots x.head a (fun _ => {}) with head := v }
  else s

/-- CQ_HEAD_WRITE (R352). -/
def execCqHeadWrite (rid : BitVec 16) (r : BitVec 6) (v : W64) (s : State) : Host.Outcome State Fault Refusal :=
  .next (s.bar2 rid fun s => s.writeHead r.toNat (bits v.toNat 0 16))

/-- A write of HST_RING_CFG (R347, R355): setting enable takes the configuration, clearing it stops fetching. -/
def State.writeRingCfg (s : State) (r : Nat) (v : W64) : State :=
  let off := 0x1010 + 0x40 * r
  let w := BitVec.ofNat 64 (bits v.toNat 0 12)
  let x := s.ring r
  if wfld (s.reg off) 0 1 = 1 then
    if wfld w 0 1 = 1 then s
    else
      let drain : Ring := { x with state := 2 }
      (s.setReg off (wset (s.reg off) 0 1 0)).setRing r drain.settle
  else if wfld w 0 1 = 0 then s.setReg off w
  else if !s.ready ∨ x.state = 2 then s
  else if wfld w 1 5 < 1 ∨ 16 < wfld w 1 5 then s.bump 0x10 36 8 1
  else
    (s.setReg off w).setRing r {
      state := 1, log2 := wfld w 1 5, vector := wfld w 6 6, sq := (s.reg (0x1000 + 0x40 * r)).toNat,
      cq := (s.reg (0x1008 + 0x40 * r)).toNat, phase := true }

/-- RING_ENABLE (R347): a write of enable = 1. -/
def execRingEnable (rid : BitVec 16) (r : BitVec 6) (v : W64) (s : State) : Host.Outcome State Fault Refusal :=
  if v.getLsbD 0 then .next (s.bar0 rid fun s => s.writeRingCfg r.toNat v) else .next s

/-- RING_DISABLE (R355): a write of enable = 0. -/
def execRingDisable (rid : BitVec 16) (r : BitVec 6) (v : W64) (s : State) : Host.Outcome State Fault Refusal :=
  if v.getLsbD 0 then .next s else .next (s.bar0 rid fun s => s.writeRingCfg r.toNat v)

/-! ## Descriptors -/

/-- Whether a gardener runs. -/
def State.gardens (s : State) (g : Nat) : Bool := tget (fun _ => 0) s.grd.gardState g == 1

/-- Whether the rings fetch and post: in service, in D0, with the firmware channels running (R342, R367, R453). -/
def State.ringsRun (s : State) (r : Nat) : Bool := s.ready && !s.host.d3hot && s.running && s.gardens (r / 8)

/-- DESCRIPTOR_FETCH (R349, R357, R358): up to 8 pending descriptors are read through the gardener's firmware channel; a
read that fails stops the engine as every bus error does: recovered, it is made again; with its channel halted the first of the
descriptors gets code 0x08 and the ring is in error (R285 to R289). -/
def execDescriptorFetch (r : BitVec 6) (fail : Option (BitVec 3)) (s : State) : Host.Outcome State Fault Refusal :=
  let r := r.toNat
  let x := s.ring r
  let ch := 28 + r / 16
  let n := min 8 ((List.range x.size).takeWhile fun i => (x.slot ((x.fetch + i) % x.size)).st == 1).length
  if !s.ringsRun r || x.state != 1 || n == 0 || (s.chan ch).state == 3 || (s.engine 0).state != 0 then .next s
  else
    match fail with
    | some cause =>
      if 2 ≤ cause.toNat ∧ cause.toNat ≤ 5 ∧ s.readFree ch then
        .next (s.failRead ch cause.toNat { desc := readDesc (x.sq + 64 * x.fetch) (64 * n), ring := some r })
      else .next s
    | none =>
      let x' := (List.range n).foldl
        (fun (y : Ring) i =>
          let pos := (x.fetch + i) % x.size
          y.setSlot pos { st := 2, desc := mread 0 s.host.mem (x.sq + 64 * pos) 64, fetchTick := s.now }) x
      let s := s.setRing r { x' with fetch := (x.fetch + n) % x.size }
      .next { s with host := { s.host with dbIn := s.host.dbIn &&& ~~~((1 : BitVec 32) <<< (r / 2)) } }

/-- The bytes of a descriptor from 8 on that its opcode leaves reserved are zero (R356, Table 15.3). -/
def descReserved (d : List Byte) : Bool :=
  let z := fun (lo n : Nat) => fieldAt d lo n == 0
  match fieldAt d 0 1 with
  | 0 => z 8 56
  | 1 => z 20 44
  | 2 => z 9 7 && z 24 40
  | 3 => z 9 55
  | 4 => fieldAt d 24 1 < 16 && z 25 3 && z 40 24
  | 5 => fieldAt d 24 1 < 16 && z 25 3 && z 40 24
  | 6 => bits (fieldAt d 16 8) 43 21 == 0 && bits (fieldAt d 24 8) 53 11 == 0 && bits (fieldAt d 32 8) 18 46 == 0 &&
      bits (fieldAt d 40 8) 40 24 == 0 && bits (fieldAt d 48 8) 17 47 == 0 && z 56 8
  | 7 => z 9 7 && z 24 4 && z 32 32
  | _ => z 10 6

/-- Whether a descriptor is well formed (code 0x01 of Table 15.4): a defined opcode and order, reserved fields zero. -/
def descOk (d : List Byte) : Bool :=
  fieldAt d 0 1 ≤ 8 && fieldAt d 1 1 < 4 && fieldAt d 2 2 == 0 && descReserved d &&
    (fieldAt d 0 1 != 6 || (1 ≤ bits (fieldAt d 16 8) 0 3 && bits (fieldAt d 16 8) 0 3 ≤ 5))

/-- The services of Table 16.6. -/
def services : List Nat := [0x01, 0x02, 0x10, 0x11, 0x18, 0x19, 0x20, 0x21, 0x22, 0x30, 0x31, 0x40]

/-- DESCRIPTOR_START (R350, R351, R370): the next fetched descriptor starts; one with after_fence once every earlier one
has completed, and it is skipped if its chain has failed. A malformed one, and a service that does not exist, end at
once. -/
def execDescriptorStart (r : BitVec 6) (s : State) : Host.Outcome State Fault Refusal :=
  let n := r.toNat
  let x := s.ring n
  let i := x.start
  let y := x.slot i
  let fenced := bit (fieldAt y.desc 1 1) 0
  let busy := x.slots.any fun e => e.2.st == 2 && e.2.started
  if !s.ready || !s.gardens (n / 8) || x.state == 0 || y.st != 2 || y.started || (fenced && busy) then .next s
  else
    let skip := fenced && x.chainBad
    let x := x.setSlot i { y with started := true }
    let x := if fenced then x else { x with chain := i, chainBad := false }
    let s := s.setRing n { x with start := (i + 1) % x.size }
    let src : Src := { mailbox := false, idx := r, slot := BitVec.ofNat 16 i }
    if skip then .next (s.complete src 2 0 0)
    else if !descOk y.desc then .next (s.complete src 1 0x01 0)
    else if fieldAt y.desc 0 1 = 8 ∧ !services.contains (fieldAt y.desc 8 2) then .next (s.complete src 1 0x07 0x70)
    else .next s

/-- NOP_DESCRIPTOR (R356). -/
def execNopDescriptor (src : Src) (s : State) : Host.Outcome State Fault Refusal :=
  if s.descriptor src 0 then .next (s.complete src 0 0 0) else .next s

/-- A completion entry (Table 15.5). -/
def cqBytes (pos : Nat) (y : Slot) (phase : Bool) : List Byte :=
  leBytes 2 pos ++ leBytes 1 y.status ++ leBytes 1 (fieldAt y.desc 0 1) ++ leBytes 4 (if y.unread then 0 else fieldAt y.desc 4 4) ++
    leBytes 8 y.result.toNat ++ leBytes 8 y.tick ++ leBytes 1 y.code ++ zeros 6 ++ leBytes 1 (b2n phase)

/-- COMPLETION_POST (R352, R353): the next completion in ring order is written, and its vector sent if irq is set. -/
def execCompletionPost (r : BitVec 6) (s : State) : Host.Outcome State Fault Refusal :=
  let n := r.toNat
  let x := s.ring n
  let i := x.post
  let y := x.slot i
  if !s.ringsRun n || x.state == 0 || y.st != 3 then .next s
  else
    let s : State := { s with host := { s.host with mem := mwrite 0 s.host.mem (x.cq + 32 * i) (cqBytes i y x.phase) } }
    let wrap := i + 1 = x.size
    let x := { x.setSlot i { y with st := 4 } with post := (i + 1) % x.size, phase := if wrap then !x.phase else x.phase }
    let s := s.setRing n x.settle
    .next (if bit (fieldAt y.desc 1 1) 1 then s.sendVector x.vector else s)

/-! ## Doorbells -/

/-- DB_IN_SET (R362). -/
def execDbInSet (rid : BitVec 16) (v : BitVec 32) (s : State) : Host.Outcome State Fault Refusal :=
  .next (s.bar2 rid fun s => { s with host := { s.host with dbIn := s.host.dbIn ||| v } })

/-- Outbound bits cleared; bit 2 sets again while the fault collector holds an unread entry (R361). -/
def State.clearDoors (s : State) (v : BitVec 32) : State :=
  let s' : State := { s with host := { s.host with dbOut := s.host.dbOut &&& ~~~v } }
  if v.getLsbD 2 ∧ s.host.dbOut.getLsbD 2 ∧ s.grd.flt.any (fun e => e.2.valid) then s'.setDoor 2 else s'

/-- DB_OUT_CLEAR (R361). -/
def execDbOutClear (rid : BitVec 16) (v : BitVec 32) (s : State) : Host.Outcome State Fault Refusal :=
  .next (s.bar2 rid fun s => s.clearDoors v)

/-- The outbound mask written: clearing the mask of a set bit sends its vector (R360). -/
def State.writeDoorMask (s : State) (v : BitVec 32) : State :=
  let freed := (List.range 32).filter fun b => s.host.dbOutMask.getLsbD b && !v.getLsbD b && s.host.dbOut.getLsbD b
  freed.foldl (fun (s : State) b => s.sendVector b) { s with host := { s.host with dbOutMask := v } }

/-- DB_OUT_MASK_WRITE (R360). -/
def execDbOutMaskWrite (rid : BitVec 16) (v : BitVec 32) (s : State) : Host.Outcome State Fault Refusal :=
  .next (s.bar2 rid fun s => s.writeDoorMask v)

/-! ## Mailboxes -/

def HostIf.inbox (h : HostIf) (i : Nat) : Mbox := tget (fun _ => {}) h.mbIn i
def HostIf.outbox (h : HostIf) (i : Nat) : Mbox := tget (fun _ => {}) h.mbOut i
def State.setInbox (s : State) (i : Nat) (m : Mbox) : State :=
  { s with host := { s.host with mbIn := tset (fun _ => {}) s.host.mbIn i m } }
def State.setOutbox (s : State) (i : Nat) (m : Mbox) : State :=
  { s with host := { s.host with mbOut := tset (fun _ => {}) s.host.mbOut i m } }

/-- A stamp (Table 15.7). -/
def stampOf (rid source tick : Nat) : W64 := BitVec.ofNat 64 (rid + source * 2 ^ 16 + (tick % 2 ^ 40) * 2 ^ 24)

/-- INBOUND_MAILBOX_POST (R343, R344, R363, R365): one write of 64 bytes at the window's start, from any requester. -/
def execInboundMailboxPost (rid : BitVec 16) (i : BitVec 3) (offset : BitVec 6) (msg : List Byte) (s : State) :
    Host.Outcome State Fault Refusal :=
  let m := s.host.inbox i.toNat
  if !s.alive then .next s
  else if !s.ready then .next (s.bump 0x10 54 10 1)
  else if msg.length ≠ 64 ∨ offset ≠ 0 then .next (s.bump 0x10 44 10 1)
  else if m.full then .next (s.setInbox i.toNat { m with overrun := true })
  else .next (s.setInbox i.toNat { m with full := true, msg, stamp := stampOf rid.toNat 0x10 s.now })

/-- Whether a mailbox's owner offers a service (Table 16.6): the head gardener owns mailboxes 0 to 3, the system gardener
4 to 7. -/
def mboxServes (i svc : Nat) : Bool :=
  if i < 4 then svc ∈ [0x20, 0x21, 0x22, 0x30, 0x31, 0x40] else svc ∈ [0x10, 0x11, 0x18, 0x19]

/-- INBOUND_MAILBOX_TAKE (R363, R386, R387): firmware takes the message and logs its stamp; an unknown service, or one of
another owner, is answered at once. -/
def execInboundMailboxTake (i : BitVec 3) (s : State) : Host.Outcome State Fault Refusal :=
  let n := i.toNat
  let m := s.host.inbox n
  if !s.ready || !m.full || !(tget (fun _ => []) s.host.mbReq n).isEmpty || !s.gardens (if n < 4 then 8 else 9) then .next s
  else
    let svc := fieldAt m.msg 0 2
    let s := s.setInbox n { m with full := false, msg := [], stamp := 0 }
    let s : State := { s with host := { s.host with
      mbReq := tset (fun _ => []) s.host.mbReq n m.msg, mbLog := s.host.mbLog ++ [(m.stamp, svc)] } }
    let s := s.setDoor 4
    let src : Src := { mailbox := true, idx := i.setWidth 6, slot := 0 }
    if !services.contains svc then .next (s.complete src 1 0x07 0x70)
    else if !mboxServes n svc then .next (s.complete src 1 0x07 0x71)
    else .next s

/-- OUTBOUND_MAILBOX_POST (R364, R386): a gardener posts a message into an empty outbound mailbox; a reply that is ready
goes before any other. -/
def execOutboundMailboxPost (g : BitVec 4) (i : BitVec 3) (msg : List Byte) (s : State) :
    Host.Outcome State Fault Refusal :=
  let n := i.toNat
  let m := s.host.outbox n
  let reply := tget (fun _ => []) s.host.mbReply n
  let owner := if n < 4 then 8 else 9
  if !s.ready || m.full || msg.length != 64 || !s.gardens g.toNat || (!reply.isEmpty && (msg != reply || g.toNat != owner)) then
    .next s
  else
    let s := s.setOutbox n { m with full := true, msg, stamp := stampOf 0 g.toNat s.now }
    let s : State := { s with host := { s.host with mbReply := tset (fun _ => []) s.host.mbReply n [] } }
    .next (s.setDoor 1)

/-- An outbound mailbox returned to firmware (R364): its message stays readable. -/
def State.returnMbox (s : State) (i : Nat) : State := s.setOutbox i { s.host.outbox i with full := false }

/-- MBO_RETURN (R364). -/
def execMboReturn (rid : BitVec 16) (i : BitVec 3) (s : State) : Host.Outcome State Fault Refusal :=
  .next (s.bar2 rid fun s => s.returnMbox i.toNat)

/-! ## Power management -/

/-- PM_D3HOT (R342). -/
def execPmD3hot (s : State) : Host.Outcome State Fault Refusal := .next { s with host := { s.host with d3hot := true } }

/-- PM_D0 (R342): the rings are as they were. -/
def execPmD0 (s : State) : Host.Outcome State Fault Refusal := .next { s with host := { s.host with d3hot := false } }

end Sys2Proof.Machine
end

