-- ==== Sys2Proof/Machine/Security.lean ====
section
/-! DEFINITION. Keys and identity (R437 to R439), signers (R446), owner enrolment (R444, R445) and attestation (R447,
R448). -/

namespace Sys2Proof.Machine

/-! ## Keys -/

/-- Bytes of an SLH-DSA-SHAKE-256s signature, and of an SLH-DSA-SHAKE-128f one (R436). -/
def sig256 : Nat := 29792
def sig128 : Nat := 17088

/-- The secret values of the attestation key, and of the binding key (R439). -/
def attSecret (seed : BitVec 256) : List Byte := shake256 (ascii "QP2-ATTEST" ++ digestBytes seed) 48
def bndSecret (seed : BitVec 256) : List Byte := shake256 (ascii "QP2-BIND" ++ digestBytes seed) 96

/-- The identity digest (R439). -/
def identityOf (seed : BitVec 256) : BitVec 256 := digest (fitBytes 32 (Config.slh128Key (attSecret seed)))

/-- n bytes of the boot flash; an erased byte reads 0xFF. DESIGN CHOICE, unsafe: log entry 5. -/
def State.flashBytes (s : State) (a n : Nat) : List Byte := mread 0xFF s.sec.flash a n

/-- The flash offset of an enrolment slot (Table 20.2). -/
def enrolSlot (i : Nat) : Nat := 0x01430000 + 0x10000 * i

/-- The stored record of an enrolment slot, if it verifies under this module's binding key and names this module
(R444). -/
def State.stored (s : State) (seed : BitVec 256) (i : Nat) : Option (List Byte) :=
  let r := s.flashBytes (enrolSlot i) 128
  let sig := s.flashBytes (enrolSlot i + 128) sig256
  if Config.slhVerify (Config.slh256Key (bndSecret seed)) r sig ∧ fieldAt r 24 32 = (identityOf seed).toNat then some r else none

/-- The slot in force and its record: of those that verify, the one with the higher sequence (R444). -/
def State.enrolled (s : State) (seed : BitVec 256) : Option (Nat × List Byte) :=
  match s.stored seed 0, s.stored seed 1 with
  | some a, some b => if fieldAt a 16 8 < fieldAt b 16 8 then some (1, b) else some (0, a)
  | some a, none => some (0, a)
  | none, some b => some (1, b)
  | none, none => none

/-- The owner key that a record enrols; a removal enrols none (Table 20.4). -/
def ownerOf (r : List Byte) : Option (List Byte) := if fieldAt r 8 1 = 1 then some ((r.drop 56).take 64) else none

/-- Whether a signer (0 Emteler, 1 owner) may sign firmware (scope bit 0) or records (scope bit 1) (R446). DEDUCED,
unsafe: log entry 47. -/
def Sec.allows (k : Sec) (signer bitNo : Nat) : Bool :=
  match signer with
  | 0 => k.owner.isNone || !k.ownerScope.getLsbD 2
  | 1 => k.owner.isSome && k.ownerScope.getLsbD bitNo
  | _ => false

/-- A signer's public key. -/
def Sec.keyOf (k : Sec) (signer : Nat) : List Byte := if signer = 0 then Config.emtelerKey else k.owner.getD []

/-- Whether a signature is valid and its signer allowed. -/
def Sec.signed (k : Sec) (signer bitNo : Nat) (msg sig : List Byte) : Bool :=
  k.allows signer bitNo && Config.slhVerify (k.keyOf signer) msg sig

/-! ## Owner enrolment -/

/-- The length of a request: both signatures where both are due (Table 20.4). -/
def enrolLen (op : Nat) (owned : Bool) : Nat := 128 + (if op = 1 then sig256 else 0) + (if owned then sig256 else 0)

/-- Whether a request is laid out as Table 20.4 says. -/
def enrolShape (r : List Byte) (len : Nat) (owned : Bool) : Bool :=
  let op := fieldAt r 8 1
  decide (len = enrolLen op owned) && r.take 8 == ascii "QP2OWN01" && (op == 1 || op == 2) && fieldAt r 9 7 == 0 &&
    decide (fieldAt r 120 1 < 8) && fieldAt r 121 7 == 0 && (op == 1 || fieldAt r 56 64 == 0)

/-- What refuses a request (R445): a code of R387 and a reason; 0 for none. DEDUCED, unsafe: log entry 47. -/
def State.enrolCode (s : State) (req : List Byte) (len : Nat) : Nat × Nat :=
  let k := s.sec
  let r := req.take 128
  let op := fieldAt r 8 1
  let owned := k.owner.isSome
  let newSig := (req.drop 128).take sig256
  let curSig := (req.drop (enrolLen op false)).take sig256
  if k.enrol.isSome then (0x72, 6)
  else if !enrolShape r len owned then (0x71, 5)
  else if fieldAt r 24 32 ≠ k.identity.toNat then (0x71, 2)
  else if fieldAt r 16 8 ≤ k.ownerSeq.toNat then (0x71, 3)
  else if !owned ∧ k.ownerFw then (0x72, 4)
  else if (op = 1 ∧ !Config.slhVerify ((r.drop 56).take 64) r newSig) ∨ (owned ∧ !Config.slhVerify (k.owner.getD []) r curSig) then
    (0x71, 1)
  else (0, 0)

/-- OWNER_ENROL (R445): the request is read from host memory and checked. -/
def execOwnerEnrol (src : Src) (s : State) : Host.Outcome State Fault Refusal :=
  if s.service src 0x31 then
    let d := s.request src
    let len := fieldAt d 24 4
    let req := mread 0 s.host.mem (fieldAt d 16 8) (min len (enrolLen 1 true))
    let c := s.enrolCode req len
    if c.1 ≠ 0 then .next (s.serve src c.1 c.2)
    else
      let s : State := { s with sec := { s.sec with enrol := some (src, req.take 128) } }
      .next (s.await 0x31 0 src 0)
  else .next s

/-- A stored record: the 128 bytes accepted and the binding key's signature over them (R444). -/
def storedRecord (seed : BitVec 256) (r : List Byte) : List Byte :=
  r ++ fitBytes sig256 (Config.slh256Sign (bndSecret seed) r)

/-- OWNER_ENROL_COMPLETE (R445): the slot that was not used is erased and written; the record takes effect at the next
reset. -/
def execOwnerEnrolComplete (s : State) : Host.Outcome State Fault Refusal :=
  match s.sec.enrol, s.sec.seed with
  | some e, some seed =>
    let a := enrolSlot (1 - s.sec.ownerSlot)
    let erased := mwrite 0xFF s.sec.flash a (List.replicate 0x10000 0xFF)
    let s : State := { s with sec := { s.sec with
      flash := mwrite 0xFF erased a (storedRecord seed e.2), enrol := none, pending := true } }
    .next (s.serve e.1 0 0)
  | _, _ => .next s

/-! ## Attestation -/

/-- The digest of the owner key in force; zero if none. -/
def Sec.ownerDigest (k : Sec) : BitVec 256 := match k.owner with | some o => digest o | none => 0

/-- The body of a report (Table 20.5). -/
def State.attestBody (s : State) (nonce : List Byte) : List Byte :=
  let k := s.sec
  ascii "QP2ATT01" ++ leBytes 2 1 ++ leBytes 1 revisionId ++
    leBytes 1 (b2n k.ownerFw + 2 * b2n k.owner.isSome + 4 * b2n k.pending + 8 * b2n k.tapUsed + 16 * b2n s.lnk.formed) ++
    leBytes 4 k.recCount ++ leBytes 8 s.now ++ leBytes 8 k.attestCount.toNat ++ fitBytes 32 nonce ++ digestBytes k.identity ++
    digestBytes k.fwDigest ++ digestBytes k.ownerDigest ++ digestBytes Config.romDigest ++ zeros 64 ++ s.fenceMap ++
    zeros 248 ++ (List.range 64).flatMap (fun i => digestBytes (tget (fun _ => 0) k.recDigests i)) ++
    digestBytes Config.fwClaim

/-- The security block starts the next report, if it signs none: its body is a snapshot of this tick, and it takes the next
counter value (R448). -/
def State.startReport (s : State) : State :=
  match s.sec.attestBody, s.sec.attestQueue with
  | none, a :: rest =>
    let s : State := { s with sec := { s.sec with attestQueue := rest, attestCount := s.sec.attestCount + 1 } }
    { s with sec := { s.sec with attestBody := some (a, s.attestBody a.nonce) } }
  | _, _ => s

/-- ATTEST (R448). -/
def execAttest (src : Src) (s : State) : Host.Outcome State Fault Refusal :=
  if s.service src 0x30 then
    let d := s.request src
    let a : Attest := { src, nonce := (d.drop 16).take 32, addr := fieldAt d 48 8 }
    let s : State := { s with sec := { s.sec with attestQueue := s.sec.attestQueue ++ [a] } }
    .next ((s.await 0x30 0 src 0).startReport)
  else .next s

/-- A report as written: its body, its signature and the device certificate (R441, R448). -/
def State.reportBytes (s : State) (seed : BitVec 256) (body : List Byte) : List Byte :=
  body ++ fitBytes sig128 (Config.slh128Sign (attSecret seed) body) ++ s.flashBytes 0x01420000 29936

/-- ATTEST_REPORT_WRITTEN (R448): 49,872 bytes stand in host memory, and the next report starts. -/
def execAttestReportWritten (s : State) : Host.Outcome State Fault Refusal :=
  match s.sec.attestBody, s.sec.seed with
  | some a, some seed =>
    let s : State := { s with
      host := { s.host with mem := mwrite 0 s.host.mem a.1.addr (s.reportBytes seed a.2) }
      sec := { s.sec with attestBody := none } }
    .next (((s.serve a.1.src 0 49872).setDoor 10).startReport)
  | _, _ => .next s

end Sys2Proof.Machine
end

