-- ==== Sys2Proof/Machine/Boot.lean ====
section
/-! DEFINITION. Reset and start-up (chapter 19, R438 to R446, R473, R477): the two reset kinds, what a warm reset keeps, the
steps of Table 19.3 with their status codes, and the probe exchanges that align the sundial (R329, R330). -/

namespace Sys2Proof.Machine

/-! ## HST_BOOT_STATUS -/

/-- The step in progress. -/
def State.atStep (s : State) (step : Nat) : State := s.setFld 0x0 3 5 step

/-- A status code with its detail (Table 19.5). -/
def State.status (s : State) (code detail : Nat) : State := (s.setFld 0x0 8 8 code).setFld 0x0 16 32 detail

/-- A fatal code: start-up halts at its step (R433). -/
def State.fatal (s : State) (step code detail : Nat) : State :=
  let s := (((s.atStep step).status code detail).setFld 0x0 1 1 1)
  { s with pins := { s.pins with halted := true, boot := none } }

/-! ## Steps 1 to 5: the root PLL, firmware and identity -/

/-- The seed of the PUF and the helper copy that gave it (R438). -/
def seedOf (env : BootEnv) : Option (BitVec 256 × Bool) :=
  match env.seed0 with
  | some x => some (x, false)
  | none => env.seed1.map fun x => (x, true)

/-- A firmware slot's header (R442). -/
def State.fwHeader (s : State) (i : Nat) : List Byte := s.flashBytes (0x800000 * i) 256

/-- Whether a header is valid (R426, R442). -/
def headerOk (h : List Byte) : Bool :=
  h.take 8 == ascii "QP2FW001" && decide (fieldAt h 8 4 ≤ 5 * 2 ^ 20) && decide (fieldAt h 12 1 ≤ 1) && fieldAt h 13 3 == 0 &&
    allZero ((h.drop 56).take 200)

/-- Whether a slot verifies (R442). -/
def State.slotOk (s : State) (i : Nat) : Bool :=
  let h := s.fwHeader i
  let n := fieldAt h 8 4
  let at_ := 0x800000 * i + 4096
  headerOk h && s.sec.signed (fieldAt h 12 1) 0 h (s.flashBytes (at_ + n) sig256) &&
    digest (s.flashBytes at_ n) == BitVec.ofNat 256 (fieldAt h 16 32)

/-- The enrolment and the keys of this reset, from a seed (R437, R439, R444). -/
def State.useSeed (s : State) (x : BitVec 256 × Bool) : State :=
  let e := s.enrolled x.1
  let r := match e with | some a => a.2 | none => []
  let owner := match e with | some a => ownerOf a.2 | none => none
  { s with sec := { s.sec with
      seed := some x.1, helper := x.2, identity := identityOf x.1, owner
      ownerSeq := BitVec.ofNat 64 (fieldAt r 16 8)
      ownerScope := if owner.isSome then BitVec.ofNat 3 (fieldAt r 120 1) else 0
      ownerSlot := match e with | some a => a.1 | none => 1 } }

/-- A firmware slot taken into use. -/
def State.useSlot (s : State) (i : Nat) : State :=
  let h := s.fwHeader i
  let owner := fieldAt h 12 1 == 1
  let s : State := { s with sec := { s.sec with fwDigest := BitVec.ofNat 256 (fieldAt h 16 32), ownerFw := owner } }
  s.setReg 0x20000 (BitVec.ofNat 64 (fieldAt h 48 4 + b2n owner * 2 ^ 32))

/-- Steps 3 to 5: an error is a halted start-up. -/
def State.bootKeys (s : State) (env : BootEnv) : Except State State :=
  let s := s.atStep 3
  let headers := headerOk (s.fwHeader 0) || headerOk (s.fwHeader 1)
  if !env.flashOk then .error (s.fatal 3 0x10 0)
  else if !headers then .error (s.fatal 3 0x11 0)
  else
    let s := match seedOf env with | some x => s.useSeed x | none => s
    let s := s.atStep 4
    if s.slotOk 0 ∨ s.slotOk 1 then
      let s := if s.slotOk 0 then s.useSlot 0 else (s.useSlot 1).status 0x12 0
      if (seedOf env).isNone then .error (s.fatal 5 0x15 0) else .ok (s.atStep 5)
    else .error (s.fatal 4 0x13 0)

/-! ## Step 6: configuration records -/

/-- Whether an entry's value lies in its register's range (R443, Table 20.3). DEDUCED, unsafe: log entry 48. -/
def entryOk (kind v : Nat) : Bool :=
  match kind with
  | 1 => decide (v < 2 ^ 22)
  | 2 => v % 64 == 0 && decide (v + 2 ^ 24 ≤ ddrSize)
  | 3 => decide (v < 8)
  | 4 => decide (10 ≤ v ∧ v ≤ 100)
  | 5 => decide (v < 2 ^ 24)
  | 6 => decide (v < 2 ^ 32)
  | 7 => decide (v < 2 ^ 24)
  | 8 => decide (v ≤ 60000)
  | _ => false

/-- PWR_THERM_CFG as a record sets it: a value above the reset value is replaced by it (R422). -/
def thermCfg (v : Nat) : Nat := min (bits v 0 8) 95 + min (bits v 8 8) 102 * 2 ^ 8 + min (bits v 16 8) 110 * 2 ^ 16

/-- An entry applied (Table 20.3). DEDUCED, unsafe: log entry 48. -/
def State.applyEntry (s : State) (kind v : Nat) : State :=
  match kind with
  | 1 => s.setReg 0x60008 (BitVec.ofNat 64 v)
  | 2 => s.setReg 0xA0000 (BitVec.ofNat 64 v)
  | 3 => s.setReg 0x80010 (BitVec.ofNat 64 v)
  | 4 => s.setReg 0x40020 (BitVec.ofNat 64 v)
  | 5 => s.setReg 0x40040 (BitVec.ofNat 64 (thermCfg v))
  | 6 => { s with sec := { s.sec with subsystem := BitVec.ofNat 32 v } }
  | 7 => { s with sec := { s.sec with linksOff := BitVec.ofNat 24 v } }
  | _ => { s with sec := { s.sec with domainWait := v } }

/-- The kinds and values of a record's entries. -/
def recordEntries (r : List Byte) : List (Nat × Nat) :=
  (List.range (fieldAt r 10 2)).map fun i => (fieldAt r (64 + 16 * i) 1, fieldAt r (72 + 16 * i) 8)

/-- A record's signed bytes: all before its signature. -/
def recordLen (r : List Byte) : Nat := 64 + 16 * fieldAt r 10 2

/-- Whether a present record at a position passes (R443); `set` holds the kinds that earlier records have set. -/
def State.recordOk (s : State) (i : Nat) (r : List Byte) (set : List Nat) : Bool :=
  let n := recordLen r
  decide (n + sig256 ≤ 0x10000) && s.sec.signed (fieldAt r 9 1) 1 (r.take n) ((r.drop n).take sig256) &&
    (fieldAt r 16 32 == 0 || fieldAt r 16 32 == s.sec.identity.toNat) && fieldAt r 8 1 == i &&
    (recordEntries r).all fun e => !set.contains e.1 && entryOk e.1 e.2

/-- Step 6: the record positions in index order (R427, R443). -/
def State.bootRecords (s : State) : List Nat → List Nat → Except State State
  | [], _ => .ok s
  | i :: rest, set =>
    let r := s.flashBytes (0x01000000 + 0x10000 * i) 0x10000
    if r.take 8 ≠ ascii "QP2CFG01" then s.bootRecords rest set
    else if s.recordOk i r set then
      let s := (recordEntries r).foldl (fun (s : State) e => s.applyEntry e.1 e.2) s
      let s : State := { s with sec := { s.sec with
        recDigests := tset (fun _ => 0) s.sec.recDigests i (digest (r.take (recordLen r))), recCount := s.sec.recCount + 1 } }
      s.bootRecords rest (set ++ (recordEntries r).map (·.1))
    else .error (s.fatal 6 0x14 i)

/-! ## Steps 7 to 9: gardeners, controllers, links -/

/-- Step 7: every gardener runs, its code and data in its SRAM (R369). DESIGN CHOICE, unsafe: log entry 64. -/
def State.bootGardeners (s : State) : State :=
  let s := s.atStep 7
  { s with grd := { s.grd with
      gardState := (List.range 10).map fun g => (g, 1), heartbeat := [], misses := []
      cores := (List.range 10).map fun g => (g, { started := true, sram := Config.gardenerCode s.sec.fwDigest g : GCore }) } }

/-- Step 8 (R428): a controller that fails training is out of service, and one that was stays so. -/
def State.bootDdr (s : State) (env : BootEnv) : State :=
  let s := s.atStep 8
  let out := fun (s : State) c => env.ctrlFail.getLsbD c || (s.ctl c).state == 3
  let s := (List.range 24).foldl
    (fun (s : State) c => s.setCtl c { s.ctl c with state := if out s c then 3 else 1 }) s
  let mask := ((List.range 24).filter fun c => (s.ctl c).state == 3).foldl (fun n c => n + 2 ^ c) 0
  if mask ≠ 0 then s.status 0x20 mask else s

/-- Step 9 (R325, R427): every link that the records do not hold disabled trains. -/
def State.bootLinks (s : State) (env : BootEnv) : State :=
  let s := s.atStep 9
  let s := (List.range 24).foldl
    (fun (s : State) l =>
      if s.sec.linksOff.getLsbD l then
        (s.setFld (0xB0008 + 0x100 * l) 1 1 1).setLink l { s.link l with state := 3 }
      else
        match env.links[l]? with
        | some e => s.train l e
        | none => s) s
  let mask := ((List.range 24).filter fun l => (s.link l).state == 0).foldl (fun n l => n + 2 ^ l) 0
  if mask ≠ 0 then s.status 0x30 mask else s

/-! ## Step 10: the domain -/

/-- A number of 1/64 ticks rounded to ticks, ties away from zero (R330). -/
def roundTicks (x : Int) : Int := if 0 ≤ x then (x + 32) / 64 else -((32 - x) / 64)

/-- Whether a link's partner is known to have formed its domain. -/
def State.parentFormed (s : State) (env : BootEnv) (l : Nat) : Bool :=
  env.partnerFormed.getLsbD l || (s.link l).partnerFormed

/-- Whether a link has a measurement taken since its partner was aligned, and its theta (R330). -/
def State.theta (s : State) (env : BootEnv) (l : Nat) : Option Int :=
  if s.fld (0x60200 + 8 * l) 24 1 = 1 ∧ (env.partnerFormed.getLsbD l ∨ (s.link l).fresh) then some (s.reg (0x60100 + 8 * l)).toInt else none

/-- Every copy of the sundial stepped together (R18, R330), and the step recorded; what a timer has counted stays. -/
def State.stepSundial (s : State) (n : Int) : State :=
  let w := BitVec.ofInt 64 n
  let s := s.setReg 0x60010 w
  let s : State := { s with grd := { s.grd with startLog := s.grd.startLog ++ [w] } }
  let s : State := { s with clk := { s.clk with sundial := s.clk.sundial + w } }
  s.lnk.links.foldl
    (fun (s : State) e => s.setLink e.1 { e.2.shift w.toNat with lastCheck := e.2.lastCheck + w }) s

/-- The domain has formed: every trained neighbour of it is told. DEDUCED, unsafe: log entry 50. -/
def State.formDomain (s : State) (env : BootEnv) : State :=
  let s : State := { s with lnk := { s.lnk with formed := true, reach := env.reach.toNat, members := env.members.toNat } }
  (s.lnk.links.filter fun e => e.2.state == 2 && e.2.inDomain).foldl (fun (s : State) e => s.sendControl e.1 7 []) s

/-- The link by which this module aligns its sundial: its tree link; of a root whose sundial restarted, the one to its
lowest-positioned neighbour that reports formed (R330, R429). -/
def State.alignLink (s : State) (env : BootEnv) (restarted : Bool) : Option Nat :=
  if s.position ≠ 0 then (s.lnk.links.find? fun e => e.2.state == 2 && e.2.tree).map (·.1)
  else if restarted then
    (((s.lnk.links.filter fun e => e.2.state == 2 && e.2.inDomain && s.parentFormed env e.1).foldl
      (fun (a : Option (Nat × Nat)) e => match a with
        | none => some (e.2.partnerPos, e.1)
        | some b => if e.2.partnerPos < b.1 then some (e.2.partnerPos, e.1) else some b) none)).map (·.2)
  else none

/-- Step 10: the domain forms at once, or not yet. DEDUCED, unsafe: log entry 50. -/
def State.tryForm (s : State) (env : BootEnv) (restarted : Bool) : Option State :=
  match s.alignLink env restarted with
  | none => if s.position = 0 then some (s.formDomain env) else none
  | some l =>
    if s.parentFormed env l then (s.theta env l).map fun x => (s.stepSundial (-(roundTicks x))).formDomain env else none

/-! ## Steps 11 to 14 -/

/-- Step 11 (R428): the controllers that trained enter service. -/
def State.ddrService (s : State) : State :=
  (List.range 24).foldl
    (fun (s : State) c => if (s.ctl c).state = 1 then s.setCtl c { s.ctl c with state := 2 } else s) (s.atStep 11)

/-- What a bed keeps over a warm reset: its pass and fence counts, which go on from cold reset (R90). -/
def Bed.counted (b : Bed) : Bed :=
  { arrays := (b.arrays.map fun e => (e.1, e.2.loaded)).filter fun e => e.2 != {} }

/-- A physical bed after self-test at start-up (R13, R430): bed memory is all zeros. -/
def bootBed (env : BootEnv) (p : Nat) : Bed :=
  let d := p / 33
  let failed := fun (q : Nat) => env.bedFail.getLsbD q
  let bad := ((upFrom (33 * d) 33).filter failed).length
  let before := ((upFrom (33 * d) (p - 33 * d)).filter fun q => !failed q).length
  if failed p then { admin := 2 }
  else if bad = 0 ∧ p % 33 = 32 then { admin := 1, bistPass := true }
  else { mapped := true, logical := 32 * d + before, bistPass := true }

/-- Step 12 (R430). -/
def State.bootBeds (s : State) (env : BootEnv) : State :=
  let s := s.atStep 12
  let s : State := { s with beds := (List.range 132).map fun p => (p, { bootBed env p with arrays := (s.bed p).counted.arrays }) }
  let fails := (List.range 4).map fun d => ((upFrom (33 * d) 33).filter fun p => env.bedFail.getLsbD p).length
  let mask := (enumFrom 0 fails).foldl (fun n e => n + e.2 * 2 ^ (8 * e.1)) 0
  if mask ≠ 0 then s.status 0x40 mask else s

/-- The A-clock's runs count from tick 0 (R261, R408): where the current tick falls among them. -/
def Clk.aligned (c : Clk) : Clk :=
  let t := c.sundial.toNat
  { c with cycles := 16 * t, ticks := t % 4, run := t / 4 % 16, runStart := BitVec.ofNat 64 (t - t % 4)
           runStretched := false, runPaced := false }

/-- Steps 13 and 14 (R366, R416): base power, and the module in service. A module whose balls the TAP holds stays out of
service (R467). -/
def State.bootLast (s : State) (env : BootEnv) : State :=
  let s := ((s.ddrService).bootBeds env).atStep 13
  let s := (s.setFld 0x40008 24 12 env.basePower.toNat).atStep 14
  let s : State := { s with clk := s.clk.aligned, pins := { s.pins with boot := none } }
  if s.dbg.ballsHeld then s
  else
    let s := ((s.setFld 0x0 0 1 1).setFld 0x0 2 1 0).setDoor 0
    if s.grd.flt.any fun e => e.2.valid then s.setDoor 2 else s

/-- Step 10 and what follows it: a module that cannot align itself yet waits for its domain (R429). -/
def State.bootDomain (s : State) (env : BootEnv) (cold restarted : Bool) : State :=
  let s := s.atStep 10
  match s.tryForm env restarted with
  | some s => s.bootLast env
  | none => { s with pins := { s.pins with boot := some { step := 10, env, cold, since := s.clk.sundial } } }

/-- Steps 3 to 14. -/
def State.bootFrom3 (s : State) (env : BootEnv) (cold restarted : Bool) : State :=
  let s : State := { s with pins := { s.pins with thermtrip := false, boot := none } }
  match s.bootKeys env with
  | .error s => s
  | .ok s =>
    match (s.atStep 6).bootRecords (List.range 64) [] with
    | .error s => s
    | .ok s => (((s.bootGardeners).bootDdr env).bootLinks env).bootDomain env cold restarted

/-- Start-up (R425): after a thermal trip step 1 waits for the module to cool (R421). -/
def State.startUp (s : State) (env : BootEnv) (cold restarted hot : Bool) : State :=
  let s : State := { s with clk := { s.clk with locked := true, stopped := false }, pins := { s.pins with halted := false } }
  let s := s.atStep 1
  if hot ∧ 360 ≤ env.tMax.toInt then
    let s := s.status 0x01 env.tMax.toNat
    { s with pins := { s.pins with boot := some { step := 1, env, cold, since := s.clk.sundial } } }
  else s.bootFrom3 env cold restarted

/-! ## Resets -/

/-- What no reset touches: the queue, the model's own counter and records, host memory, the boot flash, the pins and the
TAP's own registers. -/
def State.base (s : State) : State :=
  { pending := s.pending
    freeN := s.freeN
    host := { mem := s.host.mem, msixSent := s.host.msixSent }
    lnk := { links := (s.lnk.links.map fun e => (e.1, { wireOut := e.2.wireOut : Link })).filter fun e => e.2 != {} }
    sec := { flash := s.sec.flash }
    dbg := { ir := s.dbg.ir, boundary := s.dbg.boundary, idReg := s.dbg.idReg, dbgReg := s.dbg.dbgReg
             flashReg := s.dbg.flashReg, flashRefused := s.dbg.flashRefused, qspi := s.dbg.qspi
             hvOut := s.dbg.hvOut }
    pins := { perst := s.pins.perst, rails := s.pins.rails, refclk := s.pins.refclk, thermtrip := s.pins.thermtrip } }

/-- The module held in cold reset (R423, R473): everything starts from nothing, and GLB_RESET_CAUSE names the kind. -/
def State.coldHold (s : State) (kind : Nat) : State := s.base.setFld 0x10108 0 3 kind

/-- Sessions that a warm reset finds moving or planted (R432). -/
def State.adjustSessions (s : State) : State :=
  let s := (List.range 4).foldl
    (fun (s : State) w => match (s.walker w).work with
      | none => s
      | some k =>
        let put := fun (s : State) (i st : Nat) => if sessState (s.sess i) = 3 then s.setSess i (sessWith (s.sess i) st 15) else s
        match k.order.op with
        | 2 => put s k.order.session 1
        | 3 => put s k.order.session 4
        | _ => put (put s k.order.session 1) k.order.dest 4) s
  (s.sessionsIn 2).foldl (fun (s : State) i => s.setSess i (sessWith (s.sess i) 1 15)) s

/-- Run records still open are closed with outcome stopped and code 0x5A (R434). -/
def State.closeRecords (s : State) : State :=
  (List.range 16).foldl (fun (s : State) p => if (s.runRec p).isOpen then s.closeRec p 1 0x5A else s) s

/-- The registers that a warm reset keeps (Table 19.2, and CLK_STRETCH, which counts since cold reset), rings' enables cleared.
DEDUCED, unsafe: log entry 49. -/
def State.keptRegs (s : State) : Tbl W64 :=
  (s.regs.filter fun e => e.1 == 0x8 || e.1 == 0x10108 || e.1 == 0x10300 || e.1 == 0x30010 ||
      (decide (0x1000 ≤ e.1 ∧ e.1 < 0x2000) && decide (e.1 % 0x40 < 0x18))).map
    (fun e => if 0x1000 ≤ e.1 ∧ e.1 < 0x2000 ∧ e.1 % 0x40 = 0x10 then (e.1, wset e.2 0 1 0) else e) |>.filter fun e => e.2 != regReset e.1

/-- A ring after a warm reset: its positions and phase (Table 19.2). -/
def Ring.kept (x : Ring) : Ring := { fetch := x.fetch, post := x.post, phase := x.phase }

/-- What a warm reset leaves (R424, Table 19.2); HST_BOOT_STATUS.recovery has set, and clears when ready sets (R367). DEDUCED, unsafe: log entry 49. -/
def State.warmHold (s : State) (kind : Nat) : State :=
  let s := s.closeRecords.adjustSessions
  let out := (s.ddr.ctls.filter fun e => e.2.state == 3).map fun e => (e.1, { state := 3 : Ctl })
  let b := s.base
  let w : State := { b with
    recs := s.recs
    beds := (s.beds.map fun e => (e.1, e.2.counted)).filter fun e => e.2 != {}
    ddr := { ctls := out, mem := s.ddr.mem }
    host := { b.host with
      rings := (s.host.rings.map fun e => (e.1, e.2.kept)).filter fun e => e.2 != {}
      msixTable := if kind = 3 then [] else s.host.msixTable
      msixPending := if kind = 3 then 0 else s.host.msixPending
      d3hot := if kind = 3 then false else s.host.d3hot }
    grd := { flt := s.grd.flt, fltNext := s.grd.fltNext, fltOrder := s.grd.fltOrder }
    sec := { b.sec with attestCount := s.sec.attestCount, tapUsed := s.sec.tapUsed }
    clk := { sundial := if s.clk.locked then s.clk.sundial else 0, total := s.clk.total }
    dbg := { b.dbg with ballsHeld := s.dbg.ballsHeld }
    regs := s.keptRegs }
  let c := s.pins.recovery
  let w := w.setFld 0x10108 0 3 kind
  let w := if c ≠ 0 then w.setFld 0x10108 3 8 c else w
  (w.bump 0x10108 11 16 1).setFld 0x0 2 1 1

/-- A warm reset, and the start-up that follows it (R423). -/
def State.warmReset (s : State) (kind : Nat) (env : BootEnv) : State :=
  if s.alive then
    (s.warmHold kind).startUp env false (!s.clk.locked) (s.pins.recovery == 0x8D)
  else s

/-- A cold start once the rails are good, the reference is valid and PERST# is released (R477). -/
def State.coldStart (s : State) (env : BootEnv) : State := if s.alive then s.startUp env true true false else s

/-! ## The board's events -/

/-- A write of GLB_RESET (R435). -/
def State.writeReset (s : State) (v : W64) (env : BootEnv) : State :=
  if wfld v 0 1 = 1 ∧ wfld v 16 16 = 0x5752 then s.warmReset 2 env else s

/-- GLB_RESET_WARM (R344, R423, R435). DESIGN CHOICE, unsafe: log entry 39. -/
def execGlbResetWarm (rid : BitVec 16) (v : W64) (env : BootEnv) (s : State) : Host.Outcome State Fault Refusal :=
  if s.alive then .next (s.bar0 rid fun s => s.writeReset v env) else .next s

/-- PERST_ASSERT (R423, R477). -/
def execPerstAssert (s : State) : Host.Outcome State Fault Refusal :=
  if s.pins.perst then .next s
  else
    let s : State := { s with pins := { s.pins with perst := true } }
    .next (if s.pins.rails then s.coldHold 1 else s)

/-- PERST_RELEASE (R477). -/
def execPerstRelease (env : BootEnv) (s : State) : Host.Outcome State Fault Refusal :=
  if s.pins.perst then
    let s : State := { s with pins := { s.pins with perst := false } }
    .next (s.coldStart env)
  else .next s

/-- HOT_RESET (R423). -/
def execHotReset (env : BootEnv) (s : State) : Host.Outcome State Fault Refusal := .next (s.warmReset 3 env)

/-- RAIL_UNDERVOLTAGE (R473): the module holds itself in cold reset, as at power-on; the TAP starts from its reset too. -/
def execRailUndervoltage (s : State) : Host.Outcome State Fault Refusal :=
  let s : State := { s with
    pins := { s.pins with rails := false, thermtrip := false }
    dbg := { qspi := s.dbg.qspi, hvOut := s.dbg.hvOut } }
  .next (s.coldHold 0)

/-- RAILS_GOOD (R473, R477): MOD_PWRGD rises. -/
def execRailsGood (env : BootEnv) (s : State) : Host.Outcome State Fault Refusal :=
  if s.pins.rails then .next s
  else
    let s : State := { s with pins := { s.pins with rails := true } }
    .next (s.coldStart env)

/-- REFCLK_VALID (R477). -/
def execRefclkValid (env : BootEnv) (s : State) : Host.Outcome State Fault Refusal :=
  if s.pins.refclk then .next s
  else
    let s : State := { s with pins := { s.pins with refclk := true } }
    .next (s.coldStart env)

/-- DOMAIN_WAIT_EXPIRY (R330, R429, R433): a member that has not formed completes start-up as a domain of one. -/
def execDomainWaitExpiry (s : State) : Host.Outcome State Fault Refusal :=
  match s.pins.boot with
  | none => .next s
  | some b =>
    if b.step = 10 ∧ b.since.toNat + s.sec.domainWait * 100000 ≤ s.now then
      let s := s.status 0x31 0
      let alone := fun (k : Link) => { k with inDomain := false, tree := false, child := false }
      let s : State := { s with lnk := { s.lnk with formed := false, reach := 0, members := 1 } }
      .next ((s.lnk.links.foldl (fun (s : State) e => s.setLink e.1 (alone e.2)) s).bootLast b.env)
    else .next s

/-! ## Probe exchanges -/

/-- A start-up that waits for its domain goes on once it can align itself. -/
def State.resumeBoot (s : State) : State :=
  match s.pins.boot with
  | some b => if b.step = 10 then
      (match s.tryForm b.env false with
       | some s => s.bootLast b.env
       | none => s) else s
  | none => s

/-- SUNDIAL_PROBE (R329, R330): one exchange on a link, of which this module is A; the sixteenth gives its measurement. -/
def execSundialProbe (l : BitVec 5) (probe : Probe) (s : State) : Host.Outcome State Fault Refusal :=
  let n := l.toNat
  let k := s.link n
  if k.state = 2 ∧ k.inDomain ∧ s.clk.locked ∧ !s.linkFrozen ∧ s.exchanged probe then
    let k := { k with probes := k.probes + 1, sumTheta := k.sumTheta + probeTheta probe, sumDelay := k.sumDelay + probeDelay probe }
    if k.probes = 16 then
      let r := s.means k.sumTheta k.sumDelay
      let s := r.2.setLink n { k with probes := 0, sumTheta := 0, sumDelay := 0, fresh := k.partnerFormed }
      .next ((s.measured n r.1.1 r.1.2).resumeBoot)
    else .next (s.setLink n k)
  else .next s

/-! ## Temperature -/

/-- THERMAL_SAMPLE (R421, R433): a reading every 1,000 ticks; a start-up that waits at step 1 goes on below 90 °C. -/
def execThermalSample (hottest : List (BitVec 12)) (sensor : List (BitVec 6)) (coolest : List (BitVec 12)) (s : State) :
    Host.Outcome State Fault Refusal :=
  if s.pwr.lastTherm.toNat + 1000 ≤ s.now ∧ hottest.length = 7 ∧ sensor.length = 7 ∧ coolest.length = 7 ∧ s.clk.locked then
    let t := s.readTemps hottest sensor coolest
    .next (match s.pins.boot with
      | some b =>
        if b.step = 1 ∧ (hottestOf hottest).1 < 360 then (t.status 0 0).bootFrom3 b.env b.cold false else t
      | none => t)
  else .next s

end Sys2Proof.Machine
end

