-- ==== Sys2Proof/Machine/Drain.lean ====
section
/-! DEFINITION. DRAIN (R213 to R215): a finished trough tile or rain barrel rounded once into its output format, with
the fused function, the statistics and the tile flag. -/

namespace Sys2Proof.Machine

/-- What one source of a drain is: its reduction, its rows, its entries in row-major order, and the tile to be named. -/
structure DSrc where
  redn : Redn
  rows : Nat
  entries : List Entry
  tile : Bool
  /-- the A-cycle in which row 0 is read, and from one row to the next (R80, R82, R213, R214) -/
  first : Nat
  step : Nat
  deriving Repr

/-- A drain's options (Table 9.5). -/
structure DOpt where
  dst : Option Opnd
  first : Nat
  fmt : BitVec 4
  func : Option Nat
  stat : Option Nat
  ports : Nat
  deriving Repr

/-- One entry on its way out: its value, the cause if the element counts as non-finite in the tile flag, and what its
roundings counted so far. -/
structure DElem where
  v : Val
  code : Option Nat
  both : Option ((Nat × Cnv) × Nat × Cnv)
  flag : Option (BitVec 3)
  cnv : List Cnv
  sticky : Bool
  deriving Repr

/-- R63, R109 and R124 for one entry: the overflow check, the shift, and the fused function on the value rounded into
T32. The identity of min-plus and max-plus is written but not flagged; a result with cause special-function domain is, whatever
its format. An entry's own cause is kept over the function's. DESIGN CHOICE, unsafe: log entry 69. -/
def drainElem (c : Ctx) (b : Bed) (r : Redn) (s : Int) (f : Fmt) (z : Int) (func : Option Nat) (e : Entry) : DElem :=
  let compat := c.prog.compat
  let l := e.limit (satBits r.prec.paired) compat (satBits r.prec.paired)
  let v := l.1.value (lsbOf r.prec.paired) s
  let ident := r.prec.isMinMax && decide (l.1 = r.prec.ident)
  let own := if l.1.cls = .fin ∨ ident = true then none else some l.1.cause
  match func with
  | none => { v, code := none, both := none, flag := own, cnv := [], sticky := l.2 }
  | some fn =>
    let t := encodeEl compat .t32 0 v
    let u := decodeEl compat .t32 0 t.1
    let it := sfItem {} compat f fun k g => sfEncode b.tblDigest fn u .zero k g z (sfApply fn u)
    let flag := if it.1.v.isFin ∧ it.2 ≠ 5 then none else match own with
      | some k => some k
      | none => some (BitVec.ofNat 3 it.2)
    { v := it.1.v, code := it.1.code, both := it.1.both, flag, cnv := [t.2, it.1.pre], sticky := l.2 }

/-- A-cycles from the read of a row to its writing (R213, R214). -/
def DOpt.late (opt : DOpt) (f : Fmt) : Nat :=
  6 + match opt.func with
    | some fn => sfnLatency fn (decide (f = .t32))
    | none => 0

/-- A-cycles of the drain input for a row (R213, R214). -/
def DOpt.per (opt : DOpt) : Nat := if opt.func.isSome then 8 else 1

/-- The formats whose outputs feed S1 and S2, and those that feed a max (Table 6.2). -/
def hasSums (f : Fmt) : Bool := decide (f = .t8) || decide (f = .t16) || decide (f = .bin16) || decide (f = .f8)
def hasMax (f : Fmt) : Bool := !decide (f = .b1)

/-- The statistics of one tile's rows (R215, R115): row m feeds entry e0 + m; for B1 only its count. -/
def drainStats (b : Bed) (compat : Bool) (f : Fmt) (e0 cols : Nat) (vals : List Val) : Bed :=
  (enumFrom 0 vals).foldl (fun b e =>
    let i := e0 + e.1 / cols
    let x := b.stat i
    b.setStat i (if hasMax f then x.add compat (hasSums f) e.2 else { x with count := x.count + 1, prep := none })) b

/-- One tile or barrel drained: its elements stored or put into registers, its statistics and its flag. `row0` is the
number of rows that an earlier tile of the same instruction put into registers. -/
def drainOne (c : Ctx) (a : Nat) (d : DSrc) (opt : DOpt) (row0 : Nat) (b : Bed) : Bed × List BOut :=
  let compat := c.prog.compat
  let tOut := match opt.dst with
    | some o => c.shiftOf b o.ti
    | none => c.prog.baseShift
  let s := d.redn.shift c b tOut
  let f := match opt.dst with
    | some o => fmtOf o.t.fmt
    | none => fmtOf opt.fmt
  let z : Int := match opt.dst with
    | some o => c.zeroOf b o.ti
    | none => 0
  let nn := d.redn.nn
  let cols := tileCols d.redn.prec.paired
  let es := ((enumFrom 0 d.entries).filter fun e => decide (e.1 / cols < d.rows) && decide (e.1 % cols < nn)).map fun e =>
    (e.1 / cols, e.1 % cols, drainElem c b d.redn s f z opt.func e.2)
  let b := b.countAll (es.flatMap fun e => e.2.2.cnv)
  let r : Stored := match opt.dst with
    | some o =>
      c.store b o.ti (es.map fun e => { o := o.shift e.2.1 e.1, v := e.2.2.v, code := e.2.2.code, both := e.2.2.both : SItem }) false
    | none =>
      let codes := es.map fun e => (e.1, match e.2.2.code with
        | some k => (k, Cnv.none)
        | none => encodeEl compat f 0 e.2.2.v)
      let b := b.countAll (codes.map (·.2.2))
      let b := (List.range d.rows).foldl (fun b m =>
        b.landV c.cyc (d.first + d.step * m + opt.late f) (opt.first + row0 + m) (laneMask nn)
          ((b.vreg (opt.first + row0 + m)).fill opt.fmt ((codes.filter fun e => e.1 == m).map (·.2.1)))) b
      ⟨b, [], codes.map fun e => decodeEl compat f 0 e.2.1⟩
  let b := match opt.stat with
    | some e0 => drainStats r.bed compat f e0 (max nn 1) r.vals
    | none => r.bed
  let b := if es.any (·.2.2.sticky) then b.setSticky else b
  let bad := es.filter fun e => e.2.2.flag.isSome
  let fl := match bad with
    | [] => (b, [])
    | e :: _ => b.tileFlag compat a (tflagWord (e.2.2.flag.getD 0) e.1 e.2.1 d.tile bad.length c.index)
  let lines := match opt.dst with
    | some o => d.rows * ceilDiv (o.span nn).2 64
    | none => 0
  let last := d.first + d.step * (d.rows - 1)
  let b := if opt.func.isSome then (fl.1.gauge 6 (8 * d.rows)).holdSf (last + 8) else fl.1
  ((b.gauge 3 lines).finish (last + opt.late f), r.outs ++ fl.2)

/-- A tile as a source, with its rows; and the array with that tile emptied, its last row read in the A-cycle before `till`
(R82). -/
def tileSrc (t : Tile) (rows : Nat) (tile : Bool) (first step : Nat) : DSrc :=
  { redn := t.redn, rows, entries := tileEntries t t.redn.prec.paired, tile, first, step }

def MArray.emptyTile (x : MArray) (tile : Bool) (till : Nat) : MArray :=
  let t := x.tile tile
  x.setTile tile { t with isOpen := false, entries := clearedEntries t.redn.prec, till }

/-- The statistics entries of a drain's rows reset, where stat_clear asks for it (R215). -/
def DOpt.reset (opt : DOpt) (on : Bool) (b : Bed) (rows : Nat) : Bed :=
  match opt.stat with
  | some e0 => if on then (upFrom e0 rows).foldl (fun (b : Bed) i => b.setStat i {}) b else b
  | none => b

/-- DRAIN (R213): from a tile, both tiles in the order in which their reductions completed, the last pass's tile on its
wavefront, or a rain barrel. An uncorrectable barrel read stops the plot (0x44) and writes nothing. -/
def drainBody (c : Ctx) (a : Nat) (wave source tile both : Bool) (opt : DOpt) (statClear : Bool) (barrel : BitVec 24)
    (b : Bed) : Bed × List BOut :=
  let x := b.array a
  let clear := opt.reset statClear
  let per := opt.per
  if source then
    let base := (c.opnd barrel).addr
    let info := (b.barrel base).getD {}
    let paired := info.prec.paired
    let len := entrySize paired * 64 * tileCols paired
    let r := b.touch c.index [(base, len)]
    match r.2 with
    | some addr => (r.1, [.halt 0x44 a addr])
    | none =>
      let d : DSrc := { redn := info, rows := info.mt, entries := barrelEntries r.1 base paired, tile
                        first := c.cyc + max 64 (ceilDiv (len / 64) opt.ports) - 64, step := per }
      drainOne c a d opt 0 ((clear r.1 info.mt).gauge 3 (len / 64))
  else if both then
    let t0 := decide (x.tile1.order < x.tile0.order)
    let d0 := tileSrc (x.tile t0) (x.tile t0).redn.mt t0 c.cyc per
    let d1 := tileSrc (x.tile !t0) (x.tile !t0).redn.mt (!t0) (c.cyc + 64 * per) per
    let b := (clear b (max d0.rows d1.rows)).setArray a ((x.emptyTile t0 (c.cyc + 64 * per)).emptyTile (!t0) (c.cyc + 128 * per))
    let r0 := drainOne c a d0 opt 0 b
    let r1 := drainOne c a d1 opt d0.rows r0.1
    (r1.1, r0.2 ++ r1.2)
  else
    let d := if wave then
        let q := x.lastPass.getD { tile, mt := 0, start := c.cyc, steps := 1 }
        tileSrc (x.tile q.tile) q.mt q.tile (q.start + q.steps + 191) q.steps
      else tileSrc (x.tile tile) (x.tile tile).redn.mt tile c.cyc per
    let till := if wave then d.first + d.step * (d.rows - 1) + 1 else c.cyc + 64 * per
    drainOne c a d opt 0 ((clear b d.rows).setArray a (x.emptyTile d.tile till))

end Sys2Proof.Machine
end

