-- ==== Sys2Proof/Machine/ComputeArray.lean ====
section
/-! DEFINITION. The meanings of the array and accumulator instructions: each issues its unit's operation at its bed (chapter 9). -/

namespace Sys2Proof.Machine

/-- PSET (R205): the precision state of one array; a change raises the fence (R84). -/
def execPset (b : BitVec 7) (h : Head) (a : BitVec 2) (path : BitVec 2) (mov : BitVec 4) (sta : BitVec 4)
    (p : BitVec 5) (sem : BitVec 2) (paired : Bool) (s : State) :
    Host.Outcome State Fault Refusal :=
  .next (s.issue b h (.pset b h a path mov sta p sem paired) (fun _ => psetBody a.toNat (psetPrec path mov sta p sem paired)))

/-- FILL (R206): the shadow plane of one array. -/
def execFill (b : BitVec 7) (h : Head) (a : BitVec 2) (src : BitVec 24) (kn : BitVec 7) (nn : BitVec 6)
    (bs : BitVec 4) (s : State) :
    Host.Outcome State Fault Refusal :=
  .next (s.issue b h (.fill b h a src kn nn bs) (fun c => fillBody c a.toNat src (kn.toNat + 1) (nn.toNat + 1) bs.toNat))

/-- CBLD (R207): the idle codebook bank of one array. -/
def execCbld (b : BitVec 7) (h : Head) (a : BitVec 2) (tensor : BitVec 12) (s : State) :
    Host.Outcome State Fault Refusal :=
  .next (s.issue b h (.cbld b h a tensor) (fun c => cbldBody c a.toNat tensor.toNat))

/-- MLOAD (R208): slots of the moving-operand buffer. -/
def execMload (b : BitVec 7) (h : Head) (a : BitVec 2) (half : Bool) (m0 : BitVec 6) (count : BitVec 6)
    (kn : BitVec 7) (src : BitVec 24) (bm : BitVec 4) (s : State) :
    Host.Outcome State Fault Refusal :=
  .next (s.issue b h (.mload b h a half m0 count kn src bm) (fun c => mloadBody c a.toNat half m0.toNat (count.toNat + 1) (kn.toNat + 1) src))

/-- SWAP (R209): the shadow plane and bank become current. -/
def execSwap (b : BitVec 7) (h : Head) (a : BitVec 2) (s : State) :
    Host.Outcome State Fault Refusal :=
  .next (s.issue b h (.swap b h a) (fun _ => swapBody a.toNat))

/-- PASS (R210): one chunk of a reduction, with its preload and correction. -/
def execPass (b : BitVec 7) (h : Head) (a : BitVec 2) (half : Bool) (m0 : BitVec 6) (mt : BitVec 6)
    (tile : Bool) (begins : Bool) (preEn : Bool) (corrEn : Bool) (pre : BitVec 24) (corr : BitVec 24)
    (s : State) :
    Host.Outcome State Fault Refusal :=
  .next (s.issue b h (.pass b h a half m0 mt tile begins preEn corrEn pre corr) (fun c => passBody c a.toNat half m0.toNat (mt.toNat + 1) tile begins
      (if preEn then some pre else none) (if corrEn then some corr else none)))

/-- SPILL (R211): a tile merged into a rain barrel. -/
def execSpill (b : BitVec 7) (h : Head) (a : BitVec 2) (tile : Bool) (first : Bool) (barrel : BitVec 24)
    (bp : BitVec 5) (s : State) :
    Host.Outcome State Fault Refusal :=
  .next (s.issue b h (.spill b h a tile first barrel bp) (fun c => spillBody c a.toNat tile first barrel (bp.toNat + 1)))

/-- RDRAIN (R212): a rain barrel's range into a record slot. -/
def execRdrain (b : BitVec 7) (h : Head) (a : BitVec 2) (barrel : BitVec 24) (slot : BitVec 3) (clear : Bool)
    (bp : BitVec 5) (s : State) :
    Host.Outcome State Fault Refusal :=
  .next (s.issue b h (.rdrain b h a barrel slot clear bp) (fun c => rdrainBody c a.toNat barrel slot.toNat clear))

/-- DRAIN (R213, R214, R215): finished entries rounded once into their output. -/
def execDrain (b : BitVec 7) (h : Head) (a : BitVec 2) (mode : Bool) (source : Bool) (tile : Bool) (both : Bool)
    (toReg : Bool) (dst : BitVec 24) (regFmt : BitVec 4) (func : BitVec 5) (fuse : Bool) (e0 : BitVec 6)
    (statEn : Bool) (statClear : Bool) (barrel : BitVec 24) (bp : BitVec 5) (s : State) :
    Host.Outcome State Fault Refusal :=
  .next (s.issue b h (.drain b h a mode source tile both toReg dst regFmt func fuse e0 statEn statClear barrel bp) (fun c => drainBody c a.toNat mode source tile both
      { dst := if toReg then none else some (c.opnd dst), first := dst.toNat % 16, fmt := regFmt,
        func := if fuse then some func.toNat else none, stat := if statEn then some e0.toNat else none, ports := bp.toNat + 1 }
      statClear barrel))

end Sys2Proof.Machine
end

