-- ==== Sys2Proof/Machine/ComputeVector.lean ====
section
/-! DEFINITION. The meanings of the vector instructions: each issues its unit's operation at its bed (chapter 9). -/

namespace Sys2Proof.Machine

/-- SPRB's effect (R225, R138, R141, R450): a key and a counter from a binding, the seed from the entropy buffer where
seed_src is 1; no buffered word once the source has failed stops the plot with code 0x5B. -/
def sprbBody (c : Ctx) (s : Nat) (entropy : Bool) (binding : Nat) (b : Bed) : Bed × List BOut :=
  let e := c.prog.bindings.getD binding {}
  if entropy then
    match b.entropy with
    | [] => (b, [.halt 0x5B 0 0])
    | w :: ws => (({ b with entropy := ws } : Bed).setSprinkler s { bound := true, seed := w, stream := e.stream, ctr := e.ctr }, [])
  else (b.setSprinkler s { bound := true, seed := e.seed, stream := e.stream, ctr := e.ctr }, [])

/-- VOP (R216): one vector operation. -/
def execVop (b : BitVec 7) (h : Head) (op : BitVec 5) (d : BitVec 4) (s1 : BitVec 4) (s2 : BitVec 4)
    (s3 : BitVec 4) (fmt : BitVec 4) (km : BitVec 3) (maskEn : Bool) (kd : BitVec 3) (imm8 : BitVec 8)
    (imm32 : BitVec 32) (s : State) :
    Host.Outcome State Fault Refusal :=
  .next (s.issue b h (.vop b h op d s1 s2 s3 fmt km maskEn kd imm8 imm32) (fun c => vopBody c op.toNat d.toNat s1.toNat s2.toNat s3.toNat fmt km.toNat maskEn kd.toNat imm8 imm32))

/-- VLD (R217): vector registers loaded. -/
def execVld (b : BitVec 7) (h : Head) (first : BitVec 4) (count : BitVec 4) (src : BitVec 24) (fmt : BitVec 4)
    (bp : BitVec 4) (s : State) :
    Host.Outcome State Fault Refusal :=
  .next (s.issue b h (.vld b h first count src fmt bp) (fun c => vldBody c first.toNat (count.toNat + 1) src fmt bp.toNat))

/-- VST (R217): vector registers stored. -/
def execVst (b : BitVec 7) (h : Head) (first : BitVec 4) (count : BitVec 4) (dst : BitVec 24) (bp : BitVec 4)
    (km : BitVec 3) (maskEn : Bool) (s : State) :
    Host.Outcome State Fault Refusal :=
  .next (s.issue b h (.vst b h first count dst bp km maskEn) (fun c => vstBody c first.toNat (count.toNat + 1) dst bp.toNat km.toNat maskEn))

/-- MCVT (R218): elements converted from memory to memory. -/
def execMcvt (b : BitVec 7) (h : Head) (src : BitVec 24) (dst : BitVec 24) (n : BitVec 16) (bp : BitVec 4)
    (s : State) :
    Host.Outcome State Fault Refusal :=
  .next (s.issue b h (.mcvt b h src dst n bp) (fun c => mcvtBody c src dst (n.toNat + 1) bp.toNat))

/-- SFN (R219): a special function over elements. -/
def execSfn (b : BitVec 7) (h : Head) (func : BitVec 5) (src : BitVec 24) (op2 : BitVec 24) (dst : BitVec 24)
    (n : BitVec 16) (s : State) :
    Host.Outcome State Fault Refusal :=
  .next (s.issue b h (.sfn b h func src op2 dst n) (fun c => sfnBody c func.toNat src op2 dst (n.toNat + 1)))

/-- SMAX1 (R220): pass 1 of a soft maximum. -/
def execSmax1 (b : BitVec 7) (h : Head) (src : BitVec 24) (mask : BitVec 12) (maskEn : Bool) (entry : BitVec 6)
    (clear : Bool) (beta : BitVec 32) (n : BitVec 16) (s : State) :
    Host.Outcome State Fault Refusal :=
  .next (s.issue b h (.smax1 b h src mask maskEn entry clear beta n) (fun c => smax1Body c src (if maskEn then some mask else none) entry.toNat clear beta (n.toNat + 1)))

/-- SMAX2 (R220): pass 2 of a soft maximum. -/
def execSmax2 (b : BitVec 7) (h : Head) (src : BitVec 24) (mask : BitVec 12) (maskEn : Bool) (entry : BitVec 6)
    (recip : Bool) (dst : BitVec 12) (n : BitVec 16) (s : State) :
    Host.Outcome State Fault Refusal :=
  .next (s.issue b h (.smax2 b h src mask maskEn entry recip dst n) (fun c => smax2Body c src (if maskEn then some mask else none) entry.toNat recip dst (n.toNat + 1)))

/-- SMAXM (R220): a row state merged. -/
def execSmaxm (b : BitVec 7) (h : Head) (src : BitVec 24) (entry : BitVec 6) (s : State) :
    Host.Outcome State Fault Refusal :=
  .next (s.issue b h (.smaxm b h src entry) (fun c => smaxmBody c src entry.toNat))

/-- SMAXX (R220): a row state written. -/
def execSmaxx (b : BitVec 7) (h : Head) (entry : BitVec 6) (dst : BitVec 24) (s : State) :
    Host.Outcome State Fault Refusal :=
  .next (s.issue b h (.smaxx b h entry dst) (fun c => smaxxBody c entry.toNat dst))

/-- SIEVE (R221): elements fed to the sieve. -/
def execSieve (b : BitVec 7) (h : Head) (src : BitVec 24) (n : BitVec 16) (k : BitVec 6) (dir : Bool)
    (clear : Bool) (base : BitVec 32) (s : State) :
    Host.Outcome State Fault Refusal :=
  .next (s.issue b h (.sieve b h src n k dir clear base) (fun c => sieveBody c src (n.toNat + 1) (k.toNat + 1) dir clear base))

/-- SIEVEM (R221): lists merged into the sieve. -/
def execSievem (b : BitVec 7) (h : Head) (src : BitVec 24) (count : BitVec 7) (k : BitVec 6) (dir : Bool)
    (clear : Bool) (fmt : BitVec 4) (s : State) :
    Host.Outcome State Fault Refusal :=
  .next (s.issue b h (.sievem b h src count k dir clear fmt) (fun c => sievemBody c src (count.toNat + 1) (k.toNat + 1) dir clear fmt))

/-- SIEVEO (R221): the sieve's list written. -/
def execSieveo (b : BitVec 7) (h : Head) (dst : BitVec 24) (s : State) :
    Host.Outcome State Fault Refusal :=
  .next (s.issue b h (.sieveo b h dst) (fun c => sieveoBody c dst))

/-- NPREP (R222): mean and reciprocal deviation of a statistics entry. -/
def execNprep (b : BitVec 7) (h : Head) (entry : BitVec 6) (rms : Bool) (eps : BitVec 32) (s : State) :
    Host.Outcome State Fault Refusal :=
  .next (s.issue b h (.nprep b h entry rms eps) (fun c => nprepBody c entry.toNat rms eps))

/-- NAPPLY (R222): elements normalised. -/
def execNapply (b : BitVec 7) (h : Head) (src : BitVec 24) (dst : BitVec 12) (gamma : BitVec 12)
    (beta : BitVec 12) (betaEn : Bool) (entry : BitVec 6) (n : BitVec 16) (s : State) :
    Host.Outcome State Fault Refusal :=
  .next (s.issue b h (.napply b h src dst gamma beta betaEn entry n) (fun c => napplyBody c src dst gamma (if betaEn then some beta else none) entry.toNat (n.toNat + 1)))

/-- STATX (R223): statistics items written. -/
def execStatx (b : BitVec 7) (h : Head) (entry : BitVec 6) (count : BitVec 6) (dst : BitVec 24) (s : State) :
    Host.Outcome State Fault Refusal :=
  .next (s.issue b h (.statx b h entry count dst) (fun c => statxBody c entry.toNat (count.toNat + 1) dst))

/-- STATM (R223): statistics items merged. -/
def execStatm (b : BitVec 7) (h : Head) (entry : BitVec 6) (count : BitVec 6) (src : BitVec 24) (s : State) :
    Host.Outcome State Fault Refusal :=
  .next (s.issue b h (.statm b h entry count src) (fun c => statmBody c entry.toNat (count.toNat + 1) src))

/-- PICK (R224): a tensor's delta picked from a range record. -/
def execPick (b : BitVec 7) (h : Head) (slot : BitVec 3) (target : BitVec 12) (tSrc : BitVec 8)
    (room : BitVec 3) (s : State) :
    Host.Outcome State Fault Refusal :=
  .next (s.issue b h (.pick b h slot target tSrc room) (fun c => pickBody c slot.toNat target.toNat tSrc room.toNat))

/-- RPX (R224): a range record written. -/
def execRpx (b : BitVec 7) (h : Head) (slot : BitVec 3) (dst : BitVec 24) (s : State) :
    Host.Outcome State Fault Refusal :=
  .next (s.issue b h (.rpx b h slot dst) (fun c => rpxBody c slot.toNat dst))

/-- RPM (R224): a range record merged. -/
def execRpm (b : BitVec 7) (h : Head) (slot : BitVec 3) (clear : Bool) (src : BitVec 24) (s : State) :
    Host.Outcome State Fault Refusal :=
  .next (s.issue b h (.rpm b h slot clear src) (fun c => rpmBody c slot.toNat clear src))

/-- SPRB (R225): a sprinkler bound. -/
def execSprb (b : BitVec 7) (h : Head) (s : BitVec 2) (entropy : Bool) (binding : BitVec 10) (st : State) :
    Host.Outcome State Fault Refusal :=
  .next (st.issueFresh b h (.sprb b h s entropy binding) (if entropy then 1 else 0)
    (fun c => sprbBody c s.toNat entropy binding.toNat))

/-- SPRD (R226): draws of a sprinkler. -/
def execSprd (b : BitVec 7) (h : Head) (s : BitVec 2) (form : BitVec 2) (dst : BitVec 4) (count : BitVec 4)
    (p : BitVec 16) (st : State) :
    Host.Outcome State Fault Refusal :=
  .next (st.issue b h (.sprd b h s form dst count p) (fun c => sprdBody c s.toNat form.toNat dst.toNat (count.toNat + 1) p.toNat))

/-- VTLD (R227): the shadow table bank reloaded. -/
def execVtld (b : BitVec 7) (h : Head) (image : BitVec 12) (bp : BitVec 5) (s : State) :
    Host.Outcome State Fault Refusal :=
  .next (s.issue b h (.vtld b h image bp) (fun c => vtldBody c image.toNat (bp.toNat + 1)))

end Sys2Proof.Machine
end

