-- ==== Sys2Proof/Machine/Checks.lean ====
section
/-! DEFINITION. The loader's checks of Table 8.7 from the third on: table images, descriptors, synchronisation sequences,
varies bits, bindings, and the rules that hold between the instructions and beds of a whole plot. -/

namespace Sys2Proof.Machine

/-! ## Table images (check 3) -/

/-- The tensors of kind 3, rising. -/
def imageTensors (g : Program) : List Nat := ((enumFrom 0 g.tensors).filter fun e => e.2.kind == 3).map (·.1)

/-- Section 5 holds the table images, 32 KiB each, in the order of their tensors; every digest named matches (R143). -/
def imagesOk (img : List Byte) (g : Program) (tableDigests : List (BitVec 256)) : Bool :=
  let sec := secBytes img 5
  let n := (imageTensors g).length
  tableDigests.length == n && decide (32768 * n ≤ sec.length) &&
    (enumFrom 0 tableDigests).all fun e => digest (entryAt sec 32768 e.1) == e.2

/-! ## Beds and links in service (check 5) -/

/-- A logical bed in service. -/
def State.serves (s : State) (b : Nat) : Bool :=
  match s.physOf b with
  | some p => (s.bed p).admin == 0
  | none => false

def State.serviceFails (s : State) (g : Program) : List Fail :=
  let beds := g.beds.map (·.1) ++ g.claims.flatMap fun c => if c.kind = 1 then upFrom c.first c.count else []
  (beds.filter fun b => !s.serves b).map (fun b => { bed := b % 128, index := b, code := 0x11, kind := 1 : Fail }) ++
    g.claims.flatMap fun c =>
      if c.kind = 6 ∨ c.kind = 7 then
        ((upFrom c.first c.count).filter fun l => (s.link l).state != 2).map fun l => { index := l, code := 0x11, kind := c.kind }
      else []

/-! ## Descriptors (check 6) -/

/-- A codebook entry: neither NaN nor infinite, at most 8 significand bits (R40). -/
def bookEntryOk (c : Nat) : Bool :=
  match decodeT false c 16 with
  | .fin _ => c % 2 ^ 15 == 0 || (taperedMag (if c < 2 ^ 15 then c else 2 ^ 16 - c) 16).1.toNat % 2 ^ (Nat.log2
      (taperedMag (if c < 2 ^ 15 then c else 2 ^ 16 - c) 16).1.toNat - 7) == 0
  | _ => false

/-- A C4 tensor's codebook, as bed memory holds it (R40, R186). -/
def State.bookOk (s : State) (t : Tensor) : Bool :=
  match s.physOf t.bed with
  | some p => t.codebook != 0 && t.codebook % 32 == 0 && (List.range 16).all fun i =>
      bookEntryOk (leNat ((s.bed p).bytes (t.codebook + 2 * i) 2))
  | none => false

/-- A quantisation word (R148, R158, R160). The escape window is asked of T8X tensors only, whose window it is; on every other
tensor it is unused. DEDUCED, safe: log entry 66. -/
def quantOk (t : Tensor) : Bool :=
  let q := t.quant
  wfld q 53 11 == 0 && (decide (fmtOf t.fmt = .f8) || wfld q 6 8 == 0) &&
    (!decide (fmtOf t.fmt = .t8x) ||
      (let lo := signed 8 (wfld q 14 8)
       let hi := signed 8 (wfld q 22 8)
       decide (-24 ≤ lo) && decide (lo < hi) && decide (hi ≤ 25) && decide (64 * wfld q 34 19 + 16 * ceilDiv t.size 256 ≤ 2 ^ 25)))

/-- Whether the barrel at an address is in the paired form: all its SPILLs wrote it so (R60, R212). -/
def pairedBar (rs : List Run) (bed addr : Nat) : Bool :=
  rs.any fun r => r.bed == bed && match tget (fun _ => none) r.v.bars addr with
    | some k => k.redn.prec.paired && !k.mixed
    | none => false

/-- Bytes that a tensor's region takes: a rain barrel's, a correction vector's, a table image's or its elements' (Table 11.5). -/
def Tensor.region (t : Tensor) (rs : List Run) : Nat :=
  if t.kind = 1 then max t.extent (barrelSize (pairedBar rs t.bed t.base))
  else if t.kind = 2 then max t.extent 2048
  else if t.kind = 3 then max t.extent 32768
  else t.extent

/-- A tensor's region with the side list and the codebook beside it (R40, R160). -/
def Tensor.regions (t : Tensor) (rs : List Run) : List (Nat × Nat) :=
  (t.base, t.region rs) :: (if fmtOf t.fmt = .t8x then [(sideAddr t.quant 0, 16 * ceilDiv t.size 256)] else []) ++
    if fmtOf t.fmt = .c4 then [(t.codebook, 32)] else []

/-- A tensor descriptor alone (R23, R148, R158, R186, R394). -/
def State.tensorOk (s : State) (g : Program) (rs : List Run) (t : Tensor) : Bool :=
  !fmtReserved t.fmt && decide (t.kind ≤ 3) && g.has t.bed && t.ext.all (fun e => e != 0) &&
    decide (t.base + t.region rs ≤ 2 ^ 25) && quantOk t && (!(t.kind == 1 || t.kind == 3) || t.base % 64 == 0) &&
    (if fmtOf t.fmt = .c4 then s.bookOk t else t.codebook == 0) &&
    (!(t.role == 1 || t.role == 2) || match g.digests[t.digestIdx]? with | some d => d.role == t.role | none => false)

/-- How an instruction uses the tensors it names, as the kinds it may name: as a barrel, a correction vector, a table image or
otherwise (R67, R164); debug mode lets no instruction name more, since the bed side of a BRW is written (R68, R274). -/
def usesOf : Instr → List (Nat × List Nat)
  | .spill _ _ _ _ _ barrel _ => [(refTensor barrel, [1])]
  | .rdrain _ _ _ barrel _ _ _ => [(refTensor barrel, [1])]
  | .drain _ _ _ _ source _ _ toReg dst _ _ _ _ _ _ barrel _ =>
    (if toReg then [] else [(refTensor dst, [0])]) ++ (if source then [(refTensor barrel, [1])] else [])
  | .pass _ _ _ _ _ _ _ _ preEn corrEn pre corr =>
    (if preEn then [(refTensor pre, [0])] else []) ++ (if corrEn then [(refTensor corr, [2])] else [])
  | .vtld _ _ image _ => [(image.toNat, [3])]
  | .brw _ _ _ _ bed _ _ _ _ => [(refTensor bed, [0])]
  | .lcoll .. => []
  | i => (namedBy i).map fun t => (t, [0])

/-- What a barrow descriptor breaks of R276 to R278 by itself: a reserved field, space or format, a retry reserve over the
limit. -/
def barrowClean (limit : Nat) (raw : List Byte) : Bool :=
  let w6 := dword raw 6
  decide (dword raw 2 < 2 ^ 40) && decide (dword raw 3 < 2 ^ 40) && decide (dword raw 4 < 2 ^ 40) && decide (dword raw 5 < 2 ^ 40) &&
    w6 / 2 ^ 44 == 0 && dword raw 7 == 0 && decide ((sideA raw).space ≤ 2) && decide ((sideB raw).space ≤ 2) &&
    !fmtReserved (sideA raw).fmt && !fmtReserved (sideB raw).fmt && decide (bits w6 30 2 ≤ limit)

/-- The failures of the descriptors of tensors, hints, digests and barrows, and of the tensors that instructions name
(check 6); those of the barrow transfers themselves are `brwShapeFails`. DEDUCED, unsafe: log entry 16. -/
def State.descFails (s : State) (g : Program) (rs : List Run) (img : List Byte) : List Fail :=
  let raw := entries (secBytes img 2) 64 g.tensors.length
  let meets := fun (t u : Tensor) => u.bed == t.bed &&
    (u.regions rs).any fun r => overlaps t.base (t.region rs) r.1 r.2
  let bad := (enumFrom 0 g.tensors).filter fun e => !tensorClean (raw.getD e.1 []) || !s.tensorOk g rs e.2 ||
    (e.2.kind == 1 && (enumFrom 0 g.tensors).any fun f => f.1 != e.1 && meets e.2 f.2)
  (bad.map fun e => { bed := e.2.bed, index := e.1, code := 0x24 : Fail }) ++
    (if ((entries (secBytes img 6) 16 g.hints.length).all fun h => decide (fieldAt h 4 1 ≤ 2) &&
        (fieldAt h 4 1 == 1 || fieldAt h 5 1 == 0) && fieldAt h 6 2 == 0) ∧
        ((entries (secBytes img 7) 64 g.digests.length).all fun d => (fieldAt d 32 1 == 1 || fieldAt d 32 1 == 2) &&
          decide (fieldAt d 33 1 < 4) && allZero (d.drop 36)) then [] else [{ code := 0x24 : Fail }]) ++
    (g.beds.flatMap fun e =>
      (g.lists.getD e.2 {}).indexed.filterMap fun k =>
        if (usesOf k.2).all fun u => match g.tensors[u.1]? with
            | some t => u.2.contains t.kind && t.bed == e.1
            | none => false then none
        else some { bed := e.1, index := k.1, code := 0x24 : Fail }) ++
    g.runs.flatMap fun r => (enumFrom 0 r.2.barrows).filterMap fun d =>
      if barrowClean (s.fld 0x80010 0 3) d.2 then none else some { bed := r.1, index := d.1, code := 0x24 }

/-- Whether an instruction holds a reserved format code, in a form that reads the field (R23). -/
def reservedFmt : Instr → Bool
  | .pset _ _ _ _ mov sta _ _ _ => fmtReserved mov || fmtReserved sta
  | .drain _ _ _ _ _ _ _ _ _ regFmt _ _ _ _ _ _ _ => fmtReserved regFmt
  | .vop _ _ _ _ _ _ _ fmt _ _ _ _ _ => fmtReserved fmt
  | .vld _ _ _ _ _ fmt _ => fmtReserved fmt
  | .sievem _ _ _ _ _ _ _ fmt => fmtReserved fmt
  | _ => false

/-- Reserved format codes in the words of the plot's lists, those after an END among them (check 6, R23). -/
def Program.formFails (g : Program) : List Fail := g.failsAt 0x24 reservedFmt

/-! ## Loops and synchronisation (check 7) -/

/-- Loops of a list: at most four levels, every body within the one around it and the list (R177). -/
def loopsOk (n : Nat) : List (Nat × Instr) → List Nat → Option Nat
  | [], _ => none
  | (k, i) :: rest, ends =>
    let ends := ends.filter fun e => decide (k < e)
    match i with
    | .loop _ _ _ body =>
      let e := k + 2 + body.toNat
      if 4 ≤ ends.length ∨ n < e ∨ ends.any (fun x => decide (x < e)) then some k else loopsOk n rest (e :: ends)
    | _ => loopsOk n rest ends

/-- What all copies of a synchronisation instruction share: its kind, A-cycle, target and deadline (R173, R232). -/
def syncKey (s : Iss) : Option (Nat × Nat × Nat × Nat) :=
  if !s.on then none else match s.ins with
  | .sdwait _ _ target d => some (0, s.cyc, target.toNat, d.toNat)
  | .lrecv _ _ _ _ _ _ d => some (1, s.cyc, 0, d.toNat)
  | .cwait _ _ _ d => some (2, s.cyc, 0, d.toNat)
  | .cbar _ _ _ _ d => some (3, s.cyc, 0, d.toNat)
  | _ => none

def Program.syncs (g : Program) (l : Nat) : List (Nat × Nat × Nat × Nat × Nat) :=
  (upToEnd (g.lists.getD l {}).issues).filterMap fun s => (syncKey s).map fun k => (s.index, k)

/-- The first index at which two synchronisation sequences differ, by the first one's instructions. -/
def firstDiff : List (Nat × Nat × Nat × Nat × Nat) → List (Nat × Nat × Nat × Nat × Nat) → Option Nat
  | [], [] => none
  | [], _ => some 0
  | a :: _, [] => some a.1
  | a :: as, b :: bs => if a.2 = b.2 then firstDiff as bs else some a.1

/-- The failures of check 7 that a list's followed state does not show; the relation between lists is blamed on the
lowest bed (R191). -/
def Program.syncFails (g : Program) : List Fail :=
  (g.runs.filterMap fun r => (loopsOk r.2.code.length r.2.indexed []).map fun k => { bed := r.1, index := k, code := 0x29 : Fail }) ++
    match firstFail (g.beds.map fun e => { bed := e.1, index := 0, code := 0 : Fail }) with
    | none => []
    | some low =>
      let mine := match g.beds.find? fun e => e.1 == low.bed with
        | some e => g.syncs e.2
        | none => []
      (g.beds.filterMap fun e => firstDiff mine (g.syncs e.2)).map fun k => { bed := low.bed, index := k, code := 0x29 }

/-! ## Varies bits and keys (checks 8 and 9) -/

/-- Whether an instruction is a varying one (Table 8.3). -/
def varying : Instr → Bool
  | .entr .. => true
  | .sdrd .. => true
  | .ctrrd .. => true
  | .sprb _ _ _ entropy _ => entropy
  | _ => false

def Program.variesFails (g : Program) : List Fail :=
  g.failsAt 0x21 (fun i => varying i && !(insHead i).varies) ++ g.failsAt 0x22 fun i => !varying i && (insHead i).varies

/-- Bindings (R139, R183, R225): beds of the plot, sprinklers 0 to 3, no key and no sprinkler bound twice at load; the
stream of an entropy-seeded binding is its own. -/
def Program.keyFails (g : Program) (img : List Byte) : List Fail :=
  let raw := entries (secBytes img 4) 48 g.bindings.length
  let atLoad := fun (b : Binding) => (g.boundAtLoad b.bed).contains b
  let bad := (enumFrom 0 g.bindings).filter fun e =>
    !g.has e.2.bed || decide (4 ≤ e.2.spr) || fieldAt (raw.getD e.1 []) 2 14 != 0 ||
      (enumFrom 0 g.bindings).any fun f => decide (f.1 < e.1) && (f.2.seed == e.2.seed && f.2.stream == e.2.stream ||
        atLoad e.2 && atLoad f.2 && f.2.bed == e.2.bed && f.2.spr == e.2.spr)
  (bad.map fun e => { bed := e.2.bed % 128, index := e.1, code := 0x23 : Fail }) ++
    g.failsAt 0x23 fun i => match i with
      | .sprb _ _ _ true binding => (match g.binding binding.toNat with
        | some b => (enumFrom 0 g.bindings).any fun f => f.1 != binding.toNat && f.2.stream == b.stream
        | none => true)
      | _ => false

/-! ## The plot as a whole (check 10) -/

/-- Whether an instruction's reserved bits that only its other fields tell from operands are zero: those of a DRAIN into
registers (R197, R213). -/
def fieldsClean : Instr → Bool
  | .drain _ _ _ _ _ _ _ toReg dst _ _ _ _ _ _ _ _ => !toReg || dst.toNat / 16 == 0
  | _ => true

/-- Words that are no instruction, gaps of 0, reserved conditions and bits, a list that does not end with END (R170, R172,
R197, R200, R230). -/
def Program.wordFails (g : Program) : List Fail :=
  g.runs.flatMap fun r =>
    ((enumFrom 0 r.2.code).filterMap fun e => match decodeIns 0 e.2 with
      | none => some { bed := r.1, index := e.1, code := 0x20 : Fail }
      | some i => if (insHead i).gap = 0 ∨ 5 ≤ (insHead i).cond.toNat ∨ !fieldsClean i then some { bed := r.1, index := e.1, code := 0x20 } else none) ++
      match r.2.code.getLast? with
      | some w => (match decodeIns 0 w with
        | some (.endList _ _) => []
        | _ => [{ bed := r.1, index := r.2.code.length - 1, code := 0x20 : Fail }])
      | none => [{ bed := r.1, code := 0x20 : Fail }]

/-- A declared landing region (R239). -/
structure Decl where
  bed : Nat
  s : Iss
  order : Nat
  seg : Nat
  len : Nat
  addr : Nat
  deriving DecidableEq, Repr

def Program.decls (g : Program) (r : Run) : List Decl :=
  (enumFrom 0 r.iss).filterMap fun e => match e.2.ins with
    | .rrecv _ _ route dst len =>
      some { bed := r.bed, s := e.2, order := e.1, seg := route.toNat, len := 64 * (len.toNat + 1), addr := (g.opnd r.list e.2.iters dst).addr }
    | _ => none

/-- A send that lands by RRECVs, with the region that its bed declares for it: the k-th with the k-th (R239). -/
def pairsOf (rs : List Run) (g : Program) : List (Send × Route × Option Decl × Nat) :=
  rs.flatMap fun r =>
    let mine := (g.sends r).filter fun x => match x.s.ins with | .rsend .. => true | _ => false
    (enumFrom 0 mine).flatMap fun e => match g.findRoute e.2.seg with
      | none => []
      | some q =>
        let k := ((mine.take e.1).filter fun y => y.seg == e.2.seg).length
        (q.dests.filter fun d => decide (d < 128) && g.has d).map fun d =>
          (e.2, q, (rs.filterMap fun r' => if r'.bed = d then ((g.decls r').filter fun y => y.seg == e.2.seg)[k]? else none).head?, d)

/-- A stretch of time in which a region may not be read, or not be written, by any other instruction of its bed. -/
structure Win where
  bed : Nat
  order : Nat
  index : Nat
  seg : Nat
  lo : Nat
  /-- it ends with a synchronisation wait, or at an A-cycle of a segment -/
  toSeg : Option Nat := none
  hi : Nat := 0
  hiSeg : Nat := seg
  addr : Nat
  len : Nat
  noRd : Bool
  noWr : Bool
  /-- words land in the region within it -/
  lands : Bool := true
  deriving DecidableEq, Repr

/-- Whether an access of another instruction breaks a window. -/
def Win.hit (w : Win) (a : Acc) : Bool :=
  a.bed == w.bed && a.order != w.order && overlaps a.addr a.len w.addr w.len && (if a.wr then w.noWr else w.noRd) &&
    !(decide (a.hi ≤ w.lo) && decide (a.seg ≤ w.seg)) &&
    match w.toSeg with
    | some t => decide (a.seg ≤ t)
    | none => !(decide (w.hi ≤ a.lo) && decide (w.hiSeg ≤ a.seg))

/-- Whether a window ends before another begins. -/
def Win.before (w x : Win) : Bool :=
  match w.toSeg with
  | some t => decide (t < x.seg)
  | none => decide (w.hi ≤ x.lo) && decide (w.hiSeg ≤ x.seg)

/-- Whether words that land for another instruction break a window. -/
def Win.struck (w x : Win) : Bool :=
  x.lands && w.noWr && x.bed == w.bed && x.order != w.order && overlaps x.addr x.len w.addr w.len && !w.before x && !x.before w

/-- A BRW execution: its descriptor as issued, its route and its landing A-cycle (R242, R243, R288). -/
structure BrwAt where
  bed : Nat
  s : Iss
  order : Nat
  ch : Nat
  desc : List Byte
  raw : List Byte
  ref : BitVec 24
  route : Nat
  lands : Nat
  deriving DecidableEq, Repr

/-- The BRW executions of a bed, their landings not reckoned. -/
def Program.brwsOf (g : Program) (r : Run) : List BrwAt :=
  (enumFrom 0 r.iss).filterMap fun e => match e.2.ins with
    | .brw _ _ channel desc bed level stepEn extStep route =>
      let raw := r.list.barrows.getD desc.toNat []
      let d := brwDesc { prog := g, list := r.list, iters := e.2.iters, log := r.bed } raw bed level.toNat stepEn extStep
      some { bed := r.bed, s := e.2, order := e.1, ch := channel.toNat, desc := d, raw, ref := bed, route := route.toNat
             lands := e.2.cyc }
    | _ => none

/-- Whether one BRW execution issues before another of any bed of the plot (R173). -/
def BrwAt.ahead (x y : BrwAt) : Bool :=
  decide (x.s.seg < y.s.seg) || x.s.seg == y.s.seg && (decide (x.s.cyc < y.s.cyc) || x.s.cyc == y.s.cyc && decide (x.bed < y.bed))

/-- An execution put among others in their order. -/
def insertBrw (x : BrwAt) : List BrwAt → List BrwAt
  | [] => [x]
  | y :: ys => if x.ahead y then x :: y :: ys else y :: insertBrw x ys

/-- The BRW executions of a plot in order, with their landing A-cycles: a transfer starts at its issue, or after the landing of
the one before it on its channel (R243, R280, R288). -/
def Program.brws (g : Program) (rs : List Run) : List BrwAt :=
  let all := (rs.flatMap g.brwsOf).foldl (fun l x => insertBrw x l) []
  (all.foldl
    (fun (st : List BrwAt × Tbl Nat) x =>
      if !x.s.on then (st.1 ++ [x], st.2)
      else
        let start := max x.s.cyc (tget (fun _ => 0) st.2 x.ch)
        let lands := (g.path x.desc x.route).landing start (decide (0 < x.s.seg) || start != x.s.cyc)
        (st.1 ++ [{ x with lands }], tset (fun _ => 0) st.2 x.ch (lands + 1))) ([], [])).1

/-- The windows of a bed (R235, R238, R239, R241, R243, R244). What is disabled reads nothing; a disabled RRECV declares its
region all the same, and a disabled RSEND lands nothing in it (R239). -/
def Program.landWindows (g : Program) (r : Run) (ps : List (Send × Route × Option Decl × Nat)) (xs : List BrwAt) : List Win :=
  (((g.sends r).filter (·.s.on)).flatMap fun x => x.ranges.map fun e =>
    { bed := r.bed, order := x.order, index := x.s.index, seg := x.s.seg, lo := x.s.cyc
      hi := x.last ((g.findRoute x.seg).getD {}) + 1, addr := e.1, len := e.2, noRd := false, noWr := true, lands := false : Win }) ++
  (ps.filterMap fun p => match p.2.2.1 with
    | some d => if d.bed = r.bed then
        some { bed := r.bed, order := d.order, index := d.s.index, seg := d.s.seg, lo := d.s.cyc
               hi := p.1.last p.2.1 + p.2.1.lambda, hiSeg := p.1.s.seg, addr := d.addr, len := d.len, noRd := true, noWr := true, lands := p.1.s.on : Win } else none
    | none => none) ++
  ((enumFrom 0 r.iss).flatMap fun e => if !e.2.on then [] else match e.2.ins with
    | .lrecv _ _ link _ len dst _ =>
      if link = 31 then []
      else
        let before := (r.iss.take e.1).filter fun s => s.index == e.2.index && s.on
        let seg0 := match before.getLast? with | some s => s.seg + 1 | none => 0
        let lo := match before.getLast? with | some s => s.cyc + 4 | none => 0
        [{ bed := r.bed, order := e.1, index := e.2.index, seg := seg0, lo, toSeg := some e.2.seg
           addr := (g.opnd r.list e.2.iters dst).addr, len := 64 * (len.toNat + 1), noRd := true, noWr := true : Win }]
    | .lcoll _ _ coll op count _ dst _ =>
      let ends := (r.iss.drop e.1).find? fun s => match s.ins with | .cwait _ _ c _ => s.on && c == coll | _ => false
      [{ bed := r.bed, order := e.1, index := e.2.index, seg := e.2.seg, lo := e.2.cyc
         toSeg := some (match ends with | some s => s.seg | none => e.2.seg)
         addr := (g.opnd r.list e.2.iters dst).addr, len := itemBytes op.toNat * (count.toNat + 1), noRd := true, noWr := true : Win }]
    | _ => []) ++
  ((xs.filter fun x => x.bed == r.bed && x.s.on).flatMap fun x =>
    let b := sideB x.desc
    (List.range b.lines).map fun i =>
      { bed := r.bed, order := x.order, index := x.s.index, seg := x.s.seg, lo := x.s.cyc, hi := x.lands
        addr := b.line i % 2 ^ 25, len := b.len, noRd := true, noWr := false : Win })

/-- The windows of a bed that an access or a landing of another instruction breaks. -/
def Program.windowFails (g : Program) (r : Run) (ps : List (Send × Route × Option Decl × Nat)) (xs : List BrwAt) : List Fail :=
  let ws := g.landWindows r ps xs
  ws.filterMap fun w =>
    if r.v.accs.any w.hit || ws.any w.struck then some { bed := w.bed, index := w.index, code := 0x20 } else none

/-- What the loader refuses of a send: an unclaimed or absent segment, another source (R238); of a link send an unclaimed
flow or a route that does not lead to the link (R240); of a tag its tensor, an unclaimed engine or a route that does not lead
to it (R244); of a collective its entry (R241, R335). -/
def Program.sendFails (g : Program) (r : Run) : List Fail :=
  (g.sends r).filterMap fun x =>
    let q := (g.findRoute x.seg).getD {}
    let base := g.claimsOf 2 x.seg && (g.findRoute x.seg).isSome && q.source == r.bed
    let ok := match x.s.ins with
      | .lsend _ _ link flow _ _ _ => decide (link.toNat < 24) && (g.slotsOf 6 link.toNat).getLsbD flow.toNat &&
          q.dest.getLsbD (linkEndpoint link.toNat)
      | .tag _ _ tensor engine _ =>
        let t := g.tensors.getD tensor.toNat {}
        t.role == 3 && t.tagged && g.claimsOf 0xA engine.toNat && q.dest.getLsbD (engineEndpoint engine.toNat)
      | .lcoll _ _ coll op count src dst _ =>
        let kind := fun (y : BitVec 24) => (g.tensorAt y).kind == (if op.toNat < 2 then 1 else 0) && (g.tensorAt y).bed == r.bed
        decide (op.toNat < 6) && kind src && kind dst && (match g.colls.find? fun c => c.coll == coll.toNat with
          | some c => c.op == op.toNat && c.beds.getLsbD r.bed && c.count == count.toNat + 1
          | none => false)
      | _ => true
    if base && ok then none else some { bed := r.bed, index := x.s.index, code := 0x20 }

/-- What the loader refuses of LRECV, CBAR and RRECV: an unclaimed flow or segment (R235, R237, R321); an arrival into an
input tensor whose engine is not claimed (R395). -/
def Program.recvFails (g : Program) (r : Run) : List Fail :=
  r.iss.filterMap fun s =>
    let arrives := fun (x : BitVec 24) =>
      let t := g.tensorAt x
      t.role != 1 || g.claimsOf 0xA (g.digests.getD t.digestIdx {}).engine
    let ok := match s.ins with
      | .lrecv _ _ link flow _ dst _ => link == 31 ||
          ((g.slotsOf 6 link.toNat).getLsbD flow.toNat && arrives dst && (g.tensorAt dst).bed == r.bed && g.routes.any fun q =>
            g.claimsOf 2 q.segment && q.source == linkEndpoint link.toNat && q.dest.getLsbD r.bed)
      | .cbar _ _ link _ _ => link == 31 || g.claimsOf 6 link.toNat
      | .rrecv _ _ route _ _ => g.claimsOf 2 route.toNat
      | .brw _ _ _ _ bed _ _ _ _ => arrives bed
      | _ => true
    if ok then none else some { bed := r.bed, index := s.index, code := 0x20 }

/-- What the loader refuses of paired sends and regions (R239). -/
def pairFails (ps : List (Send × Route × Option Decl × Nat)) : List Fail :=
  ps.filterMap fun p => match p.2.2.1 with
    | none => some { bed := min p.1.bed p.2.2.2, index := p.1.s.index, code := 0x20 }
    | some d =>
      let ok := d.len == p.1.bytes && decide (d.s.seg ≤ p.1.s.seg) && decide (d.s.cyc < p.1.first p.2.1 + p.2.1.lambda)
      if ok then none
      else if d.bed < p.1.bed then some { bed := d.bed, index := d.s.index, code := 0x20 }
      else some { bed := p.1.bed, index := p.1.s.index, code := 0x20 }

/-- RRECVs that no send pairs with (R239). -/
def loneFails (g : Program) (rs : List Run) (ps : List (Send × Route × Option Decl × Nat)) : List Fail :=
  rs.flatMap fun r => (g.decls r).filterMap fun d =>
    if ps.any fun p => p.2.2.1 == some d then none else some { bed := r.bed, index := d.s.index, code := 0x20 }

/-- A link direction as a number beyond those of segments. -/
def Occ.key (o : Occ) : Nat := 10000 + ((o.a.1 * 16 + o.a.2) * 16 + o.b.1) * 16 + o.b.2

/-- The words of a plot's sends on the links of the grid, for a frame phase, and in their segments' slots (R238, R265).
DEDUCED, unsafe: log entry 61. -/
def State.wordUses (s : State) (g : Program) (rs : List Run) (phase : Nat) : List Use :=
  rs.flatMap fun r => (g.sends r).flatMap fun x =>
    let q := (g.findRoute x.seg).getD {}
    let links := s.tree q
    ((x.departs q phase).flatMap fun t => links.map fun o =>
      { bed := 128, own := r.bed, index := x.s.index, seg := x.s.seg, lo := t + o.delta, hi := t + o.delta + 1, res := o.key : Use }) ++
    (x.departs q phase).map fun t => { bed := 128, own := r.bed, index := x.s.index, seg := x.s.seg, lo := t, hi := t + 1, res := x.seg }

/-- What the words of a plot's sends ask of a bed: reads in the sender's A-cycles, writes where they land (R252, R264). -/
def Program.wordBanks (g : Program) (r : Run) (ps : List (Send × Route × Option Decl × Nat)) (phase : Nat) :
    List BankUse × List PortUse :=
  let one := fun (index seg at_ : Nat) (sp : List (Nat × Nat)) (wr : Bool) =>
    (bankNeeds index seg wr false sp at_ (at_ + 1),
     ({ index, seg, lo := at_, hi := at_ + 1, n := 4 } : PortUse) ::
      if wr && !(sp.flatMap partLines).isEmpty then [{ index, seg, lo := at_ - 1, hi := at_, n := (sp.flatMap partLines).length : PortUse }] else [])
  let out := (g.sends r).flatMap fun x =>
    (enumFrom 0 (x.departs ((g.findRoute x.seg).getD {}) phase)).map fun e =>
      one x.s.index x.s.seg e.2 (x.word e.1) false
  let land := ps.flatMap fun p => match p.2.2.1 with
    | none => []
    | some d =>
      if d.bed = r.bed then (enumFrom 0 (p.1.departs p.2.1 phase)).map fun e =>
        one d.s.index p.1.s.seg (e.2 + p.2.1.lambda) [(d.addr + 256 * e.1, min 256 (d.len - 256 * e.1))] true
      else []
  ((out ++ land).flatMap (·.1), (out ++ land).flatMap (·.2))

/-- The uses that meet one further on in a list, with those they meet where `both` says so. -/
def meetFails (both : Bool) (us : List Use) : List Fail :=
  let fail := fun (a : Use) => ({ bed := a.own, index := a.index, code := 0x20 } : Fail)
  (enumFrom 0 us).flatMap fun e =>
    match (us.drop (e.1 + 1)).find? fun b => e.2.meets b with
    | some b => if both then [fail e.2, fail b] else [fail e.2]
    | none => []

/-- An entry put into a list that rises by its A-cycle after the last. -/
def insertBank (e : BankUse) : List BankUse → List BankUse
  | [] => [e]
  | a :: rest => if e.hi ≤ a.hi then e :: a :: rest else a :: insertBank e rest

/-- Port A-cycles added up until they are more than there are from lo on: those of the entries met so far. DESIGN
CHOICE, unsafe: log entry 60. -/
def overfull (lo : Nat) : List BankUse → Nat → List Nat → Option (List Nat)
  | [], _, _ => none
  | e :: rest, n, seen =>
    if e.lo < lo then overfull lo rest n seen
    else if e.hi < lo + n + e.n then some (e.index :: seen)
    else overfull lo rest (n + e.n) (e.index :: seen)

/-- Whether the accesses of a later segment can meet those of an earlier one at some length of the waits between: where they lie
closest together, the A-cycles that both span are fewer than both need (R234, R252). -/
def BankUse.strikes (e f : BankUse) : Bool :=
  let at_ := max f.lo e.lo
  decide (e.seg < f.seg) && decide (at_ < e.hi) && decide (max e.hi (at_ + (f.hi - f.lo)) - e.lo < e.n + f.n)

/-- The bank conflicts that no order of the accesses within the instructions avoids: A-cycles [lo, hi) in which one
bank would have to serve more accesses than there are A-cycles, at the shortest waits or at longer ones (R252). DESIGN CHOICE,
unsafe: log entry 60. -/
def bankFails (bed : Nat) (us : List BankUse) : List Fail :=
  (List.range 32).flatMap fun b =>
    let mine := (us.filter fun e => e.bank == b).foldl (fun (m : List BankUse) e => insertBank e m) []
    ((mine.filterMap fun e => overfull e.lo mine 0 []).flatten ++
      mine.flatMap fun e => (mine.filter e.strikes).flatMap fun f => [e.index, f.index]).map fun k => { bed, index := k, code := 0x20 }

/-- Words that an A-cycle's slot of the frame can bring a bed, or take from it, at any time: of link messages, and of what
nursery walkers plant and lift (R252, R264, R304, R321). -/
def Program.landings (g : Program) (bed slot : Nat) : Nat :=
  let walker := fun (e : Nat) => decide (0xB0 ≤ e ∧ e ≤ 0xB3)
  let link := fun (e : Nat) => decide (0x90 ≤ e ∧ e ≤ 0x9B) || decide (0xA0 ≤ e ∧ e ≤ 0xAB)
  (g.routes.filter fun q => q.dest.getLsbD bed && (link q.source || walker q.source) &&
    q.slotList.any fun k => (k + q.lambda) % 64 == slot % 64).length +
  (g.routes.filter fun q => q.source == bed && (q.dests.any walker) && q.slotList.any fun k => k == slot % 64).length

/-- The stretch of a BRW in which its words may land, with the slots in which they can (R243, R252). -/
structure LandAt where
  seg : Nat
  lo : Nat
  hi : Nat
  slots : List Nat
  /-- ports that it takes in such an A-cycle -/
  ports : Nat
  deriving DecidableEq, Repr

/-- The landings of a bed's barrows: 4 ports for a word, and 2 in the A-cycle before it for the lines that its first and its last
bytes cover in part (R253, R276). -/
def Program.brwLands (g : Program) (r : Run) (xs : List BrwAt) : List LandAt :=
  (xs.filter fun x => x.bed == r.bed).flatMap fun x =>
    let q := g.route x.route
    let b := sideB x.desc
    let part := (List.range b.lines).any fun i => !(partLines (b.line i % 2 ^ 25, b.len)).isEmpty
    let at_ := fun (back n : Nat) =>
      { seg := x.s.seg, lo := x.s.cyc, hi := x.lands + 1 - back, slots := q.slotList.map fun k => (k + q.lambda + 64 - back) % 64
        ports := n : LandAt }
    at_ 0 4 :: if part then [at_ 1 2] else []

/-- What a bed's barrows ask of its banks, at any time from issue to landing (R252, R276). -/
def brwBanks (r : Run) (xs : List BrwAt) : List BankUse :=
  (xs.filter fun x => x.bed == r.bed && x.s.on).flatMap fun x =>
    let b := sideB x.desc
    bankNeeds x.s.index x.s.seg true false ((List.range b.lines).map fun i => (b.line i % 2 ^ 25, b.len)) (x.s.cyc + 1) (x.lands + 1)

/-- Ports that barrows can take in an A-cycle. -/
def landsNow (ls : List LandAt) (seg t : Nat) : Nat :=
  ((ls.filter fun l => decide (l.seg ≤ seg) && decide (t < l.hi) && (decide (l.seg < seg) || decide (l.lo ≤ t)) &&
    (seg != 0 || l.slots.contains (t % 64))).map (·.ports)).sum

/-- The most ports that uses of the segments before one can hold at an A-cycle of it, the waits between them lasting any
time: a wait that lasts longer moves what follows it to later A-cycles of what runs over it (R234). -/
def peakBefore (us : List PortUse) : Nat → Nat → Nat
  | 0, _ => 0
  | k + 1, t =>
    let over_ := us.filter fun b => decide (b.seg ≤ k) && decide (t < b.hi)
    if over_ = [] then 0
    else
      let mine := over_.filter fun b => b.seg == k
      ((t :: (mine.map (·.lo)).filter fun x => decide (t < x)).map fun x =>
        ((mine.filter fun b => decide (b.lo ≤ x) && decide (x < b.hi)).map (·.n)).foldl (· + ·) 0 + peakBefore us k x).foldl max 0

/-- More than 32 ports in an A-cycle, with the 4 kept for each word that links, walkers and barrows can land in its slot;
after a wait an A-cycle can meet any slot (R72, R252, R321). The instruction that began last is blamed. -/
def portFails (g : Program) (bed : Nat) (us : List PortUse) (ls : List LandAt) : List Fail :=
  let lands := (List.range 64).map (g.landings bed)
  let most := lands.foldl max 0
  let times : List (Nat × Nat) :=
    us.map (fun b => (b.seg, b.lo)) ++ if most = 0 ∧ ls = [] then [] else us.map fun b => (b.seg, b.hi - 1)
  times.eraseDups.filterMap fun p =>
    let on := us.filter fun b => b.seg == p.1 && decide (b.lo ≤ p.2) && decide (p.2 < b.hi)
    match on with
    | [] => none
    | first :: more =>
      let last := more.foldl (fun (m b : PortUse) => if m.lo < b.lo ∨ (m.lo = b.lo ∧ b.index < m.index) then b else m) first
      let n := (on.map (·.n)).foldl (· + ·) 0 + peakBefore us p.1 p.2
      let ends := on.foldl (fun (m : Nat) b => min m b.hi) (p.2 + 64)
      let kept := if most = 0 ∧ ls = [] then 0
        else (upFrom p.2 (ends - p.2)).foldl (fun (m : Nat) k =>
          max m (4 * (if p.1 = 0 then lands.getD (k % 64) 0 else most) + landsNow ls p.1 k)) 0
      if 32 < n + kept then some { bed, index := last.index, code := 0x20 } else none

/-- What breaks R276 to R278 in a BRW's descriptor as it issues, its bed side in place: code 0x24 (check 6). -/
def brwShapeOk (x : BrwAt) : Bool :=
  let a := sideA x.desc
  let b := sideB x.desc
  let wa := (fmtOf a.fmt).width
  let wb := (fmtOf b.fmt).width
  let conv := dConvert x.raw
  let sa := wa / 8
  let sb := wb / 8
  let odd := fun (f : BitVec 4) => decide (fmtOf f = .t8x) || decide (fmtOf f = .c4)
  let shape := if dTranspose x.raw then
      (sa == 1 || sa == 2 || sa == 4) && decide (a.lines ≤ 64) && decide (a.len / sa ≤ 64) && b.lines == a.len / sa &&
        b.len == a.lines * sb
    else a.len * 8 / wa * a.lines == b.len * 8 / wb * b.lines
  let room := if a.space = 0 then ddrSize else if a.space = 1 then 2 ^ 32 else 2 ^ 64
  let within := (List.range a.lines).all fun i => decide (0 ≤ (a.addr : Int) + i * a.stride) && decide (a.line i + a.len ≤ room) &&
    (if a.space = 1 then a.line i / 2 ^ 25 == a.addr / 2 ^ 25 && decide (a.line i % 2 ^ 25 + a.len ≤ 2 ^ 25) &&
      (List.range b.lines).all fun j => !overlaps (a.line i) a.len (b.line j) b.len
     else a.line i % 64 == 0 && a.len % 64 == 0)
  a.len != 0 && b.len != 0 && within && a.len * 8 % wa == 0 && b.len * 8 % wb == 0 && shape &&
    (conv || a.fmt == b.fmt) && (!conv || (!odd a.fmt && !odd b.fmt && !decide (fmtOf a.fmt = .b1))) &&
    decide (b.addr % 2 ^ 25 + (b.lines - 1) * b.stride.toNat + b.len ≤ 2 ^ 25)

def Program.brwShapeFails (g : Program) (rs : List Run) : List Fail :=
  rs.flatMap fun r => (g.brwsOf r).filterMap fun x =>
    if brwShapeOk x then none else some { bed := r.bed, index := x.s.index, code := 0x24 }

/-- What the loader refuses of a BRW with code 0x20: its channel, spaces, slots, route, firmware's memory, or a third transfer
of the channel (R189, R242, R274, R280, R293, R297). -/
def Program.brwFails (g : Program) (all : List BrwAt) : List Fail :=
  all.filterMap fun x =>
    let a := sideA x.desc
    let units := (List.range a.lines).flatMap fun i => upFrom (a.line i / 512) (ceilDiv (a.line i + a.len) 512 - a.line i / 512)
    let served := units.all fun u => (List.range 4).any fun k => (g.ddrSlots.getD (ctlOf u) 0).getLsbD (16 * k + bankSet u)
    let route := g.claimsOf 2 x.route && match g.findRoute x.route with
      | some q => q.source == (if x.ch < 32 then 0x9C else 0xAC) && q.dest.getLsbD x.bed
      | none => false
    let firm := (List.range a.lines).any fun i => overlaps (a.line i) a.len 0x1000000 0x3F000000
    let queue := (all.filter fun y => y.s.on && y.ch == x.ch && y.ahead x && decide (x.s.cyc ≤ y.lands)).length
    let ok := g.claimsOf 3 x.ch && (sideA x.raw).space == 0 && (sideB x.raw).space == 1 && served && route && !firm &&
      (!x.s.on || decide (queue < 2)) && (g.tensorAt x.ref).bed == x.bed
    if ok then none else some { bed := x.bed, index := x.s.index, code := 0x20 }

/-- Updates of record slots by BRWs, from issue to Λ (R279). -/
def brwUses (r : Run) (xs : List BrwAt) : List Use :=
  (xs.filter fun x => x.bed == r.bed).filterMap fun x =>
    if dRange x.raw then some { bed := r.bed, own := r.bed, index := x.s.index, seg := x.s.seg, lo := x.s.cyc, hi := x.lands, res := 310 + dSlot x.raw }
    else none

/-- Bytes that a plot puts on a link under a flow at an issue of a bed: a message, or a collective's partial toward the
parent and its result toward each child (R237, R336). -/
structure LinkLoad where
  bed : Nat
  index : Nat
  seg : Nat
  cyc : Nat
  link : Nat
  flow : Nat
  bytes : Nat
  deriving DecidableEq, Repr

/-- What a plot puts on links: each collective once, at the issue of the lowest bed that pushes items into it. -/
def Program.linkLoads (g : Program) (rs : List Run) : List LinkLoad :=
  rs.flatMap fun r => ((g.sends r).filter (·.s.on)).flatMap fun x =>
    let at_ := fun (link flow : Nat) => ({ bed := r.bed, index := x.s.index, seg := x.s.seg, cyc := x.s.cyc, link, flow, bytes := x.bytes } : LinkLoad)
    match x.s.ins with
    | .lsend _ _ link flow _ _ _ => [at_ link.toNat flow.toNat]
    | .lcoll _ _ coll _ _ _ _ _ => (match g.colls.find? fun c => c.coll == coll.toNat with
      | some c => if rs.any fun q => decide (q.bed < r.bed) && c.beds.getLsbD q.bed then []
        else (if c.parent = 0x1F then [] else [at_ c.parent c.flow]) ++
          ((List.range 24).filter fun l => c.children.getLsbD l).map fun l => at_ l c.flow
      | none => [])
    | _ => []

/-- Shed buffers that a plot's transfers, link sends and, on the south hub, orders of the walkers it claims can hold at once on a
hub, against its claim (R237, R283, R304): at each issue of a BRW or of what goes onto a link. A channel runs one transfer at a
time (R280). -/
def Program.shedFails (g : Program) (rs : List Run) (xs : List BrwAt) : List Fail :=
  let brws := xs.filter (·.s.on)
  let loads := g.linkLoads rs
  let bars := rs.flatMap fun r => r.iss.filterMap fun s => match s.on, s.ins with
    | true, .cbar _ _ link flows _ => some (s.seg, link.toNat, flows)
    | _, _ => none
  let held := fun (h seg cyc : Nat) =>
    ((List.range 64).map fun ch => ((brws.filter fun x => x.ch == ch && ch / 32 == h && decide (x.s.cyc ≤ cyc) && decide (x.s.seg ≤ seg) &&
      decide (cyc < x.lands)).map fun x => ({ desc := x.desc } : Xfer).held).foldl max 0).sum +
    ceilDiv ((loads.filter fun e => e.link / 12 == h && decide (e.seg ≤ seg) && decide (e.cyc ≤ cyc) &&
      !(bars.any fun b => decide (e.seg ≤ b.1) && decide (b.1 < seg) && b.2.1 == e.link && b.2.2.getLsbD e.flow)).map
        (·.bytes)).sum 512 +
    (if h = 1 then 48 * ((g.claims.filter fun c => c.kind == 0xB).map (·.count)).sum else 0)
  (brws.filterMap fun x => if shedOf (x.ch / 32) g.claims < held (x.ch / 32) x.s.seg x.s.cyc then
      some { bed := x.bed, index := x.s.index, code := 0x20 : Fail } else none) ++
    loads.filterMap fun e => if shedOf (e.link / 12) g.claims < held (e.link / 12) e.seg e.cyc then
      some { bed := e.bed, index := e.index, code := 0x20 } else none

/-! ## Items that beds exchange (R115, R130, R136, R220, R221) -/

/-- A collective's push in a bed: which execution of its number it is, its operation, and its regions. -/
structure Push where
  order : Nat
  index : Nat
  coll : Nat
  op : Nat
  nth : Nat
  src : Nat
  dst : Nat
  len : Nat
  deriving DecidableEq, Repr

def Program.pushes (g : Program) (r : Run) : List Push :=
  let all := (enumFrom 0 r.iss).filterMap fun e => match e.2.on, e.2.ins with
    | true, .lcoll _ _ coll op count src dst _ =>
      some ({ order := e.1, index := e.2.index, coll := coll.toNat, op := op.toNat, nth := 0, src := (g.opnd r.list e.2.iters src).addr
              dst := (g.opnd r.list e.2.iters dst).addr, len := itemBytes op.toNat * (count.toNat + 1) } : Push)
    | _, _ => none
  (enumFrom 0 all).map fun e => { e.2 with nth := ((all.take e.1).filter fun q => q.coll == e.2.coll).length }

/-- The items that an item in bed memory is made of, read by a bed at a place in its order of issue: the latest of what the
bed itself wrote there, of a paired send that lands there, and of a collective's result; followed back through the plot. The
first argument bounds the following. -/
def Program.leaves (g : Program) (rs : List Run) (ps : List (Send × Route × Option Decl × Nat)) : Nat → Nat → Nat → Nat → List Item
  | 0, _, _, _ => []
  | n + 1, bed, order, addr =>
    match rs.find? fun r => r.bed == bed with
    | none => []
    | some r =>
      let mine := (r.v.made.filter fun m => decide (m.order < order) && match m.addr with
        | some a => decide (a ≤ addr) && decide (addr < a + m.len)
        | none => false).map fun m => (m.order, [m] ++ m.from_.flatMap fun f => g.leaves rs ps n bed f.1 f.2)
      let land := ps.filterMap fun p => match p.2.2.1 with
        | some d => if d.bed = bed ∧ p.1.s.on ∧ d.order < order ∧ d.addr ≤ addr ∧ addr < d.addr + d.len then
            some (d.order, g.leaves rs ps n p.1.bed p.1.order (p.1.addr + (addr - d.addr))) else none
        | none => none
      let coll := ((g.pushes r).filter fun q => decide (q.order < order) && decide (q.dst ≤ addr) && decide (addr < q.dst + q.len)).map fun q =>
        (q.order, rs.flatMap fun t => ((g.pushes t).filter fun u => u.coll == q.coll && u.nth == q.nth).flatMap fun u =>
          (g.leaves rs ps n t.bed u.order (u.src + (addr - q.dst))).map fun i => { i with len := itemBytes q.op })
      ((mine ++ land ++ coll).foldl (fun (b : Nat × List Item) e => if b.1 ≤ e.1 then e else b) (0, [])).2

/-- How deep items can be made of items in a plot. -/
def Program.itemDepth (g : Program) (rs : List Run) (ps : List (Send × Route × Option Decl × Nat)) : Nat :=
  1 + ps.length + (rs.map fun r => r.v.made.length + (g.pushes r).length).sum

/-- Whether items agree as one row state, list or statistics entry, and what they are made of stays within 2^23 elements. -/
def itemsOk (kind : Nat) (its : List Item) : Option Nat :=
  let betas := its.filterMap (·.beta)
  if kind = 0 ∧ betas.any (fun b => betas.any fun c => b != c) then some 0x20
  else if kind = 1 ∧ its.any (fun i => its.any fun j => fmtOf i.fmt = .f8 && i.zero != j.zero) then some 0x24
  else if kind ≠ 1 ∧ 2 ^ 23 < (its.map (·.count)).sum then some 0x20
  else none

/-- A failure among items that an instruction of a bed merges: the lowest bed's among them (R191). -/
def itemFail (bed index code : Nat) (its : List Item) : Option Fail :=
  firstFail ({ bed, index, code } :: (its.filter fun i => i.bed != bed).map fun i => { bed := i.bed, index := i.index, code })

/-- What the loader refuses of merges of items, and of collectives of them; a SIEVEM reads no more entries than a list holds
(R221). -/
def Program.itemFails (g : Program) (rs : List Run) (ps : List (Send × Route × Option Decl × Nat)) : List Fail :=
  let depth := g.itemDepth rs ps
  rs.flatMap fun r =>
    (r.v.merges.filterMap fun m =>
      let at_ := match m.addr with | some a => (m.order, a) :: m.from_ | none => m.from_
      let its := at_.flatMap fun f => g.leaves rs ps depth r.bed f.1 f.2
      match itemsOk m.kind (m :: its) with
      | some c => itemFail r.bed m.index c its
      | none => if m.kind == 1 && its.any fun i => decide (i.len < m.len) then itemFail r.bed m.index 0x20 its else none) ++
    (g.pushes r).filterMap fun q =>
      if q.op < 2 ∨ q.op = 3 ∨ rs.any (fun t => decide (t.bed < r.bed) && (g.pushes t).any fun u => u.coll == q.coll && u.nth == q.nth) then none
      else
        let n := itemBytes q.op
        ((List.range (q.len / n)).findSome? fun i =>
          let its := g.leaves rs ps depth r.bed (q.order + 1) (q.dst + n * i)
          (itemsOk (if q.op = 4 then 0 else if q.op = 5 then 1 else 2) its).bind fun c => itemFail r.bed q.index c its)

/-- Collective entries (R335): reserved bytes, claimed flows and result route, the beds that push. -/
def Program.collFails (g : Program) (rs : List Run) (raw : List (List Byte)) : List Fail :=
  let pushes := fun (r : Run) (k : Nat) => r.iss.any fun s => match s.ins with | .lcoll _ _ coll _ _ _ _ _ => coll == k | _ => false
  let ok := fun (c : Coll) =>
    let links := (if c.parent = 0x1F then [] else [c.parent]) ++ (List.range 24).filter fun l => c.children.getLsbD l
    decide (c.op < 6) && decide (c.hub < 2) && decide (c.flow < 16) && links.all (fun l => (g.slotsOf 6 l).getLsbD c.flow) &&
      g.claimsOf 2 c.resultRoute && rs.all (fun r => c.beds.getLsbD r.bed == pushes r c.coll) &&
      (List.range 128).all (fun b => !c.beds.getLsbD b || g.has b) &&
      (g.colls.filter fun d => d.coll == c.coll).length == 1
  (if raw.all collClean then [] else [{ code := 0x20 : Fail }]) ++
    g.colls.filterMap fun c => if ok c then none else some { bed := ((List.range 128).find? fun b => c.beds.getLsbD b).getD 0, index := c.coll, code := 0x20 }

/-- Walker claims (R304): slots held on every controller, at least one in each bank set. -/
def Program.walkerFails (g : Program) : List Fail :=
  (g.claims.filter fun c => c.kind == 0xB).filterMap fun c =>
    let held := (List.range 24).all fun k => g.slotsOf 5 k &&& c.slots == c.slots
    let every := (List.range 16).all fun b => (List.range 4).any fun k => c.slots.getLsbD (16 * k + b)
    if held && every then none else some { index := c.first, code := 0x20, kind := 0xB }

/-- HINTs of several beds in one A-cycle name one entry (R245). -/
def hintFails (rs : List Run) : List Fail :=
  let hs := rs.flatMap fun r => r.iss.filterMap fun s => match s.ins with
    | .hint _ _ entry => some (r.bed, s.index, s.seg, s.cyc, entry)
    | _ => none
  hs.filterMap fun a => if hs.any fun b => a.2.2.1 == b.2.2.1 && a.2.2.2.1 == b.2.2.2.1 && a.2.2.2.2 != b.2.2.2.2 then
    some { bed := a.1, index := a.2.1, code := 0x20 } else none

/-- Bytes of a bed that a program may read before it writes them (R258): tensors of role 1 or 2 with their side lists and
codebooks, and regions of kind 1, 2 or 3. -/
def Program.given (g : Program) (rs : List Run) (bed : Nat) : List (Nat × Nat) :=
  (g.tensors.filter fun t => t.bed == bed).flatMap fun t =>
    if t.role = 1 ∨ t.role = 2 ∨ (1 ≤ t.kind ∧ t.kind ≤ 3) then t.regions rs else []

/-- Reads of bytes that nothing has written, or whose write may land only after the reads begin (R258); a send of a sieve list
takes its whole item of 512 B, whatever entries it holds (R269). -/
def Program.firstReadFails (g : Program) (rs : List Run) (r : Run) (ps : List (Send × Route × Option Decl × Nat))
    (xs : List BrwAt) : List Fail :=
  let land := (g.landWindows r ps xs).filter fun w => w.noRd && w.lands
  let sendAt := fun (k : Nat) => match decodeIns 0 (r.list.code.getD k 0) with | some i => Sys2Proof.Machine.sends i | none => false
  r.v.accs.filterMap fun a =>
    if a.wr then none
    else
      let full := if sendAt a.index then (r.v.made.filter fun (m : Item) => m.kind == 1 && decide (m.order < a.order)).filterMap fun m =>
        m.addr.map fun x => (x, 512) else []
      let have_ := full ++ g.given rs r.bed ++ ((r.v.accs.filter fun b => b.wr && b.sure && decide (b.order < a.order) && decide (b.hi ≤ a.lo + 1)).map fun b => (b.addr, b.len)) ++
        (land.filter fun w => decide (w.order < a.order)).map fun w => (w.addr, w.len)
      if (List.range a.len).all fun i => have_.any fun e => decide (e.1 ≤ a.addr + i) && decide (a.addr + i < e.1 + e.2) then none
      else some { bed := r.bed, index := a.index, code := 0x20 }

/-- The greatest number of static events that a program writes (R400): tags, picks, flips, first varying executions, input
arrivals, bed and channel counters, and the stop. -/
def Program.staticEvents (g : Program) (rs : List Run) : Nat :=
  (rs.map fun r => 1 + (r.iss.filter (·.on)).foldl
    (fun n s => n + (match s.ins with
      | .tag .. => 2
      | .pick .. => 1
      | .tflip .. => 1
      | .lrecv _ _ link _ _ dst _ => if link != 31 && (g.tensorAt dst).role == 1 then 1 else 0
      | .brw _ _ _ _ bed _ _ _ _ => if (g.tensorAt bed).role == 1 then 1 else 0
      | _ => 0) + (if (insHead s.ins).varies && s.exec == 1 then 1 else 0)) 0).sum +
    ((g.claims.filter fun c => c.kind == 3).map (·.count)).sum + 1

/-- Everything that check 10 refuses. DEDUCED, unsafe: log entry 16. -/
def State.plotFails (s : State) (g : Program) (rs : List Run) (img : List Byte) (dir : List ListDir) : List Fail :=
  let ps := pairsOf rs g
  let xs := g.brws rs
  let s1 := secBytes img 1
  g.wordFails ++ rs.flatMap (·.v.fails) ++ s.routeFails g (routeBytes s1 dir) ++ g.collFails rs (collBytes s1 dir) ++
    g.walkerFails ++ rs.flatMap g.sendFails ++ rs.flatMap g.recvFails ++ pairFails ps ++ loneFails g rs ps ++
    g.brwFails xs ++ g.shedFails rs xs ++ hintFails rs ++ rs.flatMap (fun r => g.firstReadFails rs r ps xs) ++
    rs.flatMap (fun r => g.windowFails r ps xs) ++ ((g.itemFails rs ps).filter fun f => f.code == 0x20) ++
    (if 49152 < g.staticEvents rs then [{ code := 0x20 : Fail }] else []) ++
    rs.flatMap (fun r => meetFails false (brwUses r xs ++ r.v.uses)) ++
    (if (rs.flatMap g.sends).all (fun x => x.s.seg == 0) then [0] else List.range 64).flatMap fun phase =>
      meetFails true (s.wordUses g rs phase) ++ rs.flatMap fun r =>
        let ws := g.wordBanks r ps phase
        if phase != 0 && ws.2.isEmpty then []
        else bankFails r.bed (ws.1 ++ brwBanks r xs ++ r.v.banks) ++ portFails g r.bed (ws.2 ++ r.v.ports) (g.brwLands r xs)

/-! ## Claims (checks 11 and 12) -/

/-- Indices of a claim kind (Table 8.6); 0 for no kind. -/
def claimLimit (kind : Nat) : Nat := [0, 128, 4096, 64, 2, 24, 24, 24, 32, 1, 4, 4].getD kind 0

/-- Check 11: kinds and indices of Table 8.6, no two entries of the table overlap, every bed of the map is claimed. -/
def Program.claimFails (g : Program) (img : List Byte) : List Fail :=
  let raw := entries (secBytes img 3) 16 g.claims.length
  ((enumFrom 0 g.claims).filterMap fun e =>
    let c := e.2
    let last := if c.kind = 4 then c.first + 1 else c.first + c.count
    if c.count = 0 ∨ claimLimit c.kind < last ∨ fieldAt (raw.getD e.1 []) 1 1 ≠ 0 ∨
        (g.claims.take e.1).any (fun d => d.conflicts c) then
      some { index := c.first, code := 0x13, kind := c.kind % 16 : Fail } else none) ++
    g.beds.filterMap fun e => if g.claimsOf 1 e.1 then none else some { bed := e.1, index := e.1, code := 0x13, kind := 1 }

end Sys2Proof.Machine
end

