-- ==== Sys2Proof/Machine/Copy.lean ====
section
/-! DEFINITION. COPY_IN and COPY_OUT (R356, R357, R449): copies between host memory and the module through a firmware
channel, whose failures and recovery are those of every channel (R285 to R289). -/

namespace Sys2Proof.Machine

/-- The fields of a copy (Table 15.3). -/
structure CopyReq where
  host : Nat
  addr : Nat
  bed : Bool
  dig : Bool
  engine : Nat
  len : Nat
  digTo : Nat
  deriving DecidableEq, Repr

def copyReq (d : List Byte) : CopyReq :=
  let f := fieldAt d 24 1
  { host := fieldAt d 8 8, addr := fieldAt d 16 8, bed := bit f 0, dig := bit f 1, engine := bits f 2 2, len := fieldAt d 28 4,
    digTo := fieldAt d 32 8 }

/-- The regions of a plot's rain barrels and correction vectors in a bed that firmware's copies do not reach: in debug mode a
barrow reads rain barrels (R67, R68, R164). -/
def Program.sealed (g : Program) (out : Bool) (bed : Nat) : List (Nat × Nat) :=
  let rs := if g.tensors.any fun t => t.kind == 1 then g.followAll else []
  (g.tensors.filter fun t => t.bed == bed && (t.kind == 2 || t.kind == 1 && !(out && g.debug))).map fun t => (t.base, t.region rs)

/-- What refuses a copy, in or out (Table 15.4): a code, or 0. DEDUCED, unsafe: log entry 33. -/
def State.copyCode (s : State) (out : Bool) (q : CopyReq) : Nat :=
  if q.host % 64 ≠ 0 ∨ q.len % 64 ≠ 0 ∨ q.len = 0 ∨ (q.dig ∧ q.digTo % 64 ≠ 0) ∨ (!q.bed ∧ q.addr % 64 ≠ 0) then 0x01
  else if !q.bed then
    if ddrSize < q.addr + q.len ∨ overlaps q.addr q.len 0x1000000 0x3F000000 then 0x03 else 0
  else
    let log := bits q.addr 25 7
    let off := q.addr % 2 ^ 25
    match s.physOf log with
    | none => 0x03
    | some p =>
      if 2 ^ 32 ≤ q.addr ∨ 2 ^ 25 < off + q.len then 0x03
      else
        let sown := match (s.bed p).job with
          | some j => (s.plot j.plot).state == 3 || (s.plot j.plot).state == 4
          | none => false
        if 2 ≤ (s.bed p).admin then 0x03
        else if sown then 0x04
        else if s.plots.any fun e => e.2.state != 0 && (e.2.prog.sealed out log).any fun r => overlaps r.1 r.2 off q.len then 0x05
        else 0

/-- A copy handed to its gardener's firmware channel, which halted serves none (R289). -/
def State.giveCopy (s : State) (src : Src) (ch good : Nat) (t : Xfer) : State :=
  if (s.chan ch).state = 3 then (s.dropEngine t).complete src 1 0x02 0
  else
    let idle := (s.chan ch).cur.isNone && (s.engine (hubOf ch)).state == 0
    let s := (s.await 4 ch src 0).give ch t
    if idle then s.begin ch good else s

/-- The part of a copy that both directions share: its checks, its engine's claim, and the transfer it is made of.
DEDUCED, unsafe: log entry 33. -/
def State.startCopy (s : State) (src : Src) (out : Bool) (f : CopyReq → Nat → State → State) : State :=
  let q := copyReq (s.request src)
  let code := s.copyCode out q
  let ch := 28 + src.idx.toNat / 16
  if code ≠ 0 then s.complete src 1 code 0
  else if (s.chan ch).next.isSome ∨ !s.running then s
  else if q.dig then
    match s.clash [engineClaim q.engine] with
    | some e => s.complete src 1 0x07 (reportWord 0x10 e.1 e.2.1 e.2.2 0)
    | none => f q ch { s with fwClaims := s.fwClaims ++ [engineClaim q.engine] }
  else f q ch s

/-- COPY_IN (R356, R395): `good` counts the 64 B lines of host memory that answer well before one fails. -/
def execCopyIn (src : Src) (good : Nat) (s : State) : Host.Outcome State Fault Refusal :=
  if s.descriptor src 4 then
    .next (s.startCopy src false fun q ch s =>
      s.giveCopy src ch good {
        desc := copyDesc 2 q.host (if q.bed then 1 else 0) q.addr q.len q.dig q.engine
        src := some src
        digestTo := if q.dig then some q.digTo else none
        more := q.len - min q.len pieceSize })
  else .next s

/-- COPY_OUT (R256, R356): bed memory is read up to its first uncorrectable granule, at which the copy fails; a unit of
LPDDR5 that does not read is a bus error. -/
def execCopyOut (src : Src) (s : State) : Host.Outcome State Fault Refusal :=
  if s.descriptor src 5 then
    .next (s.startCopy src true fun q ch s =>
      let t : Xfer := {
        desc := copyDesc (if q.bed then 1 else 0) q.addr 2 q.host q.len q.dig q.engine
        src := some src
        digestTo := if q.dig then some q.digTo else none
        more := q.len - min q.len pieceSize }
      if q.bed then
        match s.physOf (bits q.addr 25 7) with
        | none => s
        | some p =>
          let off := q.addr % 2 ^ 25
          let r := (s.bed p).sendRead false 0 off q.len
          let s := s.setBed p r.1
          match r.2 with
          | .ok _ => s.giveCopy src ch q.len t
          | .error a =>
            let n := (a - off) / 64 * 64
            let s := s.placeBytes false 2 q.host ((s.bed p).bytes off n)
            (((s.report (unitId 1 p) (unitId 1 p) 0x88 a).watchEcc p).dropEngine t).complete src 1 0x07 0x51
      else s.giveCopy src ch q.len t)
  else .next s

end Sys2Proof.Machine
end

