-- ==== Sys2Proof/Machine/FaultCollector.lean ====
section
/-! DEFINITION. The fault collector (R384, R385) and the gardener watchdog (R371, R434). -/

namespace Sys2Proof.Machine

/-- FAULT_REPORT (R384, R385): a unit's report reaches the collector. -/
def execFaultReport (unit : BitVec 20) (reporter : BitVec 20) (cause : BitVec 8) (detail : W64) (s : State) :
    Host.Outcome State Fault Refusal :=
  if s.clk.locked then .next (s.report unit.toNat reporter.toNat cause.toNat detail.toNat) else .next s

/-- An entry freed: it reads 0 until it is taken again; one that is not unread stays as it is (R385). -/
def State.ackFault (s : State) (e : Nat) : State :=
  { s with grd := { s.grd with flt := tset (fun _ => {}) s.grd.flt e {} } }

/-- FAULT_ACK (R385): a write of GRD_FLT_ACK. -/
def execFaultAck (rid : BitVec 16) (entry : BitVec 8) (s : State) : Host.Outcome State Fault Refusal :=
  .next (s.bar0 rid fun s => s.ackFault entry.toNat)

/-- A gardener's watchdog expires (R371, R434): reported with the gardener blamed, its rings in error, the module in
recovery. -/
def State.watchdog (s : State) (g : Nat) : State :=
  let s := s.report (unitId 9 g) (unitId 9 8) 0x8B 0
  let s : State := { s with grd := { s.grd with gardState := tset (fun _ => 0) s.grd.gardState g 2 } }
  let rings := if g < 8 then upFrom (8 * g) 8 else []
  let s := rings.foldl
    (fun (s : State) r => if (s.ring r).state = 0 then s else s.setRing r { s.ring r with state := 3 }) s
  s.recover 0x8B

/-- One gardener's heartbeat checked (R371). DEDUCED, unsafe: log entry 55. -/
def State.checkGardener (s : State) (g : Nat) (alive : Bool) : State :=
  if tget (fun _ => 0) s.grd.gardState g ≠ 1 then s
  else if alive then
    { s with grd := { s.grd with
      heartbeat := tset (fun _ => 0) s.grd.heartbeat g (satAdd 32 (tget (fun _ => 0) s.grd.heartbeat g) 1)
      misses := tset (fun _ => 0) s.grd.misses g 0 } }
  else
    let n := tget (fun _ => 0) s.grd.misses g + 1
    let s : State := { s with grd := { s.grd with misses := tset (fun _ => 0) s.grd.misses g n } }
    if n = 10 then s.watchdog g else s

/-- HEARTBEAT_CHECK (R371): every 100,000 ticks the head gardener checks the others; bit g says that gardener g has given
its heartbeat. The head gardener's own goes on with the check. -/
def execHeartbeatCheck (alive : BitVec 10) (s : State) : Host.Outcome State Fault Refusal :=
  if s.now % 100000 = 0 ∧ s.clk.locked ∧ s.gardens 8 ∧ s.grd.checked ≠ some s.clk.sundial then
    let s : State := { s with grd := { s.grd with checked := some s.clk.sundial } }
    .next ((List.range 10).foldl (fun (s : State) g => s.checkGardener g (g == 8 || alive.getLsbD g)) s)
  else .next s

end Sys2Proof.Machine
end

