-- ==== Sys2Proof/Machine/Fencing.lean ====
section
/-! DEFINITION. Fencing and self-test of beds (R378 to R381), with what a fence does to nursery orders and planted
sessions (R310, R311). -/

namespace Sys2Proof.Machine

/-- The die of a physical bed (R13). -/
def dieOf (p : Nat) : Nat := p / 33

/-- The gardener that reports for a die's beds: the lower of its two. -/
def dieGardener (p : Nat) : Nat := unitId 9 (2 * dieOf p)

/-- FENCE (R378, R379): a logical number that maps no bed, and a bed that is fenced already, complete at once; any other is
fenced after tick t + 8. -/
def execFence (src : Src) (s : State) : Host.Outcome State Fault Refusal :=
  if s.service src 0x01 then
    let d := s.request src
    let b := fieldAt d 16 1
    let remap := bit (fieldAt d 17 1) 0
    if 128 ≤ b then .next (s.serve src 0x71 0)
    else
      match s.physOf b with
      | none => .next (s.serve src 0 0)
      | some p =>
        if 2 ≤ (s.bed p).admin then .next (s.serve src 0 0) else .next ((s.askFence p remap).await 1 p src 0)
  else .next s

/-! ## The fence takes effect -/

/-- A load in progress on a bed is refused (R372, R379). -/
def State.refuseLoads (s : State) (log : Nat) : State :=
  s.plots.foldl
    (fun (s : State) e =>
      if e.2.state = 1 ∧ (e.2.prog.claims.any fun c => c.kind == 1 && decide (c.first ≤ log) && decide (log < c.first + c.count)) then
        let s' := s.setPlot e.1 { stopCode := e.2.stopCode }
        match e.2.loadSrc with
        | some src => s'.complete src 1 0x07 (reportWord 0x11 0 1 log log)
        | none => s'
      else s) s

/-- Orders at work on a bed end with code 0x67 (R310, R379). -/
def State.fenceOrders (s : State) (log : Nat) : State :=
  (List.range 4).foldl
    (fun (s : State) w => match (s.walker w).work with
      | some k =>
        let pages := (enumFrom 0 k.dir).filter fun e => e.2.bed == log
        match pages with
        | e :: _ => if k.order.op ≠ 4 ∧ k.err = 0 then s.walkFail w k 0x67 e.1 false else s
        | [] => s
      | none => s) s

/-- Planted sessions with pages on a bed return to parked (R311). -/
def State.parkSessions (s : State) (is : List Nat) : State :=
  is.foldl (fun (s : State) i => s.setSess i (sessWith (s.sess i) 1 15)) s

/-- The plot of a fenced bed stops with code 0x56 (R379); one that a partner's order was to sow is no longer there. -/
def State.fencePlot (s : State) (p : Nat) : State :=
  let x := s.plot p
  let s := s.stopPlot p 0x56 none
  match x.sowAt, x.sowSrc with
  | some t, none => if x.state = 2 then s.sowAnswer t.toNat x.prog.digest .without 0 else s
  | _, _ => s

/-- The plots that hold a physical bed: by their bed map, or by a claim of its logical number (R188, R379). -/
def State.holders (s : State) (p : Nat) : List Nat :=
  let b := s.bed p
  (s.plots.filter fun e => (match b.job with | some j => j.plot == e.1 | none => false) ||
    b.mapped && decide (2 ≤ e.2.state) &&
      e.2.prog.claims.any fun c => c.kind == 1 && decide (c.first ≤ b.logical) && decide (b.logical < c.first + c.count)).map (·.1)

/-- A fence in effect: the bed issues nothing further, its plot stops with code 0x56 (R379), and its memory's contents
are lost (R22, R258). DEDUCED, unsafe: log entry 41. -/
def State.fenceNow (s : State) (p : Nat) (remap : Bool) : State :=
  let b := s.bed p
  let is := if b.mapped then s.plantedOn b.logical else []
  let s := (s.holders p).foldl State.fencePlot s
  let s := if b.mapped then (s.refuseLoads b.logical).fenceOrders b.logical else s
  let s := s.parkSessions is
  s.setBed p { s.bed p with
    admin := 2, fencePending := none, fencing := some remap, fenceTick := BitVec.ofNat 48 s.now, mem := [], ecc := [],
    scrubPending := none, lost := true
    fenceSessions := is.length, fenceFirst := is.headD 0, mulch := 0 }

/-- FENCE_TAKE_EFFECT (R379): at the first A-clock edge after tick t + 8 of the request. DEDUCED, unsafe: log entry
41. -/
def execFenceTakeEffect (p : BitVec 8) (s : State) : Host.Outcome State Fault Refusal :=
  let p := p.toNat
  match (s.bed p).fencePending with
  | none => .next s
  | some f => if s.running ∧ f.1 + 8 ≤ s.now then .next (s.fenceNow p f.2) else .next s

/-! ## The fence completes -/

/-- A claim table without the kind 0x01 claim of one bed. -/
def dropBed (log : Nat) (cs : List Claim) : List Claim :=
  cs.flatMap fun c =>
    if c.kind = 1 ∧ c.first ≤ log ∧ log < c.first + c.count then
      ((upFrom c.first c.count).filter fun b => b != log).map fun b => { kind := 1, first := b, count := 1 }
    else [c]

/-- The spare of a die, if it holds one. -/
def State.spareOf (s : State) (die : Nat) : Option Nat :=
  (upFrom (33 * die) 33).find? fun p => (s.bed p).admin == 1

/-- The end of a fence: the bed's claim is released, its logical number passes to the spare or is unmapped. DEDUCED,
unsafe: log entry 41. -/
def State.fenceDone (s : State) (p : Nat) (remap : Bool) : State :=
  let b := s.bed p
  let s := if b.mapped then
      (s.plots.foldl
        (fun (s : State) e =>
          s.setPlot e.1 { e.2 with prog := { e.2.prog with claims := dropBed b.logical e.2.prog.claims } }) s)
    else s
  let s := s.setBed p { b with
    fencing := none, mapped := false, logical := 0, former := if b.mapped then some b.logical else b.former }
  let s := match (if remap ∧ b.mapped then s.spareOf (dieOf p) else none) with
    | some q => s.setBed q { s.bed q with admin := 0, mapped := true, logical := b.logical }
    | none => s
  let s := s.report (unitId 1 p) (dieGardener p) 0x89 (b.fenceSessions % 2 ^ 18 + b.fenceFirst * 2 ^ 18)
  (s.answer 1 p 0 0 0).setDoor 5

/-- FENCE_COMPLETE (R379, R380). -/
def execFenceComplete (p : BitVec 8) (s : State) : Host.Outcome State Fault Refusal :=
  let p := p.toNat
  match (s.bed p).fencing with
  | none => .next s
  | some remap => if s.running then .next (s.fenceDone p remap) else .next s

/-- BED_POLL_TIMEOUT (R378): a bed that has not answered its gardener for 1,000 ticks is fenced, with automatic fencing
enabled. -/
def execBedPollTimeout (p : BitVec 8) (s : State) : Host.Outcome State Fault Refusal :=
  if p.toNat < 132 ∧ s.ready ∧ s.fld 0x20100 4 1 = 1 then .next (s.askFence p.toNat true) else .next s

/-! ## Self-test -/

/-- SELFTEST (R381): of a fenced bed, named by its physical number. -/
def execSelftest (src : Src) (s : State) : Host.Outcome State Fault Refusal :=
  if s.service src 0x02 then
    let d := s.request src
    let p := fieldAt d 16 1
    let b := s.bed p
    if 132 ≤ p then .next (s.serve src 0x71 0)
    else if b.admin ≠ 2 ∨ b.fencing.isSome then .next (s.serve src 0x72 0)
    else .next ((s.setBed p { b with admin := 3, testing := some (s.now, bit (fieldAt d 17 1) 0) }).await 0x12 p src 0)
  else .next s

/-- What a self-test leaves: bed memory all zeros with valid check bits; on a pass the bed serves again, on its former
number if that is asked for and unmapped, else as its die's spare; on a failure it stays fenced (R381). DESIGN CHOICE,
unsafe: log entry 42. -/
def State.tested (s : State) (p : Nat) (unfence pass : Bool) : State :=
  let b := s.bed p
  let b := { b with testing := none, mem := [], ecc := [], lost := false, bistPass := pass }
  if pass then
    let again := match b.former with
      | some n => unfence && (s.physOf n).isNone
      | none => false
    s.setBed p (if again then { b with admin := 0, mapped := true, logical := b.former.getD 0, former := none, job := none }
      else { b with admin := 1, former := none, job := none })
  else
    let r := (s.setBed p { b with admin := 2 }).draw 64
    r.2.report (unitId 1 p) (dieGardener p) 0x8A r.1.toNat

/-- SELFTEST_END (R381): 4,000,000 ticks after the start; a frost does not suspend it. DESIGN CHOICE, unsafe: log
entry 42. -/
def execSelftestEnd (p : BitVec 8) (pass : Bool) (s : State) : Host.Outcome State Fault Refusal :=
  let p := p.toNat
  match (s.bed p).testing with
  | none => .next s
  | some t =>
    if t.1 + 4000000 ≤ s.now ∧ s.clk.locked then
      .next (((s.tested p t.2 pass).answer 0x12 p 0 0 (b2n pass * 2 ^ 32)).setDoor 6)
    else .next s

end Sys2Proof.Machine
end

