-- ==== Sys2Proof/Machine/Loader.lean ====
section
/-! DEFINITION. LOAD and its end (R184, R191, R192, R357, R372): the checks of Table 8.7 in their order, the claims taken,
and what a loaded plot's beds and channels hold (R143, R166, R183, R202, R225, R279, R375, R459). -/

namespace Sys2Proof.Machine

/-! ## Checks -/

/-- Bytes that a plot's instructions write on its beds: their stores, and the regions in which words land for them. -/
def Program.writes (g : Program) : List (Nat × Nat × Nat) :=
  let rs := g.followAll
  let ps := pairsOf rs g
  rs.flatMap fun r =>
    ((r.v.accs.filter (·.wr)).map fun a => (r.bed, a.addr, a.len)) ++
      ((g.landWindows r ps (g.brwsOf r)).filter (·.noRd)).map fun w => (r.bed, w.addr, w.len)

/-- A planted session's page that a load would let an instruction write outside the plot's own role 1 tensors (R306):
the session's plot and the logical bed. -/
def State.plantedClash (s : State) (g : Program) : Option (Nat × Nat) :=
  let ws := g.writes
  let inputs := g.tensors.filter fun t => t.role == 1
  let hit := fun (d : DirEnt) => ws.any fun w => w.1 == d.bed &&
    (List.range w.2.2).any fun i =>
      decide (d.place ≤ w.2.1 + i) && decide (w.2.1 + i < d.place + pageSize) &&
        !(inputs.any fun t => t.bed == d.bed && decide (t.base ≤ w.2.1 + i) && decide (w.2.1 + i < t.base + t.extent))
  ((s.sessionsIn 2).filterMap fun i =>
    let e := s.sess i
    ((s.dirOf e).find? hit).map fun d => (fieldAt e 40 1, d.bed)).head?

/-- The last check (R188, R190, R265, R306): conflicts with what others hold, those of beds at their bed. -/
def State.heldFail (s : State) (g : Program) : Option Fail :=
  let claims := (s.clashes g.claims).map fun c =>
    { bed := if c.2.1 = 1 then c.2.2 else 0, index := c.2.2, code := 0x10, holder := c.1, kind := c.2.1 : Fail }
  let routes := (s.routeClash g).toList.map fun c => { index := c.2, code := 0x10, holder := c.1, kind := 2 : Fail }
  let planted := (s.plantedClash g).toList.map fun c => { bed := c.2, index := c.2, code := 0x10, holder := c.1, kind := 1 : Fail }
  firstFail (claims ++ routes ++ planted)

/-- The first failure of the checks of Table 8.7, in their order (R191). -/
def State.loadFail (s : State) (img : List Byte) (dir : List ListDir) (tableDigests : List (BitVec 256)) : Option Fail :=
  if imageDigest img ≠ BitVec.ofNat 256 (fieldAt img 32 32) then some { code := 0x01 }
  else if !imageOk img dir then some { code := 0x02 }
  else
    let g := programOf img dir tableDigests
    let rs := g.followAll
    let found := fun (code : Nat) => (rs.flatMap (·.v.fails)).filter fun f => f.code == code
    if !imagesOk img g tableDigests then some { code := 0x03 }
    else if (List.range 16).all fun p => (s.plot p).state != 0 then some { code := 0x12 }
    else
      (firstFail (s.serviceFails g)).orElse fun _ =>
      (firstFail (s.descFails g rs img ++ g.formFails ++ g.brwShapeFails rs ++ found 0x24 ++
        (g.itemFails rs (pairsOf rs g)).filter fun f => f.code == 0x24)).orElse fun _ =>
      (firstFail (g.syncFails ++ found 0x29)).orElse fun _ =>
      (firstFail g.variesFails).orElse fun _ =>
      (firstFail (g.keyFails img ++ found 0x23)).orElse fun _ =>
      (firstFail (s.plotFails g rs img dir)).orElse fun _ =>
      (firstFail (g.claimFails img)).orElse fun _ => s.heldFail g

/-! ## LOAD -/

/-- The image that a LOAD names, in host memory. -/
def State.imageOf (s : State) (src : Src) : List Byte :=
  mread 0 s.host.mem (fieldAt (s.request src) 8 8) (fieldAt (s.request src) 16 4)

/-- The lowest free plot number (R372). -/
def State.freePlot (s : State) : Nat := ((List.range 16).find? fun p => (s.plot p).state == 0).getD 0

/-- A plot number that has passed its checks: it holds its claims and is loading. -/
def State.startLoad (s : State) (src : Src) (g : Program) : State :=
  let r := src.idx.toNat
  s.setPlot s.freePlot { state := 1, ring := r, gardener := r / 8, prog := g, loadSrc := some src, shed := s.shedNumbers g.claims
                         stopCode := (s.plot s.freePlot).stopCode }

/-- LOAD (R184, R191, R192, R356, R357, R372): the image is read through the gardener's firmware channel and checked; a refused
load takes no claim and changes no bed. -/
def execLoad (src : Src) (fail : Option (BitVec 3)) (dir : List ListDir) (tableDigests : List (BitVec 256)) (s : State) :
    Host.Outcome State Fault Refusal :=
  if s.descriptor src 1 ∧ s.running then
    let a := fieldAt (s.request src) 8 8
    let n := fieldAt (s.request src) 16 4
    let ch := 28 + src.idx.toNat / 16
    if (s.plots.any fun e => e.2.loadSrc == some src) then .next s
    else if a % 64 ≠ 0 ∨ n % 64 ≠ 0 ∨ n = 0 then .next (s.complete src 1 0x01 0)
    else if (s.chan ch).state = 3 then .next (s.complete src 1 0x02 0)
    else if (s.engine (hubOf ch)).state ≠ 0 ∨ ((s.chan ch).cur.getD {}).src = some src then .next s
    else
      match fail with
      | some cause =>
        if 2 ≤ cause.toNat ∧ cause.toNat ≤ 5 ∧ s.readFree ch then
          .next (s.failRead ch cause.toNat { desc := readDesc a 64, src := some src })
        else .next s
      | none =>
        let img := s.imageOf src
        match s.loadFail img dir tableDigests with
        | some f => .next (s.complete src 1 0x07 (reportWord f.code f.holder f.kind f.index f.bed))
        | none => .next (s.startLoad src (programOf img dir tableDigests))
  else .next s

/-! ## The end of a load -/

/-- The words of a list, as an instruction store holds them from index 0 (R169). -/
def storeOf (l : IList) : Tbl (BitVec 128) := (enumFrom 0 l.code).filter fun e => e.2 != 0

/-- A bound sprinkler (R138, R183). -/
def Binding.sprinkler (b : Binding) : Sprinkler := { bound := true, seed := b.seed, stream := b.stream, ctr := b.ctr }

/-- The sprinklers of a bed after a load (R183, R225). -/
def Program.sprinklersOf (g : Program) (bed : Nat) : Tbl Sprinkler :=
  tsetAll (fun _ => {}) [] ((g.boundAtLoad bed).map fun b => (b.spr, b.sprinkler))

/-- A bed loaded with a list of a plot (R166, R183, R202, R459): its store, its bindings, and everything that a
program finds cleared. Bed memory and the table banks are as they were. DESIGN CHOICE, unsafe: log entry 17. -/
def Bed.load (b : Bed) (p : Nat) (g : Program) (list : Nat) : Bed :=
  { b with
    job := some { plot := p, list }
    store := storeOf (g.lists.getD list {})
    seq := { state := 1 }
    quant := []
    picks := []
    arrays := (b.arrays.map fun e => (e.1, e.2.loaded)).filter fun e => e.2 != {}
    vregs := []
    masks := []
    vLand := []
    kLand := []
    stats := []
    rows := []
    sieve := {}
    sprinklers := g.sprinklersOf b.logical
    tbReady := false
    sfTill := 0
    smaxTill := 0
    reloadTill := 0
    busyTill := 0
    ranges := []
    barrels := []
    gauges := []
    regs := tset (fun _ => 0) (tset (fun _ => 0) (tset (fun _ => 0) b.regs 0x20 0) 0xC00 0) 0xC08 0 }

/-- The table images of a plot written into its tensors of kind 3, whose bytes the image holds in section 5 (R143, R185). -/
def State.writeImages (s : State) (g : Program) (sec : List Byte) : State :=
  (enumFrom 0 (imageTensors g)).foldl
    (fun (s : State) e =>
      let t := g.tensors.getD e.2 {}
      match s.physOf t.bed with
      | some p => s.setBed p ((s.bed p).putBytes 0 t.base (entryAt sec 32768 e.1)).1
      | none => s) s

/-- The conversion counters of a plot's channels cleared (R279). -/
def State.clearChannels (s : State) (g : Program) : State :=
  (g.claims.filter fun c => c.kind == 3).foldl
    (fun (s : State) c => (upFrom c.first c.count).foldl (fun (s : State) ch => s.setReg (0x81400 + 8 * ch) 0) s) s

/-- The trace buffer taken by a plot that claims it (R460). -/
def State.takeTrace (s : State) (p : Nat) (g : Program) : State :=
  if g.claims.any fun c => c.kind == 9 then
    let s : State := { s with dbg := { s.dbg with trace := [] } }
    (s.setFld 0x100200 0 4 p).setReg 0x100208 0
  else s

/-- A plot loaded. -/
def State.finishLoad (s : State) (p : Nat) (src : Src) : State :=
  let x := s.plot p
  let g := x.prog
  let s := s.writeImages g (secBytes (s.imageOf src) 5)
  let s := g.beds.foldl
    (fun (s : State) e => match s.physOf e.1 with
      | some b => s.setBed b ((s.bed b).load p g e.2)
      | none => s) s
  let s := ((s.clearChannels g).takeTrace p g).setRunRec p {}
  let s := s.setPlot p { x with state := 2, loadSrc := none }
  s.complete src 0 0 (reportWord 0 p 0 0 0)

/-- LOAD_COMPLETE (R191, R372): the gardeners have written their beds; a load whose bed has left service meanwhile is
refused. -/
def execLoadComplete (p : BitVec 4) (s : State) : Host.Outcome State Fault Refusal :=
  let p := p.toNat
  let x := s.plot p
  match x.loadSrc with
  | none => .next s
  | some src =>
    if x.state = 1 ∧ s.running then
      match firstFail ((s.serviceFails x.prog).filter fun f => f.kind == 1) with
      | some f =>
        .next ((s.setPlot p { stopCode := x.stopCode }).complete src 1 0x07 (reportWord f.code f.holder f.kind f.index f.bed))
      | none => .next (s.finishLoad p src)
    else .next s

end Sys2Proof.Machine
end

