-- ==== Sys2Proof/Machine/Registers.lean ====
section
/-! DEFINITION. The registers: what a read of each returns, by BAR0 offset (R345, R346) and BAR2 offset (R368), and what
a write of each does by its access codes (R6 to R8, R343). -/

namespace Sys2Proof.Machine

/-- A register word from its fields: lowest bit, width, value. -/
def packed (fs : List (Nat × Nat × Nat)) : Nat := (fs.map fun f => f.2.2 % 2 ^ f.2.1 * 2 ^ f.1).sum

/-- Word i of a digest. -/
def digWord (d : BitVec 256) (i : Nat) : Nat := bits d.toNat (64 * i) 64

/-- Whether an offset is that of an 8-byte register of a row: first offset, step, number. -/
def inRow (off first step n : Nat) : Bool := decide (first ≤ off) && decide (off < first + step * n) && (off - first) % step == 0

/-! ## Bed windows -/

/-- The physical bed that a window shows: windows 0 to 127 by logical number, 128 to 131 the spare of their die (R346). -/
def State.windowBed (s : State) (i : Nat) : Option Nat :=
  if i < 128 then s.physOf i
  else if i < 132 then (s.beds.find? fun e => e.2.admin == 1 && e.1 / 33 == i - 128).map (·.1)
  else none

/-- The plot of a bed. -/
def State.jobPlot (s : State) (b : Bed) : Plot := match b.job with | some j => s.plot j.plot | none => {}

/-- Whether an element or a sum of a pass is in an array, and whether a tile holds a reduction, at an A-cycle. -/
def MArray.busyAt (x : MArray) (now : Nat) : Bool :=
  decide (now < x.sumPrev) || decide (now < x.sumEnd) && x.lastPass.any fun q => decide (q.start ≤ now)
def Tile.openAt (t : Tile) (now : Nat) : Bool := t.isOpen || decide (now < t.till)

/-- ARY_STATE_a at an A-cycle (R90): busy from the first feed of a pass until its last sum has committed, a tile open until the
last row of its reduction has been read (R82); a poisoned bank alone does not
make its plane read as poisoned, since ARY_PATH_a has a bit for it (R101). DESIGN CHOICE, unsafe: log entry 38. -/
def MArray.stateWord (x : MArray) (now : Nat) : Nat :=
  let p := x.precision
  packed [(0, 1, b2n (x.busyAt now)), (1, 1, b2n x.tag), (2, 1, b2n (x.shadow.ready && decide (x.shadow.till ≤ now))), (3, 4, p.mov.toNat), (7, 4, p.sta.toNat), (11, 2, p.path.toNat),
    (13, 5, if p.path = 0 then p.p.toNat else 0), (18, 1, b2n p.paired), (19, 1, b2n (decide (now < x.fenceEnd))), (20, 1, b2n (x.tile0.openAt now)),
    (21, 1, b2n (x.tile1.openAt now)), (22, 1, b2n x.shadow.poison)]

/-- P of a moving format at its most (Table 5.1). -/
def maxP (mov : BitVec 4) : Nat :=
  match fmtOf mov with
  | .t8 => 4
  | .t16 => 12
  | .t32 => 28
  | _ => 8

/-- ARY_PATH_a at an A-cycle (R112). -/
def MArray.pathWord (x : MArray) (now : Nat) : Nat :=
  let p := x.precision
  packed [(0, 2, p.sem.toNat), (2, 1, b2n x.tag), (3, 1, b2n (decide (now < max x.idleBank.till x.bank.till))), (4, 1, b2n x.idleBank.poison),
    (5, 1, b2n (p.path == 0 && x.prec.isSome && decide (p.p.toNat < maxP p.mov)))]

/-- ARY_DBG_DATA (R65, R68): the trough entry that ARY_DBG_SEL names. -/
def Bed.debugWord (b : Bed) (debug : Bool) : Nat :=
  let sel := b.reg 0x1428
  if debug then (b.array (wfld sel 0 2)).troughWord (wfld sel 2 1 == 1) (wfld sel 3 6) (wfld sel 9 6) (wfld sel 15 3) else 0

/-- BED_SEQ_WAIT (R250). -/
def Seq.waitWord (q : Seq) (observed : Bool) : Nat :=
  match q.wait with
  | none => 0
  | some w => packed [(0, 1, 1), (1, 16, w.index), (17, 4, w.kind), (21, 5, w.link), (26, 4, w.flow), (30, 8, w.coll),
      (38, 1, b2n (w.met.isSome || observed))]

/-- A register of a bed's window, by offset in it; a bed whose plot has an accepted sow reads sown (R196). DESIGN CHOICE, unsafe: log entry 38. -/
def State.readBed (s : State) (p off : Nat) : Nat :=
  let b := s.bed p
  let x := s.jobPlot b
  let q := b.seq
  let stored := (b.reg off).toNat
  let now := s.clk.cycles
  if off = 0x0 then packed [(0, 4, if q.state = 1 ∧ x.sowAt.isSome then 2 else q.state), (4, 16, q.index), (20, 4, (b.job.getD {}).plot), (24, 1, b2n q.varied),
      (25, 1, b2n x.prog.compat), (26, 1, b2n x.prog.debug)]
  else if off = 0x8 then packed ((enumFrom 0 (q.iters.take 4)).map fun e => (16 * e.1, 16, e.2))
  else if off = 0x10 then q.sowTick.toNat
  else if off = 0x18 then (q.waitCycles.toNat + q.waiting now) % 2 ^ 32 + q.waits.toNat * 2 ^ 32
  else if off = 0x28 then q.waitWord (s.observed p)
  else if off = 0x30 then (match q.wait with | some w => w.deadline | none => 0)
  else if off = 0x818 then (wset (b.reg off) 1 14 (b.scrubLine / 32)).toNat
  else if inRow off 0xC40 8 32 then fieldAt (b.range ((off - 0xC40) / 32)).toBytes (off % 32) 8
  else if inRow off 0xE00 8 8 then b.gaugeAt now ((off - 0xE00) / 8) % 2 ^ 64
  else if inRow off 0x1000 8 4 then (b.array ((off - 0x1000) / 8)).stateWord now
  else if inRow off 0x1020 8 4 then (b.array ((off - 0x1020) / 8)).counts
  else if inRow off 0x1040 8 4 then (b.array ((off - 0x1040) / 8)).pathWord now
  else if off = 0x1420 then stored + (if x.prog.debug then 30 else 0)
  else if off = 0x1430 then b.debugWord x.prog.debug
  else if off = 0x2000 then packed [(0, 1, b2n (decide (now < b.sfTill))), (1, 1, b2n b.tbank),
      (2, 1, b2n (decide (now < b.reloadTill))), (3, 1, b2n (if b.tbank then b.tbank0 else b.tbank1).poison),
      (4, 1, b2n b.sieve.live), (5, 1, b2n (decide (now < b.smaxTill)))]
  else if inRow off 0x2010 8 4 then digWord (if b.tbank then b.tbank1 else b.tbank0).digest ((off - 0x2010) / 8)
  else if inRow off 0x2040 8 4 then bits (tget (fun _ => {}) b.sprinklers ((off - 0x2040) / 8)).ctr.toNat 0 64
  else if inRow off 0x2060 8 4 then bits (tget (fun _ => {}) b.sprinklers ((off - 0x2060) / 8)).ctr.toNat 64 64
  else if off = 0x20 || off = 0x800 || off = 0x808 || off = 0x810 || off = 0xC00 || off = 0xC08 || inRow off 0x1400 8 4 ||
      off = 0x1428 || inRow off 0x1440 8 4 || off = 0x2008 then stored
  else 0

/-! ## The blocks of BAR0 -/

/-- HST_ registers: ring r's at 0x1000 + 0x40 r. A ring that has not been enabled since a reset reads all free (Table 19.2). -/
def State.readHst (s : State) (off : Nat) : Nat :=
  if off = 0x0 || off = 0x8 || off = 0x10 then (s.reg off).toNat
  else if off = 0x18 then s.host.dbInMask.toNat
  else if 0x1000 ≤ off ∧ off < 0x2000 then
    let x := s.ring ((off - 0x1000) / 0x40)
    let n := s.fld (off - off % 0x40 + 0x10) 1 5
    let free := if x.log2 ≠ 0 then x.free else if n = 0 then 0 else 2 ^ n
    match off % 0x40 with
    | 0x00 | 0x08 | 0x10 => (s.reg off).toNat
    | 0x18 => packed [(0, 2, x.state), (2, 16, x.fetch), (18, 16, x.post), (34, 1, b2n x.phase)]
    | 0x20 => packed [(0, 17, free), (17, 17, x.count 1), (34, 17, x.count 2), (51, 1, b2n x.mismatch)]
    | 0x28 => packed [(0, 17, x.count 3), (17, 17, x.count 4)]
    | _ => 0
  else 0

/-- Transaction tags in flight: of the accesses that the replay logs hold, in LPDDR5 and in host memory, and of flits without an
ack (R402, R404). DEDUCED, unsafe: log entry 10. -/
def State.tagsOf (s : State) : Nat × Nat × Nat :=
  let lines := fun (host : Bool) => (([0, 1].flatMap fun h => (s.engine h).log).filter fun x =>
    match (s.chan x.chan).cur with
    | some t => decide ((sideA t.desc).space = 0) != host
    | none => false).length
  (lines false, (s.lnk.links.map fun e => e.2.held.length).sum, lines true)

/-- GLB_ registers. -/
def State.readGlb (s : State) (off : Nat) : Nat :=
  if off = 0x210 then s.clk.cycles % 64 + s.clk.total / 64 % 2 ^ 58 * 64
  else if off = 0x108 || off = 0x200 || off = 0x208 || off = 0x300 || off = 0x308 then (s.reg (0x10000 + off)).toNat
  else if off = 0x310 then
    let t := s.tagsOf
    packed [(0, 14, 8192 - t.1 - t.2.1 - t.2.2), (14, 14, t.1), (28, 14, t.2.1), (42, 14, t.2.2)]
  else 0

/-- The unread entry that latched first; with none unread the index that the next new entry takes (R385). -/
def Grd.oldest (g : Grd) : Nat :=
  ((g.flt.filter fun e => e.2.valid).foldl
    (fun (a : Option (Nat × Nat)) e => match a with
      | none => some (e.2.order, e.1)
      | some b => if e.2.order < b.1 then some (e.2.order, e.1) else some b) none).elim ((g.freeFrom g.fltNext).getD 0) (·.2)

/-- GRD_ registers (R389); the plot of a bed is the one whose kind 0x01 claim covers its logical number (R188). -/
def State.readGrd (s : State) (off : Nat) : Nat :=
  let g := s.grd
  if off = 0x0 || off = 0x100 then (s.reg (0x20000 + off)).toNat
  else if inRow off 0x40 8 10 then
    packed [(0, 2, tget (fun _ => 0) g.gardState ((off - 0x40) / 8)), (2, 32, tget (fun _ => 0) g.heartbeat ((off - 0x40) / 8))]
  else if inRow off 0x200 8 16 then
    let p := (off - 0x200) / 8
    let x := s.plot p
    packed [(0, 3, x.state), (3, 6, x.ring), (9, 4, x.gardener), (13, 1, b2n x.prog.compat), (14, 1, b2n x.prog.debug),
      (15, 1, b2n x.prog.multi), (16, 8, x.prog.beds.length), (24, 8, x.stopCode)]
  else if inRow off 0x400 8 132 then
    let b := s.bed ((off - 0x400) / 8)
    packed [(0, 3, b.admin), (3, 7, if b.mapped then b.logical else 0), (10, 1, b2n b.mapped),
      (11, 4, if b.mapped then (s.holder 1 b.logical 0).getD 15 else 15), (15, 1, b2n b.bistPass), (16, 48, b.fenceTick.toNat)]
  else if off = 0xC00 then
    packed [(0, 9, (g.flt.filter fun e => e.2.valid).length), (9, 8, g.oldest), (17, 32, g.fltDropped)]
  else if inRow off 0x1000 8 1024 then
    let e := g.entry ((off - 0x1000) / 32)
    match (off - 0x1000) / 8 % 4 with
    | 0 => packed [(0, 1, b2n e.valid), (1, 20, e.unit), (21, 8, e.cause), (29, 16, e.count)]
    | 1 => e.tick.toNat
    | 2 => packed [(0, 20, e.reporter)]
    | _ => e.detail.toNat
  else 0

/-- CLK_ registers (R422). -/
def State.readClk (s : State) (off : Nat) : Nat :=
  let c := s.clk
  if off = 0x0 then packed [(0, 1, b2n c.locked), (1, 1, s.fld 0x30000 1 1), (2, 2, c.point), (4, 1, b2n c.hold.isSome),
      (5, 1, b2n c.runStretched)]
  else if off = 0x8 then packed [(0, 2, c.target), (2, 1, b2n c.pending), (3, 48, c.since.toNat)]
  else if off = 0x10 then (s.reg 0x30010).toNat
  else 0

/-- PWR_ registers (R422). -/
def State.readPwr (s : State) (off : Nat) : Nat :=
  if off = 0x0 then packed [(0, 11, s.pwr.cap)]
  else if off = 0x10 then packed [(0, 8, s.pwr.k64)]
  else if off = 0x8 || off = 0x18 || off = 0x20 || off = 0x28 || off = 0x40 || inRow off 0x100 8 7 then (s.reg (0x40000 + off)).toNat
  else 0

/-- SEC_ registers (R451). -/
def State.readSec (s : State) (off : Nat) : Nat :=
  let k := s.sec
  if off = 0x0 then packed [(0, 1, b2n k.seed.isSome), (1, 1, b2n k.helper), (2, 1, b2n k.owner.isSome), (3, 1, b2n k.ownerFw),
      (4, 1, b2n k.pending), (5, 1, b2n k.tapUsed), (6, 1, b2n k.attestBody.isSome), (7, 4, k.entropyFail.toNat),
      (11, 3, k.ownerScope.toNat)]
  else if inRow off 0x40 8 4 then digWord k.identity ((off - 0x40) / 8)
  else if inRow off 0x60 8 4 then digWord k.fwDigest ((off - 0x60) / 8)
  else if inRow off 0x80 8 4 then digWord k.ownerDigest ((off - 0x80) / 8)
  else if off = 0xA0 then (s.reg 0x500A0).toNat
  else if inRow off 0xC0 8 4 then digWord (tget (fun _ => 0) k.recDigests (s.fld 0x500A0 0 6)) ((off - 0xC0) / 8)
  else if off = 0xE0 then k.attestCount.toNat
  else 0

/-- SDL_ registers (R340). SDL_DOMAIN.root reads its reset value 0 until step 6 of start-up has taken the position from the
records (R327, R427). DESIGN CHOICE, unsafe: log entry 70. -/
def State.readSdl (s : State) (off : Nat) : Nat :=
  if off = 0x0 then s.clk.sundial.toNat
  else if off = 0x8 then packed [(0, 22, s.fld 0x60008 0 22), (22, 1, b2n (s.position == 0 && decide (6 < s.fld 0x0 3 5))), (23, 1, b2n s.lnk.formed)]
  else if off = 0x10 || off = 0x18 || inRow off 0x100 8 24 || inRow off 0x200 8 24 then (s.reg (0x60000 + off)).toNat
  else 0

/-- Runs of shed buffers of a hub that hold data, each with who holds them, a plot or 16 for firmware (R284): of its channels'
transfers, of flits not acknowledged on its links (R237; 17 once their plot is released), and on the south hub 48 of every
order that a walker works on (R304). DEDUCED, unsafe: log entry 32. -/
def State.shedHeld (s : State) (h : Nat) : List (Nat × Nat) :=
  let owner := fun (c : Nat) => ((s.plots.find? fun e => e.2.state != 0 && e.2.prog.claimsOf 3 c).map (·.1)).getD 16
  ((s.brw.chans.filter fun e => hubOf e.1 == h).map fun e => (owner e.1, e.2.buffers)) ++
    ((s.lnk.links.filter fun e => e.1 / 12 == h).flatMap fun e => (e.2.queue ++ e.2.held.map (·.item)).map fun t => (t.plot, 1)) ++
    (if h = 1 then s.ddr.walkers.filterMap fun e => e.2.work.map fun k => (if k.order.plot < 15 then k.order.plot else 16, 48) else [])

/-- The shed buffers of a hub that hold data. -/
def State.shedBusy (s : State) (h : Nat) : Nat := ((s.shedHeld h).map (·.2)).sum

/-- The shed buffers of a hub that a plot, or firmware (16), claims. -/
def State.shedClaim (s : State) (h x : Nat) : Nat :=
  if x < 16 then (if (s.plot x).state = 0 then 0 else shedOf h (s.plot x).prog.claims)
  else if x = 16 then shedOf h (fwStatic ++ s.fwClaims) else 0

/-- The shed buffers of a hub that are claimed and hold no data: of every holder, what its claim has beyond what it holds (R284). -/
def State.shedReserved (s : State) (h : Nat) : Nat :=
  ((List.range 18).map fun x => s.shedClaim h x - (((s.shedHeld h).filter fun e => e.1 == x).map (·.2)).sum).sum

/-- The plot that holds a channel; 15 for firmware (Table 12.3). -/
def State.chanOwner (s : State) (c : Nat) : Nat := (s.holder 3 c 0).getD 15

/-- BRW_ registers (R291). -/
def State.readBrw (s : State) (off : Nat) : Nat :=
  if inRow off 0x0 8 2 then
    let e := s.engine (off / 8)
    packed [(0, 2, e.state), (2, 3, e.retries), (5, 7, min 64 e.log.length), (12, 32, e.incidents)]
  else if inRow off 0x40 8 2 then
    let h := (off - 0x40) / 8
    packed [(0, 13, 4096 - s.shedReserved h - s.shedBusy h), (13, 13, s.shedReserved h), (26, 13, s.shedBusy h),
      (39, 1, s.fld (0x80000 + off) 39 1)]
  else if inRow off 0x1000 8 64 then
    let c := (off - 0x1000) / 8
    let k := s.chan c
    packed [(0, 3, k.state), (3, 1, b2n k.next.isSome), (5, 7, k.buffers), (12, 4, s.chanOwner c)]
  else if inRow off 0x2000 8 256 then fieldAt (s.chan ((off - 0x2000) / 32)).rng.toBytes (off % 32) 8
  else if off = 0x10 || inRow off 0x20 8 2 || inRow off 0x1200 8 192 then
    (s.reg (0x80000 + off)).toNat
  else 0

/-- MEM_ registers (R313). -/
def State.readMem (s : State) (off : Nat) : Nat :=
  if off = 0x700 then s.now % 80 * 64 / 80 + s.now / 80 % 2 ^ 58 * 64
  else if off < 0x40 * 24 then
    let k := s.ctl (off / 0x40)
    match off % 0x40 with
    | 0x00 => packed [(0, 2, k.state), (2, 9, k.poison.length)]
    | 0x08 | 0x10 => (s.reg (0x90000 + off)).toNat
    | _ => 0
  else 0

/-- The state of a walker's order (Table 13.10) by the frames of its charge (R308): entry, directory (two of a
transplant), pages, entry write; after an error the next frame writes the entry (R310); in a frost it stands (R312). -/
def State.walkState (s : State) (k : Work) : Nat :=
  let f := s.walkFrame - k.frame
  let dirs := if k.order.op = 4 then 2 else 1
  let last := orderFrames k.order k.rate - 1
  if k.err ≠ 0 ∧ k.errFrame < s.walkFrame then 4
  else if f = 0 then 1
  else if f ≤ dirs then 2
  else if f < last then 3
  else if f = last then 4
  else 5

/-- NUR_ registers (R313). -/
def State.readNur (s : State) (off : Nat) : Nat :=
  if off = 0x0 || inRow off 0x40 8 4 then (s.reg (0xA0000 + off)).toNat
  else if inRow off 0x10 8 4 then
    let w := (off - 0x10) / 8
    match (s.walker w).work with
    | none => 0
    | some k => packed [(0, 3, s.walkState k), (3, 3, k.order.op), (6, 18, k.order.session), (24, 13, if k.order.op = 4 then k.words / 768 else (k.landed.filter fun e => e.2 == 768).length),
        (37, 27, k.frame)]
  else if off = 0x80 then
    packed [(0, 19, (s.sessionsIn 1).length), (19, 19, (s.sessionsIn 2).length), (38, 19, (s.sessionsIn 4).length),
      (57, 4, (s.sessionsIn 3).length)]
  else 0

/-- LNK_ registers (R340). -/
def State.readLnk (s : State) (off : Nat) : Nat :=
  if off < 0x1800 then
    let k := s.link (off / 0x100)
    match off % 0x100 with
    | 0x00 => packed [(0, 3, k.state), (3, 1, b2n k.laneRev), (4, 8, k.polarity.toNat), (12, 5, k.partnerLink),
        (17, 6, k.partnerPos), (23, 1, b2n k.inDomain), (24, 1, b2n k.tree)]
    | 0x08 | 0x10 | 0x18 | 0x20 => (s.reg (0xB0000 + off)).toNat
    | 0x28 =>
      let held := ((List.range 16).map fun f => tget (fun _ => 64) k.credits f).sum
      let owed := ((List.range 16).map fun f => tget (fun _ => 0) k.owed f).sum
      packed [(0, 11, held), (11, 11, 1024 - held), (22, 11, 1024 - k.rx.length - owed), (33, 11, k.rx.length), (44, 11, owed),
        (55, 1, s.fld (0xB0000 + off) 55 1)]
    | _ => 0
  else if off = 0x1800 || off = 0x1808 then (s.reg (0xB0000 + off)).toNat
  else 0

/-- DBG_ registers (R469), but for DBG_HV_DATA, whose read has an effect. -/
def State.readDbg (s : State) (off : Nat) : Nat :=
  let d := s.dbg
  if off = 0x0 then packed [(0, 1, b2n d.frozen), (1, 1, b2n d.conservation), (2, 1, b2n d.multi), (3, 1, b2n d.thawAt.isSome),
      (4, 48, d.cut.toNat)]
  else if off = 0x8 then packed [(0, 48, d.thaw.toNat)]
  else if off = 0x20 then s.hvWord.1.toNat
  else if off = 0x10 || off = 0x18 || off = 0x100 || off = 0x108 || off = 0x200 || off = 0x208 then (s.reg (0x100000 + off)).toNat
  else 0

/-- What a read of a BAR0 register returns; a place that no chapter defines reads 0 (R8, Table 15.2). -/
def State.readReg (s : State) (off : Nat) : W64 :=
  BitVec.ofNat 64 (
    if off % 8 ≠ 0 then 0
    else if 0x1000000 ≤ off then
      match s.windowBed ((off - 0x1000000) / 0x4000) with
      | some p => s.readBed p (off % 0x4000)
      | none => 0
    else match off / 0x10000 with
      | 0x0 => s.readHst off
      | 0x1 => s.readGlb (off % 0x10000)
      | 0x2 => s.readGrd (off % 0x10000)
      | 0x3 => s.readClk (off % 0x10000)
      | 0x4 => s.readPwr (off % 0x10000)
      | 0x5 => s.readSec (off % 0x10000)
      | 0x6 => s.readSdl (off % 0x10000)
      | 0x8 => s.readBrw (off % 0x10000)
      | 0x9 => s.readMem (off % 0x10000)
      | 0xA => s.readNur (off % 0x10000)
      | 0xB => s.readLnk (off % 0x10000)
      | 0x10 => s.readDbg (off % 0x10000)
      | _ => 0)

/-- What Table 15.1 and R343 say of the function beyond its configuration header. -/
structure PciCaps where
  width : Nat
  /-- in tenths of GT/s -/
  rates : List Nat
  maxPayload : List Nat
  maxReadRequest : Nat
  tagBits : Nat
  readsOutstanding : Nat
  d3hot : Bool
  noSoftReset : Bool
  errorReporting : Bool
  ecrc : Bool
  vectors : Nat
  /-- the BAR of the vector table and of the pending array, and their places in it (Table 15.9) -/
  msix : Nat × Nat × Nat
  /-- a BAR's number and size; each is of 64 bits and not prefetchable -/
  bars : List (Nat × Nat)
  /-- SR-IOV, Function Level Reset, ATS, PASID, PRI, ASPM, IDE, MSI, INTx, expansion ROM -/
  others : Bool
  deriving DecidableEq, Repr

/-- The module's capabilities (Table 15.1, R343). -/
def pciCaps : PciCaps :=
  { width := 16, rates := [640, 320, 160, 80, 50, 25], maxPayload := [128, 256, 512], maxReadRequest := 4096, tagBits := 14
    readsOutstanding := 1024, d3hot := true, noSoftReset := true, errorReporting := true, ecrc := true, vectors := 64
    msix := (2, 0x10000, 0x11000), bars := [(0, 0x4000000), (2, 0x100000)], others := false }

/-- Whether a write to host memory for a descriptor of an opcode carries Relaxed Ordering: the data writes of COPY_OUT and RECORD
alone (Table 15.1). -/
def relaxed (opcode : Nat) (data : Bool) : Bool := data && (opcode == 5 || opcode == 7)

/-- The type bits of a BAR's first double word: 64 bits, not prefetchable; the address above them is the host's. -/
def barType : BitVec 4 := 0x4

/-- A double word of the PCI Express configuration header (Table 15.1, R2, R343), where the spec gives its content: device
and vendor, class code and revision, subsystem, and what is not implemented: BAR4 and the expansion ROM. The places are those of a
type 0 header. PRESUMED, unsafe: log entry 40. -/
def State.configWord (s : State) (i : Nat) : Option (BitVec 32) :=
  match i with
  | 0 => some ((0x0002 : BitVec 16) ++ Config.vendor)
  | 2 => some (BitVec.ofNat 32 (0x120000 * 2 ^ 8 + revisionId))
  | 8 => some 0
  | 9 => some 0
  | 11 => some s.sec.subsystem
  | 12 => some 0
  | _ => none

/-- What a read of a BAR2 word returns (Table 15.9); before ready it is 0 (R365), and so is a mailbox's write window
(R343). -/
def State.readBar2 (s : State) (off : Nat) : W64 :=
  if !s.ready || off % 8 != 0 then 0
  else if off < 0x200 then BitVec.ofNat 64 (s.ring (off / 8)).tail
  else if off < 0x400 then BitVec.ofNat 64 (s.ring ((off - 0x200) / 8)).head
  else if off = 0x400 then s.host.dbIn.setWidth 64
  else if off = 0x408 then s.host.dbOut.setWidth 64
  else if off = 0x410 then s.host.dbOutMask.setWidth 64
  else if 0x1000 ≤ off ∧ off < 0x1400 then
    let m := s.host.inbox ((off - 0x1000) / 0x80)
    if off % 0x80 = 0x40 then BitVec.ofNat 64 (b2n m.full + 2 * b2n m.overrun) else 0
  else if 0x2000 ≤ off ∧ off < 0x2400 then
    let m := s.host.outbox ((off - 0x2000) / 0x80)
    if off % 0x80 < 0x40 then BitVec.ofNat 64 (fieldAt m.msg (off % 0x80) 8)
    else if off % 0x80 = 0x40 then m.stamp
    else if off % 0x80 = 0x48 then BitVec.ofNat 64 (b2n m.full)
    else 0
  else if 0x10000 ≤ off ∧ off < 0x10400 then s.host.msix ((off - 0x10000) / 8)
  else if off = 0x11000 then s.host.msixPending
  else 0

/-- Whether a register access has a size and place that a register takes: 4 or 8 B, naturally aligned (R343). DEDUCED, unsafe: log entry 37. -/
def accessOk (off bytes : Nat) : Bool := (bytes == 4 || bytes == 8) && off % bytes == 0

/-- Whether a place lies in a mailbox's write window. -/
def inWindow64 (off : Nat) : Bool := decide (0x1000 ≤ off) && decide (off < 0x1400) && decide (off % 0x80 < 0x40)

/-- What a read of BAR0 or BAR2 returns: 4 or 8 naturally aligned bytes of a register; 0 in a mailbox's write window; any other
read completes with Unsupported Request, none (R343). -/
def State.readBar (s : State) (bar2 : Bool) (off bytes : Nat) : Option W64 :=
  if bar2 && inWindow64 off then some 0
  else if !accessOk off bytes then none
  else
    let w := if bar2 then s.readBar2 (off - off % 8) else s.readReg (off - off % 8)
    some (if bytes = 8 then w else (w >>> (8 * (off % 8))) &&& 0xFFFFFFFF)

/-! ## Sideband pins (R480, Table 22.6) -/

/-- MOD_PWRGD is high while the rails and regulators are good (R473). -/
def State.modPwrgd (s : State) : Bool := s.pins.rails

/-- THERMTRIP# is low from a thermal trip until a reset completes step 1 (R421). -/
def State.thermtripPin (s : State) : Bool := !s.pins.thermtrip

/-- MOD_ALERT# is low while PWR_EVENT.clamp, therm_warn, therm_clamp or trip is set. -/
def State.modAlertPin (s : State) : Bool := s.fld 0x40018 2 4 == 0

/-- QSPI_RST# is low while the module is in cold reset. -/
def State.qspiRstPin (s : State) : Bool := s.alive

/-! ## Access codes (R7) -/

/-- A value stored in the bits that are writable and that the write covers (RW). -/
def putBits (old v cover mask : W64) : W64 := (old &&& ~~~(cover &&& mask)) ||| (v &&& cover &&& mask)

/-- The low n bits. -/
def lowMask (n : Nat) : W64 := BitVec.ofNat 64 (2 ^ n - 1)

/-- An RW field group of a stored register. DEDUCED, unsafe: log entry 62. -/
def State.rw (s : State) (off : Nat) (v cover mask : W64) : State := s.setReg off (putBits (s.reg off) v cover mask)

/-- Start-up has not completed: it waits, or a fatal code has halted it (R7, R433). -/
def State.starting (s : State) : Bool := !s.ready && (s.pins.boot.isSome || s.pins.halted)

/-- An RWL field group. DEDUCED, unsafe: log entry 62. -/
def State.rwl (s : State) (off : Nat) (v cover mask : W64) : State := if s.starting then s.rw off v cover mask else s

/-- A W1C register whose valid bit, bit 0, clears every field. -/
def State.clearAll (s : State) (off : Nat) (v cover : W64) : State := if (v &&& cover).getLsbD 0 then s.setReg off 0 else s

/-- W1C bits that clear themselves alone. -/
def State.clearBits (s : State) (off : Nat) (v cover mask : W64) : State := s.setReg off (s.reg off &&& ~~~(v &&& cover &&& mask))

/-- Whether a write covers a register's low half. -/
def low (cover : W64) : Bool := cover.getLsbD 0

/-! ## Writes of BAR0 registers -/

/-- DBG_SAMP_CFG: a period outside 6 to 20 reads back as 16 (Table 21.6). -/
def sampCfg (w : W64) : W64 := if 6 ≤ wfld w 1 5 ∧ wfld w 1 5 ≤ 20 then w else wset w 1 5 16

/-- A register of a bed's window written. -/
def Bed.writeReg (b : Bed) (off : Nat) (v cover : W64) : Bed :=
  let hit := (v &&& cover).getLsbD 0
  if off = 0x808 || off = 0x810 || inRow off 0x1400 8 4 || off = 0x2008 then if hit then b.setReg off 0 else b
  else if off = 0x818 then b.setReg off (putBits (b.reg off) v cover 1)
  else if off = 0x1420 || inRow off 0x1440 8 4 then b.setReg off (b.reg off &&& ~~~(v &&& cover &&& 1))
  else if off = 0x1428 then b.setReg off (putBits (b.reg off) v cover (lowMask 18))
  else b

/-- The disable bit of a link written (R326). -/
def State.writeDisable (s : State) (l : Nat) (on : Bool) : State :=
  (s.setFld (0xB0008 + 0x100 * l) 1 1 (b2n on)).disable l on

/-- LNK_CTRL_l written: disable, then retrain. -/
def State.writeLinkCtrl (s : State) (l : Nat) (v : W64) : State :=
  let s := if v.getLsbD 1 != (s.fld (0xB0008 + 0x100 * l) 1 1 == 1) then s.writeDisable l (v.getLsbD 1) else s
  if v.getLsbD 0 then s.retrain l else s

/-- HST_ registers written. -/
def State.writeHst (s : State) (off : Nat) (v cover : W64) : State :=
  if off = 0x8 then s.rw off v cover (lowMask 17)
  else if 0x1000 ≤ off ∧ off < 0x2000 then
    let r := (off - 0x1000) / 0x40
    match off % 0x40 with
    | 0x00 | 0x08 => if s.fld (0x1010 + 0x40 * r) 0 1 = 1 then s else s.rw off v cover (lowMask 64)
    | 0x10 => if low cover then s.writeRingCfg r v else s
    | _ => s
  else s

/-- LNK_, SDL_ and NUR_ registers written. -/
def State.writeMove (s : State) (off : Nat) (v cover : W64) : State :=
  if off = 0x60008 then s.rwl off v cover (lowMask 22)
  else if off = 0xA0000 then s.rwl off v cover (lowMask 40)
  else if off = 0x60018 || inRow off 0xA0040 8 4 || inRow off 0xB0020 0x100 24 || off = 0xB1808 then s.clearAll off v cover
  else if inRow off 0xB0008 0x100 24 then (if low cover then s.writeLinkCtrl ((off - 0xB0008) / 0x100) v else s)
  else if off = 0xB1800 then s.rw off v cover (lowMask 39 &&& ~~~lowMask 6)
  else s

/-- GLB_, GRD_, CLK_, PWR_ and SEC_ registers written. -/
def State.writeCtl (s : State) (off : Nat) (v cover : W64) : State :=
  if off = 0x10200 then s.clearAll off v cover
  else if off = 0x20100 then s.rw off v cover (lowMask 5)
  else if off = 0x20C08 then (if low cover then s.ackFault (wfld v 0 8) else s)
  else if off = 0x30000 then s.clearBits off v cover 2
  else if off = 0x40010 then (if (v &&& cover).getLsbD 8 then s.corrClear else s)
  else if off = 0x40018 then s.clearBits off v cover (lowMask 6)
  else if off = 0x40020 then s.rwl off v cover (lowMask 8)
  else if off = 0x40028 then s.rw off v cover (lowMask 9)
  else if off = 0x40040 then
    let s := s.rwl off v cover (lowMask 24)
    s.setReg off (BitVec.ofNat 64 (thermCfg (s.reg off).toNat))
  else if off = 0x500A0 then s.rw off v cover (lowMask 6)
  else s

/-- BRW_, MEM_ and DBG_ registers written. The trace buffer's configuration takes a write only while its holder is loaded
and not sown (R461). -/
def State.writeData (s : State) (off : Nat) (v cover : W64) : State :=
  if off = 0x80010 then s.rwl off v cover (lowMask 3)
  else if inRow off 0x80020 8 2 || inRow off 0x81200 8 64 || inRow off 0x90010 0x40 24 then s.clearAll off v cover
  else if inRow off 0x81000 8 64 then (if (v &&& cover).getLsbD 4 then s.clearHalt ((off - 0x81000) / 8) else s)
  else if off = 0x100010 then s.clearBits off v cover 4
  else if off = 0x100018 then s.rw off v cover (lowMask 45)
  else if off = 0x100100 then s.setReg off (sampCfg (putBits (s.reg off) v cover (lowMask 29)))
  else if off = 0x100200 then
    if s.fld off 0 4 < 15 ∧ (s.plot (s.fld off 0 4)).state = 2 then s.rw off v cover (lowMask 22 &&& ~~~lowMask 4) else s
  else s

/-- A BAR0 register written where the write covers it; GLB_RESET is another's. Unmapped windows and places that no chapter
defines ignore the write (R8, R346). -/
def State.writeReg (s : State) (off : Nat) (v cover : W64) : State :=
  if 0x1000000 ≤ off then
    match s.windowBed ((off - 0x1000000) / 0x4000) with
    | some p => s.setBed p ((s.bed p).writeReg (off % 0x4000) v cover)
    | none => s
  else if off < 0x10000 then s.writeHst off v cover
  else if off < 0x60000 then s.writeCtl off v cover
  else if 0x80000 ≤ off ∧ off < 0xA0000 ∨ 0x100000 ≤ off then s.writeData off v cover
  else s.writeMove off v cover

/-! ## Writes of BAR2 -/

/-- Vectors that wait and that a write of the table has unmasked are sent. PRESUMED, unsafe: log entry 40. -/
def State.sendWaiting (s : State) : State :=
  ((List.range 64).filter fun v => s.host.msixPending.getLsbD v && wfld (s.host.msix (2 * v + 1)) 32 1 == 0).foldl
    (fun (s : State) v =>
      let s : State := { s with host := { s.host with msixPending := s.host.msixPending &&& ~~~((1 : W64) <<< v) } }
      s.sendVector v) s

/-- A word of BAR2 written where the write covers it (Table 15.9). -/
def State.writeBar2 (s : State) (off : Nat) (v cover : W64) : State :=
  if off < 0x200 then if low cover then s.writeTail (off / 8) (wfld v 0 16) else s
  else if off < 0x400 then if low cover then s.writeHead ((off - 0x200) / 8) (wfld v 0 16) else s
  else if off = 0x400 then { s with host := { s.host with dbIn := s.host.dbIn ||| (v &&& cover).setWidth 32 } }
  else if off = 0x408 then s.clearDoors ((v &&& cover).setWidth 32)
  else if off = 0x410 then if low cover then s.writeDoorMask (v.setWidth 32) else s
  else if inRow off 0x1040 0x80 8 then
    let i := (off - 0x1040) / 0x80
    if (v &&& cover).getLsbD 1 then s.setInbox i { s.host.inbox i with overrun := false } else s
  else if inRow off 0x2048 0x80 8 then if (v &&& cover).getLsbD 0 then s.returnMbox ((off - 0x2048) / 0x80) else s
  else if 0x10000 ≤ off ∧ off < 0x10400 then
    let j := (off - 0x10000) / 8
    let w := putBits (s.host.msix j) v cover (lowMask 64)
    State.sendWaiting { s with host := { s.host with msixTable := tset (fun _ => 0) s.host.msixTable j w } }
  else s

/-! ## Commands -/

/-- The bits of its register that an access covers, and the value moved to them (R343). -/
def coverOf (off bytes : Nat) : W64 := if bytes = 8 then lowMask 64 else lowMask 32 <<< (8 * (off % 8))
def placed (off bytes : Nat) (v : W64) : W64 := if bytes = 8 then v else v <<< (8 * (off % 8))

/-- REGISTER_WRITE (R7, R343, R344, R365): a write of any register by its access codes; one of another size or
alignment is dropped and counted. A write of GLB_RESET, and a post of 64 bytes to a mailbox, are commands of their
own. DEDUCED, unsafe: log entry 37. DESIGN CHOICE, unsafe: log entry 39. -/
def execRegisterWrite (rid : BitVec 16) (bar2 : Bool) (offset : BitVec 26) (bytes : Nat) (v : W64) (s : State) :
    Host.Outcome State Fault Refusal :=
  let off := offset.toNat
  let at8 := off - off % 8
  if !s.alive then .next s
  else if bar2 then
    if 0x100000 ≤ off then .next s
    else if !s.ready then .next (s.bump 0x10 54 10 1)
    else if inWindow64 off then
      if bytes = 64 ∧ off % 64 = 0 then .next s else .next (s.bump 0x10 44 10 1)
    else if !accessOk off bytes then .next (s.bump 0x10 0 12 1)
    else .next (s.bar2 rid fun s => s.writeBar2 at8 (placed off bytes v) (coverOf off bytes))
  else if !accessOk off bytes then .next (s.bump 0x10 0 12 1)
  else .next (s.bar0 rid fun s => s.writeReg at8 (placed off bytes v) (coverOf off bytes))

/-- CLEAR_HALT (R289, R291): 1 written to BRW_CH_STATUS_c.clear_halt. -/
def execClearHalt (rid : BitVec 16) (ch : BitVec 6) (s : State) : Host.Outcome State Fault Refusal :=
  .next (s.bar0 rid fun s => s.clearHalt ch.toNat)

/-- LNK_CTRL_RETRAIN (R326): 1 written to LNK_CTRL_l.retrain. -/
def execLnkCtrlRetrain (rid : BitVec 16) (l : BitVec 5) (s : State) : Host.Outcome State Fault Refusal :=
  if l.toNat < 24 then .next (s.bar0 rid fun s => s.retrain l.toNat) else .next s

/-- LNK_CTRL_DISABLE (R326): LNK_CTRL_l.disable written. -/
def execLnkCtrlDisable (rid : BitVec 16) (l : BitVec 5) (on : Bool) (s : State) : Host.Outcome State Fault Refusal :=
  if l.toNat < 24 then .next (s.bar0 rid fun s => s.writeDisable l.toNat on) else .next s

/-- PWR_CORR_CLEAR (R417): 1 written to PWR_CORR.clear. -/
def execPwrCorrClear (rid : BitVec 16) (s : State) : Host.Outcome State Fault Refusal :=
  .next (s.bar0 rid fun s => s.corrClear)

end Sys2Proof.Machine
end

