-- ==== Sys2Proof/Machine/Tap.lean ====
section
/-! DEFINITION. The test access port (R465 to R468). Each command is one instruction of Table 21.5 taken through its data
register once. -/

namespace Sys2Proof.Machine

/-- The instruction register loaded. DEDUCED, unsafe: log entry 53. -/
def State.tapIr (s : State) (code : Nat) : State := { s with dbg := { s.dbg with ir := BitVec.ofNat 8 code } }

/-- The TAP's use shows in SEC_STATUS (R468). -/
def State.tapUse (s : State) : State := { s with sec := { s.sec with tapUsed := true } }

/-- The boundary register loaded. -/
def State.loadCells (s : State) (cells : List Bool) : State := { s with dbg := { s.dbg with boundary := cells } }

/-- An instruction that gives the boundary cells control of the balls until cold reset: the module leaves service
(R467). A module held in cold reset has no service to leave, and the TAP itself works. DEDUCED, unsafe: log entry 53.
-/
def State.holdBalls (s : State) (code : Nat) : State :=
  let s := (s.tapIr code).tapUse
  let s : State := { s with dbg := { s.dbg with ballsHeld := true } }
  if s.alive then s.leaveService else s

/-- EXTEST (R465, R467). -/
def execExtest (cells : List Bool) (s : State) : Host.Outcome State Fault Refusal :=
  if s.pins.rails then .next ((s.holdBalls 0x00).loadCells cells) else .next s

/-- SAMPLE/PRELOAD (R465): the boundary register sampled, or loaded without taking the balls. -/
def execSamplePreload (cells : List Bool) (s : State) : Host.Outcome State Fault Refusal :=
  if s.pins.rails then .next ((s.tapIr 0x01).loadCells cells) else .next s

/-- The 32-bit identification (R466). -/
def idcode : BitVec 32 := BitVec.ofNat 32 (Config.stepping.val * 2 ^ 28 + 0x0002 * 2 ^ 12 + Config.maker.toNat * 2 + 1)

/-- IDCODE (R465, R466): the identification is selected. -/
def execIdcode (s : State) : Host.Outcome State Fault Refusal :=
  if s.pins.rails then .next { (s.tapIr 0x02) with dbg := { (s.tapIr 0x02).dbg with idReg := idcode } } else .next s

/-- CLAMP (R465, R467). -/
def execClamp (s : State) : Host.Outcome State Fault Refusal :=
  if s.pins.rails then .next (s.holdBalls 0x03) else .next s

/-- HIGHZ (R465, R467). -/
def execHighz (s : State) : Host.Outcome State Fault Refusal :=
  if s.pins.rails then .next (s.holdBalls 0x04) else .next s

/-- EXTEST_PULSE (R465, R467). -/
def execExtestPulse (cells : List Bool) (s : State) : Host.Outcome State Fault Refusal :=
  if s.pins.rails then .next ((s.holdBalls 0x05).loadCells cells) else .next s

/-- EXTEST_TRAIN (R465, R467). -/
def execExtestTrain (cells : List Bool) (s : State) : Host.Outcome State Fault Refusal :=
  if s.pins.rails then .next ((s.holdBalls 0x06).loadCells cells) else .next s

/-- A read of a BAR0 register, with its effect: a read of DBG_HV_DATA moves the harvest window on (R469). -/
def State.readFor (s : State) (off : Nat) : W64 × State := if off = 0x100020 then s.readHv else (s.readReg off, s)

/-- DBG_ACCESS (R468, Table 21.5): a read or a write of a BAR0 register, by the address's bit 63. The data register then
holds the address and what was read, or the data written. The environment is that of a warm reset that a write of
GLB_RESET begins. -/
def execDbgAccess (addr : W64) (data : W64) (env : BootEnv) (s : State) : Host.Outcome State Fault Refusal :=
  if s.pins.rails then
    let off := wfld addr 0 63
    let s := (s.tapIr 0x10).tapUse
    let keep := fun (w : W64) (s : State) => ({ s with dbg := { s.dbg with dbgReg := w ++ addr } } : State)
    if !s.alive ∨ 2 ^ 26 ≤ off ∨ off % 8 ≠ 0 then .next (keep (if addr.getLsbD 63 then data else 0) s)
    else if addr.getLsbD 63 then
      if off = 0x10100 then .next (keep data (s.writeReset data env))
      else .next (keep data (s.writeReg off data (lowMask 64)))
    else
      let r := s.readFor off
      .next (keep r.1 r.2)
  else .next s

/-- Whether the head gardener holds the boot-flash port: in start-up steps 3 to 6 or an enrolment write (R468). DESIGN
CHOICE, unsafe: log entry 54. -/
def State.flashHeld (s : State) : Bool :=
  s.sec.enrol.isSome || (s.starting && s.fld 0x0 1 1 == 0 && decide (3 ≤ s.fld 0x0 3 5) && decide (s.fld 0x0 3 5 ≤ 6))

/-- FLASH_ACCESS (R468): a Quad-SPI frame sent to the boot flash, or refused while the head gardener holds the port.
DESIGN CHOICE, unsafe: log entry 54. -/
def execFlashAccess (frame : W64) (s : State) : Host.Outcome State Fault Refusal :=
  if s.pins.rails then
    let held := s.flashHeld
    let s := (s.tapIr 0x11).tapUse
    .next { s with dbg := { s.dbg with
      flashReg := frame, flashRefused := held, qspi := if held then s.dbg.qspi else frame :: s.dbg.qspi } }
  else .next s

/-- BYPASS (R465): 0xFF, and every code that Table 21.5 does not name. -/
def execBypass (code : BitVec 8) (s : State) : Host.Outcome State Fault Refusal :=
  if s.pins.rails then .next (s.tapIr (if 0x06 < code.toNat ∧ code ≠ 0x10 ∧ code ≠ 0x11 then code.toNat else 0xFF)) else .next s

/-- TAP_RESET (R465): test-logic reset selects IDCODE. -/
def execTapReset (s : State) : Host.Outcome State Fault Refusal :=
  if s.pins.rails then .next { (s.tapIr 0x02) with dbg := { (s.tapIr 0x02).dbg with idReg := idcode } } else .next s

end Sys2Proof.Machine
end

