-- ==== Sys2Proof/Machine/Dispatch.lean ====
section
/-! DEFINITION. The meaning of each command: one arm for each row of the table of operations and events. -/

namespace Sys2Proof.Machine

/-- The effect of a command on everything but the queue. -/
def exec (i : Instr) (s : State) : Host.Outcome State Fault Refusal :=
  match i with
  | .pset b h a path mov sta p sem paired => Sys2Proof.Machine.execPset b h a path mov sta p sem paired s
  | .fill b h a src kn nn bs => Sys2Proof.Machine.execFill b h a src kn nn bs s
  | .cbld b h a tensor => Sys2Proof.Machine.execCbld b h a tensor s
  | .mload b h a half m0 count kn src bm => Sys2Proof.Machine.execMload b h a half m0 count kn src bm s
  | .swap b h a => Sys2Proof.Machine.execSwap b h a s
  | .pass b h a half m0 mt tile begins preEn corrEn pre corr => Sys2Proof.Machine.execPass b h a half m0 mt tile begins preEn corrEn pre corr s
  | .spill b h a tile first barrel bp => Sys2Proof.Machine.execSpill b h a tile first barrel bp s
  | .rdrain b h a barrel slot clear bp => Sys2Proof.Machine.execRdrain b h a barrel slot clear bp s
  | .drain b h a mode source tile both toReg dst regFmt func fuse e0 statEn statClear barrel bp => Sys2Proof.Machine.execDrain b h a mode source tile both toReg dst regFmt func fuse e0 statEn statClear barrel bp s
  | .vop b h op d s1 s2 s3 fmt km maskEn kd imm8 imm32 => Sys2Proof.Machine.execVop b h op d s1 s2 s3 fmt km maskEn kd imm8 imm32 s
  | .vld b h first count src fmt bp => Sys2Proof.Machine.execVld b h first count src fmt bp s
  | .vst b h first count dst bp km maskEn => Sys2Proof.Machine.execVst b h first count dst bp km maskEn s
  | .mcvt b h src dst n bp => Sys2Proof.Machine.execMcvt b h src dst n bp s
  | .sfn b h func src op2 dst n => Sys2Proof.Machine.execSfn b h func src op2 dst n s
  | .smax1 b h src mask maskEn entry clear beta n => Sys2Proof.Machine.execSmax1 b h src mask maskEn entry clear beta n s
  | .smax2 b h src mask maskEn entry recip dst n => Sys2Proof.Machine.execSmax2 b h src mask maskEn entry recip dst n s
  | .smaxm b h src entry => Sys2Proof.Machine.execSmaxm b h src entry s
  | .smaxx b h entry dst => Sys2Proof.Machine.execSmaxx b h entry dst s
  | .sieve b h src n k dir clear base => Sys2Proof.Machine.execSieve b h src n k dir clear base s
  | .sievem b h src count k dir clear fmt => Sys2Proof.Machine.execSievem b h src count k dir clear fmt s
  | .sieveo b h dst => Sys2Proof.Machine.execSieveo b h dst s
  | .nprep b h entry rms eps => Sys2Proof.Machine.execNprep b h entry rms eps s
  | .napply b h src dst gamma beta betaEn entry n => Sys2Proof.Machine.execNapply b h src dst gamma beta betaEn entry n s
  | .statx b h entry count dst => Sys2Proof.Machine.execStatx b h entry count dst s
  | .statm b h entry count src => Sys2Proof.Machine.execStatm b h entry count src s
  | .pick b h slot target tSrc room => Sys2Proof.Machine.execPick b h slot target tSrc room s
  | .rpx b h slot dst => Sys2Proof.Machine.execRpx b h slot dst s
  | .rpm b h slot clear src => Sys2Proof.Machine.execRpm b h slot clear src s
  | .sprb b h sp entropy binding => Sys2Proof.Machine.execSprb b h sp entropy binding s
  | .sprd b h sp form dst count p => Sys2Proof.Machine.execSprd b h sp form dst count p s
  | .vtld b h image bp => Sys2Proof.Machine.execVtld b h image bp s
  | .nop b h => Sys2Proof.Machine.execNop b h s
  | .endList b h => Sys2Proof.Machine.execEndList b h s
  | .loop b h count body => Sys2Proof.Machine.execLoop b h count body s
  | .sdwait b h target d => Sys2Proof.Machine.execSdwait b h target d s
  | .lrecv b h link flow len dst d => Sys2Proof.Machine.execLrecv b h link flow len dst d s
  | .cwait b h coll d => Sys2Proof.Machine.execCwait b h coll d s
  | .cbar b h link flows d => Sys2Proof.Machine.execCbar b h link flows d s
  | .tflip b h => Sys2Proof.Machine.execTflip b h s
  | .hint b h entry => Sys2Proof.Machine.execHint b h entry s
  | .tag b h tensor engine route => Sys2Proof.Machine.execTag b h tensor engine route s
  | .entr b h d words => Sys2Proof.Machine.execEntr b h d words s
  | .sdrd b h d lane => Sys2Proof.Machine.execSdrd b h d lane s
  | .ctrrd b h d lane sel => Sys2Proof.Machine.execCtrrd b h d lane sel s
  | .brw b h channel desc bed level stepEn extStep route => Sys2Proof.Machine.execBrw b h channel desc bed level stepEn extStep route s
  | .rsend b h route src len => Sys2Proof.Machine.execRsend b h route src len s
  | .rrecv b h route dst len => Sys2Proof.Machine.execRrecv b h route dst len s
  | .lsend b h link flow len src route => Sys2Proof.Machine.execLsend b h link flow len src route s
  | .lcoll b h coll op count src dst route => Sys2Proof.Machine.execLcoll b h coll op count src dst route s
  | .syncWaitEnd p => Sys2Proof.Machine.execSyncWaitEnd p s
  | .syncTimeout p => Sys2Proof.Machine.execSyncTimeout p s
  | .brwLandingDeadline ch => Sys2Proof.Machine.execBrwLandingDeadline ch s
  | .barrowTransferStart ch good => Sys2Proof.Machine.execBarrowTransferStart ch good s
  | .barrowTransferComplete ch => Sys2Proof.Machine.execBarrowTransferComplete ch s
  | .busError ch cause => Sys2Proof.Machine.execBusError ch cause s
  | .hostCompletionTimeout ch => Sys2Proof.Machine.execHostCompletionTimeout ch s
  | .engineRestart hub good => Sys2Proof.Machine.execEngineRestart hub good s
  | .isolationAccess ch good => Sys2Proof.Machine.execIsolationAccess ch good s
  | .lpddr5Frame c logged => Sys2Proof.Machine.execLpddr5Frame c logged s
  | .nurseryOrderStart w => Sys2Proof.Machine.execNurseryOrderStart w s
  | .walkerWordTransfer w => Sys2Proof.Machine.execWalkerWordTransfer w s
  | .nurseryOrderComplete w => Sys2Proof.Machine.execNurseryOrderComplete w s
  | .scrubRead p => Sys2Proof.Machine.execScrubRead p s
  | .scrubWriteback p => Sys2Proof.Machine.execScrubWriteback p s
  | .messageLand l f => Sys2Proof.Machine.execMessageLand l f s
  | .flitSend l => Sys2Proof.Machine.execFlitSend l s
  | .dataFlitReceive l wire => Sys2Proof.Machine.execDataFlitReceive l wire s
  | .collectiveFlitReceive l wire => Sys2Proof.Machine.execCollectiveFlitReceive l wire s
  | .controlFlitReceive l wire => Sys2Proof.Machine.execControlFlitReceive l wire s
  | .idleFlitReceive l wire => Sys2Proof.Machine.execIdleFlitReceive l wire s
  | .nakReceive l wire => Sys2Proof.Machine.execNakReceive l wire s
  | .replayTimeout l => Sys2Proof.Machine.execReplayTimeout l s
  | .linkSilenceTimeout l => Sys2Proof.Machine.execLinkSilenceTimeout l s
  | .linkTrain l env => Sys2Proof.Machine.execLinkTrain l env s
  | .linkTrainRetry l env => Sys2Proof.Machine.execLinkTrainRetry l env s
  | .sundialProbe l probe => Sys2Proof.Machine.execSundialProbe l probe s
  | .sundialRecheck l probes => Sys2Proof.Machine.execSundialRecheck l probes s
  | .mmSowOrder l tick digest => Sys2Proof.Machine.execMmSowOrder l tick digest s
  | .mmFrostOrder l tick => Sys2Proof.Machine.execMmFrostOrder l tick s
  | .mmThawOrder l tick => Sys2Proof.Machine.execMmThawOrder l tick s
  | .companionRecordTimeout => Sys2Proof.Machine.execCompanionRecordTimeout s
  | .sqTailWrite rid r v => Sys2Proof.Machine.execSqTailWrite rid r v s
  | .cqHeadWrite rid r v => Sys2Proof.Machine.execCqHeadWrite rid r v s
  | .ringEnable rid r v => Sys2Proof.Machine.execRingEnable rid r v s
  | .ringDisable rid r v => Sys2Proof.Machine.execRingDisable rid r v s
  | .dbInSet rid v => Sys2Proof.Machine.execDbInSet rid v s
  | .dbOutClear rid v => Sys2Proof.Machine.execDbOutClear rid v s
  | .dbOutMaskWrite rid v => Sys2Proof.Machine.execDbOutMaskWrite rid v s
  | .inboundMailboxPost rid ix offset msg => Sys2Proof.Machine.execInboundMailboxPost rid ix offset msg s
  | .inboundMailboxTake ix => Sys2Proof.Machine.execInboundMailboxTake ix s
  | .outboundMailboxPost g ix msg => Sys2Proof.Machine.execOutboundMailboxPost g ix msg s
  | .mboReturn rid ix => Sys2Proof.Machine.execMboReturn rid ix s
  | .descriptorFetch r fail => Sys2Proof.Machine.execDescriptorFetch r fail s
  | .descriptorStart r => Sys2Proof.Machine.execDescriptorStart r s
  | .completionPost r => Sys2Proof.Machine.execCompletionPost r s
  | .nopDescriptor src => Sys2Proof.Machine.execNopDescriptor src s
  | .load src fail dir tableDigests => Sys2Proof.Machine.execLoad src fail dir tableDigests s
  | .loadComplete p => Sys2Proof.Machine.execLoadComplete p s
  | .sow src => Sys2Proof.Machine.execSow src s
  | .plotSow p => Sys2Proof.Machine.execPlotSow p s
  | .plotComplete p => Sys2Proof.Machine.execPlotComplete p s
  | .unload src => Sys2Proof.Machine.execUnload src s
  | .unloadStop p => Sys2Proof.Machine.execUnloadStop p s
  | .copyIn src good => Sys2Proof.Machine.execCopyIn src good s
  | .copyOut src => Sys2Proof.Machine.execCopyOut src s
  | .record src => Sys2Proof.Machine.execRecord src s
  | .nurseryOpen src => Sys2Proof.Machine.execNurseryOpen src s
  | .nurseryPlant src => Sys2Proof.Machine.execNurseryPlant src s
  | .nurseryLift src => Sys2Proof.Machine.execNurseryLift src s
  | .nurseryTransplant src => Sys2Proof.Machine.execNurseryTransplant src s
  | .nurseryClose src => Sys2Proof.Machine.execNurseryClose src s
  | .fence src => Sys2Proof.Machine.execFence src s
  | .fenceTakeEffect p => Sys2Proof.Machine.execFenceTakeEffect p s
  | .fenceComplete p => Sys2Proof.Machine.execFenceComplete p s
  | .bedPollTimeout p => Sys2Proof.Machine.execBedPollTimeout p s
  | .selftest src => Sys2Proof.Machine.execSelftest src s
  | .selftestEnd p pass => Sys2Proof.Machine.execSelftestEnd p pass s
  | .linkRetrain src => Sys2Proof.Machine.execLinkRetrain src s
  | .linkDisable src => Sys2Proof.Machine.execLinkDisable src s
  | .companionStart src => Sys2Proof.Machine.execCompanionStart src s
  | .companionStop src => Sys2Proof.Machine.execCompanionStop src s
  | .frost src => Sys2Proof.Machine.execFrost src s
  | .frostCut => Sys2Proof.Machine.execFrostCut s
  | .thaw src => Sys2Proof.Machine.execThaw src s
  | .thawResume => Sys2Proof.Machine.execThawResume s
  | .harvest src => Sys2Proof.Machine.execHarvest src s
  | .harvestComplete written => Sys2Proof.Machine.execHarvestComplete written s
  | .attest src => Sys2Proof.Machine.execAttest src s
  | .attestReportWritten => Sys2Proof.Machine.execAttestReportWritten s
  | .ownerEnrol src => Sys2Proof.Machine.execOwnerEnrol src s
  | .ownerEnrolComplete => Sys2Proof.Machine.execOwnerEnrolComplete s
  | .powerCap src => Sys2Proof.Machine.execPowerCap src s
  | .faultReport unit reporter cause detail => Sys2Proof.Machine.execFaultReport unit reporter cause detail s
  | .faultAck rid entry => Sys2Proof.Machine.execFaultAck rid entry s
  | .heartbeatCheck alive => Sys2Proof.Machine.execHeartbeatCheck alive s
  | .clearHalt rid ch => Sys2Proof.Machine.execClearHalt rid ch s
  | .lnkCtrlRetrain rid l => Sys2Proof.Machine.execLnkCtrlRetrain rid l s
  | .lnkCtrlDisable rid l on => Sys2Proof.Machine.execLnkCtrlDisable rid l on s
  | .pwrCorrClear rid => Sys2Proof.Machine.execPwrCorrClear rid s
  | .hvDataRead => Sys2Proof.Machine.execHvDataRead s
  | .registerWrite rid bar2 offset bytes v => Sys2Proof.Machine.execRegisterWrite rid bar2 offset bytes v s
  | .glbResetWarm rid v env => Sys2Proof.Machine.execGlbResetWarm rid v env s
  | .perstAssert => Sys2Proof.Machine.execPerstAssert s
  | .perstRelease env => Sys2Proof.Machine.execPerstRelease env s
  | .hotReset env => Sys2Proof.Machine.execHotReset env s
  | .domainWaitExpiry => Sys2Proof.Machine.execDomainWaitExpiry s
  | .railUndervoltage => Sys2Proof.Machine.execRailUndervoltage s
  | .railsGood env => Sys2Proof.Machine.execRailsGood env s
  | .pmD3hot => Sys2Proof.Machine.execPmD3hot s
  | .pmD0 => Sys2Proof.Machine.execPmD0 s
  | .pllLockLoss => Sys2Proof.Machine.execPllLockLoss s
  | .conservationFreeze pool index tally => Sys2Proof.Machine.execConservationFreeze pool index tally s
  | .entropyHealthFail die => Sys2Proof.Machine.execEntropyHealthFail die s
  | .powerSample watts amps => Sys2Proof.Machine.execPowerSample watts amps s
  | .mulchLevelStep => Sys2Proof.Machine.execMulchLevelStep s
  | .droopDetect source => Sys2Proof.Machine.execDroopDetect source s
  | .thermalSample hottest sensor coolest => Sys2Proof.Machine.execThermalSample hottest sensor coolest s
  | .thermalTripStop => Sys2Proof.Machine.execThermalTripStop s
  | .holdBegin => Sys2Proof.Machine.execHoldBegin s
  | .holdEnd base => Sys2Proof.Machine.execHoldEnd base s
  | .samplerSample => Sys2Proof.Machine.execSamplerSample s
  | .extest cells => Sys2Proof.Machine.execExtest cells s
  | .samplePreload cells => Sys2Proof.Machine.execSamplePreload cells s
  | .idcode => Sys2Proof.Machine.execIdcode s
  | .clamp => Sys2Proof.Machine.execClamp s
  | .highz => Sys2Proof.Machine.execHighz s
  | .extestPulse cells => Sys2Proof.Machine.execExtestPulse cells s
  | .extestTrain cells => Sys2Proof.Machine.execExtestTrain cells s
  | .dbgAccess addr data env => Sys2Proof.Machine.execDbgAccess addr data env s
  | .flashAccess frame => Sys2Proof.Machine.execFlashAccess frame s
  | .bypass code => Sys2Proof.Machine.execBypass code s
  | .flitAlignmentLost l => Sys2Proof.Machine.execFlitAlignmentLost l s
  | .refclkValid env => Sys2Proof.Machine.execRefclkValid env s
  | .tapReset => Sys2Proof.Machine.execTapReset s
  | .entropyWordDelivery die words => Sys2Proof.Machine.execEntropyWordDelivery die words s

end Sys2Proof.Machine
end

