-- ==== Sys2Proof/Machine/Tick.lean ====
section
/-! DEFINITION. One tick of the sundial: the A-clock's runs, the words that land, the errors that arise, and the data slot of
LPDDR5 that begins, and the entries that walkers write in their orders' last frames. -/

namespace Sys2Proof.Machine

/-- One tick passes. The sundial counts while the root PLL is locked (R406, R407). DESIGN CHOICE, unsafe: log entry 2.
-/
def tick (s : State) : State :=
  if s.clk.locked then
    let s := if s.running then s.observe else s
    let s : State := { s with clk := { s.clk with sundial := s.clk.sundial + 1 } }
    let s := if s.running then s.clockRuns.landPast.takeAll else s
    let s := s.upset
    let s := if s.running then s.barrowSlots.walkEntries else s
    let s := if s.dbg.frozen then
        s.sownPlots.foldl (fun (s : State) p => s.setPlot p { s.plot p with frozenTicks := (s.plot p).frozenTicks + 1 }) s
      else s
    s.heartbeat
  else s

end Sys2Proof.Machine
end

