-- ==== Sys2Proof/WellFormed.lean ====
section
/-! DEFINITION. Which commands are well formed: their operands name things the module has, at the sizes the spec gives
them. What a program may contain beyond this is the loader's business (R191, R192). -/

namespace Sys2Proof

/-- A link (R314). -/
def linkOk (l : BitVec 5) : Bool := decide (l.toNat < 24)

/-- A link that an instruction names: 0x1F names none (R232). -/
def linkOrNone (l : BitVec 5) : Bool := decide (l.toNat < 24) || l == 31

/-- A physical bed (R13). -/
def physOk (p : BitVec 8) : Bool := decide (p.toNat < 132)

/-- The 568 bytes of a flit on the wire (R317). -/
def wireOk (w : List Byte) : Bool := w.length == 568

/-- A cause of a host read that failed for good (Table 12.3). -/
def failOk (f : Option (BitVec 3)) : Bool := f.elim true fun c => decide (2 ≤ c.toNat) && decide (c.toNat ≤ 5)

/-- The training of every link that one start-up brings (R325). -/
def envOk (e : BootEnv) : Bool := e.links.length == 24

/-- Common fields: a condition that Table 9.1 gives a meaning, and a gap that is not 0. -/
def Head.wf (h : Head) : Bool := decide (h.cond.toNat ≤ 4) && h.gap != 0

/-- Well-formed commands. -/
def Instr.wf : Instr → Bool
  | .lrecv _ h link _ _ _ _ => h.wf && linkOrNone link
  | .cbar _ h link _ _ => h.wf && linkOrNone link
  | .lsend _ h link _ _ _ _ => h.wf && linkOk link
  | .loop _ h _ body => h.wf && body != 0
  | .busError _ cause => decide (cause.toNat ≤ 5)
  | .lpddr5Frame c _ => decide (c.toNat < 24)
  | .scrubRead p => physOk p
  | .scrubWriteback p => physOk p
  | .fenceTakeEffect p => physOk p
  | .fenceComplete p => physOk p
  | .bedPollTimeout p => physOk p
  | .selftestEnd p _ => physOk p
  | .messageLand l _ => linkOk l
  | .flitSend l => linkOk l
  | .dataFlitReceive l wire => linkOk l && wireOk wire
  | .collectiveFlitReceive l wire => linkOk l && wireOk wire
  | .controlFlitReceive l wire => linkOk l && wireOk wire
  | .idleFlitReceive l wire => linkOk l && wireOk wire
  | .nakReceive l wire => linkOk l && wireOk wire
  | .replayTimeout l => linkOk l
  | .linkSilenceTimeout l => linkOk l
  | .flitAlignmentLost l => linkOk l
  | .linkTrain l _ => linkOk l
  | .linkTrainRetry l _ => linkOk l
  | .sundialProbe l _ => linkOk l
  | .sundialRecheck l probes => linkOk l && probes.length == 16
  | .mmSowOrder l _ _ => linkOk l
  | .mmFrostOrder l _ => linkOk l
  | .mmThawOrder l _ => linkOk l
  | .lnkCtrlRetrain _ l => linkOk l
  | .lnkCtrlDisable _ l _ => linkOk l
  | .outboundMailboxPost g _ msg => decide (g.toNat < 10) && msg.length == 64
  | .descriptorFetch _ fail => failOk fail
  | .load _ fail _ _ => failOk fail
  | .heartbeatCheck alive => alive.getLsbD 8
  | .glbResetWarm _ _ env => envOk env
  | .perstRelease env => envOk env
  | .hotReset env => envOk env
  | .railsGood env => envOk env
  | .refclkValid env => envOk env
  | .dbgAccess _ _ env => envOk env
  | .conservationFreeze pool _ _ => decide (pool.toNat < 5)
  | .droopDetect source => decide (source.toNat < 6)
  | .thermalSample hottest sensor coolest => hottest.length == 7 && sensor.length == 7 && coolest.length == 7
  | .registerWrite _ _ _ bytes _ => bytes != 0
  | .bypass code => decide (6 < code.toNat) && code != 0x10 && code != 0x11
  | .entropyWordDelivery _ words => words.length == 32
  | i => (headOfIns i).elim true Head.wf

/-- The bed and the common fields of a bed instruction; none for any other command. -/
def bedHead : Instr → Option (BitVec 7 × Head)
  | .pset b h _ _ _ _ _ _ _ => some (b, h)
  | .fill b h _ _ _ _ _ => some (b, h)
  | .cbld b h _ _ => some (b, h)
  | .mload b h _ _ _ _ _ _ _ => some (b, h)
  | .swap b h _ => some (b, h)
  | .pass b h _ _ _ _ _ _ _ _ _ _ => some (b, h)
  | .spill b h _ _ _ _ _ => some (b, h)
  | .rdrain b h _ _ _ _ _ => some (b, h)
  | .drain b h _ _ _ _ _ _ _ _ _ _ _ _ _ _ _ => some (b, h)
  | .vop b h _ _ _ _ _ _ _ _ _ _ _ => some (b, h)
  | .vld b h _ _ _ _ _ => some (b, h)
  | .vst b h _ _ _ _ _ _ => some (b, h)
  | .mcvt b h _ _ _ _ => some (b, h)
  | .sfn b h _ _ _ _ _ => some (b, h)
  | .smax1 b h _ _ _ _ _ _ _ => some (b, h)
  | .smax2 b h _ _ _ _ _ _ _ => some (b, h)
  | .smaxm b h _ _ => some (b, h)
  | .smaxx b h _ _ => some (b, h)
  | .sieve b h _ _ _ _ _ _ => some (b, h)
  | .sievem b h _ _ _ _ _ _ => some (b, h)
  | .sieveo b h _ => some (b, h)
  | .nprep b h _ _ _ => some (b, h)
  | .napply b h _ _ _ _ _ _ _ => some (b, h)
  | .statx b h _ _ _ => some (b, h)
  | .statm b h _ _ _ => some (b, h)
  | .pick b h _ _ _ _ => some (b, h)
  | .rpx b h _ _ => some (b, h)
  | .rpm b h _ _ _ => some (b, h)
  | .sprb b h _ _ _ => some (b, h)
  | .sprd b h _ _ _ _ _ => some (b, h)
  | .vtld b h _ _ => some (b, h)
  | .nop b h => some (b, h)
  | .endList b h => some (b, h)
  | .loop b h _ _ => some (b, h)
  | .sdwait b h _ _ => some (b, h)
  | .lrecv b h _ _ _ _ _ => some (b, h)
  | .cwait b h _ _ => some (b, h)
  | .cbar b h _ _ _ => some (b, h)
  | .tflip b h => some (b, h)
  | .hint b h _ => some (b, h)
  | .tag b h _ _ _ => some (b, h)
  | .entr b h _ _ => some (b, h)
  | .sdrd b h _ _ => some (b, h)
  | .ctrrd b h _ _ _ => some (b, h)
  | .brw b h _ _ _ _ _ _ _ => some (b, h)
  | .rsend b h _ _ _ => some (b, h)
  | .rrecv b h _ _ _ => some (b, h)
  | .lsend b h _ _ _ _ _ => some (b, h)
  | .lcoll b h _ _ _ _ _ _ => some (b, h)
  | _ => none

end Sys2Proof
end

