-- ==== Sys2Proof/Safety.lean ====
section
/-! DEFINITION. What counts as a safe run, and the conditions under which statements about commands hold: all of them on
the state and the operands alone. -/

namespace Sys2Proof

open Machine

/-- A command completes: it answers a next state. -/
def Completes (i : Instr) (s : State) : Prop := ∃ t, exec i s = .next t

/-- The first k steps from a state all answer next states. -/
def SafeFor : Nat → State → Prop
  | 0, _ => True
  | k + 1, s => ∃ t, step s = .next t ∧ SafeFor k t

/-- Every runner word that has landed by the issue of a bed's next instruction is in its memory: none of its plot's words for
the bed is due by then (R239). A state with such a word goes on as the state in which it has landed. -/
def Arrived (s : State) (p : Nat) : Prop :=
  ∀ w ∈ (s.plot ((s.bed p).job.getD {}).plot).words, w.bed = p → (s.bed p).due < w.due

/-- A logical bed issues an instruction now: it is mapped, its plot is sown, its sequencer runs and stands at the
instruction's word, the A-clock runs and has reached the instruction's A-cycle, and the instruction's condition holds (R169,
R170, R178). -/
def Issuing (s : State) (b : BitVec 7) (h : Head) (i : Instr) (p : Nat) : Prop :=
  s.physOf b.toNat = some p ∧ Arrived s p ∧ s.issues p i = true ∧ enabled h (s.bed p).seq.loops = true

/-- The same of an instruction whose condition does not hold: it issues and has no effect (R178). -/
def Skipping (s : State) (b : BitVec 7) (h : Head) (i : Instr) (p : Nat) : Prop :=
  s.physOf b.toNat = some p ∧ Arrived s p ∧ s.issues p i = true ∧ enabled h (s.bed p).seq.loops = false

/-- The bed of an enabled instruction once its sequencer has moved on (R170, R177). -/
def Machine.State.issued (s : State) (h : Head) (p : Nat) (opens : Option (Nat × Nat)) : Bed := (s.bed p).advance true h.varies opens

/-- Two states that differ at most in one bed, in run records, and in the trace buffer with its status register. -/
structure OnlyBed (s t : State) (p : Nat) : Prop where
  pending : t.pending = s.pending
  freeN : t.freeN = s.freeN
  clk : t.clk = s.clk
  pwr : t.pwr = s.pwr
  host : t.host = s.host
  plots : t.plots = s.plots
  fwClaims : t.fwClaims = s.fwClaims
  grd : t.grd = s.grd
  brw : t.brw = s.brw
  ddr : t.ddr = s.ddr
  lnk : t.lnk = s.lnk
  sec : t.sec = s.sec
  pins : t.pins = s.pins
  dbg : t.dbg = { s.dbg with trace := t.dbg.trace }
  bed : ∀ q, q ≠ p → t.bed q = s.bed q
  reg : ∀ off, off ≠ 0x100208 → t.reg off = s.reg off

/-- A bed is as given, but that a fence may have been asked for, which its count of uncorrectable errors can do at any
instruction (R378). -/
def BedIs (b x : Bed) : Prop := ∃ f, b = { x with fencePending := f }

/-- A command answers a state in which one bed has become x, and nothing else has changed but run records and the trace. -/
def Issues (i : Instr) (s : State) (p : Nat) (x : Bed) : Prop :=
  ∃ t, exec i s = .next t ∧ BedIs (t.bed p) x ∧ OnlyBed s t p

/-- No granule of a bed's memory holds an error (R255). -/
def Clean (b : Bed) : Prop := b.ecc = []

/-- A bed in which nothing keeps an instruction from completing: no granule holds an error, nothing is poisoned, and the
entropy source of its die works (R88, R101, R142, R255, R450). -/
def Sound (s : State) (p : Nat) : Prop :=
  Clean (s.bed p) ∧ s.sec.entropyFail.getLsbD ((s.bed p).logical / 32) = false ∧
    (s.bed p).tbank0.poison = false ∧ (s.bed p).tbank1.poison = false ∧
    ∀ a, ((s.bed p).array a).shadow.poison = false ∧ ((s.bed p).array a).idleBank.poison = false ∧
      ∀ half m, (tget (fun _ => {}) (((s.bed p).array a).half half).slots m).poison = false

/-- The line that the scrubber still has to write back after a write of n bytes (R257). -/
def scrubbed (b : Bed) (a n : Nat) : Option Nat := b.scrubPending.filter fun l => !overlaps (64 * l) 64 a n

/-- No write of a vector register that is still on its way lands later than an A-cycle (R201). -/
def LandsLast (b : Bed) (i land : Nat) : Prop := ∀ e ∈ tget (fun _ => []) b.vLand i, e.1 ≤ land

/-- Keys rising. -/
def Rising {α : Type} (t : Tbl α) : Prop := (t.map (·.1)).Pairwise (· < ·)

/-- The tables that commands walk through have their keys rising: those of beds, plots, channels, links, fault entries and
stored registers. -/
structure Tidy (s : State) : Prop where
  beds : Rising s.beds
  plots : Rising s.plots
  chans : Rising s.brw.chans
  links : Rising s.lnk.links
  flt : Rising s.grd.flt
  regs : Rising s.regs

/-- A bed in which n elements have been read for their values: the range record of a tensor that asks for one has taken
them, and an escape without a slot has been counted (R154, R40). -/
def Taken (c : Ctx) (b : Bed) (o : Opnd) (n : Nat) : Bed :=
  (c.record b o.ti ((c.vals b o n).map (·.1))).countAll ((c.vals b o n).map (·.2))

/-- Word k of a send to a hub, with what arrives with it: its 256 B, the A-cycle in which it lands and its die crossings (R238,
R264, R267). -/
def Machine.State.hubWord (s : State) (c : Ctx) (segment : Nat) (bytes : List Byte) (k : Nat) (cargo : Option Cargo) : Word :=
  let r := c.prog.route segment
  let due := (c.dues segment (ceilDiv bytes.length 256)).getD k 0
  { segment, bed := 256 + r.dests.headD 0, addr := 0, bytes := (bytes.drop (256 * k)).take 256, due, cargo,
    cross := s.crossings r (r.dests.headD 0) (due - r.lambda) }

/-- A request has completed between two states: its slot holds the outcome until its completion is posted (R352, R359), or
its mailbox has the reply ready (R386). -/
def Done (s t : State) (src : Src) (status code result : Nat) : Prop :=
  if src.mailbox then
    tget (fun _ => []) t.host.mbReq src.idx.toNat = [] ∧
      tget (fun _ => []) t.host.mbReply src.idx.toNat = mboxReply (tget (fun _ => []) s.host.mbReq src.idx.toNat) result
  else (t.ring src.idx.toNat).slot src.slot.toNat =
    { (s.ring src.idx.toNat).slot src.slot.toNat with
      st := 3, status, code, result := BitVec.ofNat 64 result, tick := s.now }

/-- A link takes bytes of the wire as a flit of a kind (R317, R318, R322): trained and not frozen, the bytes decode and
check, and a flit with a sequence number is the one expected. -/
structure Accepts (s : State) (l kind : Nat) (wire : List Byte) (h : Hdr) (payload : List Byte) : Prop where
  trained : (s.link l).state = 2
  size : wire.length = 568
  clock : s.clk.locked = true
  awake : s.linkFrozen = false
  decoded : ∃ d, fecDecode (scramble (s.link l).rxScramble wire).2 = some d ∧
    fieldAt d.1 524 8 = (crc64 (d.1.take 524)).toNat ∧ hdrOf (d.1.take 524) = h ∧ (d.1.take 524).drop 12 = payload
  typed : h.kind = kind
  order : kind = 1 ∨ kind = 2 ∨ kind = 3 → h.seq = ((s.link l).rxSeq + 1) % 4096

/-- What a flit's sideband and the link trace would add is out of the way: companion mode does not use the link. -/
def Alone (s : State) (l : Nat) : Prop := s.lnk.comp.enable = false ∨ s.lnk.comp.link ≠ l

/-- A unit of module memory takes and gives its data (R292, R299, R300). -/
def Live (s : State) (a : Nat) : Prop := a + 64 ≤ ddrSize ∧ a % 64 = 0 ∧ (s.ctl (ctlOf (a / 512))).state = 2

/-- The host's writes reach a module in service, and this requester's are accepted (R344, R365). -/
def Served (s : State) (rid : BitVec 16) : Prop := s.alive = true ∧ s.ready = true ∧ s.mine rid = true

/-- BAR0 writes of this requester are accepted (R344). -/
def Reached (s : State) (rid : BitVec 16) : Prop := s.alive = true ∧ s.mine rid = true

end Sys2Proof
end

