-- ==== Sys2Proof/Certificates/Slice0/Obligations.lean ====
section
/-! DEFINITION. The statements about the model, for the provers. -/

open Sys2Proof Sys2Proof.Machine


/-- PSET (R205, R84): the array's precision state becomes the instruction's; a change after an earlier PSET is counted
as a precision fence. Nothing else changes but the sequencer's place. FILL, CBLD and SWAP (R206, R207, R209, R74, R99,
R100): a fill writes the shadow plane, a codebook load the idle bank, and neither touches the plane or the bank in use;
a swap of clean ones exchanges both pairs, and the plane retired must be filled again. Reading is counted in gauge 3.
MLOAD (R208): each of count successive lines of the region fills one slot of the named buffer half, from slot m0 upward,
in the array's moving format; the half keeps its other slots. The lines are read one after the other: the range record
of a tensor that asks for one, and the conversion counters, see every value. -/
def Obligations.ArraysTakePrecisionPlanesCodebooksAndMovingLines : Prop :=
  (∀ (s : State) (b : BitVec 7) (h : Head) (a path : BitVec 2) (mov sta : BitVec 4) (w : BitVec 5) (sem : BitVec 2)
    (paired : Bool) (p : Nat), Issuing s b h (.pset b h a path mov sta w sem paired) p →
    let x := (s.bed p).array a.toNat
    let q := psetPrec path mov sta w sem paired
    Issues (.pset b h a path mov sta w sem paired) s p
      (if x.prec = some q then s.issued h p none
       else if x.prec = none then (s.issued h p none).setArray a.toNat { x with prec := some q }
       else (s.issued h p none).setArray a.toNat
        { x with prec := some q, fences := x.fences + 1,
                 fenceEnd := max x.fenceEnd (max x.feedEnd ((s.bed p).seq.sowCycle.getD 0) + 192) })) ∧
  ((∀ (s : State) (b : BitVec 7) (h : Head) (a : BitVec 2) (src : BitVec 24) (kn : BitVec 7) (nn : BitVec 6) (bs : BitVec 4)
    (p : Nat), Issuing s b h (.fill b h a src kn nn bs) p → Clean (s.bed p) →
    let o := (s.ctx p).opnd src
    let x := (s.bed p).array a.toNat
    let w := match fmtOf o.t.fmt with
      | .c4 => 4
      | .t16 => 16
      | .l16 => 16
      | .t32 => 16
      | _ => 8
    let lines := 64 * 128 * w / 512
    ∃ t, exec (.fill b h a src kn nn bs) s = .next t ∧ OnlyBed s t p ∧
      BedIs (t.bed p) (((s.issued h p none).setArray a.toNat (x.setShadow
        { fmt := o.t.fmt, kn := kn.toNat + 1, nn := nn.toNat + 1, tensor := o.ti, ready := true, poison := false,
          till := (s.ctx p).cyc + ceilDiv lines bs.toNat,
          codes := (fillCodes (s.bed p) o (kn.toNat + 1) (nn.toNat + 1)).filter fun e => e.2 != 0 })).gauge 3
        lines) ∧
      ((t.bed p).array a.toNat).cur = x.cur) ∧
  (∀ (s : State) (b : BitVec 7) (h : Head) (a : BitVec 2) (tensor : BitVec 12) (p : Nat),
    Issuing s b h (.cbld b h a tensor) p → Clean (s.bed p) →
    let from_ := ((s.ctx p).tensor tensor.toNat).codebook
    let x := (s.bed p).array a.toNat
    let sharing := decide ((s.ctx p).cyc < x.shadow.till)
    let y := if sharing then x.setShadow { x.shadow with till := x.shadow.till + 1 } else x
    ∃ t, exec (.cbld b h a tensor) s = .next t ∧ OnlyBed s t p ∧
      BedIs (t.bed p) (((s.issued h p none).setArray a.toNat (y.setIdleBank
        { codes := (List.range 16).map fun i => leNat ((s.bed p).bytes (from_ + 2 * i) 2), tensor := tensor.toNat,
          till := (if sharing then x.shadow.till else (s.ctx p).cyc) + 128, poison := false })).gauge 3 1) ∧
      ((t.bed p).array a.toNat).bank = x.bank) ∧
  (∀ (s : State) (b : BitVec 7) (h : Head) (a : BitVec 2) (p : Nat), Issuing s b h (.swap b h a) p →
    let x := (s.bed p).array a.toNat
    let till := max x.feedEnd ((s.bed p).seq.sowCycle.getD 0) + 192
    let late := x.cur.ready && x.cur.fmt != x.shadow.fmt && decide (x.fenceEnd < till)
    x.shadow.poison = false → x.idleBank.poison = false →
    ∃ t, exec (.swap b h a) s = .next t ∧ OnlyBed s t p ∧
      BedIs (t.bed p) ((s.issued h p none).setArray a.toNat ((t.bed p).array a.toNat)) ∧
      ((t.bed p).array a.toNat) = { x with
        tag := !x.tag, plane0 := ((t.bed p).array a.toNat).plane0, plane1 := ((t.bed p).array a.toNat).plane1
        fences := if late then x.fences + 1 else x.fences, fenceEnd := if late then till else x.fenceEnd } ∧
      ((t.bed p).array a.toNat).cur = x.shadow ∧ ((t.bed p).array a.toNat).shadow = { x.cur with ready := false } ∧
      ((t.bed p).array a.toNat).bank = x.idleBank ∧ ((t.bed p).array a.toNat).idleBank = x.bank)) ∧
  ∀ (s : State) (b : BitVec 7) (h : Head) (a : BitVec 2) (half : Bool) (m0 count : BitVec 6) (kn : BitVec 7)
    (src : BitVec 24) (bm : BitVec 4) (p : Nat), Issuing s b h (.mload b h a half m0 count kn src bm) p → Clean (s.bed p) →
    let o := (s.ctx p).opnd src
    let x := (s.bed p).array a.toNat
    let mov := x.precision.mov
    let line := fun (d : Bed) (i : Nat) => mloadLine (s.ctx p) d (o.shift 0 i) (kn.toNat + 1) (fmtOf mov)
    let beds := fun (i : Nat) => (List.range i).foldl (fun (d : Bed) j => (line d j).bed) (s.issued h p none)
    ∃ t y, exec (.mload b h a half m0 count kn src bm) s = .next t ∧ OnlyBed s t p ∧
      BedIs (t.bed p) (((beds (count.toNat + 1)).setArray a.toNat (x.setHalf half y)).gauge 3
        ((count.toNat + 1) * portCycles o (if fmtOf mov = .b1 then 8 * (kn.toNat + 1) else kn.toNat + 1))) ∧
      y.tensor = o.ti ∧ y.kn = kn.toNat + 1 ∧ y.fmt = mov ∧
      (∀ i, i ≤ count.toNat → tget (fun _ => ({} : MSlot)) y.slots (m0.toNat + i) =
        { loaded := true, poison := false, fmt := mov, 
          codes := (line (beds i) i).codes ++ List.replicate (128 - (line (beds i) i).codes.length) (zeroCode (fmtOf mov)) }) ∧
      ∀ k, (k < m0.toNat ∨ m0.toNat + count.toNat < k) →
        tget (fun _ => ({} : MSlot)) y.slots k = tget (fun _ => ({} : MSlot)) (x.half half).slots k

/-- PASS (R210, R58, R59, R163, R164): for slots that are not poisoned, entry (m, n) of the tile is the tile's entry, or
at the beginning of a reduction the identity or the preload with the correction vector, combined with the column's terms
and the zero-point term, and limited to the trough's width; entries of other rows or columns stay, or are cleared when a
reduction begins; the other tile, both planes and the buffer stay. -/
def Obligations.PassCombinesEveryColumnIntoOneTile : Prop :=
  ∀ (s : State) (b : BitVec 7) (h : Head) (a : BitVec 2) (half : Bool) (m0 mt : BitVec 6) (tile begins preEn corrEn : Bool)
    (pre corr : BitVec 24) (p : Nat), Issuing s b h (.pass b h a half m0 mt tile begins preEn corrEn pre corr) p →
    Clean (s.bed p) →
    let c := s.ctx p
    let x := (s.bed p).array a.toNat
    let q := x.precision
    let k := min x.cur.kn (x.half half).kn
    let as := passMoving c.prog.compat x half m0.toNat (mt.toNat + 1) k
    let ws := passStationary c.prog.compat x k
    (∀ i, i ≤ mt.toNat → (tget (fun _ => ({} : MSlot)) (x.half half).slots (m0.toNat + i)).poison = false) →
    x.cur.nn ≤ tileCols q.paired →
    let fed := max c.cyc x.fenceEnd + (mt.toNat + 1) * q.steps
    ∃ t y, exec (.pass b h a half m0 mt tile begins preEn corrEn pre corr) s = .next t ∧ OnlyBed s t p ∧
      (∃ g r, BedIs (t.bed p) { (s.issued h p none).setArray a.toNat
        { x.setTile tile y with
          passes := x.passes + 1, feedEnd := fed, sumEnd := fed + 191, sumPrev := x.sumEnd
          lastPass := some { tile, mt := mt.toNat + 1, start := max c.cyc x.fenceEnd, steps := q.steps } } with gauges := g, regs := r }) ∧
      y.isOpen = true ∧ y.redn = passRedn x half tile begins (mt.toNat + 1) ∧
      (∀ key, (∀ m n, m ≤ mt.toNat → n < tileCols q.paired → key ≠ entryKey m n) → y.entry key =
        if begins then tget (fun _ => ({} : Entry)) (clearedEntries q) key else (x.tile tile).entry key) ∧
      ∀ m n, m ≤ mt.toNat → n < tileCols q.paired →
        let base : Entry := if begins then
            match (passInit c (s.bed p) (passRedn x half tile begins (mt.toNat + 1)) (if preEn then some (c.opnd pre) else none)
              (if corrEn then some (c.opnd corr) else none) (mt.toNat + 1)).find? fun e => e.1 == entryKey m n with
            | some e => e.2
            | none => tget (fun _ => ({} : Entry)) (clearedEntries q) (entryKey m n)
          else (x.tile tile).entry (entryKey m n)
        y.entry (entryKey m n) = if n < x.cur.nn
          then (passEntry c.prog.compat q (passZero c (s.bed p) x) base (as.getD m []) (ws.getD n [])).1 else base

/-- SPILL with first set (R211, R59, R60): the tile's entries are written over its rain barrel in bed memory, row by
row, and the tile is cleared to the identity; without first each is combined with the barrel's own entry and limited
to the barrel's width, and the sticky bit of qp1_compat is set if one saturated. RDRAIN (R212, R155): the range record
of the slot takes the exact value of every entry of the barrel's rows and columns, after a reset where clear is set;
the barrel and all memory stay as they are. That a spill closes its tile is the model's reading (log entry 30). -/
def Obligations.RainBarrelsAreSpilledIntoAndRecorded : Prop :=
  (∀ (s : State) (b : BitVec 7) (h : Head) (a : BitVec 2) (tile first : Bool) (barrel : BitVec 24) (bp : BitVec 5) (p : Nat),
    Issuing s b h (.spill b h a tile first barrel bp) p → Clean (s.bed p) →
    let x := (s.bed p).array a.toNat
    let t0 := x.tile tile
    let q := t0.redn.prec
    let base := ((s.ctx p).opnd barrel).addr
    let len := entrySize q.paired * 64 * tileCols q.paired
    let new := tileEntries t0 q.paired
    let res := if first then new.map fun e => (e, false)
      else ((barrelEntries (s.bed p) base q.paired).zip new).map fun e =>
        if q.isMinMax then (q.combine e.1 e.2, false)
        else (q.combine e.1 e.2).limit (barrelBits q.paired) (s.ctx p).prog.compat (satBits q.paired)
    let bytes := res.flatMap fun e => e.1.toBytes q.paired
    let info := match (if first then none else (s.bed p).barrel base) with
      | some o => { t0.redn with mt := max o.mt t0.redn.mt, tile }
      | none => { t0.redn with tile }
    let done := { (s.issued h p none) with
      mem := mwrite 0 (s.bed p).mem base bytes, scrubPending := scrubbed (s.bed p) base bytes.length, barrels := tset (fun _ => none) (s.bed p).barrels base (some info) }.setArray
        a.toNat (x.setTile tile { t0 with
          isOpen := false, entries := clearedEntries q
          till := (s.ctx p).cyc + ceilDiv (len / 64 * (if first then 1 else 2)) (bp.toNat + 1) })
    ∃ t, exec (.spill b h a tile first barrel bp) s = .next t ∧ OnlyBed s t p ∧
      BedIs (t.bed p) (((if res.any (·.2) then done.setSticky else done).gauge 3 (len / 64 * (if first then 1 else 2))).finish
        ((s.ctx p).cyc + ceilDiv (len / 64 * (if first then 1 else 2)) (bp.toNat + 1))) ∧
      ∀ d, (d < base ∨ base + bytes.length ≤ d) → mget 0 (t.bed p).mem d = mget 0 (s.bed p).mem d) ∧
  ∀ (s : State) (b : BitVec 7) (h : Head) (a : BitVec 2) (barrel : BitVec 24) (slot : BitVec 3) (clear : Bool)
    (bp : BitVec 5) (p : Nat), Issuing s b h (.rdrain b h a barrel slot clear bp) p → Clean (s.bed p) →
    let base := ((s.ctx p).opnd barrel).addr
    let info := ((s.bed p).barrel base).getD {}
    let cols := tileCols info.prec.paired
    let kept := (enumFrom 0 (barrelEntries (s.bed p) base info.prec.paired)).filter fun e =>
      decide (e.1 / cols < info.mt) && decide (e.1 % cols < info.nn)
    Issues (.rdrain b h a barrel slot clear bp) s p
      (((s.issued h p none).setRange slot.toNat (kept.foldl (fun r e => r.add (e.2.value (lsbOf info.prec.paired) 0))
        (if clear then {} else (s.bed p).range slot.toNat))).gauge 3 (entrySize info.prec.paired * 64 * cols / 64))

/-- DRAIN of one finished tile, of the last pass's tile, or of a rain barrel (R213): what is drained is the reduction's
first rows; the statistics entries named are reset first where stat_clear is set; a trough tile is emptied, a rain
barrel is not; then the elements go out as drainOne says. Draining both tiles takes first the one whose reduction
completed first (R82). -/
def Obligations.DrainTakesTheSourceThatItsModeNames : Prop :=
  ∀ (s : State) (b : BitVec 7) (h : Head) (a : BitVec 2) (mode source tile both toReg : Bool) (dst : BitVec 24)
    (regFmt : BitVec 4) (func : BitVec 5) (fuse : Bool) (e0 : BitVec 6) (statEn statClear : Bool) (barrel : BitVec 24)
    (bp : BitVec 5) (p : Nat),
    let i : Instr := .drain b h a mode source tile both toReg dst regFmt func fuse e0 statEn statClear barrel bp
    Issuing s b h i p → Clean (s.bed p) →
    let c := s.ctx p
    let x := (s.bed p).array a.toNat
    let opt : DOpt := { dst := if toReg then none else some (c.opnd dst), first := dst.toNat % 16, fmt := regFmt,
                        func := if fuse then some func.toNat else none, stat := if statEn then some e0.toNat else none,
                        ports := bp.toNat + 1 }
    let cleared := opt.reset statClear
    let per := if fuse then 8 else 1
    let one := fun (d : Bed) (src : DSrc) (row0 : Nat) => drainOne c a.toNat src opt row0 d
    (source = true →
      let base := (c.opnd barrel).addr
      let info := ((s.bed p).barrel base).getD {}
      let len := entrySize info.prec.paired * 64 * tileCols info.prec.paired
      let r := one ((cleared (s.issued h p none) info.mt).gauge 3 (len / 64))
        { redn := info, rows := info.mt, entries := barrelEntries (s.bed p) base info.prec.paired, tile,
          first := c.cyc + max 64 (ceilDiv (len / 64) (bp.toNat + 1)) - 64, step := per } 0
      Issues i s p r.1) ∧
    (source = false → both = false →
      let q : Feed := x.lastPass.getD { tile, mt := 0, start := c.cyc, steps := 1 }
      let w := if mode then (q.tile, q.mt) else (tile, (x.tile tile).redn.mt)
      let first := if mode then q.start + q.steps + 191 else c.cyc
      let till := if mode then first + q.steps * (w.2 - 1) + 1 else c.cyc + 64 * per
      let r := one ((cleared (s.issued h p none) w.2).setArray a.toNat (x.emptyTile w.1 till))
        (tileSrc (x.tile w.1) w.2 w.1 first (if mode then q.steps else per)) 0
      Issues i s p r.1) ∧
    (source = false → both = true →
      let f := decide (x.tile1.order < x.tile0.order)
      let d0 := tileSrc (x.tile f) (x.tile f).redn.mt f c.cyc per
      let d1 := tileSrc (x.tile !f) (x.tile !f).redn.mt (!f) (c.cyc + 64 * per) per
      let r0 := one ((cleared (s.issued h p none) (max d0.rows d1.rows)).setArray a.toNat
        ((x.emptyTile f (c.cyc + 64 * per)).emptyTile (!f) (c.cyc + 128 * per))) d0 0
      let r1 := one r0.1 d1 d0.rows
      Issues i s p r1.1)

/-- VOP (R216, R117, R152, R202): the mask operations write one mask register; a compare writes the bits of the lanes
that are on; any other operation writes all 64 lanes of one vector register and its tag, a lane that is off keeping its
old bits, and counts each result's conversion. No other register changes. A register is written where its write lands
(R201): a lane that a write landing later has taken keeps that, and with none the register is the one written. -/
def Obligations.VopWritesOneMaskOrOneVectorRegister : Prop :=
  (∀ (s : State) (b : BitVec 7) (h : Head) (op : BitVec 5) (d s1 s2 s3 fmt : BitVec 4) (km : BitVec 3) (maskEn : Bool)
    (kd : BitVec 3) (imm8 : BitVec 8) (imm32 : BitVec 32) (p : Nat),
    let i : Instr := .vop b h op d s1 s2 s3 fmt km maskEn kd imm8 imm32
    Issuing s b h i p →
    let B := s.issued h p none
    let c := s.ctx p
    let compat := c.prog.compat
    let x := s.bed p
    let k := x.kmask km.toNat
    let full := laneMask 64
    let toMask := fun (lanes m : W64) => B.landK c.cyc (c.cyc + 4) kd.toNat lanes m
    let on := fun (l : Nat) => !maskEn || k.getLsbD l
    let r1 := x.vreg s1.toNat
    let r2 := x.vreg s2.toNat
    (op = 0x10 → Issues i s p (toMask full (k &&& x.kmask (s1.toNat % 8)))) ∧
    (op = 0x11 → Issues i s p (toMask full (k ||| x.kmask (s1.toNat % 8)))) ∧
    (op = 0x12 → Issues i s p (toMask full (~~~k))) ∧
    (9 ≤ op.toNat → op.toNat ≤ 12 → ∃ m : W64, Issues i s p (toMask (if maskEn then k else full) m) ∧ ∀ l, l < 64 →
      m.getLsbD l = if on l then vopCmp op.toNat (r1.val compat l) (r2.val compat l) else (x.kmask kd.toNat).getLsbD l) ∧
    (op.toNat < 9 ∨ (12 < op.toNat ∧ op.toNat < 16) → ∃ (y : VReg) (cs : List Cnv),
      Issues i s p ((B.countAll cs).landV c.cyc (c.cyc + 4) d.toNat (if op = 0x08 ∨ maskEn = false then full else k) y) ∧
      y.tag = fmt ∧ cs.length = 64 ∧ ∀ l, l < 64 →
        let imm := decodeEl compat .t32 0 imm32.toNat
        let src := if op = 0x08 then (if k.getLsbD l then r1 else r2) else r1
        let res := if op = 0x08 ∨ on l = true then
            if (op = 0x08 ∨ op = 0x0E) ∧ sameCode compat (fmtOf src.tag) 0 (fmtOf fmt) 0 = true then (src.lane l, Cnv.none)
            else encodeEl compat (fmtOf fmt) 0
              (vopVal op.toNat (src.val compat l) (r2.val compat l) ((x.vreg s3.toNat).val compat l) imm8 imm)
          else ((x.vreg d.toNat).lane l, .none)
        y.lane l = res.1 % 2 ^ 32 ∧ cs[l]? = some res.2)) ∧
  ∀ (b : Bed) (cyc land i : Nat) (lanes : W64) (r : VReg),
    (∀ l, l < 64 → lanes.getLsbD l = false → r.lane l = (b.vreg i).lane l) →
    (LandsLast b i land → (b.landV cyc land i lanes r).vreg i = r) ∧
    (∀ k, k ≠ i → (b.landV cyc land i lanes r).vreg k = b.vreg k) ∧
    ∀ l, l < 64 →
      ((∃ e ∈ tget (fun _ => []) b.vLand i, land < e.1 ∧ e.2.getLsbD l = true) →
        ((b.landV cyc land i lanes r).vreg i).lane l = (b.vreg i).lane l) ∧
      ((∀ e ∈ tget (fun _ => []) b.vLand i, land < e.1 → e.2.getLsbD l = false) →
        ((b.landV cyc land i lanes r).vreg i).lane l = r.lane l)

/-- VLD, VST and MCVT (R217, R218, R201): a load brings 64 elements a register into the register's format and lands
three A-cycles after the last of its own, writing no other register; a store and a conversion store each element through
the store grader at its own place in the destination, and nothing else of the bed but range records, counters and gauges
changes. -/
def Obligations.VectorMovesGoThroughTheGraders : Prop :=
  (∀ (s : State) (b : BitVec 7) (h : Head) (first : BitVec 4) (src : BitVec 24) (fmt bp : BitVec 4) (p : Nat),
    Issuing s b h (.vld b h first 0 src fmt bp) p → Clean (s.bed p) →
    let c := s.ctx p
    let o := c.opnd src
    let l := c.load (s.issued h p none) (o.shift 0 0) 64 (fmtOf fmt) 0
    Issues (.vld b h first 0 src fmt bp) s p ((l.bed.landV c.cyc (c.cyc + o.moveCycles 64 bp.toNat + 3) first.toNat
      (laneMask 64) (vregOf fmt l.codes)).gauge 3 (o.portUses 64))) ∧
  (∀ (s : State) (b : BitVec 7) (h : Head) (first count : BitVec 4) (src : BitVec 24) (fmt bp : BitVec 4) (p : Nat),
    Issuing s b h (.vld b h first count src fmt bp) p → Clean (s.bed p) → first.toNat + count.toNat < 16 →
    let c := s.ctx p
    let land := c.cyc + (c.opnd src).moveCycles (64 * (count.toNat + 1)) bp.toNat + 3
    ∃ t, exec (.vld b h first count src fmt bp) s = .next t ∧ OnlyBed s t p ∧
      (∃ g r q v l, BedIs (t.bed p) { s.issued h p none with vregs := v, vLand := l, gauges := g, regs := r, ranges := q }) ∧
      (∀ k, k ≤ count.toNat → LandsLast (s.bed p) (first.toNat + k) land → ((t.bed p).vreg (first.toNat + k)).tag = fmt) ∧
      ∀ k, (k < first.toNat ∨ first.toNat + count.toNat < k) → (t.bed p).vreg k = (s.bed p).vreg k) ∧
  (∀ (s : State) (b : BitVec 7) (h : Head) (first count : BitVec 4) (dst : BitVec 24) (bp : BitVec 4) (km : BitVec 3)
    (maskEn : Bool) (p : Nat), Issuing s b h (.vst b h first count dst bp km maskEn) p → Clean (s.bed p) →
    let c := s.ctx p
    let o := c.opnd dst
    let n := 64 * (count.toNat + 1)
    Issues (.vst b h first count dst bp km maskEn) s p
      (((c.store (s.issued h p none) o.ti
        (vstItems c (s.bed p) first.toNat (count.toNat + 1) o km.toNat maskEn) maskEn).bed.gauge 3 (o.portUses n)).finish
        (c.cyc + o.moveCycles n bp.toNat + 3))) ∧
  ∀ (s : State) (b : BitVec 7) (h : Head) (src dst : BitVec 24) (n : BitVec 16) (bp : BitVec 4) (p : Nat),
    Issuing s b h (.mcvt b h src dst n bp) p → Clean (s.bed p) →
    let c := s.ctx p
    let o := c.opnd src
    let q := c.opnd dst
    let k := n.toNat + 1
    let vs := c.vals (s.issued h p none) o k
    let B := c.record (s.issued h p none) o.ti (vs.map (·.1))
    Issues (.mcvt b h src dst n bp) s p
      (((c.store B q.ti (mcvtItems c B o q k vs) false).bed.gauge 3
        (ceilDiv (max (o.bytesOf k) (q.bytesOf k)) 64 + o.blocks k + q.blocks k)).finish (c.cyc + mcvtCycles o q k bp.toNat + 6))

/-- The store grader (R24, R158 to R160, R217): whatever is stored, a byte of bed memory changes only if a kept element
lies in it, or for T8X if it belongs to the side list of a block that an element lies in; a byte element stored alone in
a clean bed reads back as its code. -/
def Obligations.StoresTouchOnlyTheirElementsPlaces : Prop :=
  (∀ (c : Ctx) (b : Bed) (ti : Nat) (items : List SItem) (masked : Bool) (a : Nat),
    (∀ i ∈ items, i.keep = true → ¬(i.o.addr ≤ a ∧ a < i.o.addr + max 1 ((fmtOf i.o.t.fmt).width / 8))) →
    (fmtOf (c.tensor ti).fmt = .t8x → ∀ i ∈ items,
      ¬(sideAddr (c.quant b ti) (i.o.elem / 256) ≤ a ∧ a < sideAddr (c.quant b ti) (i.o.elem / 256) + 16)) →
    mget 0 (c.store b ti items masked).bed.mem a = mget 0 b.mem a) ∧
  ∀ (c : Ctx) (b : Bed) (ti : Nat) (o : Opnd) (v : Val) (code : Nat), Clean b → fmtOf (c.tensor ti).fmt ≠ .t8x →
    (fmtOf o.t.fmt).width = 8 → o.bitPos % 8 = 0 → code < 256 →
    (c.store b ti [{ o, v, code := some code }] false).bed.codes o 1 = [code]

/-- SFN and NAPPLY (R219, R222, R132, R133): each element's result goes through the store grader; the first non-finite
special function result is flagged, and so is a row whose mean and deviation are NaN; an element operation reads its
operands for their exact values. Which neighbour of an exact result is returned is free (log entry 24). -/
def Obligations.SpecialFunctionsAndNormalisationStoreEveryElement : Prop :=
  (∀ (s : State) (b : BitVec 7) (h : Head) (func : BitVec 5) (src op2 dst : BitVec 24) (n : BitVec 16) (p : Nat),
    Issuing s b h (.sfn b h func src op2 dst n) p → Clean (s.bed p) →
    let c := s.ctx p
    let o := c.opnd src
    let q := c.opnd op2
    let d := c.opnd dst
    let k := n.toNat + 1
    let cost := ceilDiv k 8
    let B0 := s.issued h p none
    let B1 := Taken c B0 o k
    let two := decide (16 ≤ func.toNat)
    let B := if two then Taken c B1 q k else B1
    let ys := if two then (c.vals B1 q k).map (·.1) else List.replicate k Val.nan
    let res : List (SItem × Nat) := sfnItems c B func.toNat d (((c.vals B0 o k).map (·.1)).zip ys)
    let st := (c.store B d.ti (res.map (·.1)) false).bed
    let fl := match firstFlag (res.map fun (e : SItem × Nat) => e.2) with
      | some e => (st.sflag c.prog.compat e.2 e.1 c.index).1
      | none => st
    Issues (.sfn b h func src op2 dst n) s p
      ((((fl.gauge 6 cost).gauge 3 (cost * if two then 3 else 2)).holdSf (c.cyc + cost)).finish
        (c.cyc + cost + sfnLatency func.toNat (decide (fmtOf d.t.fmt = .t32))))) ∧
  ∀ (s : State) (b : BitVec 7) (h : Head) (src : BitVec 24) (dst gamma beta : BitVec 12) (betaEn : Bool)
    (entry : BitVec 6) (n : BitVec 16) (p : Nat), Issuing s b h (.napply b h src dst gamma beta betaEn entry n) p →
    Clean (s.bed p) →
    let c := s.ctx p
    let o := c.opnd src
    let d := c.opndLike dst src
    let along := fun (i : BitVec 12) => ({ ti := i.toNat, t := c.tensor i.toNat, at_ := [o.at_.getD 0 0, 0, 0, 0] } : Opnd)
    let k := n.toNat + 1
    let B0 := s.issued h p none
    let B1 := Taken c B0 o k
    let B2 := Taken c B1 (along gamma) k
    let B := if betaEn then Taken c B2 (along beta) k else B2
    let bs := if betaEn then (c.vals B2 (along beta) k).map (·.1) else List.replicate k Val.zero
    let e := (s.bed p).stat entry.toNat
    let ys := napplyVals c.prog.compat e
      (((c.vals B0 o k).map (·.1)).zip (((c.vals B1 (along gamma) k).map (·.1)).zip bs))
    let st := (c.store B d.ti (valItems d ys) false).bed
    let bad := (decodeEl c.prog.compat .t32 0 ((e.prep.getD (0, 0)).2).toNat).isNan
    let wide := fun (i : Nat) => ceilDiv (64 * (fmtOf (c.tensor i).fmt).width) 512
    let ports := wide o.ti + wide d.ti + wide gamma.toNat + if betaEn then wide beta.toNat else 0
    Issues (.napply b h src dst gamma beta betaEn entry n) s p
      (((if bad then (st.sflag c.prog.compat 5 0 c.index).1 else st).gauge 3 (ceilDiv k 64 * ports)).finish
        (c.cyc + ceilDiv k 64 + 4))

/-- SMAX1, SMAX2, SMAXM and SMAXX (R220, R128 to R130): pass 1 feeds the unmasked elements into a row state, keeping
its scale; pass 2 forms the reciprocal if asked, of a row that is not empty, and stores each element's share; a merge
combines the row state in memory into the entry; an export writes its 64 bytes and changes no other byte. The special-
function units are held for the cost of each pass. How the maximum is split, and what infinities do, is the model's
reading (log entry 25). -/
def Obligations.SoftMaximumPassesFeedAndReadARowState : Prop :=
  (∀ (s : State) (b : BitVec 7) (h : Head) (src : BitVec 24) (mask : BitVec 12) (maskEn : Bool) (entry : BitVec 6)
    (clear : Bool) (beta : BitVec 32) (n : BitVec 16) (p : Nat),
    Issuing s b h (.smax1 b h src mask maskEn entry clear beta n) p → Clean (s.bed p) →
    let c := s.ctx p
    let o := c.opnd src
    let k := n.toNat + 1
    let cost := ceilDiv k 8 + 14
    let B := Taken c (s.issued h p none) o k
    let r0 : SRow := if clear then {} else (s.bed p).row entry.toNat
    let r1 := { r0 with beta := some (r0.beta.getD beta), q := none }
    let off := smaxMask B (if maskEn then some (c.opndLike mask src) else none) k
    let fed := (((c.vals (s.issued h p none) o k).map (·.1)).zip off).filter fun e => !e.2
    Issues (.smax1 b h src mask maskEn entry clear beta n) s p
      (((((B.setRow entry.toNat (fed.foldl (fun r e => r.feed B.tblDigest (betaOf c r1) e.1) r1)).gauge 6 cost).gauge 3
        (ceilDiv k 8 * if maskEn then 2 else 1)).holdSf (c.cyc + cost)).holdSmax (c.cyc + cost))) ∧
  (∀ (s : State) (b : BitVec 7) (h : Head) (src : BitVec 24) (mask : BitVec 12) (maskEn : Bool) (entry : BitVec 6)
    (recip : Bool) (dst : BitVec 12) (n : BitVec 16) (p : Nat),
    Issuing s b h (.smax2 b h src mask maskEn entry recip dst n) p → Clean (s.bed p) →
    let c := s.ctx p
    let o := c.opnd src
    let d := c.opndLike dst src
    let k := n.toNat + 1
    let cost := ceilDiv k 8 + 14 + if recip then 14 else 0
    let B := Taken c (s.issued h p none) o k
    let r0 := (s.bed p).row entry.toNat
    let r := if recip ∧ r0.empty = false then { r0 with q := some (smaxQ c B r0) } else r0
    let q : Ex := match decodeEl c.prog.compat .t32 0 (r.q.getD 0).toNat with
      | .fin x => x
      | _ => []
    let off := smaxMask B (if maskEn then some (c.opndLike mask src) else none) k
    let res : List (Val × Nat) := (((c.vals (s.issued h p none) o k).map (·.1)).zip off).map fun e => smax2Elem c B r q e.1 e.2
    let st := (c.store (B.setRow entry.toNat r) d.ti (valItems d (res.map (·.1))) false).bed
    let fl := match firstFlag (res.map fun (e : Val × Nat) => e.2) with
      | some e => (st.sflag c.prog.compat e.2 e.1 c.index).1
      | none => st
    Issues (.smax2 b h src mask maskEn entry recip dst n) s p
      (((((fl.gauge 6 cost).gauge 3 (ceilDiv k 8 * if maskEn then 3 else 2)).holdSf (c.cyc + cost)).holdSmax
        (c.cyc + cost)).finish (c.cyc + cost))) ∧
  (∀ (s : State) (b : BitVec 7) (h : Head) (src : BitVec 24) (entry : BitVec 6) (p : Nat),
    Issuing s b h (.smaxm b h src entry) p → Clean (s.bed p) →
    Issues (.smaxm b h src entry) s p
      (((((s.issued h p none).setRow entry.toNat { ((s.bed p).row entry.toNat).merge
        (rowOfBytes ((s.bed p).bytes ((s.ctx p).opnd src).addr 64)) with q := none }).gauge 3 1).gauge 6 8).holdSf
        ((s.ctx p).cyc + 8))) ∧
  ∀ (s : State) (b : BitVec 7) (h : Head) (entry : BitVec 6) (dst : BitVec 24) (p : Nat),
    Issuing s b h (.smaxx b h entry dst) p → Clean (s.bed p) →
    let at_ := ((s.ctx p).opnd dst).addr
    ∃ t, exec (.smaxx b h entry dst) s = .next t ∧ OnlyBed s t p ∧
      BedIs (t.bed p) (({ s.issued h p none with
        mem := (t.bed p).mem, scrubPending := scrubbed (s.bed p) at_ 64 }.gauge 3 1).finish ((s.ctx p).cyc + 2)) ∧
      (t.bed p).bytes at_ 64 = ((s.bed p).row entry.toNat).toBytes ∧
      ∀ a, (a < at_ ∨ at_ + 64 ≤ a) → mget 0 (t.bed p).mem a = mget 0 (s.bed p).mem a

/-- SIEVE, SIEVEM and SIEVEO (R221, R135 to R137): feeding keeps the best entries in rank order with their positions, a
merge takes the first k entries of each list of 512 bytes, and an export writes the first k entries, 8 bytes each. -/
def Obligations.TheSieveTakesMergesAndWritesItsList : Prop :=
  (∀ (s : State) (b : BitVec 7) (h : Head) (src : BitVec 24) (n : BitVec 16) (k : BitVec 6) (dir clear : Bool)
    (base : BitVec 32) (p : Nat), Issuing s b h (.sieve b h src n k dir clear base) p → Clean (s.bed p) →
    let c := s.ctx p
    let o := c.opnd src
    let v : Sieve := if clear then {} else (s.bed p).sieve
    let B := Taken c (s.issued h p none) o (n.toNat + 1)
    let es := (enumFrom 0 ((s.bed p).codes o (n.toNat + 1))).map fun e => (BitVec.ofNat 32 e.2, base + BitVec.ofNat 32 e.1)
    let z0 := if v.live then v.zero else (c.zeroOf (s.bed p) o.ti).toNat
    let x : Sieve := { v with k := k.toNat + 1, dir, fmt := o.t.fmt, zero := z0 }
    Issues (.sieve b h src n k dir clear base) s p
      ({ B with sieve := x.feed c.prog.compat es }.gauge 3
        (ceilDiv (n.toNat + 1) 64 * ceilDiv (64 * (fmtOf o.t.fmt).width) 512))) ∧
  (∀ (s : State) (b : BitVec 7) (h : Head) (src : BitVec 24) (count : BitVec 7) (k : BitVec 6) (dir clear : Bool)
    (fmt : BitVec 4) (p : Nat), Issuing s b h (.sievem b h src count k dir clear fmt) p → Clean (s.bed p) →
    let c := s.ctx p
    let o := c.opnd src
    let v : Sieve := if clear then {} else (s.bed p).sieve
    let es := (List.range (count.toNat + 1)).flatMap fun i => (List.range (k.toNat + 1)).map fun j =>
      let e := (s.bed p).bytes (o.addr + 512 * i + 8 * j) 8
      (BitVec.ofNat 32 (fieldAt e 0 4), BitVec.ofNat 32 (fieldAt e 4 4))
    let z0 := if v.live then v.zero else if fmtOf fmt = Fmt.f8 then wfld (c.quant (s.bed p) o.ti) 6 8 else 0
    let x : Sieve := { v with k := k.toNat + 1, dir, fmt, zero := z0 }
    Issues (.sievem b h src count k dir clear fmt) s p
      ({ s.issued h p none with sieve := x.feed c.prog.compat es }.gauge 3 (8 * (count.toNat + 1)))) ∧
  ∀ (s : State) (b : BitVec 7) (h : Head) (dst : BitVec 24) (p : Nat), Issuing s b h (.sieveo b h dst) p → Clean (s.bed p) →
    let v := (s.bed p).sieve
    let out := (v.entries.take (min v.k v.fed)).flatMap fun e => 
      leBytes 4 (outCode (s.ctx p).prog.compat (fmtOf v.fmt) e.1.toNat) ++ leBytes 4 e.2.toNat
    let at_ := ((s.ctx p).opnd dst).addr
    ∃ t, exec (.sieveo b h dst) s = .next t ∧ OnlyBed s t p ∧
      BedIs (t.bed p) (({ s.issued h p none with
        mem := (t.bed p).mem, scrubPending := scrubbed (s.bed p) at_ out.length }.gauge 3 8).finish ((s.ctx p).cyc + 8)) ∧
      (t.bed p).bytes at_ out.length = out ∧
      ∀ a, (a < at_ ∨ at_ + out.length ≤ a) → mget 0 (t.bed p).mem a = mget 0 (s.bed p).mem a

/-- NPREP, STATX and STATM (R222, R223, R115, R116, R132, R133): the mean and reciprocal deviation of an entry that
has counted elements and holds finite sums come from its sums and its count, each rounded into T32; non-finite sums,
or a variance that has no reciprocal root, give NaN for both; an entry that has counted nothing is given some pair,
which the spec does not state; an export writes 96 bytes an entry and a merge adds such items exactly. The pair of an
entry that has counted nothing is a free value (log entry 30). -/
def Obligations.StatisticsArePreparedExportedAndMerged : Prop :=
  (∀ (s : State) (b : BitVec 7) (h : Head) (entry : BitVec 6) (rms : Bool) (eps : BitVec 32) (p : Nat),
    Issuing s b h (.nprep b h entry rms eps) p →
    let c := s.ctx p
    let x := (s.bed p).stat entry.toNat
    let B := ((s.issued h p none).gauge 6 15).holdSf (c.cyc + 15)
    let enc := fun v => encodeEl c.prog.compat .t32 0 v
    let dec := fun (k : Nat) => decodeEl c.prog.compat .t32 0 k
    let mu := if rms then (0, Cnv.none) else enc (.fin (quotEx x.s1.n x.count (-128)))
    let v := if rms then enc (.fin (quotEx x.s2.n x.count (-128)))
      else enc (.fin (quotEx ((x.count : Int) * x.s2.n * 2 ^ 128 - x.s1.n * x.s1.n) (x.count * x.count) (-256)))
    let ve := enc (valAdd (dec v.1) (dec eps.toNat))
    let vv := dec ve.1
    let rho := sfEncode (s.bed p).tblDigest 0x04 vv .zero c.prog.compat .t32 0 (sfApply 0x04 vv)
    (x.count = 0 → ∃ m r, Issues (.nprep b h entry rms eps) s p
      (B.setStat entry.toNat { x with prep := some (m, r) })) ∧
    (x.count ≠ 0 → (x.s1.cls ≠ .fin ∨ x.s2.cls ≠ .fin) → Issues (.nprep b h entry rms eps) s p
      (B.setStat entry.toNat { x with prep := some (0x80000000, 0x80000000) })) ∧
    (x.count ≠ 0 → x.s1.cls = .fin → x.s2.cls = .fin → (vv.isNan || vv.isZero || vv.isNeg) = true →
      Issues (.nprep b h entry rms eps) s p
        ((B.countAll [mu.2, v.2, ve.2, .none]).setStat entry.toNat { x with prep := some (0x80000000, 0x80000000) })) ∧
    (x.count ≠ 0 → x.s1.cls = .fin → x.s2.cls = .fin → (vv.isNan || vv.isZero || vv.isNeg) = false →
      Issues (.nprep b h entry rms eps) s p
        ((B.countAll [mu.2, v.2, ve.2, rho.cnv]).setStat entry.toNat
          { x with prep := some (BitVec.ofNat 32 mu.1, BitVec.ofNat 32 rho.code) }))) ∧
  (∀ (s : State) (b : BitVec 7) (h : Head) (entry count : BitVec 6) (dst : BitVec 24) (p : Nat),
    Issuing s b h (.statx b h entry count dst) p → Clean (s.bed p) →
    let at_ := ((s.ctx p).opnd dst).addr
    let out := (upFrom entry.toNat (count.toNat + 1)).flatMap fun i => ((s.bed p).stat i).toBytes
    ∃ t, exec (.statx b h entry count dst) s = .next t ∧ OnlyBed s t p ∧
      BedIs (t.bed p) (({ s.issued h p none with
        mem := (t.bed p).mem, scrubPending := scrubbed (s.bed p) at_ out.length }.gauge 3 (2 * (count.toNat + 1))).finish
        ((s.ctx p).cyc + 2 * (count.toNat + 1))) ∧
      out.length = 96 * (count.toNat + 1) ∧ (t.bed p).bytes at_ out.length = out ∧
      ∀ a, (a < at_ ∨ at_ + out.length ≤ a) → mget 0 (t.bed p).mem a = mget 0 (s.bed p).mem a) ∧
  ∀ (s : State) (b : BitVec 7) (h : Head) (entry count : BitVec 6) (src : BitVec 24) (p : Nat),
    Issuing s b h (.statm b h entry count src) p → Clean (s.bed p) →
    let from_ := ((s.ctx p).opnd src).addr
    ∃ t, exec (.statm b h entry count src) s = .next t ∧ OnlyBed s t p ∧
      BedIs (t.bed p) ({ s.issued h p none with stats := (t.bed p).stats }.gauge 3 (2 * (count.toNat + 1))) ∧
      (∀ i, i ≤ count.toNat → (t.bed p).stat (entry.toNat + i) =
        Stat.merge (s.ctx p).prog.compat ((s.bed p).stat (entry.toNat + i)) (statOfBytes ((s.bed p).bytes (from_ + 96 * i) 96))) ∧
      ∀ k, (k < entry.toNat ∨ entry.toNat + count.toNat < k) → (t.bed p).stat k = (s.bed p).stat k

/-- PICK, RPX and RPM (R157, R224, R154): a record without a nonzero value picks nothing; any other sets the target's
delta, clamped to [-32, 31] and the clamp counted, for instructions from 8 A-cycles on; an export writes the record's 32
bytes, a merge takes a record from memory into the slot, reset first where clear is set. -/
def Obligations.RangeRecordsPickShiftsAndTravelAsBytes : Prop :=
  (∀ (s : State) (b : BitVec 7) (h : Head) (slot : BitVec 3) (target : BitVec 12) (tSrc : BitVec 8) (room : BitVec 3)
    (p : Nat), Issuing s b h (.pick b h slot target tSrc room) p →
    let r := (s.bed p).range slot.toNat
    let d := r.maxExp + signed 8 tSrc.toNat - 3 + room.toNat - (s.ctx p).prog.baseShift
    let out := decide (d < -32) || decide (31 < d)
    (r.nonzero = 0 → Issues (.pick b h slot target tSrc room) s p (s.issued h p none)) ∧
    (r.nonzero ≠ 0 → ∃ t, exec (.pick b h slot target tSrc room) s = .next t ∧ OnlyBed s t p ∧
      BedIs (t.bed p) (let x := { s.issued h p none with quant := (t.bed p).quant, picks := (t.bed p).picks }
        if out then x.countClamp else x) ∧
      qDelta (({ s.ctx p with cyc := (s.ctx p).cyc + 8 } : Ctx).quant (t.bed p) target.toNat) = max (-32) (min 31 d) ∧
      (∀ k, (s.ctx p).quant (t.bed p) k = (s.ctx p).quant (s.bed p) k) ∧
      ∀ e ∈ (t.bed p).picks, e ∈ (s.bed p).picks ∨ (e.1 = (s.ctx p).cyc + 8 ∧ e.2.1 = target.toNat))) ∧
  (∀ (s : State) (b : BitVec 7) (h : Head) (slot : BitVec 3) (dst : BitVec 24) (p : Nat),
    Issuing s b h (.rpx b h slot dst) p → Clean (s.bed p) →
    let at_ := ((s.ctx p).opnd dst).addr
    ∃ t, exec (.rpx b h slot dst) s = .next t ∧ OnlyBed s t p ∧
      BedIs (t.bed p) (({ s.issued h p none with
        mem := (t.bed p).mem, scrubPending := scrubbed (s.bed p) at_ 32 }.gauge 3 2).finish ((s.ctx p).cyc + 2)) ∧
      (t.bed p).bytes at_ 32 = ((s.bed p).range slot.toNat).toBytes ∧
      ∀ a, (a < at_ ∨ at_ + 32 ≤ a) → mget 0 (t.bed p).mem a = mget 0 (s.bed p).mem a) ∧
  ∀ (s : State) (b : BitVec 7) (h : Head) (slot : BitVec 3) (clear : Bool) (src : BitVec 24) (p : Nat),
    Issuing s b h (.rpm b h slot clear src) p → Clean (s.bed p) →
    Issues (.rpm b h slot clear src) s p
      (((s.issued h p none).setRange slot.toNat ((if clear then ({} : RangeRec) else (s.bed p).range slot.toNat).merge
        (RangeRec.ofBytes ((s.bed p).bytes ((s.ctx p).opnd src).addr 32)))).gauge 3 2)

/-- SPRB and SPRD (R225, R226, R138, R140, R141): a binding gives the sprinkler its seed, stream and counter, the seed
from the oldest entropy word where seed_src is 1; n draws step the counter by n modulo 2^128 and put their words into
lanes from lane 0, or their comparisons with p into mask bits, the rest of the register staying. VTLD and TFLIP (R227,
R246, R142, R143): a reload puts the image's 32 KiB and its digest into the shadow bank; a flip of a bank that is not
poisoned makes it the active one, and neither changes the image of either bank. -/
def Obligations.SprinklersDrawAndTableBanksFlip : Prop :=
  ((∀ (s : State) (b : BitVec 7) (h : Head) (k : BitVec 2) (entropy : Bool) (binding : BitVec 10) (p : Nat),
    Issuing s b h (.sprb b h k entropy binding) p →
    let e := (s.ctx p).prog.bindings.getD binding.toNat {}
    (entropy = false → Issues (.sprb b h k entropy binding) s p
      ((s.issued h p none).setSprinkler k.toNat { bound := true, seed := e.seed, stream := e.stream, ctr := e.ctr })) ∧
    ∀ w ws, entropy = true → (s.bed p).entropy = w :: ws → Issues (.sprb b h k entropy binding) s p
      (({ s.issued h p none with entropy := ws } : Bed).setSprinkler k.toNat
        { bound := true, seed := w, stream := e.stream, ctr := e.ctr })) ∧
  ∀ (s : State) (b : BitVec 7) (h : Head) (k form : BitVec 2) (dst count : BitVec 4) (pr : BitVec 16) (p : Nat),
    Issuing s b h (.sprd b h k form dst count pr) p →
    let x := (s.bed p).sprinkler k.toNat
    let n := count.toNat + 1
    let B := (s.issued h p none).setSprinkler k.toNat { x with ctr := x.ctr + BitVec.ofNat 128 n }
    let draw := fun (i : Nat) => sprinkle x.seed x.stream (x.ctr + BitVec.ofNat 128 i)
    let word := fun (j : Nat) => ((draw (j / 4)).extractLsb' (32 * (j % 4)) 32).toNat
    let value := fun (j : Nat) => Val.fin (exDy (word j / 2 ^ 8) (-24))
    (form ≠ 3 → ∃ (y : VReg) (cs : List Cnv), Issues (.sprd b h k form dst count pr) s p
        ((B.countAll cs).landV (s.ctx p).cyc ((s.ctx p).cyc + n + 2) dst.toNat (laneMask (4 * n)) y) ∧
      y.tag = (if form = 0 then 11 else if form = 1 then 2 else 1) ∧
      ∀ l, l < 64 → y.lane l = if l < 4 * n then
          (if form = 0 then word l else if form = 1 then (encodeEl (s.ctx p).prog.compat .t32 0 (value l)).1
            else (encodeEl (s.ctx p).prog.compat .t16 0 (value l)).1) % 2 ^ 32
        else ((s.bed p).vreg dst.toNat).lane l) ∧
    (form = 3 → n ≤ 8 → ∃ m : W64, Issues (.sprd b h k form dst count pr) s p
        (B.landK (s.ctx p).cyc ((s.ctx p).cyc + n + 2) (dst.toNat % 8) (laneMask (8 * n)) m) ∧
      ∀ l, l < 64 → m.getLsbD l = if l < 8 * n then decide (((draw (l / 8)).extractLsb' (16 * (l % 8)) 16).toNat < pr.toNat)
        else ((s.bed p).kmask (dst.toNat % 8)).getLsbD l)) ∧
  (∀ (s : State) (b : BitVec 7) (h : Head) (image : BitVec 12) (bp : BitVec 5) (p : Nat),
    Issuing s b h (.vtld b h image bp) p → Clean (s.bed p) →
    let bank : TBank := { image := (s.bed p).bytes ((s.ctx p).tensor image.toNat).base 32768,
                          digest := (((s.ctx p).prog.images.find? fun e => e.1 == image.toNat).getD (0, 0)).2, poison := false }
    Issues (.vtld b h image bp) s p
      { (if (s.bed p).tbank then { s.issued h p none with tbank0 := bank, tbReady := true }
        else { s.issued h p none with tbank1 := bank, tbReady := true } : Bed).gauge 3 512 with
        reloadTill := (s.ctx p).cyc + ceilDiv 512 (bp.toNat + 1) }) ∧
  ∀ (s : State) (b : BitVec 7) (h : Head) (p : Nat), Issuing s b h (.tflip b h) p →
    (if (s.bed p).tbank then (s.bed p).tbank0 else (s.bed p).tbank1).poison = false →
    Issues (.tflip b h) s p { s.issued h p none with tbank := !(s.bed p).tbank, tbReady := false }

/-- NOP, HINT, END and LOOP (R231, R245, R172, R177, R372): a NOP does nothing but move the sequencer on; a hint names
the plot's weather-hint entry; after END the bed is ended, and after the last END of a plot's beds the plot is
completing; a LOOP opens a loop over the next body instructions and goes on with the first of them. The sequencer's
bookkeeping (R170, R177, R182), stated of an instruction that has no other effect: the index issued, its issues and
executions each one more, the variation noted; at the place where the innermost loop stops, its next iteration begins,
or after its last the loop is left. That the whole effect of an instruction is at its issue is the model's choice (log
entry 10). -/
def Obligations.ControlInstructionsSteerTheSequencer : Prop :=
  ((∀ (s : State) (b : BitVec 7) (h : Head) (p : Nat), Issuing s b h (.nop b h) p →
    Issues (.nop b h) s p (s.issued h p none)) ∧
  (∀ (s : State) (b : BitVec 7) (h : Head) (entry : BitVec 12) (p : Nat), Issuing s b h (.hint b h entry) p →
    ∃ t, exec (.hint b h entry) s = .next t ∧ OnlyBed { s with plots := t.plots } t p ∧ BedIs (t.bed p) (s.issued h p none) ∧
      t.plot (s.ctx p).plot = { s.plot (s.ctx p).plot with hint := some entry.toNat } ∧
      ∀ q, q ≠ (s.ctx p).plot → t.plot q = s.plot q) ∧
  (∀ (s : State) (b : BitVec 7) (h : Head) (p : Nat), Issuing s b h (.endList b h) p →
    ∃ t, exec (.endList b h) s = .next t ∧ OnlyBed { s with plots := t.plots } t p ∧
      BedIs (t.bed p) { s.issued h p none with seq := { (s.issued h p none).seq with state := 5 } } ∧
      (∀ q, q ≠ (s.ctx p).plot → t.plot q = s.plot q) ∧
      (t.plot (s.ctx p).plot = s.plot (s.ctx p).plot ∨
        (∀ q ∈ t.bedsOf (s.ctx p).plot, (t.bed q).seq.state = 5) ∧
          t.plot (s.ctx p).plot = { s.plot (s.ctx p).plot with state := 4 }) ∧
      ((∀ q ∈ t.bedsOf (s.ctx p).plot, (t.bed q).seq.state = 5) → (t.plot (s.ctx p).plot).state = 4)) ∧
  ∀ (s : State) (b : BitVec 7) (h : Head) (count : BitVec 16) (body : BitVec 12) (p : Nat),
    Issuing s b h (.loop b h count body) p →
    let q := (s.bed p).seq
    ∃ t, exec (.loop b h count body) s = .next t ∧ OnlyBed s t p ∧
      BedIs (t.bed p) { s.issued h p none with seq := (t.bed p).seq } ∧ (t.bed p).seq = { (s.issued h p none).seq with
        pc := q.pc + 1
        loops := q.loops ++ [{ start := q.pc + 1, stop := q.pc + 1 + (body.toNat + 1), count := count.toNat + 1, iter := 0 }] }) ∧
  ∀ (s : State) (b : BitVec 7) (h : Head) (p : Nat), Issuing s b h (.nop b h) p →
    ∃ t, exec (.nop b h) s = .next t ∧
      let q := (s.bed p).seq
      let r := (t.bed p).seq
      r.index = q.pc ∧ r.last = (s.bed p).due ∧ r.state = q.state ∧ r.varied = (q.varied || h.varies) ∧
      (∀ k, tget (fun _ => 0) r.issues k = tget (fun _ => 0) q.issues k + if k = q.pc then 1 else 0) ∧
      (∀ k, tget (fun _ => 0) r.execs k = tget (fun _ => 0) q.execs k + if k = q.pc then 1 else 0) ∧
      (q.loops = [] → r.pc = q.pc + 1 ∧ r.loops = []) ∧
      ∀ fs f, q.loops = fs ++ [f] →
        (q.pc + 1 ≠ f.stop → r.pc = q.pc + 1 ∧ r.loops = q.loops) ∧
        (q.pc + 1 = f.stop → f.iter + 1 < f.count → r.pc = f.start ∧ r.loops = fs ++ [{ f with iter := f.iter + 1 }]) ∧
        (q.pc + 1 = f.stop → f.count ≤ f.iter + 1 → fs = [] → r.pc = q.pc + 1 ∧ r.loops = [])

/-- A disabled instruction (R178): of every bed instruction but the two runner transfers, whose words are counted in
pairs all the same (R239), nothing happens where the condition does not hold, but that the sequencer moves on without
counting an execution. That a disabled execution is not counted is the model's reading (log entry 28). -/
def Obligations.DisabledInstructionsOnlyMoveTheSequencer : Prop :=
  ∀ (s : State) (i : Instr) (b : BitVec 7) (h : Head) (p : Nat), bedHead i = some (b, h) → Skipping s b h i p →
    (∀ r a n, i ≠ .rsend b h r a n) → (∀ r a n, i ≠ .rrecv b h r a n) →
    exec i s = .next (s.setBed p ((s.bed p).advance false h.varies none))

/-- Every instruction of a bed completes (R169, R178): issued in a bed without damaged memory, poison or a failed
entropy source (R88, R101, R142, R256, R450), it answers a state in which the sequencer has moved on from it, its
issue is counted, and nothing has stopped. Computing and control instructions report nothing and change no other bed
and no plot. That the whole effect of an instruction is at its issue is the model's choice (log entry 10). -/
def Obligations.EveryBedInstructionCompletesInASoundBed : Prop :=
  ∀ (s : State) (b : BitVec 7) (h : Head) (p : Nat), Sound s p →
    let moves := fun (i : Instr) (opens : Option (Nat × Nat)) => Issuing s b h i p → ∃ t, exec i s = .next t ∧
      (t.bed p).seq = (s.issued h p opens).seq ∧ t.grd = s.grd ∧ t.plots = s.plots ∧ ∀ q, q ≠ p → t.bed q = s.bed q
    let goes := fun (i : Instr) => Issuing s b h i p → ∃ t, exec i s = .next t ∧
      (t.bed p).seq.index = (s.bed p).seq.pc ∧ (t.bed p).seq.last = (s.bed p).due ∧
      tget (fun _ => 0) (t.bed p).seq.execs (s.bed p).seq.pc = tget (fun _ => 0) (s.bed p).seq.execs (s.bed p).seq.pc + 1 ∧
      (t.plot (s.ctx p).plot).state = 3
    (∀ a path mov sta q sem paired, moves (.pset b h a path mov sta q sem paired) none) ∧
    (∀ a src kn nn bs, moves (.fill b h a src kn nn bs) none) ∧ (∀ a tensor, moves (.cbld b h a tensor) none) ∧
    (∀ a half m0 count kn src bm, moves (.mload b h a half m0 count kn src bm) none) ∧ (∀ a, moves (.swap b h a) none) ∧
    (∀ a half m0 mt tile begins preEn corrEn pre corr, moves (.pass b h a half m0 mt tile begins preEn corrEn pre corr) none) ∧
    (∀ a tile first barrel bp, moves (.spill b h a tile first barrel bp) none) ∧
    (∀ a barrel slot clear bp, moves (.rdrain b h a barrel slot clear bp) none) ∧
    (∀ a mode source tile both toReg dst regFmt func fuse e0 statEn statClear barrel bp, moves (.drain b h a mode source tile both toReg dst regFmt func fuse e0 statEn statClear barrel bp) none) ∧
    (∀ op d s1 s2 s3 fmt km maskEn kd imm8 imm32, moves (.vop b h op d s1 s2 s3 fmt km maskEn kd imm8 imm32) none) ∧
    (∀ first count src fmt bp, moves (.vld b h first count src fmt bp) none) ∧
    (∀ first count dst bp km maskEn, moves (.vst b h first count dst bp km maskEn) none) ∧
    (∀ src dst n bp, moves (.mcvt b h src dst n bp) none) ∧
    (∀ func src op2 dst n, moves (.sfn b h func src op2 dst n) none) ∧
    (∀ src mask maskEn entry clear beta n, moves (.smax1 b h src mask maskEn entry clear beta n) none) ∧
    (∀ src mask maskEn entry recip dst n, moves (.smax2 b h src mask maskEn entry recip dst n) none) ∧
    (∀ src entry, moves (.smaxm b h src entry) none) ∧ (∀ entry dst, moves (.smaxx b h entry dst) none) ∧
    (∀ src n k dir clear base, moves (.sieve b h src n k dir clear base) none) ∧
    (∀ src count k dir clear fmt, moves (.sievem b h src count k dir clear fmt) none) ∧
    (∀ dst, moves (.sieveo b h dst) none) ∧ (∀ entry rms eps, moves (.nprep b h entry rms eps) none) ∧
    (∀ src dst gamma beta betaEn entry n, moves (.napply b h src dst gamma beta betaEn entry n) none) ∧
    (∀ entry count dst, moves (.statx b h entry count dst) none) ∧
    (∀ entry count src, moves (.statm b h entry count src) none) ∧
    (∀ slot target tSrc room, moves (.pick b h slot target tSrc room) none) ∧
    (∀ slot dst, moves (.rpx b h slot dst) none) ∧ (∀ slot clear src, moves (.rpm b h slot clear src) none) ∧
    (∀ k entropy binding, moves (.sprb b h k entropy binding) none) ∧
    (∀ k form dst count q, moves (.sprd b h k form dst count q) none) ∧ (∀ image bp, moves (.vtld b h image bp) none) ∧
    moves (.nop b h) none ∧ moves (.tflip b h) none ∧ (∀ d words, moves (.entr b h d words) none) ∧
    (∀ d lane, moves (.sdrd b h d lane) none) ∧ (∀ d lane sel, moves (.ctrrd b h d lane sel) none) ∧
    (∀ count body, moves (.loop b h count body) (some (count.toNat + 1, body.toNat + 1))) ∧
    (∀ target d, goes (.sdwait b h target d)) ∧ (∀ link flow len dst d, goes (.lrecv b h link flow len dst d)) ∧
    (∀ coll d, goes (.cwait b h coll d)) ∧ (∀ link flows d, goes (.cbar b h link flows d)) ∧
    (∀ entry, goes (.hint b h entry)) ∧ (∀ tensor engine route, goes (.tag b h tensor engine route)) ∧
    (∀ channel desc bed level stepEn extStep route, goes (.brw b h channel desc bed level stepEn extStep route)) ∧
    (∀ route src len, goes (.rsend b h route src len)) ∧ (∀ route dst len, goes (.rrecv b h route dst len)) ∧
    (∀ link flow len src route, goes (.lsend b h link flow len src route)) ∧
    (∀ coll op count src dst route, goes (.lcoll b h coll op count src dst route))

/-- SDWAIT, LRECV, CWAIT and CBAR (R174, R231 to R237): the bed is put into a synchronisation wait that keeps its
condition, its deadline and its place; nothing else changes. SYNC_WAIT_END (R174): when every bed of a running plot
has observed its condition, the last of them in A-cycle a, the wait ends in all of them at a + 4: every one runs
again, its next gap counts from there, and the wait and its A-cycles are counted; until then nothing happens. No other
bed and nothing else of the module changes. SYNC_TIMEOUT (R175, R376): a bed whose condition was missing when its
deadline tick ended stops the plot with code 0x58, and every bed of the plot is stopped. Which bed the report of a
timeout names is the model's reading (log entry 31). -/
def Obligations.WaitsBeginEndAtOnceAndTimeOut : Prop :=
  (∀ (s : State) (b : BitVec 7) (h : Head) (p : Nat),
    let waiting := fun (w : Wait) =>
      let w := { w with index := (s.bed p).seq.pc, iters := (s.bed p).seq.loops.map (·.iter), start := (s.ctx p).cyc }
      { s.issued h p none with seq := { (s.issued h p none).seq with state := 4, wait := some w } }
    (∀ target d, Issuing s b h (.sdwait b h target d) p →
      Issues (.sdwait b h target d) s p (waiting { kind := 0, link := 31, target := target.toNat, deadline := d.toNat })) ∧
    (∀ link flow len dst d, Issuing s b h (.lrecv b h link flow len dst d) p →
      Issues (.lrecv b h link flow len dst d) s p
        (waiting { kind := 1, link := link.toNat, flow := flow.toNat, deadline := d.toNat })) ∧
    (∀ coll d, Issuing s b h (.cwait b h coll d) p →
      Issues (.cwait b h coll d) s p (waiting { kind := 2, link := 31, coll := coll.toNat, deadline := d.toNat })) ∧
    ∀ link flows d, Issuing s b h (.cbar b h link flows d) p →
      Issues (.cbar b h link flows d) s p (waiting { kind := 3, link := link.toNat, flows, deadline := d.toNat })) ∧
  (∀ (s : State) (p : BitVec 4), s.running = true → (s.plot p.toNat).state = 3 → s.bedsOf p.toNat ≠ [] →
    Tidy s → ∀ a, (∀ q ∈ s.bedsOf p.toNat, ∃ o, s.observedAt q = some o ∧ o ≤ a) →
    (∃ q ∈ s.bedsOf p.toNat, s.observedAt q = some a) →
    (s.clk.next ≤ a + 4 → exec (.syncWaitEnd p) s = .next s) ∧
    (a + 4 < s.clk.next → ∃ t, exec (.syncWaitEnd p) s = .next t ∧ t = { s with beds := t.beds } ∧
      (∀ q, q ∉ s.bedsOf p.toNat → t.bed q = s.bed q) ∧
      ∀ q ∈ s.bedsOf p.toNat, ∃ w, (s.bed q).seq.wait = some w ∧ (t.bed q).seq.state = 3 ∧ (t.bed q).seq.wait = none ∧
        (t.bed q).seq.pc = (s.bed q).seq.pc ∧ (t.bed q).mem = (s.bed q).mem ∧
        (t.bed q).seq.waits = (s.bed q).seq.waits + 1 ∧
        (t.bed q).seq.last = a + 4 ∧
        (t.bed q).seq.waitCycles = (s.bed q).seq.waitCycles + BitVec.ofNat 32 (a + 4 - w.start))) ∧
  ∀ (s : State) (p : BitVec 4) (q : Nat) (w : Wait), s.running = true → (s.plot p.toNat).state = 3 → q ∈ s.bedsOf p.toNat →
    (s.bed q).seq.wait = some w → s.observed q = false → w.deadline < s.plotTime p.toNat →
    ∃ t, exec (.syncTimeout p) s = .next t ∧ (t.plot p.toNat).state = 5 ∧ (t.plot p.toNat).stopCode = 0x58 ∧
      (t.plot p.toNat).landings = [] ∧ (t.plot p.toNat).runner = [] ∧
      (t.plot p.toNat).words = (s.plot p.toNat).words

/-- ENTR, SDRD and CTRRD (R247, R450): as many entropy words as asked leave the buffer, oldest first, for the
register's lanes from lane 0; a buffer with too few is emptied, the missing words coming from the die's source, unless
that has failed: then the plot stops with code 0x5B; the sundial count of the instruction's A-cycle, or the selected
counter as it then stands, goes into two lanes; the register is then tagged binary32 and its other lanes stay. TAG
(R244, R396, R397): the tensor's words are on their way to the engine, and after the last of them, once the engine has
formed both digests, so is what it gives: the tag of the program, its inputs and the execution, and the digest of the
tensor's bytes. When they come they go into the plot's record while it is open, and the record counts the tag. That
missing words of a working source are free values is the model's choice (log entry 59). -/
def Obligations.VaryingReadsFillLanesAndTagsAreRecorded : Prop :=
  ((∀ (s : State) (b : BitVec 7) (h : Head) (d : BitVec 4) (words : BitVec 5) (p : Nat), Issuing s b h (.entr b h d words) p →
    words.toNat < (s.bed p).entropy.length →
    ∃ y : VReg, Issues (.entr b h d words) s p
        (({ s.issued h p none with entropy := (s.bed p).entropy.drop (words.toNat + 1) } : Bed).landV (s.ctx p).cyc
          ((s.ctx p).cyc + 64 * (words.toNat + 1) + 4) d.toNat (laneMask (2 * (words.toNat + 1))) y) ∧
      y.tag = 11 ∧ ∀ l, l < 64 → y.lane l =
        if l < 2 * (words.toNat + 1) then ((s.bed p).entropy.getD (l / 2) 0).toNat / 2 ^ (32 * (l % 2)) % 2 ^ 32
        else ((s.bed p).vreg d.toNat).lane l) ∧
  (∀ (s : State) (b : BitVec 7) (h : Head) (d : BitVec 4) (words : BitVec 5) (p : Nat), Issuing s b h (.entr b h d words) p →
    (s.bed p).entropy.length ≤ words.toNat →
    ∃ t, exec (.entr b h d words) s = .next t ∧
      (s.sec.entropyFail.getLsbD ((s.ctx p).log / 32) = false →
        (t.bed p).entropy = [] ∧ (t.plot (s.ctx p).plot).state = 3) ∧
      (s.sec.entropyFail.getLsbD ((s.ctx p).log / 32) = true →
        (t.plot (s.ctx p).plot).state = 5 ∧ (t.plot (s.ctx p).plot).stopCode = 0x5B)) ∧
  (∀ (s : State) (b : BitVec 7) (h : Head) (d : BitVec 4) (lane : BitVec 6) (p : Nat), Issuing s b h (.sdrd b h d lane) p →
    let c := (s.ctx p).cyc
    let v := s.tickAt c
    (s.clk.cycles ≤ c → v = s.now) ∧
    ∃ y : VReg, Issues (.sdrd b h d lane) s p
        ((s.issued h p none).landV c (c + 4) d.toNat (BitVec.ofNat 64 (3 * 2 ^ lane.toNat)) y) ∧ y.tag = 11 ∧
      ∀ l, l < 64 → y.lane l = if l = lane.toNat then v % 2 ^ 32 else if l = lane.toNat + 1 then v / 2 ^ 32 % 2 ^ 32
        else ((s.bed p).vreg d.toNat).lane l) ∧
  ∀ (s : State) (b : BitVec 7) (h : Head) (d : BitVec 4) (lane : BitVec 6) (sel : BitVec 8) (p : Nat),
    Issuing s b h (.ctrrd b h d lane sel) p →
    let c := (s.ctx p).cyc
    let v := (s.issued h p none).counter c sel.toNat
    ∃ y : VReg, Issues (.ctrrd b h d lane sel) s p
        ((s.issued h p none).landV c (c + 4) d.toNat (BitVec.ofNat 64 (3 * 2 ^ lane.toNat)) y) ∧ y.tag = 11 ∧
      ∀ l, l < 64 → y.lane l = if l = lane.toNat then v % 2 ^ 32 else if l = lane.toNat + 1 then v / 2 ^ 32 % 2 ^ 32
        else ((s.bed p).vreg d.toNat).lane l) ∧
  (∀ (s : State) (b : BitVec 7) (h : Head) (tensor : BitVec 12) (engine : BitVec 2) (route : BitVec 12) (p : Nat),
    Issuing s b h (.tag b h tensor engine route) p → Clean (s.bed p) →
    let c := s.ctx p
    let x := s.plot c.plot
    let bytes := tensorBytes (s.bed p) (c.tensor tensor.toNat)
    let input := tagInput c.prog x.inputs tensor.toNat c.exec
    let n := ceilDiv bytes.length 256
    let last := (c.dues route.toNat n).getLastD c.cyc
    let miss := (enumFrom 0 c.prog.digests).any fun e => e.2.role == 1 && (tget (fun _ => none) x.inputs e.1).isNone
    ∃ t, exec (.tag b h tensor engine route) s = .next t ∧ OnlyBed { s with plots := t.plots } t p ∧
      BedIs (t.bed p) ((((s.issued h p none).gauge 4 n).gauge 3 (4 * n)).finish last) ∧
      (∀ q, q ≠ c.plot → t.plot q = s.plot q) ∧ t.plot c.plot = { x with words := (t.plot c.plot).words } ∧
      ∀ w, w ∈ (t.plot c.plot).words ↔ w ∈ x.words ∨ (∃ k, k < n ∧ w = s.hubWord c route.toNat bytes k none) ∨
        w = { segment := route.toNat, bed := 256 + engineEndpoint engine.toNat, addr := 0, bytes := []
              due := last + 4 * ceilDiv (input.length + 1) 136 + 4 * ceilDiv (bytes.length + 1) 136
              cargo := some (.tag c.log c.index c.exec tensor.toNat (digest input) (digest bytes) miss x.sowTick.toNat) }) ∧
  ∀ (s : State) (p bed index exec tensor : Nat) (tag out : BitVec 256) (miss : Bool) (sown : Nat),
    s.lnk.comp.enable = false → (s.runRec p).isOpen = true → (s.runRec p).events.length + 2 ≤ recLimit →
    let r := (s.takeCargo p (.tag bed index exec tensor tag out miss sown)).runRec p
    r.tags = (s.runRec p).tags + 1 ∧ r.unhashed = ((s.runRec p).unhashed || miss) ∧
    ∀ e ∈ [(1, digestBytes tag ++ leBytes 2 tensor), (2, digestBytes out ++ leBytes 2 tensor)],
      ({ kind := e.1, bed, index, exec, tick := s.clk.sundial, payload := fitBytes 48 e.2 } : REvent) ∈ r.events

/-- RSEND and RRECV (R238, R239, R249, R264, R267): the k-th send of a route waits for the k-th region that a bed
declares, and the k-th region for the k-th send; when the other side is there already, the words are on their way to the
region, each due when its slot and its route let it land. A bed's instruction goes on as from the state in which the
words due by its A-cycle have landed; a word without an error is written into the region, and one that cannot be
corrected is not, but stops the plot with code 0x53 and names its segment. -/
def Obligations.RunnerTransfersMeetInPairs : Prop :=
  (∀ (s : State) (b : BitVec 7) (h : Head) (route : BitVec 12) (src : BitVec 24) (len : BitVec 15) (p : Nat),
    Issuing s b h (.rsend b h route src len) p → Clean (s.bed p) → Tidy s →
    let c := s.ctx p
    let x := s.plot c.plot
    let k := tget (fun _ => 0) x.sentCount route.toNat + 1
    let n := ceilDiv (64 * (len.toNat + 1)) 256
    let bytes := (s.bed p).bytes (c.opnd src).addr (64 * (len.toNat + 1))
    let to_ := s.routeBeds (c.prog.route route.toNat)
    (∀ o ∈ x.runner, ¬(o.segment = route.toNat ∧ o.exec = k ∧ o.bed ∈ to_ ∧ o.send = false)) →
    ∃ t, exec (.rsend b h route src len) s = .next t ∧ OnlyBed { s with plots := t.plots } t p ∧
      BedIs (t.bed p) ((((s.issued h p none).gauge 4 n).gauge 3 (4 * n)).finish ((c.dues route.toNat n).getLastD c.cyc)) ∧
      (∀ q, q ≠ c.plot → t.plot q = s.plot q) ∧
      t.plot c.plot = { x with
        sentCount := tset (fun _ => 0) x.sentCount route.toNat k
        runner := x.runner ++ to_.map fun bed =>
          { segment := route.toNat, exec := k, bed, send := true, addr := 0, bytes, enabled := true, dues := c.dues route.toNat n } }) ∧
  (∀ (s : State) (b : BitVec 7) (h : Head) (route : BitVec 12) (dst : BitVec 24) (len : BitVec 15) (p : Nat),
    Issuing s b h (.rrecv b h route dst len) p →
    let c := s.ctx p
    let x := s.plot c.plot
    let k := tget (fun _ => 0) x.recvCount (256 * route.toNat + p) + 1
    let found := x.runner.find? fun o => o.segment == route.toNat && o.exec == k && o.bed == p && o.send
    (found = none → ∃ t, exec (.rrecv b h route dst len) s = .next t ∧ OnlyBed { s with plots := t.plots } t p ∧
      BedIs (t.bed p) (s.issued h p none) ∧ (∀ q, q ≠ c.plot → t.plot q = s.plot q) ∧
      t.plot c.plot = { x with
        recvCount := tset (fun _ => 0) x.recvCount (256 * route.toNat + p) k
        runner := x.runner ++ [{ segment := route.toNat, exec := k, bed := p, send := false, addr := (c.opnd dst).addr,
                                 bytes := [], enabled := true }] }) ∧
    ∀ o, found = some o → o.enabled = true →
      ∃ t, exec (.rrecv b h route dst len) s = .next t ∧ OnlyBed { s with plots := t.plots } t p ∧
        BedIs (t.bed p) (s.issued h p none) ∧ (∀ q, q ≠ c.plot → t.plot q = s.plot q) ∧
        t.plot c.plot = { x with
          recvCount := tset (fun _ => 0) x.recvCount (256 * route.toNat + p) k
          runner := x.runner.erase o, words := (t.plot c.plot).words } ∧
        ∀ w, w ∈ (t.plot c.plot).words ↔ w ∈ x.words ∨ ∃ i, i < ceilDiv o.bytes.length 256 ∧
          w = { segment := o.segment, bed := o.bed, addr := (c.opnd dst).addr + 256 * i, due := o.dues.getD i 0
                bytes := (o.bytes.drop (256 * i)).take 256
                cross := s.crossings (c.prog.route o.segment) (s.bed o.bed).logical
                  (o.dues.getD i 0 - (c.prog.route o.segment).lambda) }) ∧
  (∀ (s : State) (i : Instr) (b : BitVec 7) (h : Head) (p : Nat), bedHead i = some (b, h) → s.physOf b.toNat = some p →
    exec i s = exec i (s.landed p)) ∧
  ∀ (s : State) (p : Nat) (j : Job) (w : Word) (ws : List Word), p < 132 → (s.bed p).job = some j → s.running = true →
    (s.bed p).seq.state = 3 → (s.bed p).due < s.clk.next → (s.plot j.plot).state = 3 → (s.plot j.plot).words = w :: ws →
    w.bed = p → w.due ≤ (s.bed p).due → (∀ v ∈ ws, v.bed = p → (s.bed p).due < v.due) →
    let t := s.landed p
    (w.err = [] → (s.bed p).admin < 2 → Clean (s.bed p) →
      (t.plot j.plot).words = ws ∧ (t.plot j.plot).state = 3 ∧ (∀ q, q ≠ p → t.bed q = s.bed q) ∧
      BedIs (t.bed p) ((({ s.bed p with
        mem := mwrite 0 (s.bed p).mem w.addr w.bytes, scrubPending := scrubbed (s.bed p) w.addr w.bytes.length }.gauge 5
        (ceilDiv w.bytes.length 256)).gauge 3 (4 * ceilDiv w.bytes.length 256)).finish w.due)) ∧
    ((∃ e ∈ w.err, 138 ≤ e.2) → (t.plot j.plot).words = ws ∧ (t.plot j.plot).state = 5 ∧ (t.plot j.plot).stopCode = 0x53 ∧
      (t.bed p).mem = (s.bed p).mem ∧ t.fld 0x10200 0 1 = 1 ∧ (s.fld 0x10200 0 1 = 0 → t.fld 0x10200 1 12 = w.segment % 2 ^ 12))

/-- LSEND and LCOLL (R240, R241, R264, R319, R336): the words that the bed reads are on their way over their route; with
the word that completes a flit the flit comes to the link, where it stands behind those that wait, and the plot counts
it until it is acknowledged; with a part's last word the part comes to the hub, and waits until every bed of its map has
pushed. What comes to a hub with a word that has landed is acted on in the same tick. -/
def Obligations.LinkSendsQueueFlitsAndCollectivesGatherParts : Prop :=
  (∀ (s : State) (b : BitVec 7) (h : Head) (link : BitVec 5) (flow : BitVec 4) (len : BitVec 15) (src : BitVec 24)
    (route : BitVec 12) (p : Nat), Issuing s b h (.lsend b h link flow len src route) p → Clean (s.bed p) →
    s.lnk.comp.enable = false →
    let c := s.ctx p
    let n := ceilDiv (64 * (len.toNat + 1)) 256
    let bytes := (s.bed p).bytes (c.opnd src).addr (64 * (len.toNat + 1))
    let fs := flitsOf 1 flow.toNat len.toNat c.plot bytes
    fs.length = ceilDiv bytes.length 512 ∧
    ∃ t, exec (.lsend b h link flow len src route) s = .next t ∧ OnlyBed { s with plots := t.plots } t p ∧
      BedIs (t.bed p) ((((s.issued h p none).gauge 4 n).gauge 3 (4 * n)).finish ((c.dues route.toNat n).getLastD c.cyc)) ∧
      (∀ q, q ≠ c.plot → t.plot q = s.plot q) ∧ t.plot c.plot = { s.plot c.plot with words := (t.plot c.plot).words } ∧
      ∀ w, w ∈ (t.plot c.plot).words ↔ w ∈ (s.plot c.plot).words ∨ ∃ k, k < n ∧ w = s.hubWord c route.toNat bytes k
        (if k % 2 = 1 ∨ k + 1 = n then (fs[k / 2]?).map fun f => .flit link.toNat f else none)) ∧
  (∀ (s : State) (b : BitVec 7) (h : Head) (coll : BitVec 8) (op : BitVec 3) (count : BitVec 16) (src dst : BitVec 24)
    (route : BitVec 12) (p : Nat), Issuing s b h (.lcoll b h coll op count src dst route) p → Clean (s.bed p) →
    let c := s.ctx p
    let len := itemSize op.toNat * (count.toNat + 1)
    let n := ceilDiv len 256
    let bytes := (s.bed p).bytes (c.opnd src).addr len
    let last := (c.dues route.toNat n).getLastD c.cyc
    let part : Part := { coll := coll.toNat, bed := c.log, op := op.toNat, src := (c.opnd src).addr, dst := (c.opnd dst).addr,
                         bytes, till := last }
    ∃ t, exec (.lcoll b h coll op count src dst route) s = .next t ∧ OnlyBed { s with plots := t.plots } t p ∧
      (t.bed p).mem = (s.bed p).mem ∧
      tget (fun _ => 0) (t.bed p).seq.collStarted coll.toNat = tget (fun _ => 0) (s.bed p).seq.collStarted coll.toNat + 1 ∧
      (∀ q, q ≠ c.plot → t.plot q = s.plot q) ∧ t.plot c.plot = { s.plot c.plot with words := (t.plot c.plot).words } ∧
      ∀ w, w ∈ (t.plot c.plot).words ↔ w ∈ (s.plot c.plot).words ∨ ∃ k, k < n ∧ w = s.hubWord c route.toNat bytes k
        (if k + 1 = n then some (.part part) else none)) ∧
  (∀ (s : State) (p cyc : Nat) (w : Word), (s.plot p).words = [w] → w.err = [] → 256 ≤ w.bed → w.due ≤ cyc →
    s.landDue p none cyc = s.setPlot p { s.plot p with words := [], came := (s.plot p).came ++ w.cargo.toList }) ∧
  (∀ (s : State) (p : Nat) (x : Plot) (c : Cargo), s.plots = [(p, x)] → x.came = [c] →
    s.takeAll = (s.setPlot p { x with came := [] }).takeCargo p c) ∧
  (∀ (s : State) (p l : Nat) (f : TxItem),
    let t := s.takeCargo p (.flit l f)
    t = { s with plots := t.plots, lnk := t.lnk } ∧
      t.link l = { s.link l with queue := (s.link l).queue ++ [f] } ∧ (∀ j, j ≠ l → t.link j = s.link j) ∧
      t.plot f.plot = { s.plot f.plot with sends := (s.plot f.plot).sends + 1 } ∧ ∀ q, q ≠ f.plot → t.plot q = s.plot q) ∧
  ∀ (s : State) (p : Nat) (q : Part) (b : Nat), b < 128 → ((s.plot p).prog.coll q.coll).beds.getLsbD b = true → b ≠ q.bed →
    (∀ o ∈ (s.plot p).parts, ¬(o.coll = q.coll ∧ o.bed = b)) →
    s.takeCargo p (.part q) = s.setPlot p { s.plot p with parts := (s.plot p).parts ++ [q] }

/-- BRW (R242, R279, R280): a landing is noted for the plot, the channel's record is cleared, and the transfer is the
channel's next, or waits behind the one it has; a halted channel takes none. BARROW_TRANSFER_START and
BARROW_TRANSFER_COMPLETE (R280, R281, R283, R284): an idle channel of a running engine begins the transfer it has been
given and its buffers are those in use, of firmware one for each burst still to be moved as far as its depth goes; a
transfer whose last write has been made leaves the channel, its buffers return, the queued transfer takes its place
and starts in the A-cycle after that write at the earliest, and a plot's landing is finished. How many buffers a
transfer takes is the model's reading (log entry 32). -/
def Obligations.BarrowsAreGivenBegunAndCompleted : Prop :=
  (∀ (s : State) (b : BitVec 7) (h : Head) (channel : BitVec 6) (desc : BitVec 10) (bed : BitVec 24) (level : BitVec 2)
    (stepEn : Bool) (extStep : BitVec 32) (route : BitVec 12) (p : Nat),
    let i : Instr := .brw b h channel desc bed level stepEn extStep route
    Issuing s b h i p →
    let c := s.ctx p
    let ch := channel.toNat
    let k := s.chan ch
    let x : Xfer := { desc := brwDesc c (c.list.barrows.getD desc.toNat []) bed level.toNat stepEn extStep,
                      plot := some (c.plot, p, c.index), tensor := (c.opnd bed).ti, route := route.toNat, due := c.cyc }
    ∃ t, exec i s = .next t ∧ OnlyBed { s with plots := t.plots, brw := t.brw } t p ∧ BedIs (t.bed p) (s.issued h p none) ∧
      t.plot c.plot = { s.plot c.plot with
        landings := (s.plot c.plot).landings ++ [{ channel := ch, bed := p, index := c.index, due := s.landingAt c ch route.toNat x.desc }] } ∧
      (∀ q, q ≠ c.plot → t.plot q = s.plot q) ∧ (∀ j, j ≠ ch → t.chan j = s.chan j) ∧ (∀ j, t.engine j = s.engine j) ∧
      (k.state = 3 → t.chan ch = { k with rng := {} }) ∧
      (k.state ≠ 3 → k.cur = none → t.chan ch = { k with cur := some x, rng := {} }) ∧
      (k.state ≠ 3 → k.cur.isSome → k.next = none → t.chan ch = { k with next := some x, rng := {} }) ∧
      (k.state ≠ 3 → k.cur.isSome → k.next.isSome → t.chan ch = { k with rng := {} })) ∧
  (∀ (s : State) (ch : BitVec 6) (good : Nat) (x : Xfer), s.running = true → (s.chan ch.toNat).state = 0 →
    (s.engine (hubOf ch.toNat)).state = 0 → (s.chan ch.toNat).cur = some x → x.started = false → x.due < s.clk.next →
    ∃ t, exec (.barrowTransferStart ch good) s = .next t ∧ (t.chan ch.toNat).state = 1 ∧
      (t.chan ch.toNat).next = (s.chan ch.toNat).next ∧ (∀ j, j ≠ ch.toNat → t.chan j = s.chan j) ∧
      ∃ y, (t.chan ch.toNat).cur = some y ∧ y.started = true ∧ y.desc = x.desc ∧ y.plot = x.plot ∧
        (x.plot = none → x.probe = false → (t.chan ch.toNat).buffers = y.held ∧ y.held ≤ x.held) ∧
        (x.plot ≠ none → y.pos = x.pos ∧ y.good = good ∧ x.issued ≤ y.issued ∧
          (t.chan ch.toNat).buffers = y.inUse s.clk.cycles)) ∧
  ∀ (s : State) (ch : BitVec 6) (x : Xfer) (o : Nat × Nat × Nat), s.running = true →
    (s.engine (hubOf ch.toNat)).state = 0 → (s.chan ch.toNat).cur = some x → x.started = true →
    x.pos = x.count → x.till < s.clk.next → x.plot = some o →
    ∃ t, exec (.barrowTransferComplete ch) s = .next t ∧
      t.chan ch.toNat = { s.chan ch.toNat with
        state := 0, cur := (s.chan ch.toNat).next.map fun n => { n with due := max n.due (x.till + 1) }, next := none
        buffers := 0, cutRead := false, caught := [] } ∧
      (∀ j, j ≠ ch.toNat → t.chan j = s.chan j) ∧ t.beds = s.beds ∧
      (t.plot o.1).landings = markDone ch.toNat x.till (if dRange x.desc then some (dSlot x.desc) else none)
        (s.chan ch.toNat).rng (s.plot o.1).landings

/-- BRW_LANDING_DEADLINE (R243, R249, R279, R405): before the tick of its landing A-cycle nothing happens; from then
on the range record of a transfer whose last write was made by that A-cycle is merged into its bed's slot and nothing
stops, and one whose end nothing has told yet ends with it; one whose last write was not made by then stops its plot
with code 0x50 when the tick has ended. How the landing A-cycle is computed is the model's reading (log entry 63). -/
def Obligations.LandingDeadlinesMergeOrStop : Prop :=
  ∀ (s : State) (ch : BitVec 6) (p : Nat) (x : Landing), s.running = true → s.landingOf ch.toNat = some (p, x) →
    (s.clk.next ≤ x.due → exec (.brwLandingDeadline ch) s = .next s) ∧
    (x.done = true → x.till ≤ x.due → x.due < s.clk.next → ∃ t, exec (.brwLandingDeadline ch) s = .next t ∧
      t = { s with plots := t.plots, beds := t.beds } ∧
      t.plot p = { s.plot p with landings := (s.plot p).landings.erase x } ∧ (∀ q, q ≠ p → t.plot q = s.plot q) ∧
      (∀ q, q ≠ x.bed → t.bed q = s.bed q) ∧
      t.bed x.bed = match x.slot with
        | some k => (s.bed x.bed).setRange k (((s.bed x.bed).range k).merge x.rng)
        | none => s.bed x.bed) ∧
    (∀ (y : Xfer) (o : Nat × Nat), x.done = false → x.due < s.clk.next → (s.chan ch.toNat).cur = some y →
      y.plot = some (p, o) → y.over x.due = true → ∃ t, exec (.brwLandingDeadline ch) s = .next t ∧
      (t.plot p).state = (s.plot p).state ∧ (t.plot p).landings = (s.plot p).landings.erase x ∧
      (t.chan ch.toNat).state = 0 ∧ (t.chan ch.toNat).buffers = 0 ∧ (∀ q, q ≠ x.bed → t.bed q = s.bed q) ∧
      t.bed x.bed = if dRange y.desc
        then (s.bed x.bed).setRange (dSlot y.desc) (((s.bed x.bed).range (dSlot y.desc)).merge (s.chan ch.toNat).rng)
        else s.bed x.bed) ∧
    ((x.done = true ∧ x.due < x.till ∨
        x.done = false ∧ ∀ y, (s.chan ch.toNat).cur = some y → y.plot.isSome = true → y.over x.due = false) →
      x.due < s.clk.cycles → (s.plot p).state = 3 ∨ (s.plot p).state = 4 →
      ∃ t, exec (.brwLandingDeadline ch) s = .next t ∧ (t.plot p).state = 5 ∧ (t.plot p).stopCode = 0x50)

/-- BUS_ERROR and HOST_COMPLETION_TIMEOUT (R285): an error response to an access of a begun transfer stops the engine of
its hub, whose replay log keeps the accesses that have not completed; while it is stopped every begun channel of the hub
is held and no channel of the other hub is. ENGINE_RESTART, ISOLATION_ACCESS and CLEAR_HALT (R286, R287, R289): 1,024
A-cycles after its stop an engine replays its log in order, as often as BRW_RETRY_LIMIT says: when every access has
answered it runs again, until then the log stays whole; after the last retry the manager isolates; in isolation an
access that answers completes and leaves the log, and the first that fails halts its channel, which drops its transfers
and buffers; firmware's CLEAR_HALT frees a channel it holds. -/
def Obligations.BusErrorsStopOneHubAndTheManagerHaltsOneChannel : Prop :=
  (∀ (s : State) (ch : BitVec 6) (cause : BitVec 3), s.mayFail ch.toNat cause.toNat = true → Tidy s →
    let i : Instr := if cause = 5 then .hostCompletionTimeout ch else .busError ch cause
    ∃ t, exec i s = .next t ∧ (t.engine (hubOf ch.toNat)).state = 1 ∧ (t.engine (hubOf ch.toNat)).stopAt = s.clk.cycles ∧
      (t.engine (hubOf ch.toNat)).log = (s.engine (hubOf ch.toNat)).log ∧
      (∀ j, j ≠ hubOf ch.toNat → t.engine j = s.engine j) ∧
      (∀ e ∈ s.brw.chans, hubOf e.1 = hubOf ch.toNat → (s.chan e.1).state = 1 ∨ (s.chan e.1).state = 2 →
        t.chan e.1 = { s.chan e.1 with state := 2 }) ∧
      ∀ j, hubOf j ≠ hubOf ch.toNat → t.chan j = s.chan j) ∧
  (∀ (s : State) (hub : Bool) (good : Nat), s.running = true →
    let e := s.engine (b2n hub)
    (e.state = 1 → s.clk.next ≤ e.stopAt + 1024 → exec (.engineRestart hub good) s = .next s) ∧
    (e.state = 1 → e.stopAt + 1024 < s.clk.next → ∃ t, exec (.engineRestart hub good) s = .next t ∧
      (s.fld 0x80010 0 3 ≤ e.retries → t = s.setEngine (b2n hub) { e with state := 3 }) ∧
      (e.retries < s.fld 0x80010 0 3 →
        (s.replay e.log good ≠ e.log.length →
          t = s.setEngine (b2n hub) { e with state := 2, retries := e.retries + 1, replayed := s.replay e.log good }) ∧
        (s.replay e.log good = e.log.length → (t.engine (b2n hub)).state = 0 ∧ (t.engine (b2n hub)).retries = 0))) ∧
    (e.state = 2 → e.replayed < e.log.length → exec (.engineRestart hub good) s = .next s) ∧
    (e.state = 2 → e.log.length ≤ e.replayed → ∃ t, exec (.engineRestart hub good) s = .next t ∧
      (t.engine (b2n hub)).state = 0 ∧ (t.engine (b2n hub)).retries = 0)) ∧
  (∀ (s : State) (ch : BitVec 6) (good : Nat) (x : Access) (rest : List Access), s.running = true →
    (s.engine (hubOf ch.toNat)).state = 3 → (s.engine (hubOf ch.toNat)).log = x :: rest → x.chan = ch.toNat → rest ≠ [] →
    s.replays x = true → 0 < good → ∃ t, exec (.isolationAccess ch good) s = .next t ∧
      (t.engine (hubOf ch.toNat)).state = 3 ∧ ∀ y, (s.chan ch.toNat).cur = some y →
        (y.plot = none → (t.engine (hubOf ch.toNat)).log = rest.filter fun a => a.chan != ch.toNat) ∧
        (y.plot ≠ none → (t.engine (hubOf ch.toNat)).log =
            (x :: rest).filter (fun a => a.chan != ch.toNat || decide (y.pos + 1 ≤ a.index)) ∧
          ∃ z, (t.chan ch.toNat).cur = some z ∧ z.pos = y.pos + 1)) ∧
  (∀ (s : State) (ch : BitVec 6) (x : Access) (rest : List Access), s.running = true →
    (s.engine (hubOf ch.toNat)).state = 3 → (s.engine (hubOf ch.toNat)).log = x :: rest → x.chan = ch.toNat →
    ∃ t, exec (.isolationAccess ch 0) s = .next t ∧ (t.engine (hubOf ch.toNat)).state = 0 ∧
      (t.chan ch.toNat).state = 3 ∧ (t.chan ch.toNat).cur = none ∧ (t.chan ch.toNat).next = none ∧
      (t.chan ch.toNat).buffers = 0) ∧
  ∀ (s : State) (rid : BitVec 16) (ch : BitVec 6), Served s rid → (s.chan ch.toNat).state = 3 → 28 ≤ ch.toNat % 32 →
    ∃ t, exec (.clearHalt rid ch) s = .next t ∧ (t.chan ch.toNat).state = 0 ∧ ∀ j, j ≠ ch.toNat → t.chan j = s.chan j

/-- LPDDR5_FRAME (R294, R300): in a controller in service whose logs have not been read in this frame, a logged write
error poisons every unit that it wrote in the frame before, counts and reports, and a list beyond 256 units takes the
controller out of service; a clean log forgets the units written. A second reading in one frame has no effect. Other
controllers and module memory stay. SCRUB_READ and SCRUB_WRITEBACK (R255, R257): in an A-cycle that leaves the line's
bank idle, the scrubber reads the lines of a bed in turn; a line without errors changes nothing but the place reached;
one with a correctable granule waits to be written back, which clears exactly its correctable granules; the bytes of
memory never change. A unit of 64 bytes and a line a step are the model's reading (log entry 35). -/
def Obligations.MemoryErrorsArePoisonedAndScrubbed : Prop :=
  (∀ (s : State) (c : BitVec 5) (logged : Bool), c.toNat < 24 → (s.ctl c.toNat).state = 2 →
    let k := s.ctl c.toNat
    let new := ((k.wrote.filter fun e => e.1 + 1 == s.frame).map (·.2)).eraseDups.filter fun u => !k.poison.contains u
    let read := { k with wrote := k.wrote.filter fun e => decide (s.frame ≤ e.1), logRead := some s.frame }
    (k.logRead = some s.frame → exec (.lpddr5Frame c logged) s = .next s) ∧ (k.logRead ≠ some s.frame → ∃ t, exec (.lpddr5Frame c logged) s = .next t ∧ t.ddr.mem = s.ddr.mem ∧ (∀ j, j ≠ c.toNat → t.ctl j = s.ctl j) ∧
      (logged = false → t.ctl c.toNat = read ∧ t.grd = s.grd) ∧
      (logged = true → (k.poison ++ new).length ≤ 256 → t.ctl c.toNat = { read with poison := k.poison ++ new }) ∧
      (logged = true → 256 < (k.poison ++ new).length →
        t.ctl c.toNat = { read with state := 3, poison := (k.poison ++ new).take 256 }) ∧
      (logged = true → t.fld (0x90008 + 0x40 * c.toNat) 48 16 = satAdd 16 (s.fld (0x90008 + 0x40 * c.toNat) 48 16) 1))) ∧
  (∀ (s : State) (p : BitVec 8), p.toNat < 132 → s.running = true → wfld ((s.bed p.toNat).reg 0x818) 0 1 = 1 →
    (s.bed p.toNat).scrubPending = none → (s.bed p.toNat).admin < 2 →
    s.scrubIdle p.toNat ((s.bed p.toNat).scrubLine % 32) = true →
    let b := s.bed p.toNat
    ∃ t, exec (.scrubRead p) s = .next t ∧ (∀ q, q ≠ p.toNat → t.bed q = s.bed q) ∧
      (t.bed p.toNat).mem = b.mem ∧ (t.bed p.toNat).ecc = b.ecc ∧
      (t.bed p.toNat).scrubLine = (b.scrubLine + 1) % 524288 ∧
      ((t.bed p.toNat).scrubPending = some b.scrubLine ↔ ∃ e ∈ b.lineErrs b.scrubLine, e.2 < 138) ∧
      (b.lineErrs b.scrubLine = [] → b.scrubLine + 1 < 524288 →
        BedIs (t.bed p.toNat) { b with scrubLine := b.scrubLine + 1 })) ∧
  ∀ (s : State) (p : BitVec 8) (line : Nat), s.running = true → (s.bed p.toNat).scrubPending = some line →
    s.scrubIdle p.toNat (line % 32) = true →
    ∃ t, exec (.scrubWriteback p) s = .next t ∧ (∀ q, q ≠ p.toNat → t.bed q = s.bed q) ∧
      t.bed p.toNat = { s.bed p.toNat with scrubPending := none, ecc := (t.bed p.toNat).ecc } ∧
      ∀ g, (∀ e ∈ (s.bed p.toNat).ecc, e.1 = g → e.2 = (s.bed p.toNat).eccAt g) → (t.bed p.toNat).eccAt g =
        if g / 4 = line ∧ (s.bed p.toNat).eccAt g < 138 then 0 else (s.bed p.toNat).eccAt g

/-- NURSERY_OPEN and NURSERY_CLOSE (R303): an allowed open makes the free entry a parked session with the key,
directory and page count given, an allowed close clears the entry, and either request completes without error; a
refused order changes no entry and completes with its code. NURSERY_PLANT, NURSERY_LIFT and NURSERY_TRANSPLANT (R303,
R308, R309): an order that passes its checks stands last in its walker's queue and the request waits; no entry, no bed
and no byte of memory changes yet. The order of the refusals is the model's reading (log entry 34). -/
def Obligations.SessionsOpenCloseAndOrdersQueue : Prop :=
  ((∀ (s : State) (src : Src), s.orderAsked src 1 = true →
    let d := s.request src
    let o := orderOf d src s.clk.sundial
    let dir := bits (fieldAt d 24 8) 0 40
    let pages := bits (fieldAt d 24 8) 40 13
    dir % pageSize = 0 → pages ≤ 4096 → nurSpace dir 32768 = true →
    (∀ e, s.badEntry o = some e → ∃ t, exec (.nurseryOpen src) s = .next t ∧ Done s t src 1 0x07 0x6A) ∧
    (s.badEntry o = none → s.orderCode o = 0 → Live s (s.sessAddr o.session) → ∃ t, exec (.nurseryOpen src) s = .next t ∧ Done s t src 0 0 0 ∧
      t.sess o.session = sessBytes none dir pages 1 15 (sessGen (s.sess o.session)) o.key.toNat ∧ t.beds = s.beds ∧
      ∀ a, (a < s.sessAddr o.session ∨ s.sessAddr o.session + 64 ≤ a) → mget 0 t.ddr.mem a = mget 0 s.ddr.mem a) ∧
    (s.badEntry o = none → s.orderCode o ≠ 0 → ∃ t, exec (.nurseryOpen src) s = .next t ∧ Done s t src 1 0x07 (s.orderCode o) ∧ t.ddr = s.ddr)) ∧
  ∀ (s : State) (src : Src), s.orderAsked src 5 = true →
    let o := orderOf (s.request src) src s.clk.sundial
    (∀ e, s.badEntry o = some e → ∃ t, exec (.nurseryClose src) s = .next t ∧ Done s t src 1 0x07 0x6A) ∧
    (s.badEntry o = none → s.orderCode o = 0 → Live s (s.sessAddr o.session) → ∃ t, exec (.nurseryClose src) s = .next t ∧ Done s t src 0 0 0 ∧
      t.sess o.session = zeros 64 ∧
      ∀ a, (a < s.sessAddr o.session ∨ s.sessAddr o.session + 64 ≤ a) → mget 0 t.ddr.mem a = mget 0 s.ddr.mem a) ∧
    (s.badEntry o = none → s.orderCode o ≠ 0 → ∃ t, exec (.nurseryClose src) s = .next t ∧ Done s t src 1 0x07 (s.orderCode o) ∧ t.ddr = s.ddr)) ∧
  ∀ (s : State) (src : Src) (op : Nat), (op = 2 ∨ op = 3 ∨ op = 4) → s.orderAsked src op = true →
    let i : Instr := if op = 2 then .nurseryPlant src else if op = 3 then .nurseryLift src else .nurseryTransplant src
    let o := orderOf (s.request src) src s.clk.sundial
    let w := bits (fieldAt (s.request src) 16 8) 3 2
    o.limit ≠ 0 → o.limit ≤ 4096 → s.badEntry o = none → s.orderCode o = 0 →
    (op = 4 → o.plan % 64 = 0 ∧ nurSpace o.plan (16 * o.entries) = true) →
    ∃ t, exec i s = .next t ∧ t.walker w = { s.walker w with queue := (s.walker w).queue ++ [o] } ∧
      (∀ j, j ≠ w → t.walker j = s.walker j) ∧ t.beds = s.beds ∧ t.ddr.mem = s.ddr.mem ∧
      t.host = { s.host with waiters := s.host.waiters ++ [{ svc := 6, unit := w, src, arg := 0 }] }

/-- NURSERY_ORDER_START of a plant or lift (R305, R308): in a frame that starts at least 8 ticks after the order was
accepted, a walker without work takes its oldest order, firmware takes the claims that the order needs, the directory
is read, and the session's entry becomes moving. WALKER_WORD_TRANSFER of a plant (R307): while a word waits in a bed's
landing stage whose four banks are idle, it goes to its place in the bed and the walker counts it; else the next word
of 256 bytes, of the first page of the directory that has words left, its turn in the frame and room in its bed's
stage, is read from its page: it goes to its place in the bed that the directory entry names when that place's banks
are idle and none of the walker's words waits before it, else into the stage. Other beds and module memory stay; with
nothing to do nothing happens. NURSERY_ORDER_COMPLETE (R303, R308, R310): once the last word has moved and the last
frame has ended the walker is free for its next order, firmware's claims are released, and the request that asked for
the order completes; an order that ended in an error completes with its code of Table 13.9. The codes of orders that
break several rules are the model's reading (log entry 34). -/
def Obligations.WalkersStartMoveAndCompleteOrders : Prop :=
  (∀ (s : State) (w : BitVec 2) (o : Order) (rest : List Order), (s.walker w.toNat).work = none →
    (s.walker w.toNat).queue = o :: rest → o.op ≠ 4 → s.dbg.frozen = false → s.now % 80 = 0 →
    o.accepted.toNat + 8 ≤ s.now →
    let q := s.setWalker w.toNat { s.walker w.toNat with queue := rest }
    let dir := s.dirOf (s.sess o.session)
    let mine := (if o.digest then [engineClaim o.engine] else []) ++
      if o.plot = 15 then q.freeGroup w.toNat (dir.map (·.bed)) else []
    q.badEntry o = none → q.orderCode o = 0 → (o.plot ≠ 15 → q.orderLacks w.toNat o dir = none) → q.clash mine = none →
    q.badDir o = none → Live s (s.sessAddr o.session) →
    (o.op = 2 → o.digest = true → dir = [] → fieldAt (s.sess o.session) 0 32 = (digest []).toNat) →
    ∃ t, exec (.nurseryOrderStart w) s = .next t ∧ t.fwClaims = s.fwClaims ++ mine ∧ t.beds = s.beds ∧
      t.walker w.toNat = { s.walker w.toNat with
        queue := rest, work := some { order := o, frame := s.now / 80, claims := mine, dir
                                      rate := if o.plot = 15 then 1 else walkRate (s.walkMask o.plot w.toNat) } } ∧
      t.sess o.session = sessWith (s.sess o.session) 3 (fieldAt (s.sess o.session) 40 1) ∧
      ∀ a, (a < s.sessAddr o.session ∨ s.sessAddr o.session + 64 ≤ a) → mget 0 t.ddr.mem a = mget 0 s.ddr.mem a) ∧
  (∀ (s : State) (w : BitVec 2) (k : Work), (s.walker w.toNat).work = some k → s.running = true → k.err = 0 →
    k.order.op = 2 → k.words < k.total →
    let lands := fun (t : State) (p a page : Nat) (bytes : List Byte) (k : Work) (stage : List Staged) =>
      t.ddr.mem = s.ddr.mem ∧ (∀ q, q ≠ p → t.bed q = s.bed q) ∧ (t.bed p).mem = mwrite 0 (s.bed p).mem a bytes ∧
        (t.bed p).arrays = (s.bed p).arrays ∧ (t.bed p).seq = (s.bed p).seq ∧ (t.bed p).stage = stage ∧
        t.walker w.toNat = { s.walker w.toNat with work := some (k.wordDone page) }
    (∀ p x, s.readyStage w.toNat = some (p, x) → Clean (s.bed p) → (s.bed p).admin < 2 →
      ∃ t, exec (.walkerWordTransfer w) s = .next t ∧ lands t p x.off x.page x.bytes k ((s.bed p).stage.erase x)) ∧
    (s.readyStage w.toNat = none → s.nextPage k = none → exec (.walkerWordTransfer w) s = .next s) ∧
    ∀ page p, s.readyStage w.toNat = none → s.nextPage k = some page →
      let d := k.dir.getD page ⟨0, 0, 0⟩
      let n := 256 * tget (fun _ => 0) k.reads page
      let bytes := s.ddrBytes (d.page + n) 256
      let x := (k.takeUp s.frame page).hash page bytes
      let waits := (s.bed p).stage.any fun y => y.walker == w.toNat
      s.physOf d.bed = some p → s.ddrBad (d.page + n) 256 = none →
      (x.order.digest = true → (∀ i, i < x.dir.length → tget (fun _ => 0) x.reads i = 768) →
        fieldAt (s.sess k.order.session) 0 32 = x.sum.toNat) →
      (s.wordIdle p (d.place + n) = true → waits = false → Clean (s.bed p) → (s.bed p).admin < 2 →
        ∃ t, exec (.walkerWordTransfer w) s = .next t ∧ lands t p (d.place + n) page bytes x (s.bed p).stage) ∧
      ((s.wordIdle p (d.place + n) = false ∨ waits = true) → exec (.walkerWordTransfer w) s = .next
        ((s.setBed p { s.bed p with stage := (s.bed p).stage ++ [{ walker := w.toNat, page, off := d.place + n, bytes }] }).setWork
          w.toNat x))) ∧
  ∀ (s : State) (w : BitVec 2) (k : Work), (s.walker w.toNat).work = some k → s.dbg.frozen = false →
    (k.err ≠ 0 ∨ k.words = k.total) → k.orderEnd ≤ s.now →
    ∃ t, exec (.nurseryOrderComplete w) s = .next t ∧ t.walker w.toNat = { s.walker w.toNat with work := none } ∧
      (∀ j, j ≠ w.toNat → t.walker j = s.walker j) ∧ t.beds = s.beds ∧
      t.fwClaims = k.claims.foldl (fun cs c => cs.erase c) s.fwClaims ∧
      (s.asked k.order.src = true →
        if k.err = 0 then Done s t k.order.src 0 0 0 else Done s t k.order.src 1 0x07 k.err)

/-- FLIT_SEND (R319, R320, R322, R334): a trained link always sends: a waiting NAK goes first, then a flit to be
replayed, as it was sent before, then a control flit, and with nothing to send an idle; a flit of the flow whose turn
it is takes the next sequence number, is held for replay, leaves the queue and consumes one credit of its flow; either
way one flit of 568 bytes goes on the wire, and no other link changes. The flit on the wire is kept in an output
record of the model (log entry 4). -/
def Obligations.FlitSendTakesTheNakThenTheFlowInTurn : Prop :=
  (∀ (s : State) (l : BitVec 5), (s.link l.toNat).state = 2 → s.clk.locked = true → s.linkFrozen = false →
    (∀ q ∈ (s.link l.toNat).replay, ∃ x ∈ (s.link l.toNat).held, x.seq = q) →
    ∃ t x, exec (.flitSend l) s = .next t ∧ (t.link l.toNat).wireOut = x :: (s.link l.toNat).wireOut ∧
      ((∀ y ∈ (s.link l.toNat).held, y.bytes.length = 524) → x.length = 568) ∧
      (t.link l.toNat).state = 2 ∧ t.beds = s.beds ∧ t.plots = s.plots ∧ ∀ j, j ≠ l.toNat → t.link j = s.link j) ∧
  (∀ (s : State) (l : BitVec 5), ((s.link l.toNat).state ≠ 2 ∨ s.clk.locked = false) →
    exec (.flitSend l) s = .next s) ∧
  (∀ (s : State) (l : BitVec 5) (t : TxItem), (s.link l.toNat).state = 2 → s.clk.locked = true → s.linkFrozen = true →
    ((s.link l.toNat).queue.find? fun x => x.kind == 3 && x.tag == 5) = some t →
    exec (.flitSend l) s = .next (if s.dbg.conservation then s else s.sendItem l.toNat t)) ∧
  (∀ (s : State) (l : BitVec 5) (q : Nat) (qs : List Nat) (x : TxHeld), (s.link l.toNat).state = 2 → s.clk.locked = true →
    s.linkFrozen = false → (s.link l.toNat).nak = none → (s.link l.toNat).replay = q :: qs →
    ((s.link l.toNat).held.find? fun y => y.seq == q) = some x →
    ∃ t w, exec (.flitSend l) s = .next t ∧ (t.link l.toNat).replay = qs ∧ (t.link l.toNat).held = (s.link l.toNat).held ∧
      (t.link l.toNat).queue = (s.link l.toNat).queue ∧ (t.link l.toNat).wireOut = w :: (s.link l.toNat).wireOut ∧
      w = (scramble (s.link l.toNat).txScramble (fecEncode (x.bytes ++ leBytes 8 (crc64 x.bytes).toNat))).2) ∧
  (∀ (s : State) (l : BitVec 5) (i : TxItem), (s.link l.toNat).state = 2 → s.clk.locked = true → s.linkFrozen = false →
    s.dbg.frozen = false → (s.link l.toNat).nak = none → (s.link l.toNat).replay = [] →
    ((s.link l.toNat).queue.find? fun x => x.kind == 3) = some i →
    ∃ t bytes, exec (.flitSend l) s = .next t ∧ (t.link l.toNat).txSeq = ((s.link l.toNat).txSeq + 1) % 4096 ∧
      (t.link l.toNat).queue = (s.link l.toNat).queue.erase i ∧ (t.link l.toNat).credits = (s.link l.toNat).credits ∧
      (t.link l.toNat).held = (s.link l.toNat).held ++ [{ seq := (s.link l.toNat).txSeq, item := i, bytes, since := s.clk.sundial }]) ∧
  (∀ (s : State) (l : BitVec 5), (s.link l.toNat).state = 2 → s.clk.locked = true → s.linkFrozen = false →
    (s.link l.toNat).nak = none → (s.link l.toNat).replay = [] →
    (s.dbg.frozen = true ∨ ((s.link l.toNat).queue.find? fun x => x.kind == 3) = none ∧ (s.link l.toNat).nextFlow = none) →
    ∃ t, exec (.flitSend l) s = .next t ∧ (t.link l.toNat).txSeq = (s.link l.toNat).txSeq ∧
      (t.link l.toNat).queue = (s.link l.toNat).queue ∧ (t.link l.toNat).held = (s.link l.toNat).held) ∧
  (∀ (s : State) (l : BitVec 5) (n : Nat), (s.link l.toNat).state = 2 → s.clk.locked = true → s.linkFrozen = false →
    (s.link l.toNat).nak = some n →
    ∃ t x, exec (.flitSend l) s = .next t ∧ (t.link l.toNat).nak = none ∧ (t.link l.toNat).queue = (s.link l.toNat).queue ∧
      (t.link l.toNat).held = (s.link l.toNat).held ∧ (t.link l.toNat).txSeq = (s.link l.toNat).txSeq ∧
      (t.link l.toNat).wireOut = x :: (s.link l.toNat).wireOut ∧ ∀ j, j ≠ l.toNat → t.link j = s.link j) ∧
  ∀ (s : State) (l : BitVec 5) (f : Nat) (i : TxItem), (s.link l.toNat).state = 2 → s.clk.locked = true →
    s.linkFrozen = false → s.dbg.frozen = false → (s.link l.toNat).nak = none → (s.link l.toNat).replay = [] →
    ((s.link l.toNat).queue.find? fun x => x.kind == 3) = none → (s.link l.toNat).nextFlow = some f →
    ((s.link l.toNat).queue.find? fun x => x.kind != 3 && x.flow == f) = some i →
    let k := s.link l.toNat
    ∃ t x bytes, exec (.flitSend l) s = .next t ∧ (t.link l.toNat).txSeq = (k.txSeq + 1) % 4096 ∧
      (t.link l.toNat).queue = k.queue.erase i ∧ (t.link l.toNat).turn = f ∧
      (t.link l.toNat).held = k.held ++ [{ seq := k.txSeq, item := i, bytes, since := s.clk.sundial }] ∧
      tget (fun _ => 64) (t.link l.toNat).credits f = tget (fun _ => 64) k.credits f - 1 ∧
      0 < tget (fun _ => 64) k.credits f ∧
      (∀ g, g ≠ f → tget (fun _ => 64) (t.link l.toNat).credits g = tget (fun _ => 64) k.credits g) ∧
      (t.link l.toNat).wireOut = x :: k.wireOut ∧ ∀ j, j ≠ l.toNat → t.link j = s.link j

/-- A received flit that is accepted (R320, R322): every type brings its ack, which ends the replay of the flits it
names, and its credit return; a data flit waits in its flow's buffers; an idle does nothing more. Collective and
control flits (R328, R329, R332, R336): a collective flit of a member of the domain waits in its flow's buffers until
it is read, and those of a child go into its partial of the collective; one from another domain is discarded and its
credit owed; of control flits, a probe is answered, an order to sow or to frost is kept on its link, a report that the
partner's domain has formed is noted, and one from another domain does nothing more than its header. The codes 3, 4
and 7 of control flits are the model's choice (log entry 19). -/
def Obligations.AcceptedFlitsAreKeptByTheirKind : Prop :=
  (∀ (s : State) (l : BitVec 5) (wire : List Byte) (h : Hdr) (payload : List Byte) (data : Bool),
    Accepts s l.toNat (if data then 1 else 0) wire h payload → Alone s l.toNat →
    let i : Instr := if data then .dataFlitReceive l wire else .idleFlitReceive l wire
    let k := s.link l.toNat
    let acked := k.held.any fun x => x.seq == h.ack
    ∃ t, exec i s = .next t ∧ (t.link l.toNat).lastValid = s.clk.sundial ∧
      (t.link l.toNat).rxSeq = (if data then h.seq else k.rxSeq) ∧
      (t.link l.toNat).rx = (if data then k.rx ++ [s.rxOf h payload] else k.rx) ∧
      (t.link l.toNat).held = (if acked then (k.held.dropWhile fun x => x.seq != h.ack).drop 1 else k.held) ∧
      (∀ f, tget (fun _ => 64) (t.link l.toNat).credits f =
        tget (fun _ => 64) k.credits f + if f = h.creditFlow then h.creditCount else 0) ∧
      (t.link l.toNat).queue = k.queue ∧ (t.link l.toNat).txSeq = k.txSeq ∧ (t.link l.toNat).state = 2 ∧
      (∀ j, j ≠ l.toNat → t.link j = s.link j) ∧ t.beds = s.beds) ∧
  ∀ (s : State) (l : BitVec 5) (wire : List Byte) (h : Hdr) (payload : List Byte), Alone s l.toNat →
    let k := s.link l.toNat
    (Accepts s l.toNat 2 wire h payload →
      (k.inDomain = false → ∃ t, exec (.collectiveFlitReceive l wire) s = .next t ∧ (t.link l.toNat).rxSeq = h.seq ∧
        (t.link l.toNat).rx = k.rx ∧ tget (fun _ => 0) (t.link l.toNat).owed h.flow = tget (fun _ => 0) k.owed h.flow + 1 ∧
        t.beds = s.beds ∧ ∀ j, j ≠ l.toNat → t.link j = s.link j) ∧
      (k.inDomain = true → (s.dbg.frozen = true ∨ s.flowPlot l.toNat h.flow = none) →
        ∃ t, exec (.collectiveFlitReceive l wire) s = .next t ∧ (t.link l.toNat).rxSeq = h.seq ∧
          (t.link l.toNat).rx = k.rx ++ [s.rxOf h payload] ∧ t.beds = s.beds ∧ ∀ j, j ≠ l.toNat → t.link j = s.link j) ∧
      ∀ p, k.inDomain = true → s.dbg.frozen = false → s.flowPlot l.toNat h.flow = some p → k.rx = [] →
        let c := h.tag % 256
        let x := s.plot p
        let q := (x.partials.find? fun q => q.coll == c && q.link == l.toNat).getD { coll := c, link := l.toNat }
        (x.prog.coll c).parent ≠ l.toNat → q.whole = false →
        (∃ b, b < 128 ∧ (x.prog.coll c).beds.getLsbD b = true ∧ ∀ o ∈ x.parts, ¬(o.coll = c ∧ o.bed = b)) →
        ∃ t, exec (.collectiveFlitReceive l wire) s = .next t ∧ (t.link l.toNat).rxSeq = h.seq ∧
          (t.link l.toNat).rx = [{ s.rxOf h payload with taken := true }] ∧ t.beds = s.beds ∧
          (t.plot p).partials = (x.partials.filter fun o => o.coll != c || o.link != l.toNat) ++
            [{ q with bytes := q.bytes ++ payload.take (64 * h.lines), whole := h.last }]) ∧
    (Accepts s l.toNat 3 wire h payload →
      (k.inDomain = false → ∃ t, exec (.controlFlitReceive l wire) s = .next t ∧ (t.link l.toNat).rxSeq = h.seq ∧
        (t.link l.toNat).ctlIn = k.ctlIn ∧ (t.link l.toNat).queue = k.queue ∧
        (t.link l.toNat).partnerFormed = k.partnerFormed ∧ t.beds = s.beds ∧ ∀ j, j ≠ l.toNat → t.link j = s.link j) ∧
      (k.inDomain = true → h.tag % 256 = 1 → ∃ t i, exec (.controlFlitReceive l wire) s = .next t ∧
        (t.link l.toNat).rxSeq = h.seq ∧ (t.link l.toNat).queue = k.queue ++ [i] ∧ i.kind = 3 ∧ i.tag = 2 ∧
        i.payload.take 9 = payload.take 9 ∧ t.beds = s.beds ∧ ∀ j, j ≠ l.toNat → t.link j = s.link j) ∧
      (k.inDomain = true → h.tag % 256 = 7 → ∃ t, exec (.controlFlitReceive l wire) s = .next t ∧
        (t.link l.toNat).rxSeq = h.seq ∧ (t.link l.toNat).partnerFormed = true ∧ t.beds = s.beds ∧
        ∀ j, j ≠ l.toNat → t.link j = s.link j) ∧
      (k.inDomain = true → (h.tag % 256 = 3 ∨ h.tag % 256 = 4) → ∃ t, exec (.controlFlitReceive l wire) s = .next t ∧
        (t.link l.toNat).rxSeq = h.seq ∧ (t.link l.toNat).ctlIn = k.ctlIn ++ [leBytes 1 (h.tag % 256) ++ payload.take 42] ∧
        t.beds = s.beds))

/-- NAK_RECEIVE and REPLAY_TIMEOUT (R322, R323): every held flit from the one named, or from the oldest, is put up for
replay in order and counts one more replay; a link of which no flit has been replayed seven times before stays up.
LINK_SILENCE_TIMEOUT and FLIT_ALIGNMENT_LOST (R324): the link is down, its queues, buffers and credits are empty, the
first cause is latched and counted against nobody else's link. How replays are counted is the model's reading (log
entry 21). -/
def Obligations.ReplaysRepeatFlitsAndLostLinksGoDownEmpty : Prop :=
  ((∀ (s : State) (l : BitVec 5) (x : TxHeld) (xs : List TxHeld), (s.link l.toNat).held = x :: xs →
    (s.link l.toNat).state = 2 → s.linkFrozen = false → x.since.toNat + 200 < s.now → (∀ y ∈ x :: xs, y.replays < 7) →
    ∃ t, exec (.replayTimeout l) s = .next t ∧ (t.link l.toNat).state = 2 ∧
      (t.link l.toNat).replay = (x :: xs).map (·.seq) ∧
      (t.link l.toNat).held = (x :: xs).map (fun y => { y with replays := y.replays + 1, since := s.clk.sundial }) ∧
      (t.link l.toNat).queue = (s.link l.toNat).queue ∧ (∀ j, j ≠ l.toNat → t.link j = s.link j) ∧ t.beds = s.beds) ∧
  ∀ (s : State) (l : BitVec 5) (wire : List Byte) (h : Hdr) (payload : List Byte) (x : TxHeld) (xs : List TxHeld),
    Accepts s l.toNat 4 wire h payload → Alone s l.toNat → (s.link l.toNat).held = x :: xs → x.seq = bits h.tag 0 12 →
    (∀ y ∈ x :: xs, y.replays < 7 ∧ y.seq ≠ h.ack) →
    ∃ t, exec (.nakReceive l wire) s = .next t ∧ (t.link l.toNat).state = 2 ∧
      (t.link l.toNat).replay = (x :: xs).map (·.seq) ∧
      (t.link l.toNat).held = (x :: xs).map (fun y => { y with replays := y.replays + 1, since := s.clk.sundial })) ∧
  ∀ (s : State) (l : BitVec 5) (silent : Bool), (s.link l.toNat).state = 2 →
    (silent = true → s.linkFrozen = false ∧ (s.link l.toNat).lastValid.toNat + 1000 < s.now) →
    s.linkPlots l.toNat = [] →
    let i : Instr := if silent then .linkSilenceTimeout l else .flitAlignmentLost l
    ∃ t, exec i s = .next t ∧ (t.link l.toNat).state = 0 ∧ (t.link l.toNat).queue = [] ∧ (t.link l.toNat).held = [] ∧
      (t.link l.toNat).rx = [] ∧ (t.link l.toNat).credits = [] ∧ (∀ j, j ≠ l.toNat →
        t.link j = { s.link j with tree := (t.link j).tree, child := (t.link j).child }) ∧ t.beds = s.beds ∧ t.fld (0xB0020 + 0x100 * l.toNat) 0 1 = 1 ∧
      (s.fld (0xB0020 + 0x100 * l.toNat) 0 1 = 0 → t.fld (0xB0020 + 0x100 * l.toNat) 1 3 = if silent then 2 else 1)

/-- MESSAGE_LAND (R233, R235, R320, R321): the flits of a flow's oldest message that have arrived go on their way to the
bed whose next LRECV names the flow, behind those that came before them, to that LRECV's destination, in words of 256 B
over the route from the link's port, from the opening of the window on, once its window is open and the lengths agree;
they leave the buffers and their credits are owed; with the message's last the LRECV keeps the A-cycle of its last byte.
A wrong length stops the plot with code 0x54 instead; flits of a message whose beginning is gone are discarded. A plot's
word lands when its A-cycle has come and not before (R264), and writes its bytes in its bed alone. -/
def Obligations.AMessageLandsInTheWindowOfItsLrecv : Prop :=
  (∀ (s : State) (l : BitVec 5) (f : BitVec 4) (x : RxItem) (xs : List RxItem) (p b : Nat) (w : Window),
    let before := tget (fun _ => []) (s.link l.toNat).arrived f.toNat
    (s.link l.toNat).message f.toNat = x :: xs → s.flowPlot l.toNat f.toNat = some p → s.running = true →
    (s.plot p).state = 3 → s.bedsOf p = [b] → s.window b l.toNat f.toNat = some w → w.isOpen = true →
    x.first = before.isEmpty →
    let bytes := ((x :: xs).flatMap fun y => y.payload.take (64 * y.lines)).take (64 * w.len - before.length)
    let r := s.messageRoute p b l.toNat
    let dues := s.routeDues p r w.opens (ceilDiv bytes.length 256)
    ((x.first = true → w.len = x.tag + 1) →
      ∃ t, exec (.messageLand l f) s = .next t ∧
        (t.plot p).words = ((s.sendWords p
          { segment := r.segment, exec := w.exec, bed := b, send := true, addr := 0, bytes, enabled := true, dues }
          (w.addr + before.length)).plot p).words ∧
        (t.bed b).mem = (s.bed b).mem ∧ (t.bed b).seq.state = (s.bed b).seq.state ∧ (∀ q, q ≠ b → t.bed q = s.bed q) ∧
        (t.link l.toNat).rx = (x :: xs).foldl (fun r y => r.erase y) (s.link l.toNat).rx ∧
        tget (fun _ => 0) (t.link l.toNat).owed f.toNat = tget (fun _ => 0) (s.link l.toNat).owed f.toNat + (x :: xs).length ∧
        ((∃ y ∈ x :: xs, y.last = true) →
          tget (fun _ => []) (t.link l.toNat).arrived f.toNat = [] ∧
          tget (fun _ => 0) (t.bed b).seq.recvAt w.index = dues.getLastD 0 ∧
          tget (fun _ => 0) (t.bed b).seq.recvLanded w.index = tget (fun _ => 0) (s.bed b).seq.recvLanded w.index + 1) ∧
        ((∀ y ∈ x :: xs, y.last = false) →
          tget (fun _ => []) (t.link l.toNat).arrived f.toNat = before ++ bytes ∧ t.bed b = s.bed b)) ∧
    (x.first = true → w.len ≠ x.tag + 1 →
      ∃ t, exec (.messageLand l f) s = .next t ∧ (t.plot p).state = 5 ∧ (t.plot p).stopCode = 0x54)) ∧
  (∀ (s : State) (l : BitVec 5) (f : BitVec 4) (x : RxItem) (xs : List RxItem) (p : Nat),
    (s.link l.toNat).message f.toNat = x :: xs → s.flowPlot l.toNat f.toNat = some p →
    tget (fun _ => []) (s.link l.toNat).arrived f.toNat = [] → x.first = false →
    ∃ t, exec (.messageLand l f) s = .next t ∧ t = { s with lnk := t.lnk } ∧
      (t.link l.toNat).rx = (x :: xs).foldl (fun r y => r.erase y) (s.link l.toNat).rx ∧
      tget (fun _ => 0) (t.link l.toNat).owed f.toNat = tget (fun _ => 0) (s.link l.toNat).owed f.toNat + (x :: xs).length ∧
      ∀ j, j ≠ l.toNat → t.link j = s.link j) ∧
  ∀ (s : State) (p : Nat) (w : Word), (s.plot p).words = [w] → w.err = [] →
    (∀ c, c < w.due → s.landDue p none c = s) ∧
    (∀ c, w.due ≤ c → s.landDue p none c =
      (s.setPlot p { s.plot p with words := [], came := (s.plot p).came ++ w.cargo.toList }).landWord w) ∧
    (w.bed < 256 → Clean (s.bed w.bed) → (s.bed w.bed).admin < 2 →
      ((s.landWord w).bed w.bed).mem = mwrite 0 (s.bed w.bed).mem w.addr w.bytes ∧
      ∀ q, q ≠ w.bed → (s.landWord w).bed q = s.bed q)

/-- LINK_TRAIN and LINK_TRAIN_RETRY (R325, R326): a training whose steps succeed brings the link up to the partner it
finds, with what the partner tells of itself; a failed step, or a partner that is this module, leaves it down, and the
tick is kept, after which 100 ms pass before the retry. Only links change, and what waited for the training completes.
The link commands of firmware's services and of the host's register writes (R326, R386): a disabled link is held down;
released, it may train again; a retraining declares a trained link down first and leaves it in training, and a service
that names a link beyond 23 is refused with code 0x71. When a retraining completes is the model's reading (log entry
22). -/
def Obligations.LinksTrainRetrainAndDisable : Prop :=
  (∀ (s : State) (l : BitVec 5) (env : LinkEnv) (retry : Bool),
    (if retry then l.toNat < 24 ∧ (s.link l.toNat).state = 0 ∧ s.clk.locked = true ∧ tget (fun _ => 0) s.grd.gardState 8 = 1 ∧
      (s.link l.toNat).retryDue s.now = true else (s.link l.toNat).state = 1) →
    let i : Instr := if retry then .linkTrainRetry l env else .linkTrain l env
    (env.failStep ≠ 0 ∨ env.identity = s.sec.identity → ∃ t, exec i s = .next t ∧
      (∀ j, t.link j = { (if j = l.toNat then { s.link j with state := 0, failedAt := some s.clk.sundial } else s.link j) with
        tree := (t.link j).tree, child := (t.link j).child }) ∧ t.beds = s.beds) ∧
    (env.failStep = 0 → env.identity ≠ s.sec.identity →
      ((s.link l.toNat).partnerId = none ∨ (s.link l.toNat).partnerId = some env.identity) → ∃ t, exec i s = .next t ∧
        (t.link l.toNat).state = 2 ∧ (t.link l.toNat).partnerId = some env.identity ∧
        (t.link l.toNat).partnerLink = env.partnerLink.toNat ∧ (t.link l.toNat).partnerPos = env.position.toNat ∧
        (t.link l.toNat).partnerDomain = env.domain.toNat ∧ (t.link l.toNat).rootDist = env.rootDist.toNat ∧
        (t.link l.toNat).laneRev = env.laneRev ∧ (t.link l.toNat).polarity = env.polarity ∧
        (t.link l.toNat).queue = [] ∧ (t.link l.toNat).held = [] ∧ (t.link l.toNat).credits = [] ∧ t.beds = s.beds)) ∧
  (∀ (s : State) (rid : BitVec 16) (l : BitVec 5), Served s rid → l.toNat < 24 → (s.link l.toNat).state ≠ 3 →
    ∃ t, exec (.lnkCtrlRetrain rid l) s = .next t ∧ (t.link l.toNat).state = 1 ∧
      ((s.link l.toNat).state ≠ 2 → t = s.setLink l.toNat { s.link l.toNat with state := 1 })) ∧
  (∀ (s : State) (rid : BitVec 16) (l : BitVec 5), Served s rid → l.toNat < 24 →
    ∃ t, exec (.lnkCtrlDisable rid l true) s = .next t ∧ (t.link l.toNat).state = 3) ∧
  (∀ (s : State) (rid : BitVec 16) (l : BitVec 5), Served s rid → l.toNat < 24 → (s.link l.toNat).state = 3 →
    ∃ t, exec (.lnkCtrlDisable rid l false) s = .next t ∧ (t.link l.toNat).state = 0) ∧
  (∀ (s : State) (src : Src), s.service src 0x10 = true →
    let l := fieldAt (s.request src) 16 1
    (24 ≤ l → ∃ t, exec (.linkRetrain src) s = .next t ∧ Done s t src 1 0x07 0x71 ∧ t.lnk = s.lnk) ∧
    (l < 24 → (s.link l).state ≠ 3 → ∃ t, exec (.linkRetrain src) s = .next t ∧ (t.link l).state = 1 ∧
      ∃ x ∈ t.host.waiters, x.src = src ∧ x.svc = 0x10 ∧ x.unit = l)) ∧
  ∀ (s : State) (src : Src), s.service src 0x11 = true →
    let l := fieldAt (s.request src) 16 1
    (24 ≤ l → ∃ t, exec (.linkDisable src) s = .next t ∧ Done s t src 1 0x07 0x71 ∧ t.lnk = s.lnk) ∧
    (l < 24 → bit (fieldAt (s.request src) 17 1) 0 = true → ∃ t, exec (.linkDisable src) s = .next t ∧ (t.link l).state = 3) ∧
    (l < 24 → bit (fieldAt (s.request src) 17 1) 0 = false → (s.link l).state = 3 →
      ∃ t, exec (.linkDisable src) s = .next t ∧ (t.link l).state = 0 ∧ Done s t src 0 0 0)

/-- SUNDIAL_PROBE (R329): an exchange on a trained in-domain link adds to the link's sums; the first fifteen write
nothing else. Probes and rechecks (R329, R331): the recheck of a trained in-domain link after 1,000,000 ticks writes
its offset and delay, from 16 exchanges, and its time; an offset of more than one tick either way is a sundial slip.
The rounding of the mean is free (log entry 23). -/
def Obligations.ProbesAddUpAndRechecksFindSlips : Prop :=
  (∀ (s : State) (l : BitVec 5) (probe : Probe), (s.link l.toNat).state = 2 → (s.link l.toNat).inDomain = true →
    s.clk.locked = true → s.linkFrozen = false → s.exchanged probe = true → (s.link l.toNat).probes + 1 ≠ 16 →
    let k := s.link l.toNat
    exec (.sundialProbe l probe) s = .next (s.setLink l.toNat { k with
      probes := k.probes + 1, sumTheta := k.sumTheta + probeTheta probe, sumDelay := k.sumDelay + probeDelay probe })) ∧
  ∀ (s : State) (l : BitVec 5) (probes : List Probe), (s.link l.toNat).state = 2 → (s.link l.toNat).inDomain = true →
    s.clk.locked = true → s.linkFrozen = false → probes.length = 16 → probes.all s.exchanged = true → (s.link l.toNat).lastCheck.toNat + 1000000 ≤ s.now →
    let sum := (probes.map probeTheta).sum
    ∃ t theta, exec (.sundialRecheck l probes) s = .next t ∧ (theta = sum / 32 ∨ theta = sum / 32 + 1 ∧ sum % 32 ≠ 0) ∧
      t.link l.toNat = { s.link l.toNat with lastCheck := s.clk.sundial } ∧ (∀ j, j ≠ l.toNat → t.link j = s.link j) ∧
      t.reg (0x60100 + 8 * l.toNat) = BitVec.ofNat 64 (toTwos 64 theta) ∧
      t.lnk.slipped = (s.lnk.slipped || decide (theta < -64 ∨ 64 < theta))

/-- MM_SOW_ORDER, MM_FROST_ORDER and MM_THAW_ORDER (R331 to R334): an order kept on its link is taken off it; a member
that holds the loaded multi-module plot of the digest will sow it at S; a module that is not frozen will cut at T; one
frozen together with its domain will thaw at U. A module whose sundial has slipped takes no order. COMPANION_START,
COMPANION_STOP and COMPANION_RECORD_TIMEOUT (R338, R339, R386): a start claims the sideband of its link and begins to
compare, a stop releases it, and a record unmatched for the timeout leaves the lists and latches a mismatch of kind 2,
the first one only. A start is refused for a link that does not exist or while comparing already. The codes 3, 4 and 5
of orders and their bytes are the model's choice (log entries 19 and 20). -/
def Obligations.DomainOrdersAndCompanionMode : Prop :=
  (∀ (s : State) (l : BitVec 5) (tick : W64) (e : List Byte),
    let kept := fun (code : Nat) (rest : List Byte) => (s.link l.toNat).ctlIn.find? fun x =>
      x.take (9 + rest.length) == leBytes 1 code ++ leBytes 8 tick.toNat ++ rest
    let taken := s.setLink l.toNat { s.link l.toNat with ctlIn := (s.link l.toNat).ctlIn.erase e }
    (∀ (digest : BitVec 256) (p : Nat) (x : Plot), kept 3 (digestBytes digest) = some e → s.lnk.slipped = false →
      s.now ≤ tick.toNat →
      (s.plots.find? fun y => y.2.state == 2 && y.2.prog.multi && y.2.prog.digest == digest && y.2.sowAt == none) = some (p, x) →
      exec (.mmSowOrder l tick digest) s = .next (taken.setPlot p { x with sowAt := some tick })) ∧
    (kept 4 [] = some e → s.lnk.slipped = false → s.dbg.frozen = false → s.dbg.frostAt = none →
      exec (.mmFrostOrder l tick) s = .next { taken with dbg := { s.dbg with frostAt := some (tick, true) } }) ∧
    (kept 5 [] = some e → s.lnk.slipped = false → s.dbg.frozen = true → s.dbg.multi = true → s.dbg.thawAt = none →
      exec (.mmThawOrder l tick) s = .next { taken with dbg := { s.dbg with thawAt := some tick, thaw := tick } }) ∧
    (s.lnk.slipped = true → kept 4 [] = some e → exec (.mmFrostOrder l tick) s = .next taken) ∧
    (s.lnk.slipped = true → kept 5 [] = some e → exec (.mmThawOrder l tick) s = .next taken)) ∧
  (∀ (s : State) (src : Src), s.service src 0x18 = true →
    let l := fieldAt (s.request src) 16 1
    let timeout := fieldAt (s.request src) 24 4
    (24 ≤ l → ∃ t, exec (.companionStart src) s = .next t ∧ Done s t src 1 0x07 0x71 ∧ t.lnk = s.lnk) ∧
    (l < 24 → s.holder 7 l 0 = none → s.lnk.comp.enable = true →
      ∃ t, exec (.companionStart src) s = .next t ∧ Done s t src 1 0x07 0x72 ∧ t.lnk = s.lnk) ∧
    (l < 24 → s.holder 7 l 0 = none → s.lnk.comp.enable = false →
      ∃ t, exec (.companionStart src) s = .next t ∧ Done s t src 0 0 0 ∧
        t.lnk = { s.lnk with comp := { enable := true, link := l } } ∧
        t.fwClaims = s.fwClaims ++ [{ kind := 7, first := l, count := 1 }] ∧ t.fld 0xB1800 0 1 = 1 ∧ t.fld 0xB1800 1 5 = l ∧
        t.fld 0xB1800 7 32 = timeout ∧ t.fld 0xB1800 6 1 = s.fld 0xB1800 6 1 ∧ t.plots = s.plots ∧ t.beds = s.beds)) ∧
  (∀ (s : State) (src : Src), s.service src 0x19 = true →
    (s.lnk.comp.enable = false → ∃ t, exec (.companionStop src) s = .next t ∧ Done s t src 1 0x07 0x72 ∧ t.lnk = s.lnk) ∧
    (s.lnk.comp.enable = true → ∃ t, exec (.companionStop src) s = .next t ∧ Done s t src 0 0 0 ∧
      t.lnk = { s.lnk with comp := {} } ∧ t.fld 0xB1800 0 1 = 0 ∧
      (∀ c ∈ t.fwClaims, ¬(c.kind = 7 ∧ c.first = s.lnk.comp.link)) ∧ t.plots = s.plots ∧ t.beds = s.beds)) ∧
  ∀ (s : State) (r : CmpRec), s.lnk.comp.enable = true → s.linkFrozen = false →
    let c := s.lnk.comp
    ((c.own ++ c.partner).find? fun x => decide (x.tick.toNat + s.fld 0xB1800 7 32 < s.now)) = some r →
    ∃ t, exec .companionRecordTimeout s = .next t ∧
      t.lnk.comp = { c with own := c.own.erase r, partner := c.partner.erase r } ∧ t.beds = s.beds ∧ t.plots = s.plots ∧
      (s.fld 0xB1808 0 1 = 1 → t.reg 0xB1808 = s.reg 0xB1808) ∧
      (s.fld 0xB1808 0 1 = 0 → t.fld 0xB1808 0 1 = 1 ∧ t.fld 0xB1808 1 2 = 2)

/-- Ring registers and positions (R347, R348, R352, R355): a valid tail makes the free slots it passes pending and
sets the ring's inbound doorbell bit, an invalid one is counted; a valid head frees the posted slots it passes;
enabling takes the ring's configuration and bases, disabling stops fetching and drains. No other ring changes. The
states of a slot and a base kept as written are the model's reading (log entry 36). -/
def Obligations.RingsTakeTailsHeadsAndEnables : Prop :=
  ∀ (s : State) (rid : BitVec 16) (r : BitVec 6) (v : W64),
    let x := s.ring r.toNat
    let k := bits v.toNat 0 16
    let cfg := 0x1010 + 0x40 * r.toNat
    (Served s rid → x.state = 1 ∨ x.state = 3 → k < x.size → x.span x.tail k ≤ x.free →
      ∃ t, exec (.sqTailWrite rid r v) s = .next t ∧ t = { s with host := t.host } ∧ (t.ring r.toNat).tail = k ∧
        (∀ i, i < x.span x.tail k → (t.ring r.toNat).slot ((x.tail + i) % x.size) =
          { x.slot ((x.tail + i) % x.size) with st := 1 }) ∧
        (∀ j, (∀ i, i < x.span x.tail k → j ≠ (x.tail + i) % x.size) → (t.ring r.toNat).slot j = x.slot j) ∧
        t.host.dbIn = s.host.dbIn ||| (1 <<< (r.toNat / 2)) ∧ ∀ q, q ≠ r.toNat → t.ring q = s.ring q) ∧
    (Served s rid → (x.size ≤ k ∨ x.free < x.span x.tail k ∨ x.state = 0 ∨ x.state = 2) →
      exec (.sqTailWrite rid r v) s = .next (s.bump 0x10 24 12 1)) ∧
    (Served s rid → k < x.size → (∀ i, i < x.span x.head k → (x.slot ((x.head + i) % x.size)).st = 4) →
      ∃ t, exec (.cqHeadWrite rid r v) s = .next t ∧ t = { s with host := t.host } ∧ (t.ring r.toNat).head = k ∧
        (∀ i, i < x.span x.head k → (t.ring r.toNat).slot ((x.head + i) % x.size) = {}) ∧
        (∀ j, (∀ i, i < x.span x.head k → j ≠ (x.head + i) % x.size) → (t.ring r.toNat).slot j = x.slot j) ∧
        ∀ q, q ≠ r.toNat → t.ring q = s.ring q) ∧
    (Reached s rid → s.ready = true → v.getLsbD 0 = true → s.fld cfg 0 1 = 0 → x.state ≠ 2 → 1 ≤ wfld v 1 5 → wfld v 1 5 ≤ 16 →
      ∃ t, exec (.ringEnable rid r v) s = .next t ∧ t.reg cfg = BitVec.ofNat 64 (bits v.toNat 0 12) ∧
        t.ring r.toNat = { state := 1, log2 := wfld v 1 5, vector := wfld v 6 6, phase := true,
                           sq := (s.reg (cfg - 0x10)).toNat, cq := (s.reg (cfg - 0x8)).toNat } ∧
        ∀ q, q ≠ r.toNat → t.ring q = s.ring q) ∧
    (Reached s rid → v.getLsbD 0 = false → s.fld cfg 0 1 = 1 →
      ∃ t, exec (.ringDisable rid r v) s = .next t ∧ t.fld cfg 0 1 = 0 ∧ t.fld cfg 1 11 = s.fld cfg 1 11 ∧
        t.ring r.toNat = { x with state := if x.count 2 = 0 ∧ x.count 3 = 0 then 0 else 2 } ∧
        ∀ q, q ≠ r.toNat → t.ring q = s.ring q)

/-- DESCRIPTOR_FETCH and DESCRIPTOR_START (R349 to R351, R358): pending descriptors, at most 8 and in ring order, are
read from host memory and become active; a read that fails stops the engine, and once its channel is halted the first
of them has code 0x08 and the ring is in error; the next active descriptor starts if it waits for none before it; one
whose chain has failed is skipped, and one that is malformed gets code 0x01. COMPLETION_POST and NOP_DESCRIPTOR (R352,
R353, R356, Table 15.5): a NOP completes at once; the next held completion in ring order is written as 32 bytes into
its slot of the completion queue, and the phase turns with the wrap. The states of a slot are the model's (log entry
36); the vectors sent are an output record of it (log entry 4). -/
def Obligations.DescriptorsStartAndCompleteInRingOrder : Prop :=
  (∀ (s : State) (r : BitVec 6),
    let x := s.ring r.toNat
    let n := min 8 ((List.range x.size).takeWhile fun i => (x.slot ((x.fetch + i) % x.size)).st == 1).length
    let y := x.slot x.start
    let fenced := bit (fieldAt y.desc 1 1) 0
    let busy := x.slots.any fun e => e.2.st == 2 && e.2.started
    (s.ringsRun r.toNat = true → x.state = 1 → n ≠ 0 → (s.chan (28 + r.toNat / 16)).state ≠ 3 → (s.engine 0).state = 0 →
      (∃ t, exec (.descriptorFetch r none) s = .next t ∧ t = { s with host := t.host } ∧
        (t.ring r.toNat).fetch = (x.fetch + n) % x.size ∧
        (∀ i, i < n → (t.ring r.toNat).slot ((x.fetch + i) % x.size) =
          { st := 2, desc := mread 0 s.host.mem (x.sq + 64 * ((x.fetch + i) % x.size)) 64, fetchTick := s.now }) ∧
        (∀ q, q ≠ r.toNat → t.ring q = s.ring q) ∧ t.host.mem = s.host.mem) ∧
      ∀ cause : BitVec 3, 2 ≤ cause.toNat → cause.toNat ≤ 5 → s.readFree (28 + r.toNat / 16) = true →
        ∃ t y, exec (.descriptorFetch r (some cause)) s = .next t ∧ (t.engine 0).state = 1 ∧ (∀ q, t.ring q = s.ring q) ∧
          (t.chan (28 + r.toNat / 16)).cur = some y ∧ y.ring = some r.toNat ∧ y.started = true) ∧
    (∀ (ch : BitVec 6) (good : Nat) (f : Xfer) (a : Access), ch.toNat < 32 → s.running = true → (s.engine 0).state = 3 →
      (s.engine 0).log.head? = some a → a.chan = ch.toNat → (s.chan ch.toNat).cur = some f → f.ring = some r.toNat →
      f.src = none → s.replay [a] good = 0 → x.state = 1 → (x.slot x.fetch).st = 1 →
      ∃ t, exec (.isolationAccess ch good) s = .next t ∧ (t.ring r.toNat).state = 3 ∧ (t.chan ch.toNat).state = 3 ∧
        ((t.ring r.toNat).slot x.fetch).st = 3 ∧ ((t.ring r.toNat).slot x.fetch).code = 0x08) ∧
    (s.ready = true → s.gardens (r.toNat / 8) = true → x.state ≠ 0 → y.st = 2 → y.started = false → x.start < 65536 →
      (fenced = true → busy = true → exec (.descriptorStart r) s = .next s) ∧
      (fenced = false ∨ busy = false → ∃ t, exec (.descriptorStart r) s = .next t ∧ t = { s with host := t.host } ∧
        (t.ring r.toNat).start = (x.start + 1) % x.size ∧ (∀ q, q ≠ r.toNat → t.ring q = s.ring q) ∧
        (∀ j, j ≠ x.start → (t.ring r.toNat).slot j = x.slot j) ∧
        (t.ring r.toNat).slot x.start =
          if fenced = true ∧ x.chainBad = true then
            { y with started := true, st := 3, status := 2, code := 0, result := 0, tick := s.now }
          else if descOk y.desc = false then
            { y with started := true, st := 3, status := 1, code := 0x01, result := 0, tick := s.now }
          else if fieldAt y.desc 0 1 = 8 ∧ services.contains (fieldAt y.desc 8 2) = false then
            { y with started := true, st := 3, status := 1, code := 0x07, result := 0x70, tick := s.now }
          else { y with started := true }))) ∧
  (∀ (s : State) (src : Src), s.descriptor src 0 = true →
    ∃ t, exec (.nopDescriptor src) s = .next t ∧ t = { s with host := t.host } ∧ Done s t src 0 0 0) ∧
  ∀ (s : State) (r : BitVec 6), s.ringsRun r.toNat = true →
    let x := s.ring r.toNat
    let y := x.slot x.post
    x.state ≠ 0 → y.st = 3 →
    ∃ t, exec (.completionPost r) s = .next t ∧ t = { s with host := t.host } ∧
      (t.ring r.toNat).slot x.post = { y with st := 4 } ∧ (∀ j, j ≠ x.post → (t.ring r.toNat).slot j = x.slot j) ∧
      (t.ring r.toNat).post = (x.post + 1) % x.size ∧
      (t.ring r.toNat).phase = (if x.post + 1 = x.size then !x.phase else x.phase) ∧
      mread 0 t.host.mem (x.cq + 32 * x.post) 32 = cqBytes x.post y x.phase ∧
      (∀ a, (a < x.cq + 32 * x.post ∨ x.cq + 32 * x.post + 32 ≤ a) → mget 0 t.host.mem a = mget 0 s.host.mem a) ∧
      (bit (fieldAt y.desc 1 1) 1 = true → wfld (s.host.msix (2 * x.vector + 1)) 32 1 = 0 →
        t.host.msixSent = x.vector :: s.host.msixSent) ∧
      ∀ q, q ≠ r.toNat → t.ring q = s.ring q

/-- Doorbells and power management (R342, R360 to R362): inbound bits set; outbound bits clear, but that bit 2 stands
while an unread fault entry does; an unmasked bit that is set sends its vector, or waits in the pending array where
the table masks it; D3hot and D0 change nothing else. Mailboxes (R363, R364, R386, R387): a post of 64 bytes fills an
empty inbound mailbox with its stamp, and a full one only notes the overrun; firmware's take empties it, logs its
stamp and begins the service, or answers at once; a gardener's post fills an empty outbound mailbox and rings doorbell
bit 1; the host's return empties it and keeps its message. The rule R342 is stated whole by the clause on D3hot and
D0. That an unmasked vector is sent follows PCI Express (log entry 40), and the vectors sent and the mailbox log are
output records of the model (log entry 4). -/
def Obligations.DoorbellsAndMailboxesCarryMessages : Prop :=
  ((∀ (s : State) (rid : BitVec 16) (v : BitVec 32), Served s rid →
    exec (.dbInSet rid v) s = .next { s with host := { s.host with dbIn := s.host.dbIn ||| v } } ∧
    (v.getLsbD 2 = false ∨ s.host.dbOut.getLsbD 2 = false ∨ (∀ e ∈ s.grd.flt, e.2.valid = false) →
      exec (.dbOutClear rid v) s = .next { s with host := { s.host with dbOut := s.host.dbOut &&& ~~~v } }) ∧
    (v.getLsbD 2 = true → s.host.dbOut.getLsbD 2 = true → (∃ e ∈ s.grd.flt, e.2.valid = true) →
      ∃ t, exec (.dbOutClear rid v) s = .next t ∧ t = { s with host := t.host } ∧
        t.host.dbOut = (s.host.dbOut &&& ~~~v) ||| 4) ∧
    ∃ t, exec (.dbOutMaskWrite rid v) s = .next t ∧ t = { s with host := t.host } ∧ t.host.dbOutMask = v ∧
      t.host.dbOut = s.host.dbOut ∧ ∀ b, b < 32 → s.host.dbOutMask.getLsbD b = true → v.getLsbD b = false →
        s.host.dbOut.getLsbD b = true →
        if wfld (s.host.msix (2 * b + 1)) 32 1 = 1 then t.host.msixPending.getLsbD b = true else b ∈ t.host.msixSent) ∧
  ∀ (s : State), exec .pmD3hot s = .next { s with host := { s.host with d3hot := true } } ∧
    exec .pmD0 s = .next { s with host := { s.host with d3hot := false } } ∧
    (s.host.d3hot = true → ∀ (r : BitVec 6) (fail : Option (BitVec 3)),
      exec (.descriptorFetch r fail) s = .next s ∧ exec (.completionPost r) s = .next s)) ∧
  (∀ (s : State) (rid : BitVec 16) (i : BitVec 3) (msg : List Byte), s.alive = true → s.ready = true → msg.length = 64 →
    ((s.host.inbox i.toNat).full = false → exec (.inboundMailboxPost rid i 0 msg) s = .next (s.setInbox i.toNat
      { s.host.inbox i.toNat with full := true, msg, stamp := stampOf rid.toNat 0x10 s.now })) ∧
    ((s.host.inbox i.toNat).full = true → exec (.inboundMailboxPost rid i 0 msg) s = .next (s.setInbox i.toNat
      { s.host.inbox i.toNat with overrun := true }))) ∧
  (∀ (s : State) (i : BitVec 3), s.ready = true → (s.host.inbox i.toNat).full = true →
    tget (fun _ => []) s.host.mbReq i.toNat = [] → s.gardens (if i.toNat < 4 then 8 else 9) = true →
    let m := s.host.inbox i.toNat
    let svc := fieldAt m.msg 0 2
    ∃ t, exec (.inboundMailboxTake i) s = .next t ∧ t = { s with host := t.host } ∧
      t.host.inbox i.toNat = { m with full := false, msg := [], stamp := 0 } ∧
      t.host.mbLog = s.host.mbLog ++ [(m.stamp, svc)] ∧ t.host.dbOut.getLsbD 4 = true ∧
      (mboxServes i.toNat svc = true → tget (fun _ => []) t.host.mbReq i.toNat = m.msg) ∧
      (mboxServes i.toNat svc = false → tget (fun _ => []) t.host.mbReq i.toNat = [] ∧
        tget (fun _ => []) t.host.mbReply i.toNat = mboxReply m.msg (if services.contains svc then 0x71 else 0x70))) ∧
  (∀ (s : State) (g : BitVec 4) (i : BitVec 3) (msg : List Byte), s.ready = true → (s.host.outbox i.toNat).full = false →
    msg.length = 64 → s.gardens g.toNat = true →
    (tget (fun _ => []) s.host.mbReply i.toNat = [] ∨
      tget (fun _ => []) s.host.mbReply i.toNat = msg ∧ g.toNat = (if i.toNat < 4 then 8 else 9)) →
    ∃ t, exec (.outboundMailboxPost g i msg) s = .next t ∧ t = { s with host := t.host } ∧
      t.host.outbox i.toNat = { s.host.outbox i.toNat with full := true, msg, stamp := stampOf 0 g.toNat s.now } ∧
      tget (fun _ => []) t.host.mbReply i.toNat = [] ∧ t.host.dbOut.getLsbD 1 = true) ∧
  (∀ (s : State) (g : BitVec 4) (i : BitVec 3) (msg : List Byte), (s.host.outbox i.toNat).full = true →
    exec (.outboundMailboxPost g i msg) s = .next s) ∧
  ∀ (s : State) (rid : BitVec 16) (i : BitVec 3), Served s rid →
    exec (.mboReturn rid i) s = .next (s.setOutbox i.toNat { s.host.outbox i.toNat with full := false })

/-- LOAD and LOAD_COMPLETE (R184, R191, R372, R183): a load that passes its checks gives the lowest free number its
claims and changes no bed; one whose image does not read stops the engine; a refused one changes neither plots nor
beds and reports why; when it completes every bed of the map holds its list, its sprinklers' bindings and cleared
records, and its memory stays as it was unless the image brings table images. The directory of section 1 as an
operand, the order of checks within a rule, and what a load resets beyond R202 are the model's choices and readings
(log entries 14 to 17). -/
def Obligations.LoadsCheckThenWriteTheirBeds : Prop :=
  (∀ (s : State) (src : Src) (dir : List ListDir) (tds : List (BitVec 256)), s.descriptor src 1 = true → s.running = true →
    (∀ e ∈ s.plots, e.2.loadSrc ≠ some src) →
    let n := fieldAt (s.request src) 16 4
    ((fieldAt (s.request src) 8 8 % 64 ≠ 0 ∨ n % 64 ≠ 0 ∨ n = 0) →
      ∃ t, exec (.load src none dir tds) s = .next t ∧ t = { s with host := t.host } ∧ Done s t src 1 0x01 0) ∧
    (fieldAt (s.request src) 8 8 % 64 = 0 → n % 64 = 0 → n ≠ 0 →
    (s.chan (28 + src.idx.toNat / 16)).state ≠ 3 → (s.engine 0).state = 0 →
    ((s.chan (28 + src.idx.toNat / 16)).cur.getD {}).src ≠ some src →
    (∀ cause : BitVec 3, 2 ≤ cause.toNat → cause.toNat ≤ 5 → s.readFree (28 + src.idx.toNat / 16) = true →
      ∃ t y, exec (.load src (some cause) dir tds) s = .next t ∧ (t.engine 0).state = 1 ∧ t.plots = s.plots ∧ t.beds = s.beds ∧
        (t.chan (28 + src.idx.toNat / 16)).cur = some y ∧ y.src = some src) ∧
    (s.loadFail (s.imageOf src) dir tds = none →
      exec (.load src none dir tds) s = .next (s.setPlot s.freePlot
        { state := 1, ring := src.idx.toNat, gardener := src.idx.toNat / 8, loadSrc := some src,
          prog := programOf (s.imageOf src) dir tds, shed := s.shedNumbers (programOf (s.imageOf src) dir tds).claims
          stopCode := (s.plot s.freePlot).stopCode })) ∧
    ∀ f, s.loadFail (s.imageOf src) dir tds = some f →
      ∃ t, exec (.load src none dir tds) s = .next t ∧ t = { s with host := t.host } ∧
        Done s t src 1 0x07 (reportWord f.code f.holder f.kind f.index f.bed))) ∧
  ∀ (s : State) (p : BitVec 4) (src : Src), (s.plot p.toNat).state = 1 → (s.plot p.toNat).loadSrc = some src →
    s.running = true → s.asked src = true → Tidy s →
    let x := s.plot p.toNat
    let lost := firstFail ((s.serviceFails x.prog).filter fun f => f.kind == 1)
    (∀ f, lost = some f → ∃ t, exec (.loadComplete p) s = .next t ∧ t.plot p.toNat = { stopCode := x.stopCode } ∧
      t.beds = s.beds ∧ Done s t src 1 0x07 (reportWord f.code f.holder f.kind f.index f.bed)) ∧
    (lost = none → ∃ t, exec (.loadComplete p) s = .next t ∧ t.plot p.toNat = { x with state := 2, loadSrc := none } ∧
      (∀ q, q ≠ p.toNat → t.plot q = s.plot q) ∧ t.runRec p.toNat = {} ∧
      Done s t src 0 0 (reportWord 0 p.toNat 0 0 0) ∧
      ∀ e ∈ x.prog.beds, ∀ b, (x.prog.beds.filter fun y => y.1 == e.1) = [e] → s.physOf e.1 = some b →
        (t.bed b).job = some { plot := p.toNat, list := e.2 } ∧ (t.bed b).seq = { state := 1 } ∧
        (t.bed b).store = storeOf (x.prog.lists.getD e.2 {}) ∧ (t.bed b).vregs = [] ∧ (t.bed b).ranges = [] ∧
        (imageTensors x.prog = [] → t.bed b = (s.bed b).load p.toNat x.prog e.2))

/-- SOW and PLOT_SOW (R193, R262, R372, R373, R398, R410): a sow of a loaded plot is accepted for a tick that is far
enough ahead, a multiple of 4 and in no hold, and is refused with the code that says why not otherwise; in its tick a
run that starts and is admitted starts every bed of the plot and opens its record. The order of the refusals, and the
check of 0x31 at the sow tick as well, are the model's reading (log entry 18). -/
def Obligations.SowsAreAcceptedAndStartEveryBed : Prop :=
  (∀ (s : State) (src : Src), s.descriptor src 2 = true →
    let p := fieldAt (s.request src) 8 1
    let t := fieldAt (s.request src) 16 8
    let x := s.plot p
    let refused := fun (code : Nat) => ∃ u, exec (.sow src) s = .next u ∧ u = { s with host := u.host } ∧
      Done s u src 1 0x07 (2 ^ 16 + code * 2 ^ 48)
    (16 ≤ p ∨ (x.state ≠ 2 ∧ x.state ≠ 5) → ∃ u, exec (.sow src) s = .next u ∧ u = { s with host := u.host } ∧
      Done s u src 1 0x06 0) ∧
    (p < 16 → x.state = 2 → x.sowAt = none → x.prog.multi = false →
      (t < s.fetchTick src + 8 → refused 0x30) ∧
      (s.fetchTick src + 8 ≤ t → t % 4 ≠ 0 → refused 0x31) ∧
      (s.fetchTick src + 8 ≤ t → t % 4 = 0 → s.inHold t = true → refused 0x33) ∧
      (s.fetchTick src + 8 ≤ t → t % 4 = 0 → s.inHold t = false →
        exec (.sow src) s =
          .next ((s.setPlot p { x with sowAt := some (BitVec.ofNat 64 t), sowSrc := some src }).await 2 p src 0))) ∧
    (p < 16 → x.state = 2 → x.sowAt = none → x.prog.multi = true →
      (s.lnk.slipped = true → refused 0x32) ∧
      (s.lnk.slipped = false → s.fetchTick src + 64 * max 1 s.lnk.reach ≤ t → t % 4 = 0 → s.inHold t = false →
        ∃ u, exec (.sow src) s = .next u ∧ u.plot p = { x with sowAt := some (BitVec.ofNat 64 t), sowSrc := some src } ∧
          (∃ a ∈ u.lnk.asked, a.plot = some p ∧ a.src = src ∧ a.tick = BitVec.ofNat 64 t ∧ a.digest = x.prog.digest) ∧
          u.beds = s.beds))) ∧
  ∀ (s : State) (p : BitVec 4) (t : W64), (s.plot p.toNat).sowAt = some t → (s.plot p.toNat).state = 2 → s.running = true →
    s.clk.locked = true → t.toNat ≤ s.now →
    let x := s.plot p.toNat
    (s.sowCode p.toNat t.toNat = 0 → ∃ u, exec (.plotSow p) s = .next u ∧ (u.plot p.toNat).state = 3 ∧
      (u.plot p.toNat).sowAt = none ∧ (u.plot p.toNat).sowTick = s.clk.sundial ∧ (u.plot p.toNat).sowCycle = s.clk.cycles ∧
      (∀ q, q ≠ p.toNat → u.plot q = s.plot q) ∧
      (∀ b ∈ s.bedsOf p.toNat, u.bed b = { s.bed b with
        seq := { state := 3, sowTick := s.clk.sundial, sowCycle := some s.clk.cycles, last := s.clk.cycles },
        busyTill := s.clk.cycles }) ∧
      (∀ b, b ∉ s.bedsOf p.toNat → u.bed b = s.bed b) ∧
      (u.runRec p.toNat).isOpen = true ∧ (u.runRec p.toNat).sowTick = s.clk.sundial ∧ (u.runRec p.toNat).events = x.early.take recLimit ∧
      (u.runRec p.toNat).progDigest = x.prog.digest ∧ (u.runRec p.toNat).fwDigest = s.sec.fwDigest ∧
      (u.runRec p.toNat).fenceDigest = digest s.fenceMap ∧ (u.runRec p.toNat).opPoint = s.clk.point) ∧
    (s.sowCode p.toNat t.toNat ≠ 0 → ∃ u, exec (.plotSow p) s = .next u ∧
      u.plot p.toNat = { x with sowAt := none, sowSrc := none } ∧ u.beds = s.beds ∧
      ∀ src, x.sowSrc = some src → x.prog.multi = false → s.asked src = true →
        Done s u src 1 0x07 (2 ^ 16 + s.sowCode p.toNat t.toNat * 2 ^ 48))

/-- PLOT_COMPLETE, UNLOAD and UNLOAD_STOP (R194, R195, R372 to R374): a completing plot with nothing outstanding
closes its record, completes its SOW and gives its number and beds back; a loaded or stopped one is unloaded at once,
a sown one stops with code 0x57 after its eight ticks first. That an unload takes no time is the model's choice (log
entry 11). -/
def Obligations.PlotsCompleteAndUnload : Prop :=
  (∀ (s : State) (p : BitVec 4) (src : Src), (s.plot p.toNat).state = 4 → s.running = true →
    tget (fun _ => 0) s.grd.gardState (s.plot p.toNat).gardener ≠ 2 → s.finished p.toNat = true → (s.plot p.toNat).came = [] →
    (s.plot p.toNat).sowSrc = some src → s.asked src = true → src.mailbox = false →
    ∃ t, exec (.plotComplete p) s = .next t ∧ t.plot p.toNat = { stopCode := (s.plot p.toNat).stopCode } ∧
      (t.runRec p.toNat).isOpen = false ∧ (t.runRec p.toNat).outcome = 0 ∧ (t.runRec p.toNat).endTick = s.clk.sundial ∧
      (∀ b ∈ s.bedsOf p.toNat, (t.bed b).job = none ∧ (t.bed b).seq.state = 0 ∧ (t.bed b).mem = (s.bed b).mem) ∧
      (∀ b, b ∉ s.bedsOf p.toNat → t.bed b = s.bed b) ∧ Done s t src 0 0 (s.sowWord p.toNat true 0)) ∧
  (∀ (s : State) (src : Src), s.descriptor src 3 = true →
    let p := fieldAt (s.request src) 8 1
    let x := s.plot p
    (16 ≤ p ∨ x.state = 0 ∨ x.state = 1 → ∃ t, exec (.unload src) s = .next t ∧ t = { s with host := t.host } ∧
      Done s t src 1 0x06 0) ∧
    (p < 16 → x.state = 3 ∨ x.state = 4 → exec (.unload src) s =
      .next ((s.setPlot p { x with unloadAt := some (x.unloadAt.getD s.now) }).await 3 p src 0)) ∧
    (p < 16 → x.state = 2 ∨ x.state = 5 → x.sowAt = none → x.sowSrc = none →
      ∃ t, exec (.unload src) s = .next t ∧ t.plot p = { stopCode := x.stopCode } ∧
        (∀ b ∈ s.bedsOf p, (t.bed b).job = none ∧ (t.bed b).seq.state = 0) ∧
        (x.words = [] → x.came = [] → (∀ b ∈ s.bedsOf p, (t.bed b).mem = (s.bed b).mem) ∧
          (∀ b, b ∉ s.bedsOf p → t.bed b = s.bed b) ∧ Done s t src 0 0 0))) ∧
  ∀ (s : State) (p : BitVec 4) (n : Nat), (s.plot p.toNat).unloadAt = some n → s.running = true → n + 8 ≤ s.now →
    ∃ t, exec (.unloadStop p) s = .next t ∧ (t.plot p.toNat) = { stopCode :=
      if 2 ≤ (s.plot p.toNat).state ∧ (s.plot p.toNat).state ≤ 4 then 0x57 else (s.plot p.toNat).stopCode } ∧
      ∀ b ∈ s.bedsOf p.toNat, (t.bed b).job = none ∧ (t.bed b).seq.state = 0 ∧
        ((s.plot p.toNat).words = [] → (s.plot p.toNat).came = [] → (t.bed b).mem = (s.bed b).mem)

/-- COPY_IN, COPY_OUT and RECORD (R356, R357, R375): a copy that breaks a rule gets its completion code; another is
handed to its gardener's firmware channel, which begins it if it is idle, and whose transfer's end completes the
descriptor; a record's bytes, as far as the buffer reaches, are written to host memory. Which channel a copy takes and
its pieces are the model's reading (log entry 33). -/
def Obligations.CopiesGoThroughFirmwareChannels : Prop :=
  (∀ (s : State) (src : Src) (good : Nat) (out : Bool), s.descriptor src (if out then 5 else 4) = true →
    let i : Instr := if out then .copyOut src else .copyIn src good
    let q := copyReq (s.request src)
    let ch := 28 + src.idx.toNat / 16
    (s.copyCode out q ≠ 0 → ∃ t, exec i s = .next t ∧ t = { s with host := t.host } ∧ Done s t src 1 (s.copyCode out q) 0) ∧
    (s.copyCode out q = 0 → (s.chan ch).next = none → s.running = true → (s.chan ch).state ≠ 3 →
      (q.dig = true → s.clash [engineClaim q.engine] = none) → (∀ p, s.physOf (bits q.addr 25 7) = some p → Clean (s.bed p)) →
      let side := fun (host : Bool) => if host then (2, q.host) else (if q.bed then 1 else 0, q.addr)
      let a := side (!out)
      let b := side out
      ∃ t x, exec i s = .next t ∧ x.desc = copyDesc a.1 a.2 b.1 b.2 q.len q.dig q.engine ∧ x.src = some src ∧
        x.more = q.len - min q.len pieceSize ∧ x.digestTo = (if q.dig then some q.digTo else none) ∧
        (∃ w ∈ t.host.waiters, w.src = src) ∧
        (∀ y, (s.chan ch).cur = some y → t.chan ch = { s.chan ch with next := some x }) ∧
        ((s.chan ch).cur = none → ∃ y, (t.chan ch).cur = some y ∧ y.desc = x.desc ∧ y.src = x.src ∧ y.more = x.more ∧
          y.digestTo = x.digestTo ∧ (y.started = true ↔ (s.engine (hubOf ch)).state = 0)) ∧
        ∀ j, j ≠ ch → t.chan j = s.chan j)) ∧
  (∀ (s : State) (ch : BitVec 6) (x : Xfer) (src : Src), s.running = true → (s.engine (hubOf ch.toNat)).state = 0 →
    (s.chan ch.toNat).cur = some x → x.started = true → x.pos = (sideA x.desc).lines → x.till < s.clk.next → x.plot = none → x.src = some src →
    x.more = 0 → s.asked src = true →
    ∃ t, exec (.barrowTransferComplete ch) s = .next t ∧ Done s t src 0 0 0 ∧
      t.chan ch.toNat = { s.chan ch.toNat with
        state := 0, cur := (s.chan ch.toNat).next.map fun n => { n with due := max n.due (x.till + 1) }, next := none
        buffers := 0, cutRead := false, caught := [] }) ∧
  ∀ (s : State) (src : Src), s.descriptor src 7 = true →
    let p := fieldAt (s.request src) 8 1
    let a := fieldAt (s.request src) 16 8
    let n := fieldAt (s.request src) 28 4
    let r := s.runRec p
    let bytes := (r.bytes p).take n
    (a % 64 ≠ 0 ∨ n % 64 ≠ 0 ∨ n = 0 → ∃ t, exec (.record src) s = .next t ∧ t = { s with host := t.host } ∧
      Done s t src 1 0x01 0) ∧
    (a % 64 = 0 → n % 64 = 0 → n ≠ 0 → (16 ≤ p ∨ r.valid = false ∨ r.isOpen = true) →
      ∃ t, exec (.record src) s = .next t ∧ t = { s with host := t.host } ∧ Done s t src 1 0x06 0) ∧
    (a % 64 = 0 → n % 64 = 0 → n ≠ 0 → p < 16 → r.valid = true → r.isOpen = false → s.running = true →
      (s.chan (28 + src.idx.toNat / 16)).state ≠ 3 → (s.engine 0).state = 0 → ∃ t, exec (.record src) s = .next t ∧ t = { s with host := t.host } ∧ Done s t src 0 0 bytes.length ∧
        mread 0 t.host.mem a bytes.length = bytes ∧
        ∀ d, (d < a ∨ a + bytes.length ≤ d) → mget 0 t.host.mem d = mget 0 s.host.mem d)

/-- FENCE, BED_POLL_TIMEOUT and FENCE_TAKE_EFFECT (R378, R379): a fence is asked for once and waited for; a number
that maps no bed is fenced already; eight ticks later the bed is fenced, its memory's contents are lost, and its plot
stops with code 0x56. FENCE_COMPLETE (R379, R380): the bed's claim is released and its number unmapped; with remap set
the die's spare takes the number; the fence that waited completes and doorbell bit 5 is set. SELFTEST and SELFTEST_END
(R381): a fenced bed is tested; its memory is all zeros afterwards; on a pass it serves again, on its former number if
that is asked for and free, else as its die's spare, and on a failure it stays fenced. The request completes with the
outcome. That an automatic fence remaps is the model's reading (log entry 41); that a self-test's effects come at its
end is the model's choice (log entry 42). -/
def Obligations.FencesTakeEffectAndSelfTestsReturnBeds : Prop :=
  ((∀ (s : State) (src : Src), s.service src 0x01 = true →
    let d := s.request src
    let b := fieldAt d 16 1
    (128 ≤ b → ∃ t, exec (.fence src) s = .next t ∧ t = { s with host := t.host } ∧ Done s t src 1 0x07 0x71) ∧
    (b < 128 → s.physOf b = none → ∃ t, exec (.fence src) s = .next t ∧ t = { s with host := t.host } ∧ Done s t src 0 0 0) ∧
    ∀ p, b < 128 → s.physOf b = some p →
      (2 ≤ (s.bed p).admin → ∃ t, exec (.fence src) s = .next t ∧ t = { s with host := t.host } ∧ Done s t src 0 0 0) ∧
      ((s.bed p).admin < 2 → exec (.fence src) s = .next ((
        if (s.bed p).fencePending.isSome ∨ (s.bed p).fencing.isSome then s
        else s.setBed p { s.bed p with fencePending := some (s.now, bit (fieldAt d 17 1) 0) }).await 1 p src 0))) ∧
  (∀ (s : State) (p : BitVec 8), p.toNat < 132 → s.ready = true → s.fld 0x20100 4 1 = 1 →
    (s.bed p.toNat).admin < 2 → (s.bed p.toNat).fencePending = none → (s.bed p.toNat).fencing = none →
    exec (.bedPollTimeout p) s = .next (s.setBed p.toNat { s.bed p.toNat with fencePending := some (s.now, true) })) ∧
  ∀ (s : State) (p : BitVec 8) (f : Nat × Bool), (s.bed p.toNat).fencePending = some f → s.running = true →
    f.1 + 8 ≤ s.now →
    ∃ t, exec (.fenceTakeEffect p) s = .next t ∧ (t.bed p.toNat).admin = 2 ∧ (t.bed p.toNat).fencing = some f.2 ∧
      (t.bed p.toNat).fencePending = none ∧ (t.bed p.toNat).fenceTick = BitVec.ofNat 48 s.now ∧
      (t.bed p.toNat).mem = [] ∧ (t.bed p.toNat).lost = true ∧ (t.bed p.toNat).logical = (s.bed p.toNat).logical ∧
      (t.bed p.toNat).mapped = (s.bed p.toNat).mapped ∧
      ∀ q, (q ∈ s.holders p.toNat ∨ ∃ j, (s.bed p.toNat).job = some j ∧ j.plot = q) → 2 ≤ (s.plot q).state →
        (s.plot q).state ≤ 4 → (t.plot q).state = 5 ∧ (t.plot q).stopCode = 0x56) ∧
  (∀ (s : State) (p : BitVec 8) (remap : Bool), (s.bed p.toNat).fencing = some remap → s.running = true →
    (s.bed p.toNat).admin = 2 → (s.bed p.toNat).mapped = true → Tidy s →
    let b := s.bed p.toNat
    ∃ t, exec (.fenceComplete p) s = .next t ∧
      t.bed p.toNat = { b with fencing := none, mapped := false, logical := 0, former := some b.logical } ∧
      (∀ q, t.plot q = { s.plot q with prog := { (s.plot q).prog with claims := dropBed b.logical (s.plot q).prog.claims } }) ∧
      (remap = true → ∀ q, s.spareOf (dieOf p.toNat) = some q →
        t.bed q = { s.bed q with admin := 0, mapped := true, logical := b.logical }) ∧
      (∀ q, q ≠ p.toNat → (remap = true → s.spareOf (dieOf p.toNat) ≠ some q) → t.bed q = s.bed q) ∧
      (s.ready = true → t.host.dbOut.getLsbD 5 = true) ∧
      ∀ w, (s.host.waiters.filter fun w => w.svc == 1 && w.unit == p.toNat) = [w] → s.asked w.src = true →
        Done s t w.src 0 0 0) ∧
  (∀ (s : State) (src : Src), s.service src 0x02 = true →
    let d := s.request src
    let p := fieldAt d 16 1
    let b := s.bed p
    (132 ≤ p → ∃ t, exec (.selftest src) s = .next t ∧ t = { s with host := t.host } ∧ Done s t src 1 0x07 0x71) ∧
    (p < 132 → (b.admin ≠ 2 ∨ b.fencing.isSome) →
      ∃ t, exec (.selftest src) s = .next t ∧ t = { s with host := t.host } ∧ Done s t src 1 0x07 0x72) ∧
    (p < 132 → b.admin = 2 → b.fencing = none → exec (.selftest src) s = .next
      ((s.setBed p { b with admin := 3, testing := some (s.now, bit (fieldAt d 17 1) 0) }).await 0x12 p src 0))) ∧
  ∀ (s : State) (p : BitVec 8) (pass : Bool) (t0 : Nat × Bool), (s.bed p.toNat).testing = some t0 →
    t0.1 + 4000000 ≤ s.now → s.clk.locked = true →
    let b := s.bed p.toNat
    ∃ t, exec (.selftestEnd p pass) s = .next t ∧ (t.bed p.toNat).mem = [] ∧ (t.bed p.toNat).ecc = [] ∧ (t.bed p.toNat).lost = false ∧
      (t.bed p.toNat).testing = none ∧ (t.bed p.toNat).bistPass = pass ∧ (∀ q, q ≠ p.toNat → t.bed q = s.bed q) ∧
      (pass = false → (t.bed p.toNat).admin = 2) ∧
      (∀ n, pass = true → b.former = some n → t0.2 = true → s.physOf n = none →
        (t.bed p.toNat).admin = 0 ∧ (t.bed p.toNat).mapped = true ∧ (t.bed p.toNat).logical = n) ∧
      (pass = true → (b.former = none ∨ t0.2 = false ∨ ∃ n, b.former = some n ∧ s.physOf n ≠ none) → (t.bed p.toNat).admin = 1) ∧
      (s.ready = true → t.host.dbOut.getLsbD 6 = true) ∧
      ∀ w, (s.host.waiters.filter fun w => w.svc == 0x12 && w.unit == p.toNat) = [w] → s.asked w.src = true →
        Done s t w.src 0 0 (b2n pass * 2 ^ 32)

/-- FROST and FROST_CUT (R452, R453): a frost of this module is accepted for a tick at least 8 ahead, once, in service
and outside holds; after its tick the A-clock stops with every bed, plot and link as it is, and channels with host
reads outstanding are marked. THAW and THAW_RESUME (R455, R334): a thaw is accepted for a tick whose distance from the
cut is a multiple of 1,920; after it the beds go on exactly as they were, records note the frost, and of a module
frozen alone the links have not stood still. The rule R452 is stated whole by the clauses on FROST, FROST_CUT and
HOLD_BEGIN; that code 0x72 comes before 0x71 and how a thaw shifts the links is the model's reading (log entry 43). -/
def Obligations.FrostsHoldEverythingAndThawsGoOn : Prop :=
  ((∀ (s : State), s.dbg.frostAt ≠ none ∨ s.dbg.frozen = true → exec .holdBegin s = .next s) ∧
  (∀ (s : State) (src : Src), s.service src 0x20 = true →
    let d := s.request src
    let multi := bit (fieldAt d 24 1) 0
    let t := if multi ∨ fieldAt d 16 8 ≠ 0 then fieldAt d 16 8 else s.now + 8
    let first := if multi then s.fetchTick src + 64 * s.lnk.reach else s.now + 8
    let refused := fun (code : Nat) => ∃ u, exec (.frost src) s = .next u ∧ u = { s with host := u.host } ∧
      Done s u src 1 0x07 code
    (s.ready = false ∨ s.dbg.frozen = true ∨ s.dbg.frostAt ≠ none ∨ s.inHold t = true → refused 0x72) ∧
    (s.ready = true → s.dbg.frozen = false → s.dbg.frostAt = none → s.inHold t = false →
      (multi = true → s.lnk.slipped = true → refused 0x32) ∧
      (multi = false ∨ s.lnk.slipped = false → t < first → refused 0x71) ∧
      (multi = false ∨ s.lnk.slipped = false → first ≤ t → ∃ u, exec (.frost src) s = .next u ∧
        u.dbg = { s.dbg with frostAt := some (BitVec.ofNat 64 t, multi) } ∧ Done s u src 0 0 0 ∧ u.beds = s.beds ∧
        u.plots = s.plots ∧ u.clk = s.clk ∧ (multi = false → u.lnk = s.lnk)))) ∧
  ∀ (s : State) (f : W64 × Bool), s.dbg.frostAt = some f → f.1.toNat ≤ s.now → s.running = true → s.clk.locked = true →
    ∃ u, exec .frostCut s = .next u ∧ u.running = false ∧ u.dbg.frozen = true ∧ u.dbg.frostAt = none ∧
      u.dbg.multi = f.2 ∧ u.dbg.cut = f.1 ∧ u.dbg.conservation = s.dbg.conservation ∧ u.clk = s.clk ∧ u.beds = s.beds ∧
      u.plots = s.plots ∧ u.recs = s.recs ∧ u.brw.engines = s.brw.engines ∧ u.ddr = s.ddr ∧ u.lnk = s.lnk ∧
      (Tidy s → ∀ ch,
        (∀ x, (s.chan ch).cur = some x → (s.chan ch).busy = true → (sideA x.desc).space = 2 → (s.engine (hubOf ch)).state = 0 →
          u.chan ch = { s.chan ch with cutRead := true, caught := mread 0 s.host.mem x.next.1 x.next.2 }) ∧
        ((s.chan ch).busy = false → u.chan ch = s.chan ch) ∧
        (∀ x, (s.chan ch).cur = some x → ((sideA x.desc).space ≠ 2 ∨ (s.engine (hubOf ch)).state ≠ 0) → u.chan ch = s.chan ch)) ∧
      (s.ready = true → u.host.dbOut.getLsbD 9 = true)) ∧
  (∀ (s : State) (src : Src), s.service src 0x21 = true →
    let u := fieldAt (s.request src) 16 8
    let t := s.dbg.cut.toNat
    let first := if s.dbg.multi then s.fetchTick src + 64 * s.lnk.reach else s.now + 8
    let refused := fun (code : Nat) => ∃ v, exec (.thaw src) s = .next v ∧ v = { s with host := v.host } ∧
      Done s v src 1 0x07 code
    (s.dbg.frozen = false ∨ s.dbg.conservation = true ∨ s.dbg.thawAt ≠ none → refused 0x72) ∧
    (s.dbg.frozen = true → s.dbg.conservation = false → s.dbg.thawAt = none →
      (s.dbg.multi = true → s.lnk.slipped = true → refused 0x32) ∧
      (s.dbg.multi = true → s.lnk.slipped = false → u < first → refused 0x30) ∧
      (s.dbg.multi = false → u < first → refused 0x71) ∧
      (s.dbg.multi = false ∨ s.lnk.slipped = false → first ≤ u → u ≤ t ∨ (u - t) % 1920 ≠ 0 → refused 0x71) ∧
      (s.dbg.multi = false ∨ s.lnk.slipped = false → first ≤ u → t < u → (u - t) % 1920 = 0 →
        ∃ v, exec (.thaw src) s = .next v ∧
          v.dbg = { s.dbg with thawAt := some (BitVec.ofNat 64 u), thaw := BitVec.ofNat 64 u } ∧ Done s v src 0 0 0 ∧
          v.beds = s.beds ∧ v.plots = s.plots ∧ (s.dbg.multi = false → v.lnk = s.lnk)))) ∧
  ∀ (s : State) (u : W64), s.dbg.thawAt = some u → s.dbg.frozen = true → u.toNat ≤ s.now → s.dbg.harvest = none →
    s.clk.locked = true → Tidy s → (∀ e ∈ s.lnk.links, e.2.captured = [] ∧ ∀ x ∈ e.2.rx, x.afterCut = false ∧ x.kind ≠ 2) →
    (∀ ch, (s.chan ch).cutRead = false) →
    let d := u.toNat - s.dbg.cut.toNat
    ∃ v, exec .thawResume s = .next v ∧ v.dbg.frozen = false ∧ v.dbg.thawAt = none ∧ v.dbg.multi = false ∧
      v.clk = { s.clk with runStart := later s.clk.runStart d } ∧ (∀ q, BedIs (v.bed q) (s.bed q)) ∧ v.plots = s.plots ∧
      (s.dbg.multi = false → v.lnk = s.lnk) ∧
      (s.dbg.multi = true → ∀ e ∈ s.lnk.links, v.link e.1 = e.2.shift d) ∧
      ∀ p ∈ s.sownPlots, (s.runRec p).isOpen = true → (v.runRec p).frozen = true

/-- HARVEST, HARVEST_COMPLETE and HV_DATA_READ (R456 to R458, R469): a harvest is taken only of a frozen module; its
image, at most 160 bytes a tick, as far as it fits, stands in host memory at the end, or as many of its bytes as were
written when the thaw came first; a read through the window moves it on by 8 and changes nothing else but what it
records. SAMPLER_SAMPLE (R460): once in a tick that is a multiple of the period a sample is written behind the last
one and counted; one that does not fit starts again at the beginning where wrap is set, and is dropped and counted
where it is not. The rule R456 is stated whole by the clause on HARVEST_COMPLETE. The bytes of a unit without a layout
are free (log entry 44), and where a sample that does not fit goes is the model's choice (log entry 45). -/
def Obligations.HarvestsAndSamplesWriteTheirBytes : Prop :=
  ((∀ (s : State) (src : Src), s.service src 0x22 = true →
    let d := s.request src
    (s.dbg.frozen = false ∨ s.dbg.harvest ≠ none → ∃ t, exec (.harvest src) s = .next t ∧ t = { s with host := t.host } ∧
      Done s t src 1 0x07 0x72) ∧
    (s.dbg.frozen = true → s.dbg.harvest = none → ∃ t, exec (.harvest src) s = .next t ∧
      t.dbg = { s.dbg with harvest := some { src, addr := fieldAt d 16 8, len := fieldAt d 24 4, start := s.now } } ∧
      t.fld 0x100010 0 1 = 1 ∧ (∃ w ∈ t.host.waiters, w.src = src) ∧ t.beds = s.beds)) ∧
  (∀ (s : State) (h : Harvest) (written : BitVec 32) (u : W64), s.dbg.harvest = some h → s.asked h.src = true →
    let n := (harvestLen h.len).1
    let early := decide (written.toNat < n)
    written.toNat ≤ 160 * (s.now - h.start) → written.toNat = n ∨ (written.toNat < n ∧ s.dbg.thawAt = some u ∧ u.toNat ≤ s.now) →
    ∃ t, exec (.harvestComplete written) s = .next t ∧ t.dbg.harvest = none ∧ t.fld 0x100010 0 1 = 0 ∧
      t.fld 0x100010 3 1 = b2n early ∧ t.fld 0x100010 4 32 = written.toNat ∧ t.beds = s.beds ∧
      (∀ i x, i < written.toNat → (s.harvestImage h.len)[i]? = some x → mget 0 t.host.mem (h.addr + i) = x) ∧
      (∀ a, (a < h.addr ∨ h.addr + written.toNat ≤ a) → mget 0 t.host.mem a = mget 0 s.host.mem a) ∧
      (if early then Done s t h.src 1 0x07 (0x72 + written.toNat * 2 ^ 32)
        else Done s t h.src 0 0 (written.toNat * 2 ^ 32))) ∧
  ∀ (s : State), ∃ t, exec .hvDataRead s = .next t ∧ t.dbg = { s.dbg with hvOut := s.hvWord.1 :: s.dbg.hvOut } ∧
    t.fld 0x100018 20 25 = (s.fld 0x100018 20 25 + 8) % 2 ^ 25 ∧ t.fld 0x100018 0 20 = s.fld 0x100018 0 20 ∧
    (s.hvWord.2 = true → t.fld 0x100010 2 1 = 1) ∧ t.beds = s.beds ∧ t.plots = s.plots ∧ t.host = s.host ∧ t.lnk = s.lnk) ∧
  ∀ (s : State), let cfg := s.reg 0x100100
    wfld cfg 0 1 = 1 → s.now % 2 ^ wfld cfg 1 5 = 0 → s.running = true → s.clk.locked = true →
    s.dbg.sampled ≠ some s.clk.sundial →
    let bytes := s.sampleBytes
    let fits := s.dbg.sampNext + bytes.length ≤ 262144
    ∃ t, exec .samplerSample s = .next t ∧ t.dbg.sampled = some s.clk.sundial ∧ t.beds = s.beds ∧ t.plots = s.plots ∧
      (¬fits → wfld cfg 28 1 = 0 → t.dbg.samples = s.dbg.samples ∧ t.dbg.sampNext = s.dbg.sampNext ∧
        t.fld 0x100108 50 14 = satAdd 14 (s.fld 0x100108 50 14) 1) ∧
      ∀ a, (fits ∧ a = s.dbg.sampNext ∨ ¬fits ∧ wfld cfg 28 1 = 1 ∧ a = 0) →
        mread 0 t.dbg.samples a bytes.length = bytes ∧ t.dbg.sampNext = a + bytes.length ∧
        t.fld 0x100108 0 32 = satAdd 32 (s.fld 0x100108 0 32) 1 ∧
        ∀ d, (d < a ∨ a + bytes.length ≤ d) → mget 0 t.dbg.samples d = mget 0 s.dbg.samples d

/-- ATTEST and ATTEST_REPORT_WRITTEN (R447, R448): a request joins the queue, and with no report being signed it
starts at once with the next counter value and a snapshot of its tick; a report written stands in host memory,
completes its request and lets the next one start. That the counter begins at 1 is the model's reading (log entry 47);
signatures are opaque (log entry 46). -/
def Obligations.AttestationReportsAreQueuedSignedAndWritten : Prop :=
  (∀ (s : State) (src : Src), s.service src 0x30 = true →
    let a : Attest := { src, nonce := ((s.request src).drop 16).take 32, addr := fieldAt (s.request src) 48 8 }
    ∃ t, exec (.attest src) s = .next t ∧ (∃ w ∈ t.host.waiters, w.src = src) ∧ t.beds = s.beds ∧
      (s.sec.attestBody ≠ none → t.sec = { s.sec with attestQueue := s.sec.attestQueue ++ [a] }) ∧
      (s.sec.attestBody = none → s.sec.attestQueue = [] →
        t.sec.attestCount = s.sec.attestCount + 1 ∧ t.sec.attestQueue = [] ∧ ∃ body, t.sec.attestBody = some (a, body) ∧
          body.take 8 = ascii "QP2ATT01" ∧ (body.drop 24).take 8 = leBytes 8 (s.sec.attestCount + 1).toNat ∧
          (body.drop 16).take 8 = leBytes 8 s.now ∧ (body.drop 32).take 32 = fitBytes 32 a.nonce)) ∧
  ∀ (s : State) (a : Attest) (body : List Byte) (seed : BitVec 256), s.sec.attestBody = some (a, body) →
    s.sec.seed = some seed → s.asked a.src = true →
    let bytes := s.reportBytes seed body
    ∃ t, exec .attestReportWritten s = .next t ∧ Done s t a.src 0 0 (49872 * 2 ^ 32) ∧
      mread 0 t.host.mem a.addr bytes.length = bytes ∧
      (∀ d, (d < a.addr ∨ a.addr + bytes.length ≤ d) → mget 0 t.host.mem d = mget 0 s.host.mem d) ∧
      (s.ready = true → t.host.dbOut.getLsbD 10 = true) ∧
      (s.sec.attestQueue = [] → t.sec = { s.sec with attestBody := none }) ∧
      (∀ q qs, s.sec.attestQueue = q :: qs → t.sec.attestQueue = qs ∧ t.sec.attestCount = s.sec.attestCount + 1 ∧
        ∃ next, t.sec.attestBody = some (q, next))

/-- OWNER_ENROL, OWNER_ENROL_COMPLETE and POWER_CAP (R414, R444, R445): a request that a rule refuses gets its code
and reason and changes nothing; one accepted is kept until its write is done, which puts the signed record into the
slot that was not in use and leaves the keys in force until the next reset. A power cap from 800 to 2,000 W is taken.
The order of the reasons is the model's reading (log entry 47); signatures are opaque (log entry 46). -/
def Obligations.EnrolmentWritesTheOtherSlotAndCapsAreBounded : Prop :=
  (∀ (s : State) (src : Src), s.service src 0x31 = true →
    let d := s.request src
    let len := fieldAt d 24 4
    let req := mread 0 s.host.mem (fieldAt d 16 8) (min len (enrolLen 1 true))
    let c := s.enrolCode req len
    (c.1 ≠ 0 → ∃ t, exec (.ownerEnrol src) s = .next t ∧ t = { s with host := t.host } ∧
      Done s t src 1 0x07 (c.1 + c.2 * 2 ^ 32)) ∧
    (c.1 = 0 → exec (.ownerEnrol src) s = .next (({ s with sec := { s.sec with enrol := some (src, req.take 128) } } : State).await
      0x31 0 src 0))) ∧
  (∀ (s : State) (src : Src) (r : List Byte) (seed : BitVec 256), s.sec.enrol = some (src, r) → s.sec.seed = some seed →
    s.asked src = true → r.length = 128 →
    let a := enrolSlot (1 - s.sec.ownerSlot)
    ∃ t, exec .ownerEnrolComplete s = .next t ∧ Done s t src 0 0 0 ∧ t.sec = { s.sec with
        enrol := none, pending := true, flash := t.sec.flash } ∧ t.flashBytes a 128 = r ∧
      t.flashBytes (a + 128) sig256 = fitBytes sig256 (Config.slh256Sign (bndSecret seed) r) ∧
      ∀ d, (d < a ∨ a + 0x10000 ≤ d) → mget 0xFF t.sec.flash d = mget 0xFF s.sec.flash d) ∧
  ∀ (s : State) (src : Src), s.service src 0x40 = true →
    let v := fieldAt (s.request src) 16 2
    (v < 800 ∨ 2000 < v → ∃ t, exec (.powerCap src) s = .next t ∧ t = { s with host := t.host } ∧ Done s t src 1 0x07 0x71) ∧
    (800 ≤ v → v ≤ 2000 → ∃ t, exec (.powerCap src) s = .next t ∧
      t = { s with host := t.host, pwr := { s.pwr with cap := v } } ∧ Done s t src 0 0 0 ∧
      (v ≠ s.pwr.cap → s.ready = true → t.host.dbOut.getLsbD 3 = true))

/-- FAULT_REPORT and FAULT_ACK (R384, R385): a unit's first report takes the first free entry and keeps its tick; a
further one is only counted in it; with every entry taken a report is dropped and counted; an acknowledged entry is
free and reads zero. HEARTBEAT_CHECK (R371): every running gardener that gave its heartbeat counts one more and has
missed none; one that did not has missed one more; while nobody misses ten in a row nothing else happens, and the
tenth miss ends the gardener and takes the module into recovery. Which gardeners gave their heartbeat comes with the
command (log entries 55 and 64). -/
def Obligations.FaultsAreCollectedAndHeartbeatsChecked : Prop :=
  ((∀ (s : State) (unit reporter : BitVec 20) (cause : BitVec 8) (detail : W64), s.clk.locked = true →
    let g := s.grd
    (∀ e, (g.flt.find? fun e => e.2.valid && e.2.unit == unit.toNat) = some e →
      exec (.faultReport unit reporter cause detail) s = .next { s with
        grd := { g with flt := tset (fun _ => {}) g.flt e.1 { e.2 with count := satAdd 16 e.2.count 1 } } }) ∧
    ((∀ e ∈ g.flt, e.2.valid = true → e.2.unit ≠ unit.toNat) → g.freeFrom g.fltNext = none →
      exec (.faultReport unit reporter cause detail) s = .next { s with
        grd := { g with fltDropped := satAdd 32 g.fltDropped 1 } }) ∧
    ∀ e, (∀ e ∈ g.flt, e.2.valid = true → e.2.unit ≠ unit.toNat) → g.freeFrom g.fltNext = some e →
      ∃ t, exec (.faultReport unit reporter cause detail) s = .next t ∧ e < 256 ∧ (g.entry e).valid = false ∧
        t = { s with host := t.host, grd := t.grd } ∧
        t.grd.entry e = { valid := true, unit := unit.toNat, cause := cause.toNat, count := 1, tick := s.clk.sundial,
                          reporter := reporter.toNat, detail, order := g.fltOrder } ∧
        (∀ j, j ≠ e → t.grd.entry j = g.entry j) ∧ t.grd.fltNext = (e + 1) % 256 ∧
        (s.ready = true → t.host.dbOut.getLsbD 2 = true)) ∧
  ∀ (s : State) (rid : BitVec 16) (e : BitVec 8), Reached s rid →
    ∃ t, exec (.faultAck rid e) s = .next t ∧ t = { s with grd := t.grd } ∧ t.grd.entry e.toNat = {} ∧
      ∀ j, j ≠ e.toNat → t.grd.entry j = s.grd.entry j) ∧
  ∀ (s : State) (alive : BitVec 10), s.now % 100000 = 0 → s.clk.locked = true → s.gardens 8 = true →
    s.grd.checked ≠ some s.clk.sundial →
    let beats := fun (s : State) (g : Nat) => tget (fun _ => 0) s.grd.heartbeat g
    let missed := fun (s : State) (g : Nat) => tget (fun _ => 0) s.grd.misses g
    let heard := fun (g : Nat) => g = 8 ∨ alive.getLsbD g = true
    ((∀ g, g < 10 → missed s g < 9) →
      ∃ t, exec (.heartbeatCheck alive) s = .next t ∧ t = { s with grd := t.grd } ∧ t.grd.gardState = s.grd.gardState ∧
        t.grd.flt = s.grd.flt ∧ ∀ g, g < 10 → tget (fun _ => 0) s.grd.gardState g = 1 →
          (heard g → beats t g = satAdd 32 (beats s g) 1 ∧ missed t g = 0) ∧
          (¬heard g → beats t g = beats s g ∧ missed t g = missed s g + 1)) ∧
    ∀ g, g < 10 → tget (fun _ => 0) s.grd.gardState g = 1 → ¬heard g → missed s g = 9 →
      ∃ t, exec (.heartbeatCheck alive) s = .next t ∧ tget (fun _ => 0) t.grd.gardState g = 2 ∧ t.ready = false ∧
        t.fld 0x0 2 1 = 1 ∧ t.pins.recovery = 0x8B ∧ t.beds = s.beds

/-- REGISTER_WRITE and PWR_CORR_CLEAR (R7, R8, R343, R344, R346, R365): a write of a wrong size or place is dropped
and counted, and so is one of a requester that does not hold the module; a read-write register takes the bits it has
and that the write covers; a latch clears when its valid bit is written with 1; a register that is loaded before
service stays as it is in service; k becomes 1. The order of the access checks and the limits of writes are the
model's reading (log entries 37 and 62). -/
def Obligations.RegisterWritesFollowTheirAccessCodes : Prop :=
  (∀ (s : State) (rid : BitVec 16) (off : BitVec 26) (bytes : Nat) (v : W64), s.alive = true →
    (accessOk off.toNat bytes = false → exec (.registerWrite rid false off bytes v) s = .next (s.bump 0x10 0 12 1)) ∧
    (accessOk off.toNat bytes = true → s.mine rid = false →
      exec (.registerWrite rid false off bytes v) s = .next (s.bump 0x10 12 12 1)) ∧
    (off.toNat < 0x100000 → s.ready = false → exec (.registerWrite rid true off bytes v) s = .next (s.bump 0x10 54 10 1))) ∧
  (∀ (s : State) (rid : BitVec 16) (v : W64), Reached s rid →
    (exec (.registerWrite rid false 0x40028 8 v) s = .next (s.setReg 0x40028 (putBits (s.reg 0x40028) v (lowMask 64) (lowMask 9)))) ∧
    (exec (.registerWrite rid false 0x2002C 4 v) s = .next s) ∧
    (v.getLsbD 0 = true → exec (.registerWrite rid false 0x60018 8 v) s = .next (s.setReg 0x60018 0)) ∧
    (v.getLsbD 0 = false → exec (.registerWrite rid false 0x60018 8 v) s = .next s) ∧
    (s.ready = true → exec (.registerWrite rid false 0x80010 8 v) s = .next s) ∧
    exec (.pwrCorrClear rid) s = .next { s with pwr := { s.pwr with k64 := 64 } }) ∧
  (∀ (old v cover mask : W64) (b : Nat), b < 64 → (putBits old v cover mask).getLsbD b =
    if cover.getLsbD b = true ∧ mask.getLsbD b = true then v.getLsbD b else old.getLsbD b) ∧
  ∀ (s : State) (rid : BitVec 16) (v : W64) (b : BitVec 7) (p : Nat), Reached s rid → s.physOf b.toNat = some p →
    v.getLsbD 0 = true →
    exec (.registerWrite rid false (0x1000808 + b.setWidth 26 * 0x4000) 8 v) s = .next (s.setBed p ((s.bed p).setReg 0x808 0))

/-- GLB_RESET_WARM and HOT_RESET (R423, R424, R434, R435, Table 19.2): a warm reset keeps the queue, host memory, the
boot flash, the fault entries, the counts since cold reset, the report counter and the TAP's mark, and counts itself
with its cause; claims, plots and transfers are gone. If the module is in service afterwards, its beds are those that
self-test found, their pass and fence counts kept, and with a flash that does not answer it halts at step 3 with code
0x10. What start-up finds comes with the command (log entry 64); state that no table names is cleared (log entry 49). -/
def Obligations.WarmResetsKeepWhatTheTableNames : Prop :=
  ∀ (s : State) (rid : BitVec 16) (v : W64) (env : BootEnv) (hot : Bool), Tidy s →
    (if hot then s.alive = true else Reached s rid ∧ wfld v 0 1 = 1 ∧ wfld v 16 16 = 0x5752) →
    let i : Instr := if hot then .hotReset env else .glbResetWarm rid v env
    ∃ t, exec i s = .next t ∧ t.pending = s.pending ∧ t.host.mem = s.host.mem ∧ t.sec.flash = s.sec.flash ∧
      t.clk.total = s.clk.total ∧ t.reg 0x30010 = s.reg 0x30010 ∧ t.sec.attestCount = s.sec.attestCount ∧ t.sec.tapUsed = s.sec.tapUsed ∧ t.grd.flt = s.grd.flt ∧ t.plots = [] ∧
      t.fwClaims = [] ∧ t.brw = {} ∧ t.dbg.frozen = false ∧ t.fld 0x10108 0 3 = (if hot then 3 else 2) ∧
      t.fld 0x10108 11 16 = satAdd 16 (s.fld 0x10108 11 16) 1 ∧
      (t.ready = true → ∀ p, p < 132 → t.bed p = { bootBed env p with arrays := (s.bed p).counted.arrays }) ∧
      (env.tMax.toInt < 360 → env.flashOk = false → t.pins.halted = true ∧ t.ready = false ∧ t.fld 0x0 1 1 = 1 ∧ t.fld 0x0 2 1 = 1 ∧
        t.fld 0x0 3 5 = 3 ∧ t.fld 0x0 8 8 = 0x10)

/-- PERST_ASSERT and RAIL_UNDERVOLTAGE, and PERST_RELEASE, RAILS_GOOD and REFCLK_VALID (R423, R473, R477): a cold
reset holds the module with nothing left but its flash and what is outside it; the last of the three conditions starts
it up, and until then each only changes its pin. DOMAIN_WAIT_EXPIRY (R330, R429, R433): a member that could not form
its domain in time enters service as a domain of one, with its links outside of it. What start-up finds comes with the
command (log entry 64); the state that cold reset leaves is State.reset's (log entries 6 and 8). -/
def Obligations.ColdResetsHoldAndReleaseTheModule : Prop :=
  ((∀ (s : State) (low : Bool), (low = false → s.pins.perst = false ∧ s.pins.rails = true) →
    let i : Instr := if low then .railUndervoltage else .perstAssert
    ∃ t, exec i s = .next t ∧ t.alive = false ∧ t.ready = false ∧ t.beds = [] ∧ t.plots = [] ∧ t.recs = [] ∧ t.clk = {} ∧
      t.grd = {} ∧ t.ddr = {} ∧ t.brw = {} ∧ t.pwr = {} ∧ t.fwClaims = [] ∧ t.sec = { flash := s.sec.flash } ∧
      t.host = { mem := s.host.mem, msixSent := s.host.msixSent } ∧ t.pending = s.pending ∧
      t.fld 0x10108 0 3 = (if low then 0 else 1) ∧ (low = true → t.dbg.ir = 2 ∧ t.dbg.boundary = []) ∧
      (low = false → t.dbg.ir = s.dbg.ir ∧ t.dbg.boundary = s.dbg.boundary)) ∧
  ∀ (s : State) (env : BootEnv),
    let up := fun (i : Instr) (x : Pins) =>
      (({ s with pins := x } : State).alive = false → exec i s = .next { s with pins := x }) ∧
      (({ s with pins := x } : State).alive = true → s.ready = false → ∃ t, exec i s = .next t ∧
        (t.ready = true → ∀ p, p < 132 → t.bed p = { bootBed env p with arrays := (s.bed p).counted.arrays }) ∧
        (env.flashOk = false → t.pins.halted = true ∧ t.ready = false ∧ t.fld 0x0 3 5 = 3 ∧ t.fld 0x0 8 8 = 0x10))
    (s.pins.perst = true → up (.perstRelease env) { s.pins with perst := false }) ∧
    (s.pins.rails = false → up (.railsGood env) { s.pins with rails := true }) ∧
    (s.pins.refclk = false → up (.refclkValid env) { s.pins with refclk := true })) ∧
  ∀ (s : State) (b : Boot), s.pins.boot = some b → b.step = 10 → b.since.toNat + s.sec.domainWait * 100000 ≤ s.now →
    Tidy s →
    ∃ t, exec .domainWaitExpiry s = .next t ∧ t.lnk.formed = false ∧ t.lnk.reach = 0 ∧ t.lnk.members = 1 ∧
      (∀ e ∈ s.lnk.links, t.link e.1 = { e.2 with inDomain := false, tree := false, child := false }) ∧
      t.pins.boot = none ∧ (∀ p, p < 132 → t.bed p = { bootBed b.env p with arrays := (s.bed p).counted.arrays }) ∧ t.fld 0x0 3 5 = 14 ∧
      (b.env.bedFail = 0 → t.fld 0x0 8 8 = 0x31) ∧ t.ready = (!s.dbg.ballsHeld || s.ready) ∧
      t.fld 0x40008 24 12 = b.env.basePower.toNat ∧ t.clk.sundial = s.clk.sundial

/-- PLL_LOCK_LOSS, CONSERVATION_FREEZE and ENTROPY_HEALTH_FAIL (R403, R407, R434, R450): without its root clock the
module stops and leaves service; a conservation fault freezes it for good eight ticks after it is found, names the
pool, and takes it out of service; a failed entropy source delivers no more. The beds stay as they are.
ENTROPY_WORD_DELIVERY (R450): once in a frame of 64 A-cycles, each logical bed of the die takes its word behind those
it holds, up to 32 of them. That the cut follows the detection by 8 ticks in one command is the model's choice (log
entry 51). -/
def Obligations.ModuleFaultsFreezeAndEntropyIsDelivered : Prop :=
  (∀ (s : State),
    (s.clk.locked = true → ∃ t, exec .pllLockLoss s = .next t ∧ t.clk = { s.clk with locked := false, stopped := true } ∧
      t.running = false ∧ t.ready = false ∧ t.fld 0x0 2 1 = 1 ∧ t.pins.recovery = 0x8E ∧ t.fld 0x30000 1 1 = 1 ∧
      t.beds = s.beds ∧ t.plots = s.plots) ∧
    (∀ (pool : BitVec 3) (index : BitVec 8) (tally : W64), pool.toNat < 5 → s.clk.locked = true → 8 ≤ s.now →
      ∃ t, exec (.conservationFreeze pool index tally) s = .next t ∧ t.dbg.frozen = true ∧ t.dbg.conservation = true ∧
        t.dbg.cut = s.clk.sundial ∧ t.dbg.frostAt = none ∧ t.running = false ∧ t.ready = false ∧ t.pins.recovery = 0x8F ∧
        t.fld 0x10300 0 1 = 1 ∧ t.fld 0x10300 1 3 = pool.toNat ∧ t.fld 0x10300 4 8 = index.toNat ∧
        t.fld 0x10300 12 48 = (s.now - 8) % 2 ^ 48 ∧ t.clk = s.clk ∧ t.beds = s.beds ∧ t.plots = s.plots) ∧
    ∀ (die : BitVec 2), s.sec.entropyFail.getLsbD die.toNat = false →
      ∃ t, exec (.entropyHealthFail die) s = .next t ∧
        t.sec = { s.sec with entropyFail := s.sec.entropyFail ||| (1 <<< die.toNat) } ∧ t.beds = s.beds ∧ t.plots = s.plots ∧
        ∀ words, exec (.entropyWordDelivery die words) t = .next t) ∧
  ∀ (s : State) (die : BitVec 2) (words : List W64), s.running = true → s.clk.locked = true →
    s.sec.entropyFail.getLsbD die.toNat = false → words.length = 32 → Tidy s →
    tget (fun _ => none) s.sec.entropyFrame die.toNat ≠ some (s.clk.cycles / 64) →
    ∃ t, exec (.entropyWordDelivery die words) s = .next t ∧ t = { s with beds := t.beds, sec := t.sec } ∧
      exec (.entropyWordDelivery die words) t = .next t ∧
      (∀ i p, i < 32 → s.physOf (32 * die.toNat + i) = some p → t.bed p =
        if (s.bed p).entropy.length < 32 then { s.bed p with entropy := (s.bed p).entropy ++ [words.getD i 0] } else s.bed p) ∧
      ∀ p, (∀ i, i < 32 → s.physOf (32 * die.toNat + i) ≠ some p) → t.bed p = s.bed p

/-- POWER_SAMPLE (R413, R414, R416, R417, R471): the sample and the estimate are shown, the estimate in whole watts
either way rounded; the fast clamps follow their thresholds with hysteresis; near the cap every mulch level falls to
0; k rises only while the measured power exceeds the estimate by a quarter. MULCH_LEVEL_STEP and DROOP_DETECT (R411,
R420): every 100 ticks each bed's level moves by at most 16 toward its target, or falls to 0 in a hold, near the cap
and with mulch off; a droop makes the next run stretched, its lowest source kept. The rounding of the estimate is a
free bit (log entry 51). -/
def Obligations.PowerSamplesClampAndMulchMoves : Prop :=
  (∀ (s : State) (watts : BitVec 12) (amps : BitVec 9), s.clk.locked = true → s.pwr.lastSample.toNat + 100 ≤ s.now → Tidy s →
    let m := watts.toNat
    let e := s.estimate
    let high := 97 * s.pwr.cap < 100 * m ∨ 340 < amps.toNat
    ∃ t, exec (.powerSample watts amps) s = .next t ∧ t.pwr.lastSample = s.clk.sundial ∧ t.fld 0x40008 0 12 = m ∧
      (∃ x, (x = e / 1000 ∨ (x = e / 1000 + 1 ∧ e % 1000 ≠ 0)) ∧ t.fld 0x40008 12 12 = x % 2 ^ 12) ∧
      (s.pwr.cap < m → t.clk.clamp = true) ∧ (100 * m ≤ 97 * s.pwr.cap → t.clk.clamp = false) ∧
      (97 * s.pwr.cap < 100 * m → m ≤ s.pwr.cap → t.clk.clamp = s.clk.clamp) ∧
      (340 < amps.toNat → t.clk.clampAmps = true) ∧ (amps.toNat ≤ 330 → t.clk.clampAmps = false) ∧
      (330 < amps.toNat → amps.toNat ≤ 340 → t.clk.clampAmps = s.clk.clampAmps) ∧
      (t.pwr.shed = true ↔ high) ∧ (high → ∀ q, t.bed q = { s.bed q with mulch := 0 }) ∧ (¬high → t.beds = s.beds) ∧
      (4000 * m ≤ 5 * e → t.pwr.overs = 0 ∧ t.pwr.k64 = s.pwr.k64) ∧
      (5 * e < 4000 * m → t.pwr.overs = s.pwr.overs + 1 ∧ s.pwr.k64 ≤ t.pwr.k64) ∧ t.plots = s.plots) ∧
  (∀ (s : State), s.clk.locked = true → s.running = true → s.pwr.lastMulch.toNat + 100 ≤ s.now → Tidy s →
    ∃ t, exec .mulchLevelStep s = .next t ∧ t = { s with pwr := { s.pwr with lastMulch := s.clk.sundial }, beds := t.beds } ∧
      (s.clk.hold ≠ none ∨ s.fld 0x40028 0 1 = 0 ∨ s.pwr.shed = true → ∀ q, t.bed q = { s.bed q with mulch := 0 }) ∧
      (s.clk.hold = none → s.fld 0x40028 0 1 = 1 → s.pwr.shed = false → ∀ q, q < 132 → ∃ k, t.bed q = { s.bed q with mulch := k } ∧
        k.toNat = mulchMove (s.bed q).mulch.toNat (s.mulchTarget (s.bed q)) % 256)) ∧
  ∀ (s : State) (source : BitVec 3), source.toNat < 6 → s.clk.locked = true → s.running = true →
    ∃ t d, exec (.droopDetect source) s = .next t ∧ t = { s with clk := { s.clk with droop := some d } } ∧ d ≤ source.toNat ∧
      (s.clk.droop = none → d = source.toNat) ∧ ∀ e, s.clk.droop = some e → d = min e source.toNat

/-- THERMAL_SAMPLE and THERMAL_TRIP_STOP (R421): each group's readings are shown; the thermal clamp engages at its
threshold and releases 2 degrees below it; the first reading at the trip threshold raises THERMTRIP, and eight ticks
later every sown plot stops with code 0x59, the A-clock stops, and the module leaves service. HOLD_BEGIN and HOLD_END
(R408, R409, R416): between plots a waiting change of the operating point begins its hold at a run's start and puts
all mulch to 0; at the end of the hold the target is in force, its window begins, and the base power measured is kept.
The readings and the base power come with the commands (log entry 64). -/
def Obligations.TemperaturesTripAndHoldsChangeThePoint : Prop :=
  ((∀ (s : State) (hottest : List (BitVec 12)) (sensor : List (BitVec 6)) (coolest : List (BitVec 12)),
    s.pwr.lastTherm.toNat + 1000 ≤ s.now → hottest.length = 7 → sensor.length = 7 → coolest.length = 7 →
    s.clk.locked = true → s.pins.boot = none →
    let top := (hottestOf hottest).1
    let limit := fun (lo : Nat) => (4 * s.fld 0x40040 lo 8 : Int)
    ∃ t, exec (.thermalSample hottest sensor coolest) s = .next t ∧ t.pwr.lastTherm = s.clk.sundial ∧ t.beds = s.beds ∧
      t.plots = s.plots ∧ (∀ u, u < 7 → t.fld (0x40100 + 8 * u) 0 12 = (hottest.getD u 0).toNat ∧
        t.fld (0x40100 + 8 * u) 12 6 = (sensor.getD u 0).toNat ∧ t.fld (0x40100 + 8 * u) 18 12 = (coolest.getD u 0).toNat) ∧
      (limit 8 ≤ top → t.clk.thermClamp = true) ∧ (top < limit 8 - 8 → t.clk.thermClamp = false) ∧
      (limit 8 - 8 ≤ top → top < limit 8 → t.clk.thermClamp = s.clk.thermClamp) ∧
      (limit 16 ≤ top → s.clk.trip = none → t.pins.thermtrip = true ∧
        t.clk.trip = some (s.clk.sundial, toTwos 12 top, (hottestOf hottest).2)) ∧
      (top < limit 16 → t.clk.trip = s.clk.trip ∧ t.pins = s.pins) ∧ ∀ u, u < 7 → tempAt hottest u ≤ top) ∧
  ∀ (s : State) (k : W64 × Nat × Nat), s.clk.trip = some k → k.1.toNat + 8 ≤ s.now → s.clk.stopped = false →
    ∃ t, exec .thermalTripStop s = .next t ∧ t.clk.stopped = true ∧ t.running = false ∧ t.ready = false ∧
      t.pins.recovery = 0x8D ∧ (∀ q, (t.bed q).mem = (s.bed q).mem) ∧
      ∀ p, p ∈ s.plots.map (·.1) → (s.plot p).state = 3 ∨ (s.plot p).state = 4 →
        (t.plot p).state = 5 ∧ (t.plot p).stopCode = 0x59) ∧
  (∀ (s : State), s.clk.pending = true → s.clk.hold = none → s.plotsIn [3, 4] = [] → s.running = true → s.dbg.frostAt = none →
    s.clk.runStart = s.clk.sundial → s.clk.runStretched = false →
    (∀ e ∈ s.plots, ∀ t, e.2.sowAt = some t → holdEnd s.now s.clk.target ≤ t.toNat) → Tidy s →
    ∃ t, exec .holdBegin s = .next t ∧ t = { s with clk := { s.clk with hold := some s.clk.sundial }, beds := t.beds } ∧
      ∀ q, t.bed q = { s.bed q with mulch := 0 }) ∧
  ∀ (s : State) (base : BitVec 12) (h0 : W64), s.clk.hold = some h0 → h0.toNat + 2000 ≤ s.now →
    s.now % windowTicks s.clk.target = 0 → s.running = true →
    exec (.holdEnd base) s = .next (({ s with clk := { s.clk with
      hold := none, pending := false, point := s.clk.target, since := s.clk.sundial, run := 0, ticks := 0,
      runStart := s.clk.sundial, runPaced := pacedRun s.clk.target 0 } } : State).setFld 0x40008 24 12 base.toNat)

/-- The TAP (R465 to R468): with the rails good every instruction selects itself; those that take the balls hold them
and take the module out of service; a preload and an identification do not; DBG_ACCESS reads or writes a register of
BAR0, with the effects that such an access has, and an access outside BAR0 reads 0; a frame goes out to the flash
unless firmware holds the port. The rule R466 is stated whole by the clause on idcode. What holds the balls when, and
that a frame's effect on the flash device is left out, are the model's reading and choice (log entries 53 and 54). -/
def Obligations.TapInstructionsActOnceEach : Prop :=
  ∀ (s : State), s.pins.rails = true →
    let held := fun (i : Instr) (code : BitVec 8) (cells : List Bool) => ∃ t, exec i s = .next t ∧
      t.dbg = { s.dbg with ir := code, boundary := cells, ballsHeld := true } ∧ t.sec = { s.sec with tapUsed := true } ∧
      t.beds = s.beds ∧ t.plots = s.plots ∧ (s.alive = true → t.ready = false ∧ t.fld 0x0 2 1 = 1)
    (∀ cells, held (.extest cells) 0x00 cells ∧ held (.extestPulse cells) 0x05 cells ∧ held (.extestTrain cells) 0x06 cells ∧
      exec (.samplePreload cells) s = .next { s with dbg := { s.dbg with ir := 0x01, boundary := cells } }) ∧
    (idcode.toNat % 2 = 1 ∧ idcode.toNat / 2 % 2 ^ 11 = Config.maker.toNat ∧ idcode.toNat / 2 ^ 12 % 2 ^ 16 = 2 ∧
      idcode.toNat / 2 ^ 28 = Config.stepping.val ∧ Config.stepping.val < 3) ∧
    held .clamp 0x03 s.dbg.boundary ∧ held .highz 0x04 s.dbg.boundary ∧
    exec .idcode s = .next { s with dbg := { s.dbg with ir := 0x02, idReg := idcode } } ∧
    exec .tapReset s = .next { s with dbg := { s.dbg with ir := 0x02, idReg := idcode } } ∧
    (∀ code : BitVec 8, 0x06 < code.toNat → code ≠ 0x10 → code ≠ 0x11 →
      exec (.bypass code) s = .next { s with dbg := { s.dbg with ir := code } }) ∧
    (∀ frame : W64, exec (.flashAccess frame) s = .next { s with
      sec := { s.sec with tapUsed := true }
      dbg := { s.dbg with ir := 0x11, flashReg := frame, flashRefused := s.flashHeld,
                          qspi := if s.flashHeld then s.dbg.qspi else frame :: s.dbg.qspi } }) ∧
    ∀ (addr data : W64) (env : BootEnv),
      let off := wfld addr 0 63
      let s' : State := { s with dbg := { s.dbg with ir := 0x10 }, sec := { s.sec with tapUsed := true } }
      let after := fun (x : State) (w : W64) =>
        exec (.dbgAccess addr data env) s = .next { x with dbg := { x.dbg with dbgReg := w ++ addr } }
      (s.alive = false ∨ 2 ^ 26 ≤ off ∨ off % 8 ≠ 0 → after s' (if addr.getLsbD 63 then data else 0)) ∧
      (s.alive = true → off < 2 ^ 26 → off % 8 = 0 →
        (addr.getLsbD 63 = false → off ≠ 0x100020 → after s' (s'.readReg off)) ∧
        (addr.getLsbD 63 = false → off = 0x100020 → after s'.readHv.2 s'.readHv.1) ∧
        (addr.getLsbD 63 = true → off ≠ 0x10100 → after (s'.writeReg off data (lowMask 64)) data) ∧
        (addr.getLsbD 63 = true → off = 0x10100 → after (s'.writeReset data env) data))

/-- One step (R406, R408 of the tick): the command at the front of the queue acts as exec says, with the rest of the
queue; on an empty queue one tick passes. That an empty queue passes one tick is the model's choice (log entry 2). -/
def Obligations.AStepRunsTheFrontCommand : Prop :=
  (∀ (c : Instr) (s : State) (rest : List Instr), s.pending = c :: rest → step s = exec c { s with pending := rest }) ∧
  (∀ (c : Instr) (s : State), step { s with pending := c :: s.pending } = exec c s) ∧
  (∀ s : State, s.pending = [] → step s = .next (tick s)) ∧
  (∀ s : State, s.pending = [] → s.clk.locked = true → s.clk.stopped = false → s.dbg.frozen = false →
    ∃ t, step s = .next t ∧ t.clk.sundial = s.clk.sundial + 1 ∧ t.pending = []) ∧
  ∀ s : State, s.pending = [] → s.clk.locked = false → step s = .next s

/-- What reset leaves (R6, R8, R385, R408, R422, and the reset columns of the registers): the module held in cold
reset with PERST# asserted, nothing waiting, and the registers at the values the spec gives them. The pins, and the
values of state to which the spec gives none, are the model's choice (log entries 6 and 8). -/
def Obligations.ResetHoldsTheModuleAtItsResetValues : Prop :=
  State.reset.pending = [] ∧ State.reset.alive = false ∧ State.reset.ready = false ∧ Tidy State.reset ∧
  State.reset.plots = [] ∧ State.reset.beds = [] ∧ State.reset.host.rings = [] ∧
  State.reset.readReg 0x20100 = 0x14 ∧ State.reset.readReg 0x40020 = 40 ∧ State.reset.readReg 0x40028 = 1 ∧
  State.reset.readReg 0x40040 = BitVec.ofNat 64 (95 + 102 * 2 ^ 8 + 110 * 2 ^ 16) ∧ State.reset.readReg 0x80010 = 3 ∧
  State.reset.readReg 0x100200 = 0xF ∧ State.reset.readReg 0x40010 = 64 ∧ State.reset.readReg 0x10310 = 8192 ∧
  State.reset.readReg 0x60008 = 0 ∧ State.reset.hvWord = (0, false) ∧
  ∀ p, State.reset.plot p = {} ∧ State.reset.bed p = {} ∧ State.reset.link p = {} ∧ State.reset.chan p = {}

/-- Instruction words of Tables 9.3 to 10.6, one of most families, each written field by field from bit 127 down. -/
def Obligations.WrittenOutWordsDecodeToTheirInstructions : Prop :=
  let b : BitVec 7 := 5
  let h : Head := { varies := false, cond := 0, level := 0, gap := 1 }
  let w := fun (hi : BitVec 96) (op : BitVec 8) => hi ++ (0b000000#6 ++ 0b000000000001#12 ++ 0b00#2 ++ 0b000#3 ++ 0b0#1) ++ op
  decodeIns b (w 0 0x00) = some (.nop b h) ∧ decodeIns b (w 0 0x01) = some (.endList b h) ∧
  decodeIns b (w (0#68 ++ 0b000000000011#12 ++ 0b0000000000000111#16) 0x02) = some (.loop b h 7 3) ∧
  decodeIns b (w (0#94 ++ 0b10#2) 0x14) = some (.swap b h 2) ∧
  decodeIns b (w (0#66 ++ 0b00000#5 ++ 0b000000000000000000010000#24 ++ 0b1#1) 0x39) = none ∧
  decodeIns b (w (0#69 ++ 0b000000000000000000010000#24 ++ 0b101#3) 0x39) = some (.rpx b h 5 16) ∧
  decodeIns b (w (0b0000000000000000000000000000000000000000000000000000000000100000#64 ++ 0x00000000#32) 0x04) =
    some (.sdwait b h 0x200000000000 0) ∧
  decodeIns b (w (0b1#1 ++ 0#95) 0x00) = none ∧ decodeIns b (w 0 0x03) = none ∧ decodeIns b (w 0 0xFF) = none

/-- Decode and encode agree (R197, R200, R230): every bed instruction has a word, whatever its operands; the word
decodes to that instruction, with every operand as it was; and a word that decodes to an instruction is that
instruction's own, so no two instructions share a word and no reserved bit is dropped. -/
def Obligations.EveryInstructionWordRoundTrips : Prop :=
  (∀ (i : Instr) (b : BitVec 7) (h : Head), bedHead i = some (b, h) →
    ∃ w, encodeIns i = some w ∧ decodeIns b w = some i ∧ headOf w = h) ∧
  ∀ (b : BitVec 7) (w : BitVec 128) (i : Instr), decodeIns b w = some i → encodeIns i = some w ∧ ∃ h, bedHead i = some (b, h)

/-- The canonical form that commands rely on is kept: whatever the state and whatever waits, a step from a state whose
tables have rising keys answers one whose tables have. The tables and their form are the model's own representation,
not the spec's. -/
def Obligations.TablesStayTidy : Prop :=
  ∀ s t : State, Tidy s → step s = .next t → Tidy t

/-- A conservation freeze lasts (R403): in every state in which a module frozen for a conservation fault has no thaw to
come, a step either keeps it so or is one of the resets, after which it is not frozen at all. -/
def Obligations.AConservationFreezeLastsUntilAReset : Prop :=
  let inv := fun (s : State) => s.dbg.conservation = true → s.dbg.frozen = true ∧ s.dbg.multi = false ∧ s.dbg.thawAt = none
  inv State.reset ∧ (∀ s t : State, inv s → step s = .next t → inv t) ∧
  ∀ (c : Instr) (s t : State), inv s → s.dbg.conservation = true → exec c s = .next t → t.dbg.conservation = true ∨
    (t.dbg.frozen = false ∧ ((∃ r v e, c = .glbResetWarm r v e) ∨ (∃ e, c = .hotReset e) ∨ c = .perstAssert ∨
      c = .railUndervoltage ∨ ∃ a d e, c = .dbgAccess a d e))

/-- Every command completes, from every state (R7, R8: nothing that is written stops the module): a step answers a
next state, and takes exactly one command off the queue. That a command whose condition does not hold leaves the state
as it is, is the model's choice (log entry 9). -/
def Obligations.EveryStepCompletesAndTakesOneCommand : Prop :=
  (∀ s : State, ∃ t, step s = .next t ∧ t.pending = s.pending.tail) ∧
  ∀ (c : Instr) (s : State), ∃ t, exec c s = .next t ∧ t.pending = s.pending
end

