-- ==== Sys2Proof/Laws/State.lean ====
section
/-! SUPPORT. What each update of the state leaves as it was: one lemma for each field and each update, true by
unfolding, and what a read after an update gives. -/

namespace Sys2Proof.Machine

/-! ## Tables -/

theorem tget_nil {α : Type} (d : Nat → α) (k : Nat) : tget d [] k = d k := rfl

theorem tget_cons {α : Type} (d : Nat → α) (j : Nat) (v : α) (r : Tbl α) (k : Nat) :
    tget d ((j, v) :: r) k = if j = k then v else tget d r k := rfl

theorem tget_tdel {α : Type} (d : Nat → α) (t : Tbl α) (k j : Nat) : tget d (tdel t k) j = if j = k then d j else tget d t j := by
  induction t with
  | nil => simp [tdel, tget]
  | cons e r ih =>
    obtain ⟨i, v⟩ := e
    simp only [tdel, List.filter_cons] at ih ⊢
    by_cases hi : i = k
    · subst hi
      simp only [bne_self_eq_false, Bool.false_eq_true, if_false, ih, tget]
      by_cases h : i = j
      · simp [h]
      · simp [h, Ne.symm h]
    · simp only [bne_iff_ne, ne_eq, hi, not_false_eq_true, if_true, tget, ih]
      by_cases h : i = j
      · subst h; simp [hi]
      · simp [h]

theorem tget_tput {α : Type} (d : Nat → α) (t : Tbl α) (k : Nat) (v : α) (j : Nat) (h : ∀ e ∈ t, e.1 ≠ k) :
    tget d (tput t k v) j = if j = k then v else tget d t j := by
  induction t with
  | nil => simp [tput, tget, eq_comm]
  | cons e r ih =>
    obtain ⟨i, w⟩ := e
    have hi : i ≠ k := h (i, w) (by simp)
    have hr := ih fun e he => h e (by simp [he])
    unfold tput
    split
    · by_cases hj : j = k
      · simp [tget, hj]
      · simp [tget, hj, Ne.symm hj]
    · simp only [tget, hr]
      by_cases hj : i = j
      · subst hj; simp [hi]
      · simp [hj]

theorem tdel_ne {α : Type} (t : Tbl α) (k : Nat) : ∀ e ∈ tdel t k, e.1 ≠ k := by
  intro e he
  simpa [tdel] using (List.mem_filter.mp he).2

/-- A read of a table after one key was set. -/
theorem tget_tset {α : Type} [DecidableEq α] (d : Nat → α) (t : Tbl α) (k : Nat) (v : α) (j : Nat) :
    tget d (tset d t k v) j = if j = k then v else tget d t j := by
  unfold tset
  split
  · rename_i h
    rw [tget_tdel]
    by_cases hj : j = k
    · simp [hj, h]
    · simp [hj]
  · rw [tget_tput d _ k v j (tdel_ne t k), tget_tdel]
    by_cases hj : j = k <;> simp [hj]

@[simp] theorem tget_tset_self {α : Type} [DecidableEq α] (d : Nat → α) (t : Tbl α) (k : Nat) (v : α) :
    tget d (tset d t k v) k = v := by simp [tget_tset]

theorem tget_tset_ne {α : Type} [DecidableEq α] (d : Nat → α) (t : Tbl α) (k : Nat) (v : α) (j : Nat) (h : j ≠ k) :
    tget d (tset d t k v) j = tget d t j := by simp [tget_tset, h]

theorem tdel_pairwise {α : Type} (t : Tbl α) (k : Nat) (h : t.Pairwise fun a b => a.1 < b.1) :
    (tdel t k).Pairwise fun a b => a.1 < b.1 := h.filter _

theorem mem_tput {α : Type} (t : Tbl α) (k : Nat) (v : α) (e : Nat × α) (h : e ∈ tput t k v) : e = (k, v) ∨ e ∈ t := by
  induction t with
  | nil => simpa [tput] using h
  | cons a r ih =>
    unfold tput at h
    split at h
    · simpa using h
    · rcases List.mem_cons.mp h with h | h
      · exact .inr (by simp [h])
      · rcases ih h with h | h
        · exact .inl h
        · exact .inr (by simp [h])

theorem tput_pairwise {α : Type} (t : Tbl α) (k : Nat) (v : α) (h : t.Pairwise fun a b => a.1 < b.1)
    (hk : ∀ e ∈ t, e.1 ≠ k) : (tput t k v).Pairwise fun a b => a.1 < b.1 := by
  induction t with
  | nil => simp [tput]
  | cons a r ih =>
    obtain ⟨i, w⟩ := a
    rw [List.pairwise_cons] at h
    have hi : i ≠ k := hk (i, w) (by simp)
    unfold tput
    split
    · rename_i hlt
      rw [List.pairwise_cons, List.pairwise_cons]
      refine ⟨fun e he => ?_, h⟩
      rcases List.mem_cons.mp he with he | he
      · simpa [he] using hlt
      · exact Nat.lt_trans hlt (h.1 e he)
    · rename_i hlt
      rw [List.pairwise_cons]
      refine ⟨fun e he => ?_, ih h.2 fun e he => hk e (by simp [he])⟩
      rcases mem_tput r k v e he with he | he
      · subst he
        have : ¬ k < i := hlt
        show i < k
        omega
      · exact h.1 e he

/-- Setting a key keeps a table's canonical form. -/
theorem twf_tset {α : Type} [DecidableEq α] (d : Nat → α) (t : Tbl α) (k : Nat) (v : α) (h : twf d t) : twf d (tset d t k v) := by
  have hd : twf d (tdel t k) := ⟨tdel_pairwise t k h.1, fun e he => h.2 e (List.mem_filter.mp he).1⟩
  unfold tset
  split
  · exact hd
  · rename_i hv
    refine ⟨tput_pairwise _ k v hd.1 (tdel_ne t k), fun e he => ?_⟩
    rcases mem_tput _ k v e he with he | he
    · subst he; exact hv
    · exact hd.2 e he

/-! ## Updates of the state -/

@[simp] theorem State.setBed_pending (s : State) (p : Nat) (b : Bed) : (s.setBed p b).pending = s.pending := rfl
@[simp] theorem State.setBed_freeN (s : State) (p : Nat) (b : Bed) : (s.setBed p b).freeN = s.freeN := rfl
@[simp] theorem State.setBed_clk (s : State) (p : Nat) (b : Bed) : (s.setBed p b).clk = s.clk := rfl
@[simp] theorem State.setBed_pwr (s : State) (p : Nat) (b : Bed) : (s.setBed p b).pwr = s.pwr := rfl
@[simp] theorem State.setBed_host (s : State) (p : Nat) (b : Bed) : (s.setBed p b).host = s.host := rfl
@[simp] theorem State.setBed_plots (s : State) (p : Nat) (b : Bed) : (s.setBed p b).plots = s.plots := rfl
@[simp] theorem State.setBed_recs (s : State) (p : Nat) (b : Bed) : (s.setBed p b).recs = s.recs := rfl
@[simp] theorem State.setBed_fwClaims (s : State) (p : Nat) (b : Bed) : (s.setBed p b).fwClaims = s.fwClaims := rfl
@[simp] theorem State.setBed_grd (s : State) (p : Nat) (b : Bed) : (s.setBed p b).grd = s.grd := rfl
@[simp] theorem State.setBed_brw (s : State) (p : Nat) (b : Bed) : (s.setBed p b).brw = s.brw := rfl
@[simp] theorem State.setBed_ddr (s : State) (p : Nat) (b : Bed) : (s.setBed p b).ddr = s.ddr := rfl
@[simp] theorem State.setBed_lnk (s : State) (p : Nat) (b : Bed) : (s.setBed p b).lnk = s.lnk := rfl
@[simp] theorem State.setBed_sec (s : State) (p : Nat) (b : Bed) : (s.setBed p b).sec = s.sec := rfl
@[simp] theorem State.setBed_dbg (s : State) (p : Nat) (b : Bed) : (s.setBed p b).dbg = s.dbg := rfl
@[simp] theorem State.setBed_pins (s : State) (p : Nat) (b : Bed) : (s.setBed p b).pins = s.pins := rfl
@[simp] theorem State.setBed_regs (s : State) (p : Nat) (b : Bed) : (s.setBed p b).regs = s.regs := rfl

@[simp] theorem State.setPlot_pending (s : State) (p : Nat) (x : Plot) : (s.setPlot p x).pending = s.pending := rfl
@[simp] theorem State.setPlot_freeN (s : State) (p : Nat) (x : Plot) : (s.setPlot p x).freeN = s.freeN := rfl
@[simp] theorem State.setPlot_clk (s : State) (p : Nat) (x : Plot) : (s.setPlot p x).clk = s.clk := rfl
@[simp] theorem State.setPlot_pwr (s : State) (p : Nat) (x : Plot) : (s.setPlot p x).pwr = s.pwr := rfl
@[simp] theorem State.setPlot_host (s : State) (p : Nat) (x : Plot) : (s.setPlot p x).host = s.host := rfl
@[simp] theorem State.setPlot_recs (s : State) (p : Nat) (x : Plot) : (s.setPlot p x).recs = s.recs := rfl
@[simp] theorem State.setPlot_fwClaims (s : State) (p : Nat) (x : Plot) : (s.setPlot p x).fwClaims = s.fwClaims := rfl
@[simp] theorem State.setPlot_beds (s : State) (p : Nat) (x : Plot) : (s.setPlot p x).beds = s.beds := rfl
@[simp] theorem State.setPlot_grd (s : State) (p : Nat) (x : Plot) : (s.setPlot p x).grd = s.grd := rfl
@[simp] theorem State.setPlot_brw (s : State) (p : Nat) (x : Plot) : (s.setPlot p x).brw = s.brw := rfl
@[simp] theorem State.setPlot_ddr (s : State) (p : Nat) (x : Plot) : (s.setPlot p x).ddr = s.ddr := rfl
@[simp] theorem State.setPlot_lnk (s : State) (p : Nat) (x : Plot) : (s.setPlot p x).lnk = s.lnk := rfl
@[simp] theorem State.setPlot_sec (s : State) (p : Nat) (x : Plot) : (s.setPlot p x).sec = s.sec := rfl
@[simp] theorem State.setPlot_dbg (s : State) (p : Nat) (x : Plot) : (s.setPlot p x).dbg = s.dbg := rfl
@[simp] theorem State.setPlot_pins (s : State) (p : Nat) (x : Plot) : (s.setPlot p x).pins = s.pins := rfl
@[simp] theorem State.setPlot_regs (s : State) (p : Nat) (x : Plot) : (s.setPlot p x).regs = s.regs := rfl

@[simp] theorem State.setRunRec_pending (s : State) (p : Nat) (x : Rec) : (s.setRunRec p x).pending = s.pending := rfl
@[simp] theorem State.setRunRec_freeN (s : State) (p : Nat) (x : Rec) : (s.setRunRec p x).freeN = s.freeN := rfl
@[simp] theorem State.setRunRec_clk (s : State) (p : Nat) (x : Rec) : (s.setRunRec p x).clk = s.clk := rfl
@[simp] theorem State.setRunRec_pwr (s : State) (p : Nat) (x : Rec) : (s.setRunRec p x).pwr = s.pwr := rfl
@[simp] theorem State.setRunRec_host (s : State) (p : Nat) (x : Rec) : (s.setRunRec p x).host = s.host := rfl
@[simp] theorem State.setRunRec_plots (s : State) (p : Nat) (x : Rec) : (s.setRunRec p x).plots = s.plots := rfl
@[simp] theorem State.setRunRec_fwClaims (s : State) (p : Nat) (x : Rec) : (s.setRunRec p x).fwClaims = s.fwClaims := rfl
@[simp] theorem State.setRunRec_beds (s : State) (p : Nat) (x : Rec) : (s.setRunRec p x).beds = s.beds := rfl
@[simp] theorem State.setRunRec_grd (s : State) (p : Nat) (x : Rec) : (s.setRunRec p x).grd = s.grd := rfl
@[simp] theorem State.setRunRec_brw (s : State) (p : Nat) (x : Rec) : (s.setRunRec p x).brw = s.brw := rfl
@[simp] theorem State.setRunRec_ddr (s : State) (p : Nat) (x : Rec) : (s.setRunRec p x).ddr = s.ddr := rfl
@[simp] theorem State.setRunRec_lnk (s : State) (p : Nat) (x : Rec) : (s.setRunRec p x).lnk = s.lnk := rfl
@[simp] theorem State.setRunRec_sec (s : State) (p : Nat) (x : Rec) : (s.setRunRec p x).sec = s.sec := rfl
@[simp] theorem State.setRunRec_dbg (s : State) (p : Nat) (x : Rec) : (s.setRunRec p x).dbg = s.dbg := rfl
@[simp] theorem State.setRunRec_pins (s : State) (p : Nat) (x : Rec) : (s.setRunRec p x).pins = s.pins := rfl
@[simp] theorem State.setRunRec_regs (s : State) (p : Nat) (x : Rec) : (s.setRunRec p x).regs = s.regs := rfl

@[simp] theorem State.setRing_pending (s : State) (r : Nat) (x : Ring) : (s.setRing r x).pending = s.pending := rfl
@[simp] theorem State.setRing_freeN (s : State) (r : Nat) (x : Ring) : (s.setRing r x).freeN = s.freeN := rfl
@[simp] theorem State.setRing_clk (s : State) (r : Nat) (x : Ring) : (s.setRing r x).clk = s.clk := rfl
@[simp] theorem State.setRing_pwr (s : State) (r : Nat) (x : Ring) : (s.setRing r x).pwr = s.pwr := rfl
@[simp] theorem State.setRing_plots (s : State) (r : Nat) (x : Ring) : (s.setRing r x).plots = s.plots := rfl
@[simp] theorem State.setRing_recs (s : State) (r : Nat) (x : Ring) : (s.setRing r x).recs = s.recs := rfl
@[simp] theorem State.setRing_fwClaims (s : State) (r : Nat) (x : Ring) : (s.setRing r x).fwClaims = s.fwClaims := rfl
@[simp] theorem State.setRing_beds (s : State) (r : Nat) (x : Ring) : (s.setRing r x).beds = s.beds := rfl
@[simp] theorem State.setRing_grd (s : State) (r : Nat) (x : Ring) : (s.setRing r x).grd = s.grd := rfl
@[simp] theorem State.setRing_brw (s : State) (r : Nat) (x : Ring) : (s.setRing r x).brw = s.brw := rfl
@[simp] theorem State.setRing_ddr (s : State) (r : Nat) (x : Ring) : (s.setRing r x).ddr = s.ddr := rfl
@[simp] theorem State.setRing_lnk (s : State) (r : Nat) (x : Ring) : (s.setRing r x).lnk = s.lnk := rfl
@[simp] theorem State.setRing_sec (s : State) (r : Nat) (x : Ring) : (s.setRing r x).sec = s.sec := rfl
@[simp] theorem State.setRing_dbg (s : State) (r : Nat) (x : Ring) : (s.setRing r x).dbg = s.dbg := rfl
@[simp] theorem State.setRing_pins (s : State) (r : Nat) (x : Ring) : (s.setRing r x).pins = s.pins := rfl
@[simp] theorem State.setRing_regs (s : State) (r : Nat) (x : Ring) : (s.setRing r x).regs = s.regs := rfl

@[simp] theorem State.setChan_pending (s : State) (c : Nat) (x : Chan) : (s.setChan c x).pending = s.pending := rfl
@[simp] theorem State.setChan_freeN (s : State) (c : Nat) (x : Chan) : (s.setChan c x).freeN = s.freeN := rfl
@[simp] theorem State.setChan_clk (s : State) (c : Nat) (x : Chan) : (s.setChan c x).clk = s.clk := rfl
@[simp] theorem State.setChan_pwr (s : State) (c : Nat) (x : Chan) : (s.setChan c x).pwr = s.pwr := rfl
@[simp] theorem State.setChan_host (s : State) (c : Nat) (x : Chan) : (s.setChan c x).host = s.host := rfl
@[simp] theorem State.setChan_plots (s : State) (c : Nat) (x : Chan) : (s.setChan c x).plots = s.plots := rfl
@[simp] theorem State.setChan_recs (s : State) (c : Nat) (x : Chan) : (s.setChan c x).recs = s.recs := rfl
@[simp] theorem State.setChan_fwClaims (s : State) (c : Nat) (x : Chan) : (s.setChan c x).fwClaims = s.fwClaims := rfl
@[simp] theorem State.setChan_beds (s : State) (c : Nat) (x : Chan) : (s.setChan c x).beds = s.beds := rfl
@[simp] theorem State.setChan_grd (s : State) (c : Nat) (x : Chan) : (s.setChan c x).grd = s.grd := rfl
@[simp] theorem State.setChan_ddr (s : State) (c : Nat) (x : Chan) : (s.setChan c x).ddr = s.ddr := rfl
@[simp] theorem State.setChan_lnk (s : State) (c : Nat) (x : Chan) : (s.setChan c x).lnk = s.lnk := rfl
@[simp] theorem State.setChan_sec (s : State) (c : Nat) (x : Chan) : (s.setChan c x).sec = s.sec := rfl
@[simp] theorem State.setChan_dbg (s : State) (c : Nat) (x : Chan) : (s.setChan c x).dbg = s.dbg := rfl
@[simp] theorem State.setChan_pins (s : State) (c : Nat) (x : Chan) : (s.setChan c x).pins = s.pins := rfl
@[simp] theorem State.setChan_regs (s : State) (c : Nat) (x : Chan) : (s.setChan c x).regs = s.regs := rfl

@[simp] theorem State.setEngine_pending (s : State) (h : Nat) (x : Engine) : (s.setEngine h x).pending = s.pending := rfl
@[simp] theorem State.setEngine_freeN (s : State) (h : Nat) (x : Engine) : (s.setEngine h x).freeN = s.freeN := rfl
@[simp] theorem State.setEngine_clk (s : State) (h : Nat) (x : Engine) : (s.setEngine h x).clk = s.clk := rfl
@[simp] theorem State.setEngine_pwr (s : State) (h : Nat) (x : Engine) : (s.setEngine h x).pwr = s.pwr := rfl
@[simp] theorem State.setEngine_host (s : State) (h : Nat) (x : Engine) : (s.setEngine h x).host = s.host := rfl
@[simp] theorem State.setEngine_plots (s : State) (h : Nat) (x : Engine) : (s.setEngine h x).plots = s.plots := rfl
@[simp] theorem State.setEngine_recs (s : State) (h : Nat) (x : Engine) : (s.setEngine h x).recs = s.recs := rfl
@[simp] theorem State.setEngine_fwClaims (s : State) (h : Nat) (x : Engine) : (s.setEngine h x).fwClaims = s.fwClaims := rfl
@[simp] theorem State.setEngine_beds (s : State) (h : Nat) (x : Engine) : (s.setEngine h x).beds = s.beds := rfl
@[simp] theorem State.setEngine_grd (s : State) (h : Nat) (x : Engine) : (s.setEngine h x).grd = s.grd := rfl
@[simp] theorem State.setEngine_ddr (s : State) (h : Nat) (x : Engine) : (s.setEngine h x).ddr = s.ddr := rfl
@[simp] theorem State.setEngine_lnk (s : State) (h : Nat) (x : Engine) : (s.setEngine h x).lnk = s.lnk := rfl
@[simp] theorem State.setEngine_sec (s : State) (h : Nat) (x : Engine) : (s.setEngine h x).sec = s.sec := rfl
@[simp] theorem State.setEngine_dbg (s : State) (h : Nat) (x : Engine) : (s.setEngine h x).dbg = s.dbg := rfl
@[simp] theorem State.setEngine_pins (s : State) (h : Nat) (x : Engine) : (s.setEngine h x).pins = s.pins := rfl
@[simp] theorem State.setEngine_regs (s : State) (h : Nat) (x : Engine) : (s.setEngine h x).regs = s.regs := rfl

@[simp] theorem State.setCtl_pending (s : State) (c : Nat) (x : Ctl) : (s.setCtl c x).pending = s.pending := rfl
@[simp] theorem State.setCtl_freeN (s : State) (c : Nat) (x : Ctl) : (s.setCtl c x).freeN = s.freeN := rfl
@[simp] theorem State.setCtl_clk (s : State) (c : Nat) (x : Ctl) : (s.setCtl c x).clk = s.clk := rfl
@[simp] theorem State.setCtl_pwr (s : State) (c : Nat) (x : Ctl) : (s.setCtl c x).pwr = s.pwr := rfl
@[simp] theorem State.setCtl_host (s : State) (c : Nat) (x : Ctl) : (s.setCtl c x).host = s.host := rfl
@[simp] theorem State.setCtl_plots (s : State) (c : Nat) (x : Ctl) : (s.setCtl c x).plots = s.plots := rfl
@[simp] theorem State.setCtl_recs (s : State) (c : Nat) (x : Ctl) : (s.setCtl c x).recs = s.recs := rfl
@[simp] theorem State.setCtl_fwClaims (s : State) (c : Nat) (x : Ctl) : (s.setCtl c x).fwClaims = s.fwClaims := rfl
@[simp] theorem State.setCtl_beds (s : State) (c : Nat) (x : Ctl) : (s.setCtl c x).beds = s.beds := rfl
@[simp] theorem State.setCtl_grd (s : State) (c : Nat) (x : Ctl) : (s.setCtl c x).grd = s.grd := rfl
@[simp] theorem State.setCtl_brw (s : State) (c : Nat) (x : Ctl) : (s.setCtl c x).brw = s.brw := rfl
@[simp] theorem State.setCtl_lnk (s : State) (c : Nat) (x : Ctl) : (s.setCtl c x).lnk = s.lnk := rfl
@[simp] theorem State.setCtl_sec (s : State) (c : Nat) (x : Ctl) : (s.setCtl c x).sec = s.sec := rfl
@[simp] theorem State.setCtl_dbg (s : State) (c : Nat) (x : Ctl) : (s.setCtl c x).dbg = s.dbg := rfl
@[simp] theorem State.setCtl_pins (s : State) (c : Nat) (x : Ctl) : (s.setCtl c x).pins = s.pins := rfl
@[simp] theorem State.setCtl_regs (s : State) (c : Nat) (x : Ctl) : (s.setCtl c x).regs = s.regs := rfl

@[simp] theorem State.setWalker_pending (s : State) (w : Nat) (x : Walker) : (s.setWalker w x).pending = s.pending := rfl
@[simp] theorem State.setWalker_freeN (s : State) (w : Nat) (x : Walker) : (s.setWalker w x).freeN = s.freeN := rfl
@[simp] theorem State.setWalker_clk (s : State) (w : Nat) (x : Walker) : (s.setWalker w x).clk = s.clk := rfl
@[simp] theorem State.setWalker_pwr (s : State) (w : Nat) (x : Walker) : (s.setWalker w x).pwr = s.pwr := rfl
@[simp] theorem State.setWalker_host (s : State) (w : Nat) (x : Walker) : (s.setWalker w x).host = s.host := rfl
@[simp] theorem State.setWalker_plots (s : State) (w : Nat) (x : Walker) : (s.setWalker w x).plots = s.plots := rfl
@[simp] theorem State.setWalker_recs (s : State) (w : Nat) (x : Walker) : (s.setWalker w x).recs = s.recs := rfl
@[simp] theorem State.setWalker_fwClaims (s : State) (w : Nat) (x : Walker) : (s.setWalker w x).fwClaims = s.fwClaims := rfl
@[simp] theorem State.setWalker_beds (s : State) (w : Nat) (x : Walker) : (s.setWalker w x).beds = s.beds := rfl
@[simp] theorem State.setWalker_grd (s : State) (w : Nat) (x : Walker) : (s.setWalker w x).grd = s.grd := rfl
@[simp] theorem State.setWalker_brw (s : State) (w : Nat) (x : Walker) : (s.setWalker w x).brw = s.brw := rfl
@[simp] theorem State.setWalker_lnk (s : State) (w : Nat) (x : Walker) : (s.setWalker w x).lnk = s.lnk := rfl
@[simp] theorem State.setWalker_sec (s : State) (w : Nat) (x : Walker) : (s.setWalker w x).sec = s.sec := rfl
@[simp] theorem State.setWalker_dbg (s : State) (w : Nat) (x : Walker) : (s.setWalker w x).dbg = s.dbg := rfl
@[simp] theorem State.setWalker_pins (s : State) (w : Nat) (x : Walker) : (s.setWalker w x).pins = s.pins := rfl
@[simp] theorem State.setWalker_regs (s : State) (w : Nat) (x : Walker) : (s.setWalker w x).regs = s.regs := rfl

@[simp] theorem State.setLink_pending (s : State) (l : Nat) (x : Link) : (s.setLink l x).pending = s.pending := rfl
@[simp] theorem State.setLink_freeN (s : State) (l : Nat) (x : Link) : (s.setLink l x).freeN = s.freeN := rfl
@[simp] theorem State.setLink_clk (s : State) (l : Nat) (x : Link) : (s.setLink l x).clk = s.clk := rfl
@[simp] theorem State.setLink_pwr (s : State) (l : Nat) (x : Link) : (s.setLink l x).pwr = s.pwr := rfl
@[simp] theorem State.setLink_host (s : State) (l : Nat) (x : Link) : (s.setLink l x).host = s.host := rfl
@[simp] theorem State.setLink_plots (s : State) (l : Nat) (x : Link) : (s.setLink l x).plots = s.plots := rfl
@[simp] theorem State.setLink_recs (s : State) (l : Nat) (x : Link) : (s.setLink l x).recs = s.recs := rfl
@[simp] theorem State.setLink_fwClaims (s : State) (l : Nat) (x : Link) : (s.setLink l x).fwClaims = s.fwClaims := rfl
@[simp] theorem State.setLink_beds (s : State) (l : Nat) (x : Link) : (s.setLink l x).beds = s.beds := rfl
@[simp] theorem State.setLink_grd (s : State) (l : Nat) (x : Link) : (s.setLink l x).grd = s.grd := rfl
@[simp] theorem State.setLink_brw (s : State) (l : Nat) (x : Link) : (s.setLink l x).brw = s.brw := rfl
@[simp] theorem State.setLink_ddr (s : State) (l : Nat) (x : Link) : (s.setLink l x).ddr = s.ddr := rfl
@[simp] theorem State.setLink_sec (s : State) (l : Nat) (x : Link) : (s.setLink l x).sec = s.sec := rfl
@[simp] theorem State.setLink_dbg (s : State) (l : Nat) (x : Link) : (s.setLink l x).dbg = s.dbg := rfl
@[simp] theorem State.setLink_pins (s : State) (l : Nat) (x : Link) : (s.setLink l x).pins = s.pins := rfl
@[simp] theorem State.setLink_regs (s : State) (l : Nat) (x : Link) : (s.setLink l x).regs = s.regs := rfl

@[simp] theorem State.setReg_pending (s : State) (off : Nat) (v : W64) : (s.setReg off v).pending = s.pending := rfl
@[simp] theorem State.setReg_freeN (s : State) (off : Nat) (v : W64) : (s.setReg off v).freeN = s.freeN := rfl
@[simp] theorem State.setReg_clk (s : State) (off : Nat) (v : W64) : (s.setReg off v).clk = s.clk := rfl
@[simp] theorem State.setReg_pwr (s : State) (off : Nat) (v : W64) : (s.setReg off v).pwr = s.pwr := rfl
@[simp] theorem State.setReg_host (s : State) (off : Nat) (v : W64) : (s.setReg off v).host = s.host := rfl
@[simp] theorem State.setReg_plots (s : State) (off : Nat) (v : W64) : (s.setReg off v).plots = s.plots := rfl
@[simp] theorem State.setReg_recs (s : State) (off : Nat) (v : W64) : (s.setReg off v).recs = s.recs := rfl
@[simp] theorem State.setReg_fwClaims (s : State) (off : Nat) (v : W64) : (s.setReg off v).fwClaims = s.fwClaims := rfl
@[simp] theorem State.setReg_beds (s : State) (off : Nat) (v : W64) : (s.setReg off v).beds = s.beds := rfl
@[simp] theorem State.setReg_grd (s : State) (off : Nat) (v : W64) : (s.setReg off v).grd = s.grd := rfl
@[simp] theorem State.setReg_brw (s : State) (off : Nat) (v : W64) : (s.setReg off v).brw = s.brw := rfl
@[simp] theorem State.setReg_ddr (s : State) (off : Nat) (v : W64) : (s.setReg off v).ddr = s.ddr := rfl
@[simp] theorem State.setReg_lnk (s : State) (off : Nat) (v : W64) : (s.setReg off v).lnk = s.lnk := rfl
@[simp] theorem State.setReg_sec (s : State) (off : Nat) (v : W64) : (s.setReg off v).sec = s.sec := rfl
@[simp] theorem State.setReg_dbg (s : State) (off : Nat) (v : W64) : (s.setReg off v).dbg = s.dbg := rfl
@[simp] theorem State.setReg_pins (s : State) (off : Nat) (v : W64) : (s.setReg off v).pins = s.pins := rfl

@[simp] theorem State.setFld_pending (s : State) (off lo n v : Nat) : (s.setFld off lo n v).pending = s.pending := rfl
@[simp] theorem State.setFld_freeN (s : State) (off lo n v : Nat) : (s.setFld off lo n v).freeN = s.freeN := rfl
@[simp] theorem State.setFld_clk (s : State) (off lo n v : Nat) : (s.setFld off lo n v).clk = s.clk := rfl
@[simp] theorem State.setFld_pwr (s : State) (off lo n v : Nat) : (s.setFld off lo n v).pwr = s.pwr := rfl
@[simp] theorem State.setFld_host (s : State) (off lo n v : Nat) : (s.setFld off lo n v).host = s.host := rfl
@[simp] theorem State.setFld_plots (s : State) (off lo n v : Nat) : (s.setFld off lo n v).plots = s.plots := rfl
@[simp] theorem State.setFld_recs (s : State) (off lo n v : Nat) : (s.setFld off lo n v).recs = s.recs := rfl
@[simp] theorem State.setFld_fwClaims (s : State) (off lo n v : Nat) : (s.setFld off lo n v).fwClaims = s.fwClaims := rfl
@[simp] theorem State.setFld_beds (s : State) (off lo n v : Nat) : (s.setFld off lo n v).beds = s.beds := rfl
@[simp] theorem State.setFld_grd (s : State) (off lo n v : Nat) : (s.setFld off lo n v).grd = s.grd := rfl
@[simp] theorem State.setFld_brw (s : State) (off lo n v : Nat) : (s.setFld off lo n v).brw = s.brw := rfl
@[simp] theorem State.setFld_ddr (s : State) (off lo n v : Nat) : (s.setFld off lo n v).ddr = s.ddr := rfl
@[simp] theorem State.setFld_lnk (s : State) (off lo n v : Nat) : (s.setFld off lo n v).lnk = s.lnk := rfl
@[simp] theorem State.setFld_sec (s : State) (off lo n v : Nat) : (s.setFld off lo n v).sec = s.sec := rfl
@[simp] theorem State.setFld_dbg (s : State) (off lo n v : Nat) : (s.setFld off lo n v).dbg = s.dbg := rfl
@[simp] theorem State.setFld_pins (s : State) (off lo n v : Nat) : (s.setFld off lo n v).pins = s.pins := rfl

@[simp] theorem State.bump_pending (s : State) (off lo n k : Nat) : (s.bump off lo n k).pending = s.pending := rfl
@[simp] theorem State.bump_freeN (s : State) (off lo n k : Nat) : (s.bump off lo n k).freeN = s.freeN := rfl
@[simp] theorem State.bump_clk (s : State) (off lo n k : Nat) : (s.bump off lo n k).clk = s.clk := rfl
@[simp] theorem State.bump_pwr (s : State) (off lo n k : Nat) : (s.bump off lo n k).pwr = s.pwr := rfl
@[simp] theorem State.bump_host (s : State) (off lo n k : Nat) : (s.bump off lo n k).host = s.host := rfl
@[simp] theorem State.bump_plots (s : State) (off lo n k : Nat) : (s.bump off lo n k).plots = s.plots := rfl
@[simp] theorem State.bump_recs (s : State) (off lo n k : Nat) : (s.bump off lo n k).recs = s.recs := rfl
@[simp] theorem State.bump_fwClaims (s : State) (off lo n k : Nat) : (s.bump off lo n k).fwClaims = s.fwClaims := rfl
@[simp] theorem State.bump_beds (s : State) (off lo n k : Nat) : (s.bump off lo n k).beds = s.beds := rfl
@[simp] theorem State.bump_grd (s : State) (off lo n k : Nat) : (s.bump off lo n k).grd = s.grd := rfl
@[simp] theorem State.bump_brw (s : State) (off lo n k : Nat) : (s.bump off lo n k).brw = s.brw := rfl
@[simp] theorem State.bump_ddr (s : State) (off lo n k : Nat) : (s.bump off lo n k).ddr = s.ddr := rfl
@[simp] theorem State.bump_lnk (s : State) (off lo n k : Nat) : (s.bump off lo n k).lnk = s.lnk := rfl
@[simp] theorem State.bump_sec (s : State) (off lo n k : Nat) : (s.bump off lo n k).sec = s.sec := rfl
@[simp] theorem State.bump_dbg (s : State) (off lo n k : Nat) : (s.bump off lo n k).dbg = s.dbg := rfl
@[simp] theorem State.bump_pins (s : State) (off lo n k : Nat) : (s.bump off lo n k).pins = s.pins := rfl

@[simp] theorem State.setInbox_pending (s : State) (i : Nat) (m : Mbox) : (s.setInbox i m).pending = s.pending := rfl
@[simp] theorem State.setInbox_freeN (s : State) (i : Nat) (m : Mbox) : (s.setInbox i m).freeN = s.freeN := rfl
@[simp] theorem State.setInbox_clk (s : State) (i : Nat) (m : Mbox) : (s.setInbox i m).clk = s.clk := rfl
@[simp] theorem State.setInbox_pwr (s : State) (i : Nat) (m : Mbox) : (s.setInbox i m).pwr = s.pwr := rfl
@[simp] theorem State.setInbox_plots (s : State) (i : Nat) (m : Mbox) : (s.setInbox i m).plots = s.plots := rfl
@[simp] theorem State.setInbox_recs (s : State) (i : Nat) (m : Mbox) : (s.setInbox i m).recs = s.recs := rfl
@[simp] theorem State.setInbox_fwClaims (s : State) (i : Nat) (m : Mbox) : (s.setInbox i m).fwClaims = s.fwClaims := rfl
@[simp] theorem State.setInbox_beds (s : State) (i : Nat) (m : Mbox) : (s.setInbox i m).beds = s.beds := rfl
@[simp] theorem State.setInbox_grd (s : State) (i : Nat) (m : Mbox) : (s.setInbox i m).grd = s.grd := rfl
@[simp] theorem State.setInbox_brw (s : State) (i : Nat) (m : Mbox) : (s.setInbox i m).brw = s.brw := rfl
@[simp] theorem State.setInbox_ddr (s : State) (i : Nat) (m : Mbox) : (s.setInbox i m).ddr = s.ddr := rfl
@[simp] theorem State.setInbox_lnk (s : State) (i : Nat) (m : Mbox) : (s.setInbox i m).lnk = s.lnk := rfl
@[simp] theorem State.setInbox_sec (s : State) (i : Nat) (m : Mbox) : (s.setInbox i m).sec = s.sec := rfl
@[simp] theorem State.setInbox_dbg (s : State) (i : Nat) (m : Mbox) : (s.setInbox i m).dbg = s.dbg := rfl
@[simp] theorem State.setInbox_pins (s : State) (i : Nat) (m : Mbox) : (s.setInbox i m).pins = s.pins := rfl
@[simp] theorem State.setInbox_regs (s : State) (i : Nat) (m : Mbox) : (s.setInbox i m).regs = s.regs := rfl

@[simp] theorem State.setOutbox_pending (s : State) (i : Nat) (m : Mbox) : (s.setOutbox i m).pending = s.pending := rfl
@[simp] theorem State.setOutbox_freeN (s : State) (i : Nat) (m : Mbox) : (s.setOutbox i m).freeN = s.freeN := rfl
@[simp] theorem State.setOutbox_clk (s : State) (i : Nat) (m : Mbox) : (s.setOutbox i m).clk = s.clk := rfl
@[simp] theorem State.setOutbox_pwr (s : State) (i : Nat) (m : Mbox) : (s.setOutbox i m).pwr = s.pwr := rfl
@[simp] theorem State.setOutbox_plots (s : State) (i : Nat) (m : Mbox) : (s.setOutbox i m).plots = s.plots := rfl
@[simp] theorem State.setOutbox_recs (s : State) (i : Nat) (m : Mbox) : (s.setOutbox i m).recs = s.recs := rfl
@[simp] theorem State.setOutbox_fwClaims (s : State) (i : Nat) (m : Mbox) : (s.setOutbox i m).fwClaims = s.fwClaims := rfl
@[simp] theorem State.setOutbox_beds (s : State) (i : Nat) (m : Mbox) : (s.setOutbox i m).beds = s.beds := rfl
@[simp] theorem State.setOutbox_grd (s : State) (i : Nat) (m : Mbox) : (s.setOutbox i m).grd = s.grd := rfl
@[simp] theorem State.setOutbox_brw (s : State) (i : Nat) (m : Mbox) : (s.setOutbox i m).brw = s.brw := rfl
@[simp] theorem State.setOutbox_ddr (s : State) (i : Nat) (m : Mbox) : (s.setOutbox i m).ddr = s.ddr := rfl
@[simp] theorem State.setOutbox_lnk (s : State) (i : Nat) (m : Mbox) : (s.setOutbox i m).lnk = s.lnk := rfl
@[simp] theorem State.setOutbox_sec (s : State) (i : Nat) (m : Mbox) : (s.setOutbox i m).sec = s.sec := rfl
@[simp] theorem State.setOutbox_dbg (s : State) (i : Nat) (m : Mbox) : (s.setOutbox i m).dbg = s.dbg := rfl
@[simp] theorem State.setOutbox_pins (s : State) (i : Nat) (m : Mbox) : (s.setOutbox i m).pins = s.pins := rfl
@[simp] theorem State.setOutbox_regs (s : State) (i : Nat) (m : Mbox) : (s.setOutbox i m).regs = s.regs := rfl

/-! ## Reads after updates -/

@[simp] theorem State.bed_setBed (s : State) (p p' : Nat) (x : Bed) :
    (s.setBed p x).bed p' = if p' = p then x else s.bed p' := tget_tset _ _ _ _ _

@[simp] theorem State.plot_setPlot (s : State) (p p' : Nat) (x : Plot) :
    (s.setPlot p x).plot p' = if p' = p then x else s.plot p' := tget_tset _ _ _ _ _

@[simp] theorem State.runRec_setRunRec (s : State) (p p' : Nat) (x : Rec) :
    (s.setRunRec p x).runRec p' = if p' = p then x else s.runRec p' := tget_tset _ _ _ _ _

@[simp] theorem State.ring_setRing (s : State) (r r' : Nat) (x : Ring) :
    (s.setRing r x).ring r' = if r' = r then x else s.ring r' := tget_tset _ _ _ _ _

@[simp] theorem State.chan_setChan (s : State) (c c' : Nat) (x : Chan) :
    (s.setChan c x).chan c' = if c' = c then x else s.chan c' := tget_tset _ _ _ _ _

@[simp] theorem State.engine_setEngine (s : State) (h h' : Nat) (x : Engine) :
    (s.setEngine h x).engine h' = if h' = h then x else s.engine h' := tget_tset _ _ _ _ _

@[simp] theorem State.ctl_setCtl (s : State) (c c' : Nat) (x : Ctl) :
    (s.setCtl c x).ctl c' = if c' = c then x else s.ctl c' := tget_tset _ _ _ _ _

@[simp] theorem State.walker_setWalker (s : State) (w w' : Nat) (x : Walker) :
    (s.setWalker w x).walker w' = if w' = w then x else s.walker w' := tget_tset _ _ _ _ _

@[simp] theorem State.link_setLink (s : State) (l l' : Nat) (x : Link) :
    (s.setLink l x).link l' = if l' = l then x else s.link l' := tget_tset _ _ _ _ _

@[simp] theorem State.reg_setReg (s : State) (off off' : Nat) (x : W64) :
    (s.setReg off x).reg off' = if off' = off then x else s.reg off' := tget_tset _ _ _ _ _

@[simp] theorem State.bed_of_setPlot (s : State) (p : Nat) (x : Plot) (j : Nat) : (s.setPlot p x).bed j = s.bed j := rfl
@[simp] theorem State.bed_of_setRunRec (s : State) (p : Nat) (x : Rec) (j : Nat) : (s.setRunRec p x).bed j = s.bed j := rfl
@[simp] theorem State.bed_of_setRing (s : State) (r : Nat) (x : Ring) (j : Nat) : (s.setRing r x).bed j = s.bed j := rfl
@[simp] theorem State.bed_of_setChan (s : State) (c : Nat) (x : Chan) (j : Nat) : (s.setChan c x).bed j = s.bed j := rfl
@[simp] theorem State.bed_of_setEngine (s : State) (h : Nat) (x : Engine) (j : Nat) : (s.setEngine h x).bed j = s.bed j := rfl
@[simp] theorem State.bed_of_setCtl (s : State) (c : Nat) (x : Ctl) (j : Nat) : (s.setCtl c x).bed j = s.bed j := rfl
@[simp] theorem State.bed_of_setWalker (s : State) (w : Nat) (x : Walker) (j : Nat) : (s.setWalker w x).bed j = s.bed j := rfl
@[simp] theorem State.bed_of_setLink (s : State) (l : Nat) (x : Link) (j : Nat) : (s.setLink l x).bed j = s.bed j := rfl
@[simp] theorem State.bed_of_setReg (s : State) (off : Nat) (v : W64) (j : Nat) : (s.setReg off v).bed j = s.bed j := rfl
@[simp] theorem State.bed_of_setFld (s : State) (off lo n v : Nat) (j : Nat) : (s.setFld off lo n v).bed j = s.bed j := rfl
@[simp] theorem State.bed_of_bump (s : State) (off lo n k : Nat) (j : Nat) : (s.bump off lo n k).bed j = s.bed j := rfl
@[simp] theorem State.bed_of_setInbox (s : State) (i : Nat) (m : Mbox) (j : Nat) : (s.setInbox i m).bed j = s.bed j := rfl
@[simp] theorem State.bed_of_setOutbox (s : State) (i : Nat) (m : Mbox) (j : Nat) : (s.setOutbox i m).bed j = s.bed j := rfl
@[simp] theorem State.plot_of_setBed (s : State) (p : Nat) (b : Bed) (j : Nat) : (s.setBed p b).plot j = s.plot j := rfl
@[simp] theorem State.plot_of_setRunRec (s : State) (p : Nat) (x : Rec) (j : Nat) : (s.setRunRec p x).plot j = s.plot j := rfl
@[simp] theorem State.plot_of_setRing (s : State) (r : Nat) (x : Ring) (j : Nat) : (s.setRing r x).plot j = s.plot j := rfl
@[simp] theorem State.plot_of_setChan (s : State) (c : Nat) (x : Chan) (j : Nat) : (s.setChan c x).plot j = s.plot j := rfl
@[simp] theorem State.plot_of_setEngine (s : State) (h : Nat) (x : Engine) (j : Nat) : (s.setEngine h x).plot j = s.plot j := rfl
@[simp] theorem State.plot_of_setCtl (s : State) (c : Nat) (x : Ctl) (j : Nat) : (s.setCtl c x).plot j = s.plot j := rfl
@[simp] theorem State.plot_of_setWalker (s : State) (w : Nat) (x : Walker) (j : Nat) : (s.setWalker w x).plot j = s.plot j := rfl
@[simp] theorem State.plot_of_setLink (s : State) (l : Nat) (x : Link) (j : Nat) : (s.setLink l x).plot j = s.plot j := rfl
@[simp] theorem State.plot_of_setReg (s : State) (off : Nat) (v : W64) (j : Nat) : (s.setReg off v).plot j = s.plot j := rfl
@[simp] theorem State.plot_of_setFld (s : State) (off lo n v : Nat) (j : Nat) : (s.setFld off lo n v).plot j = s.plot j := rfl
@[simp] theorem State.plot_of_bump (s : State) (off lo n k : Nat) (j : Nat) : (s.bump off lo n k).plot j = s.plot j := rfl
@[simp] theorem State.plot_of_setInbox (s : State) (i : Nat) (m : Mbox) (j : Nat) : (s.setInbox i m).plot j = s.plot j := rfl
@[simp] theorem State.plot_of_setOutbox (s : State) (i : Nat) (m : Mbox) (j : Nat) : (s.setOutbox i m).plot j = s.plot j := rfl
@[simp] theorem State.runRec_of_setBed (s : State) (p : Nat) (b : Bed) (j : Nat) : (s.setBed p b).runRec j = s.runRec j := rfl
@[simp] theorem State.runRec_of_setPlot (s : State) (p : Nat) (x : Plot) (j : Nat) : (s.setPlot p x).runRec j = s.runRec j := rfl
@[simp] theorem State.runRec_of_setRing (s : State) (r : Nat) (x : Ring) (j : Nat) : (s.setRing r x).runRec j = s.runRec j := rfl
@[simp] theorem State.runRec_of_setChan (s : State) (c : Nat) (x : Chan) (j : Nat) : (s.setChan c x).runRec j = s.runRec j := rfl
@[simp] theorem State.runRec_of_setEngine (s : State) (h : Nat) (x : Engine) (j : Nat) : (s.setEngine h x).runRec j = s.runRec j := rfl
@[simp] theorem State.runRec_of_setCtl (s : State) (c : Nat) (x : Ctl) (j : Nat) : (s.setCtl c x).runRec j = s.runRec j := rfl
@[simp] theorem State.runRec_of_setWalker (s : State) (w : Nat) (x : Walker) (j : Nat) : (s.setWalker w x).runRec j = s.runRec j := rfl
@[simp] theorem State.runRec_of_setLink (s : State) (l : Nat) (x : Link) (j : Nat) : (s.setLink l x).runRec j = s.runRec j := rfl
@[simp] theorem State.runRec_of_setReg (s : State) (off : Nat) (v : W64) (j : Nat) : (s.setReg off v).runRec j = s.runRec j := rfl
@[simp] theorem State.runRec_of_setFld (s : State) (off lo n v : Nat) (j : Nat) : (s.setFld off lo n v).runRec j = s.runRec j := rfl
@[simp] theorem State.runRec_of_bump (s : State) (off lo n k : Nat) (j : Nat) : (s.bump off lo n k).runRec j = s.runRec j := rfl
@[simp] theorem State.runRec_of_setInbox (s : State) (i : Nat) (m : Mbox) (j : Nat) : (s.setInbox i m).runRec j = s.runRec j := rfl
@[simp] theorem State.runRec_of_setOutbox (s : State) (i : Nat) (m : Mbox) (j : Nat) : (s.setOutbox i m).runRec j = s.runRec j := rfl
@[simp] theorem State.ring_of_setBed (s : State) (p : Nat) (b : Bed) (j : Nat) : (s.setBed p b).ring j = s.ring j := rfl
@[simp] theorem State.ring_of_setPlot (s : State) (p : Nat) (x : Plot) (j : Nat) : (s.setPlot p x).ring j = s.ring j := rfl
@[simp] theorem State.ring_of_setRunRec (s : State) (p : Nat) (x : Rec) (j : Nat) : (s.setRunRec p x).ring j = s.ring j := rfl
@[simp] theorem State.ring_of_setChan (s : State) (c : Nat) (x : Chan) (j : Nat) : (s.setChan c x).ring j = s.ring j := rfl
@[simp] theorem State.ring_of_setEngine (s : State) (h : Nat) (x : Engine) (j : Nat) : (s.setEngine h x).ring j = s.ring j := rfl
@[simp] theorem State.ring_of_setCtl (s : State) (c : Nat) (x : Ctl) (j : Nat) : (s.setCtl c x).ring j = s.ring j := rfl
@[simp] theorem State.ring_of_setWalker (s : State) (w : Nat) (x : Walker) (j : Nat) : (s.setWalker w x).ring j = s.ring j := rfl
@[simp] theorem State.ring_of_setLink (s : State) (l : Nat) (x : Link) (j : Nat) : (s.setLink l x).ring j = s.ring j := rfl
@[simp] theorem State.ring_of_setReg (s : State) (off : Nat) (v : W64) (j : Nat) : (s.setReg off v).ring j = s.ring j := rfl
@[simp] theorem State.ring_of_setFld (s : State) (off lo n v : Nat) (j : Nat) : (s.setFld off lo n v).ring j = s.ring j := rfl
@[simp] theorem State.ring_of_bump (s : State) (off lo n k : Nat) (j : Nat) : (s.bump off lo n k).ring j = s.ring j := rfl
@[simp] theorem State.ring_of_setInbox (s : State) (i : Nat) (m : Mbox) (j : Nat) : (s.setInbox i m).ring j = s.ring j := rfl
@[simp] theorem State.ring_of_setOutbox (s : State) (i : Nat) (m : Mbox) (j : Nat) : (s.setOutbox i m).ring j = s.ring j := rfl
@[simp] theorem State.chan_of_setBed (s : State) (p : Nat) (b : Bed) (j : Nat) : (s.setBed p b).chan j = s.chan j := rfl
@[simp] theorem State.chan_of_setPlot (s : State) (p : Nat) (x : Plot) (j : Nat) : (s.setPlot p x).chan j = s.chan j := rfl
@[simp] theorem State.chan_of_setRunRec (s : State) (p : Nat) (x : Rec) (j : Nat) : (s.setRunRec p x).chan j = s.chan j := rfl
@[simp] theorem State.chan_of_setRing (s : State) (r : Nat) (x : Ring) (j : Nat) : (s.setRing r x).chan j = s.chan j := rfl
@[simp] theorem State.chan_of_setEngine (s : State) (h : Nat) (x : Engine) (j : Nat) : (s.setEngine h x).chan j = s.chan j := rfl
@[simp] theorem State.chan_of_setCtl (s : State) (c : Nat) (x : Ctl) (j : Nat) : (s.setCtl c x).chan j = s.chan j := rfl
@[simp] theorem State.chan_of_setWalker (s : State) (w : Nat) (x : Walker) (j : Nat) : (s.setWalker w x).chan j = s.chan j := rfl
@[simp] theorem State.chan_of_setLink (s : State) (l : Nat) (x : Link) (j : Nat) : (s.setLink l x).chan j = s.chan j := rfl
@[simp] theorem State.chan_of_setReg (s : State) (off : Nat) (v : W64) (j : Nat) : (s.setReg off v).chan j = s.chan j := rfl
@[simp] theorem State.chan_of_setFld (s : State) (off lo n v : Nat) (j : Nat) : (s.setFld off lo n v).chan j = s.chan j := rfl
@[simp] theorem State.chan_of_bump (s : State) (off lo n k : Nat) (j : Nat) : (s.bump off lo n k).chan j = s.chan j := rfl
@[simp] theorem State.chan_of_setInbox (s : State) (i : Nat) (m : Mbox) (j : Nat) : (s.setInbox i m).chan j = s.chan j := rfl
@[simp] theorem State.chan_of_setOutbox (s : State) (i : Nat) (m : Mbox) (j : Nat) : (s.setOutbox i m).chan j = s.chan j := rfl
@[simp] theorem State.engine_of_setBed (s : State) (p : Nat) (b : Bed) (j : Nat) : (s.setBed p b).engine j = s.engine j := rfl
@[simp] theorem State.engine_of_setPlot (s : State) (p : Nat) (x : Plot) (j : Nat) : (s.setPlot p x).engine j = s.engine j := rfl
@[simp] theorem State.engine_of_setRunRec (s : State) (p : Nat) (x : Rec) (j : Nat) : (s.setRunRec p x).engine j = s.engine j := rfl
@[simp] theorem State.engine_of_setRing (s : State) (r : Nat) (x : Ring) (j : Nat) : (s.setRing r x).engine j = s.engine j := rfl
@[simp] theorem State.engine_of_setChan (s : State) (c : Nat) (x : Chan) (j : Nat) : (s.setChan c x).engine j = s.engine j := rfl
@[simp] theorem State.engine_of_setCtl (s : State) (c : Nat) (x : Ctl) (j : Nat) : (s.setCtl c x).engine j = s.engine j := rfl
@[simp] theorem State.engine_of_setWalker (s : State) (w : Nat) (x : Walker) (j : Nat) : (s.setWalker w x).engine j = s.engine j := rfl
@[simp] theorem State.engine_of_setLink (s : State) (l : Nat) (x : Link) (j : Nat) : (s.setLink l x).engine j = s.engine j := rfl
@[simp] theorem State.engine_of_setReg (s : State) (off : Nat) (v : W64) (j : Nat) : (s.setReg off v).engine j = s.engine j := rfl
@[simp] theorem State.engine_of_setFld (s : State) (off lo n v : Nat) (j : Nat) : (s.setFld off lo n v).engine j = s.engine j := rfl
@[simp] theorem State.engine_of_bump (s : State) (off lo n k : Nat) (j : Nat) : (s.bump off lo n k).engine j = s.engine j := rfl
@[simp] theorem State.engine_of_setInbox (s : State) (i : Nat) (m : Mbox) (j : Nat) : (s.setInbox i m).engine j = s.engine j := rfl
@[simp] theorem State.engine_of_setOutbox (s : State) (i : Nat) (m : Mbox) (j : Nat) : (s.setOutbox i m).engine j = s.engine j := rfl
@[simp] theorem State.ctl_of_setBed (s : State) (p : Nat) (b : Bed) (j : Nat) : (s.setBed p b).ctl j = s.ctl j := rfl
@[simp] theorem State.ctl_of_setPlot (s : State) (p : Nat) (x : Plot) (j : Nat) : (s.setPlot p x).ctl j = s.ctl j := rfl
@[simp] theorem State.ctl_of_setRunRec (s : State) (p : Nat) (x : Rec) (j : Nat) : (s.setRunRec p x).ctl j = s.ctl j := rfl
@[simp] theorem State.ctl_of_setRing (s : State) (r : Nat) (x : Ring) (j : Nat) : (s.setRing r x).ctl j = s.ctl j := rfl
@[simp] theorem State.ctl_of_setChan (s : State) (c : Nat) (x : Chan) (j : Nat) : (s.setChan c x).ctl j = s.ctl j := rfl
@[simp] theorem State.ctl_of_setEngine (s : State) (h : Nat) (x : Engine) (j : Nat) : (s.setEngine h x).ctl j = s.ctl j := rfl
@[simp] theorem State.ctl_of_setWalker (s : State) (w : Nat) (x : Walker) (j : Nat) : (s.setWalker w x).ctl j = s.ctl j := rfl
@[simp] theorem State.ctl_of_setLink (s : State) (l : Nat) (x : Link) (j : Nat) : (s.setLink l x).ctl j = s.ctl j := rfl
@[simp] theorem State.ctl_of_setReg (s : State) (off : Nat) (v : W64) (j : Nat) : (s.setReg off v).ctl j = s.ctl j := rfl
@[simp] theorem State.ctl_of_setFld (s : State) (off lo n v : Nat) (j : Nat) : (s.setFld off lo n v).ctl j = s.ctl j := rfl
@[simp] theorem State.ctl_of_bump (s : State) (off lo n k : Nat) (j : Nat) : (s.bump off lo n k).ctl j = s.ctl j := rfl
@[simp] theorem State.ctl_of_setInbox (s : State) (i : Nat) (m : Mbox) (j : Nat) : (s.setInbox i m).ctl j = s.ctl j := rfl
@[simp] theorem State.ctl_of_setOutbox (s : State) (i : Nat) (m : Mbox) (j : Nat) : (s.setOutbox i m).ctl j = s.ctl j := rfl
@[simp] theorem State.walker_of_setBed (s : State) (p : Nat) (b : Bed) (j : Nat) : (s.setBed p b).walker j = s.walker j := rfl
@[simp] theorem State.walker_of_setPlot (s : State) (p : Nat) (x : Plot) (j : Nat) : (s.setPlot p x).walker j = s.walker j := rfl
@[simp] theorem State.walker_of_setRunRec (s : State) (p : Nat) (x : Rec) (j : Nat) : (s.setRunRec p x).walker j = s.walker j := rfl
@[simp] theorem State.walker_of_setRing (s : State) (r : Nat) (x : Ring) (j : Nat) : (s.setRing r x).walker j = s.walker j := rfl
@[simp] theorem State.walker_of_setChan (s : State) (c : Nat) (x : Chan) (j : Nat) : (s.setChan c x).walker j = s.walker j := rfl
@[simp] theorem State.walker_of_setEngine (s : State) (h : Nat) (x : Engine) (j : Nat) : (s.setEngine h x).walker j = s.walker j := rfl
@[simp] theorem State.walker_of_setCtl (s : State) (c : Nat) (x : Ctl) (j : Nat) : (s.setCtl c x).walker j = s.walker j := rfl
@[simp] theorem State.walker_of_setLink (s : State) (l : Nat) (x : Link) (j : Nat) : (s.setLink l x).walker j = s.walker j := rfl
@[simp] theorem State.walker_of_setReg (s : State) (off : Nat) (v : W64) (j : Nat) : (s.setReg off v).walker j = s.walker j := rfl
@[simp] theorem State.walker_of_setFld (s : State) (off lo n v : Nat) (j : Nat) : (s.setFld off lo n v).walker j = s.walker j := rfl
@[simp] theorem State.walker_of_bump (s : State) (off lo n k : Nat) (j : Nat) : (s.bump off lo n k).walker j = s.walker j := rfl
@[simp] theorem State.walker_of_setInbox (s : State) (i : Nat) (m : Mbox) (j : Nat) : (s.setInbox i m).walker j = s.walker j := rfl
@[simp] theorem State.walker_of_setOutbox (s : State) (i : Nat) (m : Mbox) (j : Nat) : (s.setOutbox i m).walker j = s.walker j := rfl
@[simp] theorem State.link_of_setBed (s : State) (p : Nat) (b : Bed) (j : Nat) : (s.setBed p b).link j = s.link j := rfl
@[simp] theorem State.link_of_setPlot (s : State) (p : Nat) (x : Plot) (j : Nat) : (s.setPlot p x).link j = s.link j := rfl
@[simp] theorem State.link_of_setRunRec (s : State) (p : Nat) (x : Rec) (j : Nat) : (s.setRunRec p x).link j = s.link j := rfl
@[simp] theorem State.link_of_setRing (s : State) (r : Nat) (x : Ring) (j : Nat) : (s.setRing r x).link j = s.link j := rfl
@[simp] theorem State.link_of_setChan (s : State) (c : Nat) (x : Chan) (j : Nat) : (s.setChan c x).link j = s.link j := rfl
@[simp] theorem State.link_of_setEngine (s : State) (h : Nat) (x : Engine) (j : Nat) : (s.setEngine h x).link j = s.link j := rfl
@[simp] theorem State.link_of_setCtl (s : State) (c : Nat) (x : Ctl) (j : Nat) : (s.setCtl c x).link j = s.link j := rfl
@[simp] theorem State.link_of_setWalker (s : State) (w : Nat) (x : Walker) (j : Nat) : (s.setWalker w x).link j = s.link j := rfl
@[simp] theorem State.link_of_setReg (s : State) (off : Nat) (v : W64) (j : Nat) : (s.setReg off v).link j = s.link j := rfl
@[simp] theorem State.link_of_setFld (s : State) (off lo n v : Nat) (j : Nat) : (s.setFld off lo n v).link j = s.link j := rfl
@[simp] theorem State.link_of_bump (s : State) (off lo n k : Nat) (j : Nat) : (s.bump off lo n k).link j = s.link j := rfl
@[simp] theorem State.link_of_setInbox (s : State) (i : Nat) (m : Mbox) (j : Nat) : (s.setInbox i m).link j = s.link j := rfl
@[simp] theorem State.link_of_setOutbox (s : State) (i : Nat) (m : Mbox) (j : Nat) : (s.setOutbox i m).link j = s.link j := rfl
@[simp] theorem State.reg_of_setBed (s : State) (p : Nat) (b : Bed) (j : Nat) : (s.setBed p b).reg j = s.reg j := rfl
@[simp] theorem State.reg_of_setPlot (s : State) (p : Nat) (x : Plot) (j : Nat) : (s.setPlot p x).reg j = s.reg j := rfl
@[simp] theorem State.reg_of_setRunRec (s : State) (p : Nat) (x : Rec) (j : Nat) : (s.setRunRec p x).reg j = s.reg j := rfl
@[simp] theorem State.reg_of_setRing (s : State) (r : Nat) (x : Ring) (j : Nat) : (s.setRing r x).reg j = s.reg j := rfl
@[simp] theorem State.reg_of_setChan (s : State) (c : Nat) (x : Chan) (j : Nat) : (s.setChan c x).reg j = s.reg j := rfl
@[simp] theorem State.reg_of_setEngine (s : State) (h : Nat) (x : Engine) (j : Nat) : (s.setEngine h x).reg j = s.reg j := rfl
@[simp] theorem State.reg_of_setCtl (s : State) (c : Nat) (x : Ctl) (j : Nat) : (s.setCtl c x).reg j = s.reg j := rfl
@[simp] theorem State.reg_of_setWalker (s : State) (w : Nat) (x : Walker) (j : Nat) : (s.setWalker w x).reg j = s.reg j := rfl
@[simp] theorem State.reg_of_setLink (s : State) (l : Nat) (x : Link) (j : Nat) : (s.setLink l x).reg j = s.reg j := rfl
@[simp] theorem State.reg_of_setInbox (s : State) (i : Nat) (m : Mbox) (j : Nat) : (s.setInbox i m).reg j = s.reg j := rfl
@[simp] theorem State.reg_of_setOutbox (s : State) (i : Nat) (m : Mbox) (j : Nat) : (s.setOutbox i m).reg j = s.reg j := rfl

theorem State.ready_congr (s t : State) (h : t.regs = s.regs) : t.ready = s.ready := by
  simp [State.ready, State.fld, State.reg, h]

end Sys2Proof.Machine
end

