-- ==== Sys2Proof/Laws/Memory.lean ====
section
/-! SUPPORT. Memories: a write keeps the canonical form; a read after a write gives what was written inside it and what
stood there before outside it. -/

namespace Sys2Proof.Machine

theorem mget_of_notMem (d : Byte) (m : Mem) (a : Nat) (h : ∀ e ∈ m, e.1 ≠ a) : mget d m a = d := by
  induction m with
  | nil => rfl
  | cons e r ih =>
    have h1 : e.1 ≠ a := h e (by simp)
    show (if e.1 = a then e.2 else tget (fun _ => d) r a) = d
    rw [if_neg h1]
    exact ih fun x hx => h x (by simp [hx])

theorem mget_append (d : Byte) (m n : Mem) (a : Nat) (h : ∀ e ∈ m, e.1 ≠ a) : mget d (m ++ n) a = mget d n a := by
  induction m with
  | nil => rfl
  | cons e r ih =>
    have h1 : e.1 ≠ a := h e (by simp)
    show (if e.1 = a then e.2 else tget (fun _ => d) (r ++ n) a) = _
    rw [if_neg h1]
    exact ih fun x hx => h x (by simp [hx])

theorem mget_append_right (d : Byte) (m n : Mem) (a : Nat) (h : ∀ e ∈ n, e.1 ≠ a) : mget d (m ++ n) a = mget d m a := by
  induction m with
  | nil => exact mget_of_notMem d n a h
  | cons e r ih =>
    show (if e.1 = a then e.2 else tget (fun _ => d) (r ++ n) a) = if e.1 = a then e.2 else tget (fun _ => d) r a
    split
    · rfl
    · exact ih

theorem mget_filter (d : Byte) (m : Mem) (p : Nat → Bool) (a : Nat) (h : p a = true) :
    mget d (m.filter fun e => p e.1) a = mget d m a := by
  induction m with
  | nil => rfl
  | cons e r ih =>
    rw [List.filter_cons]
    split
    · show (if e.1 = a then e.2 else mget d (r.filter fun e => p e.1) a) = if e.1 = a then e.2 else mget d r a
      rw [ih]
    · rename_i hp
      have h1 : e.1 ≠ a := fun he => hp (he ▸ h)
      show mget d (r.filter fun e => p e.1) a = if e.1 = a then e.2 else mget d r a
      rw [if_neg h1, ih]

theorem mcells_bounds (d : Byte) (a : Nat) (bs : List Byte) : ∀ e ∈ mcells d a bs, a ≤ e.1 ∧ e.1 < a + bs.length ∧ e.2 ≠ d := by
  induction bs generalizing a with
  | nil => simp [mcells]
  | cons b bs ih =>
    intro e he
    unfold mcells at he
    split at he
    · obtain ⟨h1, h2, h3⟩ := ih (a + 1) e he
      exact ⟨by omega, by simp only [List.length_cons]; omega, h3⟩
    · rename_i hb
      rcases List.mem_cons.mp he with he | he
      · subst he; simp [hb]
      · obtain ⟨h1, h2, h3⟩ := ih (a + 1) e he
        exact ⟨by omega, by simp only [List.length_cons]; omega, h3⟩

theorem mget_mcells (d : Byte) (a : Nat) (bs : List Byte) (i : Nat) (h : i < bs.length) :
    mget d (mcells d a bs) (a + i) = bs.getD i d := by
  induction bs generalizing a i with
  | nil => simp at h
  | cons b bs ih =>
    cases i with
    | zero =>
      unfold mcells
      split
      · rename_i hb
        rw [mget_of_notMem]
        · simp [hb]
        · intro e he
          have := mcells_bounds d (a + 1) bs e he
          omega
      · simp [mget, tget]
    | succ i =>
      have hi : i < bs.length := by simpa using h
      have := ih (a + 1) i hi
      rw [show a + 1 + i = a + (i + 1) by omega] at this
      unfold mcells
      split
      · simpa using this
      · show (if a = a + (i + 1) then b else mget d (mcells d (a + 1) bs) (a + (i + 1))) = _
        rw [if_neg (by omega), this]
        simp

/-- A write leaves every byte outside it as it was. -/
theorem mget_mwrite_outside (d : Byte) (m : Mem) (a : Nat) (bs : List Byte) (k : Nat) (h : k < a ∨ a + bs.length ≤ k) :
    mget d (mwrite d m a bs) k = mget d m k := by
  have hc : ∀ e ∈ mcells d a bs, e.1 ≠ k := fun e he => by have := mcells_bounds d a bs e he; omega
  unfold mwrite
  rcases h with h | h
  · rw [mget_append_right, mget_append_right _ _ _ _ hc, mget_filter d m (fun x => decide (x < a)) k (by simpa using h)]
    intro e he
    have := (List.mem_filter.mp he).2
    simp at this
    omega
  · rw [mget_append, mget_filter d m (fun x => decide (a + bs.length ≤ x)) k (by simpa using h)]
    intro e he
    rcases List.mem_append.mp he with he | he
    · have := (List.mem_filter.mp he).2
      simp at this
      omega
    · exact hc e he

/-- A write puts its bytes in place. -/
theorem mget_mwrite_inside (d : Byte) (m : Mem) (a : Nat) (bs : List Byte) (i : Nat) (h : i < bs.length) :
    mget d (mwrite d m a bs) (a + i) = bs.getD i d := by
  unfold mwrite
  rw [mget_append_right, mget_append, mget_mcells d a bs i h]
  · intro e he
    have := (List.mem_filter.mp he).2
    simp at this
    omega
  · intro e he
    have := (List.mem_filter.mp he).2
    simp at this
    omega

theorem mcells_wf (d : Byte) (a : Nat) (bs : List Byte) : Memory.wf d (mcells d a bs) := by
  refine ⟨?_, fun e he => (mcells_bounds d a bs e he).2.2⟩
  induction bs generalizing a with
  | nil => simp [mcells]
  | cons b bs ih =>
    unfold mcells
    split
    · exact ih (a + 1)
    · rw [List.pairwise_cons]
      refine ⟨fun e he => ?_, ih (a + 1)⟩
      have := mcells_bounds d (a + 1) bs e he
      show a < e.1
      omega

/-- A write keeps the canonical form. -/
theorem mwrite_wf (d : Byte) (m : Mem) (a : Nat) (bs : List Byte) (h : Memory.wf d m) : Memory.wf d (mwrite d m a bs) := by
  have hc := mcells_wf d a bs
  refine ⟨?_, fun e he => ?_⟩
  · unfold mwrite
    rw [List.pairwise_append, List.pairwise_append]
    refine ⟨⟨h.1.filter _, hc.1, ?_⟩, h.1.filter _, ?_⟩
    · intro x hx y hy
      have h1 := (List.mem_filter.mp hx).2
      have h2 := mcells_bounds d a bs y hy
      simp at h1
      omega
    · intro x hx y hy
      have h1 := (List.mem_filter.mp hy).2
      simp at h1
      rcases List.mem_append.mp hx with hx | hx
      · have h2 := (List.mem_filter.mp hx).2
        simp at h2
        omega
      · have h2 := mcells_bounds d a bs x hx
        omega
  · unfold mwrite at he
    rcases List.mem_append.mp he with he | he
    · rcases List.mem_append.mp he with he | he
      · exact h.2 e (List.mem_filter.mp he).1
      · exact hc.2 e he
    · exact h.2 e (List.mem_filter.mp he).1

/-- One byte written keeps the canonical form. -/
theorem mset_wf (d : Byte) (m : Mem) (a : Nat) (v : Byte) (h : Memory.wf d m) : Memory.wf d (mset d m a v) :=
  twf_tset _ m a v h

/-- What a read of several bytes gives, byte by byte. -/
theorem mread_getD (d : Byte) (m : Mem) (a n i : Nat) (h : i < n) : (mread d m a n).getD i 0 = mget d m (a + i) := by
  have hp : (fun x => decide (a ≤ x) && decide (x < a + n)) (a + i) = true := by simp; omega
  have := mget_filter d m (fun x => decide (a ≤ x) && decide (x < a + n)) (a + i) hp
  simp only [mread, List.getD_eq_getElem?_getD, List.getElem?_map, List.getElem?_range h, Option.map_some, Option.getD_some]
  exact this

@[simp] theorem mread_length (d : Byte) (m : Mem) (a n : Nat) : (mread d m a n).length = n := by simp [mread]

/-- Every memory of the reset state is in canonical form. -/
theorem reset_memories : Memory.wf 0 State.reset.host.mem ∧ Memory.wf 0 State.reset.ddr.mem ∧ Memory.wf 0xFF State.reset.sec.flash := by
  simp [State.reset, twf]

end Sys2Proof.Machine
end

