-- ==== Sys2Proof/Laws/Issue.lean ====
section
/-! SUPPORT. What issuing a bed instruction can do: the sequencer's bookkeeping, and the effect on the bed itself when the
effect tells the rest of the module nothing but events. -/

namespace Sys2Proof.Machine

/-! ## Operations that leave every bed as it was -/

@[simp] theorem State.event_beds (s : State) (p k b i e : Nat) (pl : List Byte) : (s.event p k b i e pl).beds = s.beds := by
  unfold State.event
  simp only []
  split
  · rfl
  · split <;> rfl

@[simp] theorem State.trace_beds (s : State) (bs : List Byte) : (s.trace bs).beds = s.beds := by
  unfold State.trace
  simp only []
  split
  · exact State.setReg_beds _ _ _
  · split
    · exact State.setReg_beds _ _ _
    · split <;> exact State.setReg_beds _ _ _

@[simp] theorem State.traceIssue_beds (s : State) (c : Ctx) : (s.traceIssue c).beds = s.beds := by
  unfold State.traceIssue
  simp only []
  split <;> simp

theorem State.bed_congr {s t : State} (h : t.beds = s.beds) (p : Nat) : t.bed p = s.bed p := by
  unfold State.bed
  rw [h]

/-- What a fence request can change of a bed. -/
theorem State.askFence_bed (s : State) (p : Nat) (remap : Bool) :
    (∃ f, (s.askFence p remap).bed p = { s.bed p with fencePending := f }) ∧ ∀ q, q ≠ p → (s.askFence p remap).bed q = s.bed q := by
  unfold State.askFence
  simp only []
  split
  · exact ⟨⟨(s.bed p).fencePending, rfl⟩, fun _ _ => rfl⟩
  · refine ⟨⟨some (s.now, remap), by simp⟩, fun q h => by simp [h]⟩

theorem State.watchEcc_bed (s : State) (p : Nat) :
    (∃ f, (s.watchEcc p).bed p = { s.bed p with fencePending := f }) ∧ ∀ q, q ≠ p → (s.watchEcc p).bed q = s.bed q := by
  unfold State.watchEcc
  split
  · exact s.askFence_bed p true
  · exact ⟨⟨(s.bed p).fencePending, rfl⟩, fun _ _ => rfl⟩

/-- Two states that differ at most in run records, and in the trace buffer with its status register. -/
structure Aside (s t : State) : Prop where
  pending : t.pending = s.pending
  freeN : t.freeN = s.freeN
  clk : t.clk = s.clk
  pwr : t.pwr = s.pwr
  host : t.host = s.host
  plots : t.plots = s.plots
  fwClaims : t.fwClaims = s.fwClaims
  beds : t.beds = s.beds
  grd : t.grd = s.grd
  brw : t.brw = s.brw
  ddr : t.ddr = s.ddr
  lnk : t.lnk = s.lnk
  sec : t.sec = s.sec
  pins : t.pins = s.pins
  dbg : t.dbg = { s.dbg with trace := t.dbg.trace }
  reg : ∀ off, off ≠ 0x100208 → t.reg off = s.reg off

theorem Aside.refl (s : State) : Aside s s := ⟨rfl, rfl, rfl, rfl, rfl, rfl, rfl, rfl, rfl, rfl, rfl, rfl, rfl, rfl, rfl, fun _ _ => rfl⟩

theorem Aside.trans {s t u : State} (a : Aside s t) (b : Aside t u) : Aside s u :=
  ⟨b.pending.trans a.pending, b.freeN.trans a.freeN, b.clk.trans a.clk, b.pwr.trans a.pwr, b.host.trans a.host,
    b.plots.trans a.plots, b.fwClaims.trans a.fwClaims, b.beds.trans a.beds, b.grd.trans a.grd, b.brw.trans a.brw,
    b.ddr.trans a.ddr, b.lnk.trans a.lnk, b.sec.trans a.sec, b.pins.trans a.pins, by rw [b.dbg, a.dbg],
    fun o h => (b.reg o h).trans (a.reg o h)⟩

theorem Aside.of_setRunRec (s : State) (p : Nat) (x : Rec) : Aside s (s.setRunRec p x) := by
  constructor <;> first | rfl | simp

theorem Aside.of_setReg (s : State) (v : W64) : Aside s (s.setReg 0x100208 v) := by
  constructor <;> first | rfl | simp
  intro off h1 h2
  exact absurd h2 h1

theorem State.event_aside (s : State) (p k b i e : Nat) (pl : List Byte) : Aside s (s.event p k b i e pl) := by
  unfold State.event
  simp only []
  split
  · exact .refl s
  · split <;> exact .of_setRunRec _ _ _

theorem Aside.of_trace (s : State) (m : Mem) : Aside s { s with dbg := { s.dbg with trace := m } } := by
  constructor <;> first | rfl | simp [State.reg]

theorem State.trace_aside (s : State) (bs : List Byte) : Aside s (s.trace bs) := by
  unfold State.trace
  simp only []
  split
  · exact .of_setReg _ _
  · split
    · exact (Aside.of_trace _ _).trans (.of_setReg _ _)
    · split <;> exact (Aside.of_trace _ _).trans (.of_setReg _ _)

theorem State.traceIssue_aside (s : State) (c : Ctx) : Aside s (s.traceIssue c) := by
  unfold State.traceIssue
  simp only []
  split
  · exact State.trace_aside _ _
  · exact .refl s

/-- Whether what a bed tells the rest of the module is events only. -/
def Quiet (os : List BOut) : Prop := ∀ o ∈ os, ∃ k pl, o = BOut.event k pl

theorem Quiet.nil : Quiet [] := by simp [Quiet]

theorem Quiet.append {a b : List BOut} (ha : Quiet a) (hb : Quiet b) : Quiet (a ++ b) := by
  intro o ho
  rcases List.mem_append.mp ho with h | h
  · exact ha o h
  · exact hb o h

theorem State.outs_beds (s : State) (c : Ctx) (os : List BOut) (h : Quiet os) : (s.outs c os).beds = s.beds := by
  unfold State.outs
  induction os generalizing s with
  | nil => rfl
  | cons o os ih =>
    obtain ⟨k, pl, rfl⟩ := h o (by simp)
    rw [List.foldl_cons, ih _ fun x hx => h x (by simp [hx])]
    simp

/-! ## Issue -/

/-- The state before the effect of an enabled instruction: its bed has moved on, its varying execution and its issue trace
are recorded. -/
def State.before (s : State) (h : Head) (p : Nat) (opens : Option (Nat × Nat)) : State :=
  let t := s.setBed p (s.issued h p opens)
  let t := if h.varies ∧ (s.ctx p).exec = 1 then
      t.event (s.ctx p).plot 0x0A (s.ctx p).log (s.ctx p).index (s.ctx p).exec [(s.bed p).nextWord.setWidth 8] else t
  t.traceIssue (s.ctx p)

@[simp] theorem State.before_beds (s : State) (h : Head) (p : Nat) (o : Option (Nat × Nat)) :
    (s.before h p o).beds = (s.setBed p (s.issued h p o)).beds := by
  unfold State.before
  simp only []
  split <;> simp

@[simp] theorem State.before_bed (s : State) (h : Head) (p : Nat) (o : Option (Nat × Nat)) (q : Nat) :
    (s.before h p o).bed q = if q = p then s.issued h p o else s.bed q := by
  rw [State.bed_congr (State.before_beds s h p o)]
  simp

/-- With every word that is due already there, nothing lands at an issue. -/
theorem State.landed_arrived {s : State} {p : Nat} (h : Arrived s p) : s.landed p = s := by
  unfold Arrived at h
  unfold State.landed
  cases hj : (s.bed p).job with
  | none => simp only [hj]
  | some j =>
    simp only [hj, Option.getD_some] at h ⊢
    split
    · unfold State.landDue
      have he : ((s.plot j.plot).words.filter fun (w : Word) =>
          decide (w.due ≤ (s.bed p).due) && (some p == (none : Option Nat) || some p == some w.bed)) = [] := by
        rw [List.filter_eq_nil_iff]
        intro w hw
        by_cases hb : w.bed = p
        · have := h w hw hb
          simp [hb, Nat.not_le.mpr this]
        · have hb' : ¬p = w.bed := fun e => hb e.symm
          simp [hb']
      simp only [he, List.isEmpty_nil, if_true]
    · rfl

theorem State.issueBoth_eq {s : State} {b : BitVec 7} {h : Head} {i : Instr} {p : Nat} (hI : Issuing s b h i p)
    (opens : Option (Nat × Nat)) (f : Bool → Ctx → State → State) :
    s.issueBoth b h i opens f = f true (s.ctx p) (s.before h p opens) := by
  obtain ⟨h1, ha, h2, h3⟩ := hI
  unfold State.issueBoth State.before State.issued
  simp only [h1, State.landed_arrived ha, h2, h3, if_true]

theorem State.issueWith_eq {s : State} {b : BitVec 7} {h : Head} {i : Instr} {p : Nat} (hI : Issuing s b h i p)
    (opens : Option (Nat × Nat)) (f : Ctx → State → State) :
    s.issueWith b h i opens f = f (s.ctx p) (s.before h p opens) := by
  unfold State.issueWith
  rw [State.issueBoth_eq hI]
  simp

theorem State.issue_eq {s : State} {b : BitVec 7} {h : Head} {i : Instr} {p : Nat} (hI : Issuing s b h i p)
    (body : Ctx → Bed → Bed × List BOut) :
    s.issue b h i body =
      (((s.before h p none).setBed p (body (s.ctx p) (s.issued h p none)).1).outs (s.ctx p)
        (body (s.ctx p) (s.issued h p none)).2).watchEcc p := by
  unfold State.issue
  rw [State.issueWith_eq hI]
  have hp : (s.ctx p).phys = p := rfl
  simp only [hp, State.before_bed, if_true]

/-- The effect of an instruction on its own bed, when it tells the rest of the module events only: the bed is what the
instruction makes of it, but for a fence that may have been asked for; every other bed is as it was. -/
theorem State.issue_bed {s : State} {b : BitVec 7} {h : Head} {i : Instr} {p : Nat} (hI : Issuing s b h i p)
    (body : Ctx → Bed → Bed × List BOut) (hq : Quiet (body (s.ctx p) (s.issued h p none)).2) :
    (∃ f, (s.issue b h i body).bed p = { (body (s.ctx p) (s.issued h p none)).1 with fencePending := f }) ∧
      ∀ q, q ≠ p → (s.issue b h i body).bed q = s.bed q := by
  rw [State.issue_eq hI]
  have hb := State.outs_beds ((s.before h p none).setBed p (body (s.ctx p) (s.issued h p none)).1) (s.ctx p) _ hq
  have hw := State.watchEcc_bed
    ((((s.before h p none).setBed p (body (s.ctx p) (s.issued h p none)).1)).outs (s.ctx p) (body (s.ctx p) (s.issued h p none)).2) p
  constructor
  · obtain ⟨f, hf⟩ := hw.1
    refine ⟨f, ?_⟩
    rw [hf, State.bed_congr hb]
    simp
  · intro q hqp
    rw [hw.2 q hqp, State.bed_congr hb]
    simp [hqp]

/-! ## What issuing leaves unchanged -/

theorem onlyBed_refl (s : State) (p : Nat) : OnlyBed s s p :=
  ⟨rfl, rfl, rfl, rfl, rfl, rfl, rfl, rfl, rfl, rfl, rfl, rfl, rfl, rfl, fun _ _ => rfl, fun _ _ => rfl⟩

theorem onlyBed_trans {s t u : State} {p : Nat} (a : OnlyBed s t p) (b : OnlyBed t u p) : OnlyBed s u p :=
  ⟨b.pending.trans a.pending, b.freeN.trans a.freeN, b.clk.trans a.clk, b.pwr.trans a.pwr, b.host.trans a.host,
    b.plots.trans a.plots, b.fwClaims.trans a.fwClaims, b.grd.trans a.grd, b.brw.trans a.brw, b.ddr.trans a.ddr,
    b.lnk.trans a.lnk, b.sec.trans a.sec, b.pins.trans a.pins, by rw [b.dbg, a.dbg],
    fun q h => (b.bed q h).trans (a.bed q h), fun o h => (b.reg o h).trans (a.reg o h)⟩

theorem Aside.only {s t : State} (a : Aside s t) (p : Nat) : OnlyBed s t p :=
  ⟨a.pending, a.freeN, a.clk, a.pwr, a.host, a.plots, a.fwClaims, a.grd, a.brw, a.ddr, a.lnk, a.sec, a.pins, a.dbg,
    fun q _ => State.bed_congr a.beds q, a.reg⟩

theorem onlyBed_of_setBed (s : State) (p : Nat) (b : Bed) : OnlyBed s (s.setBed p b) p :=
  ⟨rfl, rfl, rfl, rfl, rfl, rfl, rfl, rfl, rfl, rfl, rfl, rfl, rfl, rfl, fun q h => by simp [h], fun _ _ => rfl⟩

theorem State.watchEcc_only (s : State) (p : Nat) : OnlyBed s (s.watchEcc p) p := by
  unfold State.watchEcc State.askFence
  simp only []
  split
  · split
    · exact onlyBed_refl _ _
    · exact onlyBed_of_setBed _ _ _
  · exact onlyBed_refl _ _

theorem State.outs_aside (s : State) (c : Ctx) (os : List BOut) (h : Quiet os) : Aside s (s.outs c os) := by
  unfold State.outs
  induction os generalizing s with
  | nil => exact .refl s
  | cons o os ih =>
    obtain ⟨k, pl, rfl⟩ := h o (by simp)
    rw [List.foldl_cons]
    exact (State.event_aside _ _ _ _ _ _ _).trans (ih _ fun x hx => h x (by simp [hx]))

theorem State.before_only (s : State) (h : Head) (p : Nat) (o : Option (Nat × Nat)) : OnlyBed s (s.before h p o) p := by
  unfold State.before
  simp only []
  refine onlyBed_trans (onlyBed_of_setBed s p (s.issued h p o)) ?_
  split
  · exact ((State.event_aside _ _ _ _ _ _ _).trans (State.traceIssue_aside _ _)).only p
  · exact (State.traceIssue_aside _ _).only p

/-- Such an instruction changes nothing but its bed, run records and the trace. -/
theorem State.issue_only {s : State} {b : BitVec 7} {h : Head} {i : Instr} {p : Nat} (hI : Issuing s b h i p)
    (body : Ctx → Bed → Bed × List BOut) (hq : Quiet (body (s.ctx p) (s.issued h p none)).2) :
    OnlyBed s (s.issue b h i body) p := by
  rw [State.issue_eq hI]
  exact onlyBed_trans (s.before_only h p none) (onlyBed_trans (onlyBed_of_setBed _ _ _)
    (onlyBed_trans ((State.outs_aside _ _ _ hq).only p) (State.watchEcc_only _ _)))

/-- Both at once, for an effect known by its value. -/
theorem State.issue_next {s : State} {b : BitVec 7} {h : Head} {i : Instr} {p : Nat} (hI : Issuing s b h i p)
    {body : Ctx → Bed → Bed × List BOut} {x : Bed} {os : List BOut} (hb : body (s.ctx p) (s.issued h p none) = (x, os))
    (hq : Quiet os) : BedIs ((s.issue b h i body).bed p) x ∧ OnlyBed s (s.issue b h i body) p := by
  have hq' : Quiet (body (s.ctx p) (s.issued h p none)).2 := by rw [hb]; exact hq
  obtain ⟨f, hf⟩ := (State.issue_bed hI body hq').1
  refine ⟨⟨f, ?_⟩, State.issue_only hI body hq'⟩
  rw [hf, hb]

/-- The same as an answer of exec. -/
theorem State.issue_issues {s : State} {b : BitVec 7} {h : Head} {i : Instr} {p : Nat} (hI : Issuing s b h i p)
    {body : Ctx → Bed → Bed × List BOut} {x : Bed} {os : List BOut} (he : exec i s = .next (s.issue b h i body))
    (hb : body (s.ctx p) (s.issued h p none) = (x, os)) (hq : Quiet os) : Issues i s p x :=
  ⟨_, he, State.issue_next hI hb hq⟩

theorem Quiet.one (k : Nat) (pl : List Byte) : Quiet [.event k pl] := by
  intro o ho
  exact ⟨k, pl, by simpa using ho⟩

/-! ## The bed that issues -/

@[simp] theorem State.issued_ecc (s : State) (h : Head) (p : Nat) (o : Option (Nat × Nat)) : (s.issued h p o).ecc = (s.bed p).ecc := rfl
@[simp] theorem State.issued_mem (s : State) (h : Head) (p : Nat) (o : Option (Nat × Nat)) : (s.issued h p o).mem = (s.bed p).mem := rfl
@[simp] theorem State.issued_arrays (s : State) (h : Head) (p : Nat) (o : Option (Nat × Nat)) :
    (s.issued h p o).arrays = (s.bed p).arrays := rfl
@[simp] theorem State.issued_vregs (s : State) (h : Head) (p : Nat) (o : Option (Nat × Nat)) :
    (s.issued h p o).vregs = (s.bed p).vregs := rfl
@[simp] theorem State.issued_index (s : State) (h : Head) (p : Nat) (o : Option (Nat × Nat)) :
    (s.issued h p o).seq.index = (s.bed p).seq.pc := rfl

/-- Reading a bed without errors changes nothing and meets none. -/
theorem Bed.touch_clean (b : Bed) (index : Nat) (rs : List (Nat × Nat)) (hc : Clean b) : b.touch index rs = (b, none) := by
  unfold Bed.touch Bed.hits
  simp [show b.ecc = [] from hc]

/-- Writing a bed without errors puts the bytes in place and reports nothing. -/
theorem Bed.putBytes_clean (b : Bed) (index addr : Nat) (bs : List Byte) (hc : Clean b) :
    b.putBytes index addr bs = ({ b with mem := mwrite 0 b.mem addr bs, scrubPending := scrubbed b addr bs.length }, []) := by
  unfold Bed.putBytes Bed.put scrubbed
  simp [show b.ecc = [] from hc, joinBW, applyBW, bwLine]

end Sys2Proof.Machine
end

