-- ==== Sys2Proof/Laws/Tables.lean ====
section
/-! SUPPORT. Tables set at several keys, and lists with their places. -/

namespace Sys2Proof.Machine

theorem tget_tsetAll_outside {α : Type} [DecidableEq α] (d : Nat → α) (kvs : List (Nat × α)) (t : Tbl α) (k : Nat)
    (h : ∀ e ∈ kvs, e.1 ≠ k) : tget d (tsetAll d t kvs) k = tget d t k := by
  unfold tsetAll
  induction kvs generalizing t with
  | nil => rfl
  | cons e es ih =>
    rw [List.foldl_cons, ih _ fun x hx => h x (by simp [hx]), tget_tset_ne _ _ _ _ _ (Ne.symm (h e (by simp)))]

theorem tget_tsetAll_inside {α : Type} [DecidableEq α] (d : Nat → α) (kvs : List (Nat × α)) (t : Tbl α) (k : Nat) (v : α)
    (hn : (kvs.map (·.1)).Nodup) (h : (k, v) ∈ kvs) : tget d (tsetAll d t kvs) k = v := by
  induction kvs generalizing t with
  | nil => simp at h
  | cons e es ih =>
    have hn' := List.nodup_cons.mp (by simpa using hn : (e.1 :: es.map (·.1)).Nodup)
    rw [show tsetAll d t (e :: es) = tsetAll d (tset d t e.1 e.2) es from rfl]
    rcases List.mem_cons.mp h with rfl | h
    · rw [tget_tsetAll_outside d es _ k, tget_tset_self]
      intro x hx hxk
      exact hn'.1 (hxk ▸ List.mem_map.mpr ⟨x, hx, rfl⟩)
    · exact ih _ hn'.2 h

theorem mem_enumFrom {α : Type} (k : Nat) (l : List α) (i : Nat) (x : α) :
    (i, x) ∈ enumFrom k l ↔ k ≤ i ∧ l[i - k]? = some x := by
  induction l generalizing k with
  | nil => simp [enumFrom]
  | cons y ys ih =>
    rw [enumFrom, List.mem_cons, ih]
    constructor
    · rintro (h | ⟨h, h'⟩)
      · cases h
        simp
      · refine ⟨by omega, ?_⟩
        rw [show i - k = (i - (k + 1)) + 1 by omega]
        simpa using h'
    · rintro ⟨h, h'⟩
      by_cases hk : i = k
      · subst hk
        left
        simp at h'
        rw [h']
      · right
        refine ⟨by omega, ?_⟩
        rw [show i - k = (i - (k + 1)) + 1 by omega] at h'
        simpa using h'

theorem enumFrom_keys {α : Type} (k : Nat) (l : List α) : (enumFrom k l).map (·.1) = upFrom k l.length := by
  induction l generalizing k with
  | nil => rfl
  | cons y ys ih =>
    simp only [enumFrom, List.map_cons, ih, upFrom, List.length_cons, List.range_succ_eq_map, List.map_map]
    congr 1
    apply List.map_congr_left
    intro i _
    simp
    omega

end Sys2Proof.Machine
end

