-- ==== Sys2Proof/Laws/Bed.lean ====
section
/-! SUPPORT. The bed's own operations: what each leaves unchanged, and what reading and storing do in a bed whose memory
holds no error. -/

namespace Sys2Proof.Machine

/-! ## The error code's conditions stay -/

@[simp] theorem Bed.setReg_ecc (b : Bed) (o : Nat) (v : W64) : (b.setReg o v).ecc = b.ecc := rfl
@[simp] theorem Bed.setRange_ecc (b : Bed) (k : Nat) (r : RangeRec) : (b.setRange k r).ecc = b.ecc := rfl
@[simp] theorem Bed.setStat_ecc (b : Bed) (k : Nat) (x : Stat) : (b.setStat k x).ecc = b.ecc := rfl
@[simp] theorem Bed.setRow_ecc (b : Bed) (k : Nat) (x : SRow) : (b.setRow k x).ecc = b.ecc := rfl
@[simp] theorem Bed.setVreg_ecc (b : Bed) (k : Nat) (x : VReg) : (b.setVreg k x).ecc = b.ecc := rfl
@[simp] theorem Bed.setArray_ecc (b : Bed) (k : Nat) (x : MArray) : (b.setArray k x).ecc = b.ecc := rfl
@[simp] theorem Bed.setSticky_ecc (b : Bed) : b.setSticky.ecc = b.ecc := rfl
@[simp] theorem Bed.gauge_ecc (b : Bed) (g n : Nat) : (b.gauge g n).ecc = b.ecc := rfl
@[simp] theorem Bed.gauge_mem (b : Bed) (g n : Nat) : (b.gauge g n).mem = b.mem := rfl
@[simp] theorem Bed.finish_ecc (b : Bed) (t : Nat) : (b.finish t).ecc = b.ecc := rfl
@[simp] theorem Bed.holdSf_ecc (b : Bed) (t : Nat) : (b.holdSf t).ecc = b.ecc := rfl
@[simp] theorem Bed.landV_ecc (b : Bed) (c l i : Nat) (m : W64) (r : VReg) : (b.landV c l i m r).ecc = b.ecc := rfl
@[simp] theorem Bed.landV_mem (b : Bed) (c l i : Nat) (m : W64) (r : VReg) : (b.landV c l i m r).mem = b.mem := rfl
@[simp] theorem Bed.setReg_mem (b : Bed) (o : Nat) (v : W64) : (b.setReg o v).mem = b.mem := rfl
@[simp] theorem Bed.setRange_mem (b : Bed) (k : Nat) (r : RangeRec) : (b.setRange k r).mem = b.mem := rfl

/-- Counting conversions writes registers only. -/
theorem Bed.count_regs (b : Bed) (c : Cnv) (n : Nat) : ∃ r, b.count c n = { b with regs := r } := by
  unfold Bed.count
  split
  · exact ⟨b.regs, rfl⟩
  · cases c
    · exact ⟨b.regs, rfl⟩
    all_goals exact ⟨_, rfl⟩

theorem Bed.countAll_regs (b : Bed) (cs : List Cnv) : ∃ r, b.countAll cs = { b with regs := r } := by
  unfold Bed.countAll
  obtain ⟨r1, h1⟩ := b.count_regs .invalid (cs.count .invalid)
  rw [h1]
  obtain ⟨r2, h2⟩ := Bed.count_regs { b with regs := r1 } .overflow (cs.count .overflow)
  rw [h2]
  obtain ⟨r3, h3⟩ := Bed.count_regs { b with regs := r2 } .underflow (cs.count .underflow)
  exact ⟨r3, h3⟩

theorem Bed.countEsc_regs (b : Bed) (n : Nat) : ∃ r, b.countEsc n = { b with regs := r } := by
  unfold Bed.countEsc
  split
  · exact ⟨b.regs, rfl⟩
  · exact ⟨_, rfl⟩

/-- A range record taken writes range records only. -/
theorem Ctx.record_ranges (c : Ctx) (b : Bed) (ti : Nat) (vs : List Val) : ∃ r, c.record b ti vs = { b with ranges := r } := by
  unfold Ctx.record
  simp only []
  split
  · exact ⟨_, rfl⟩
  · exact ⟨b.ranges, rfl⟩

@[simp] theorem Bed.countAll_ecc (b : Bed) (cs : List Cnv) : (b.countAll cs).ecc = b.ecc := by
  obtain ⟨r, h⟩ := b.countAll_regs cs
  rw [h]

@[simp] theorem Bed.countAll_mem (b : Bed) (cs : List Cnv) : (b.countAll cs).mem = b.mem := by
  obtain ⟨r, h⟩ := b.countAll_regs cs
  rw [h]

@[simp] theorem Bed.countEsc_ecc (b : Bed) (n : Nat) : (b.countEsc n).ecc = b.ecc := by
  obtain ⟨r, h⟩ := b.countEsc_regs n
  rw [h]

@[simp] theorem Bed.countEsc_mem (b : Bed) (n : Nat) : (b.countEsc n).mem = b.mem := by
  obtain ⟨r, h⟩ := b.countEsc_regs n
  rw [h]

@[simp] theorem Ctx.record_ecc (c : Ctx) (b : Bed) (ti : Nat) (vs : List Val) : (c.record b ti vs).ecc = b.ecc := by
  obtain ⟨r, h⟩ := c.record_ranges b ti vs
  rw [h]

@[simp] theorem Ctx.record_mem (c : Ctx) (b : Bed) (ti : Nat) (vs : List Val) : (c.record b ti vs).mem = b.mem := by
  obtain ⟨r, h⟩ := c.record_ranges b ti vs
  rw [h]

@[simp] theorem Bed.countAll_arrays (b : Bed) (cs : List Cnv) : (b.countAll cs).arrays = b.arrays := by
  obtain ⟨r, h⟩ := b.countAll_regs cs
  rw [h]

@[simp] theorem Ctx.record_arrays (c : Ctx) (b : Bed) (ti : Nat) (vs : List Val) : (c.record b ti vs).arrays = b.arrays := by
  obtain ⟨r, h⟩ := c.record_ranges b ti vs
  rw [h]

/-! ## Reading and storing in a clean bed -/

/-- A write into a bed without errors changes its bytes and reports nothing. -/
theorem Bed.put_clean (b : Bed) (index : Nat) (ws : List BW) (m : Bool) (hc : b.ecc = []) :
    b.put index ws m = ({ b with
      mem := (joinBW ws).foldl applyBW b.mem, scrubPending := b.scrubPending.filter fun l => !bwLine ws l }, []) := by
  unfold Bed.put
  simp [hc]

/-- Writes into a bed without errors report nothing, and leave none. -/
theorem Bed.puts_clean (b : Bed) (index : Nat) (wss : List (List BW)) (m : Bool) (hc : b.ecc = []) :
    (b.puts index wss m).2 = [] ∧ (b.puts index wss m).1.ecc = [] ∧ (b.puts index wss m).1.arrays = b.arrays := by
  unfold Bed.puts
  have h : ∀ (wss : List (List BW)) (s : Bed × List BOut), s.2 = [] ∧ s.1.ecc = [] ∧ s.1.arrays = b.arrays →
      (wss.foldl (fun s ws => ((s.1.put index ws m).1, s.2 ++ (s.1.put index ws m).2)) s).2 = [] ∧
      (wss.foldl (fun s ws => ((s.1.put index ws m).1, s.2 ++ (s.1.put index ws m).2)) s).1.ecc = [] ∧
      (wss.foldl (fun s ws => ((s.1.put index ws m).1, s.2 ++ (s.1.put index ws m).2)) s).1.arrays = b.arrays := by
    intro wss
    induction wss with
    | nil => exact fun s hs => hs
    | cons ws wss ih =>
      intro s hs
      rw [List.foldl_cons]
      apply ih
      rw [Bed.put_clean _ _ _ _ hs.2.1]
      exact ⟨by simp [hs.1], hs.2.1, hs.2.2⟩
  exact h wss (b, []) ⟨rfl, hc, rfl⟩

/-- A load from a bed without errors. -/
theorem Ctx.load_clean (c : Ctx) (b : Bed) (o : Opnd) (n : Nat) (g : Fmt) (z : Int) (hc : b.ecc = []) :
    (c.load b o n g z).bad = none ∧ (c.load b o n g z).bed.ecc = [] ∧ (c.load b o n g z).bed.mem = b.mem ∧
      (c.load b o n g z).bed.arrays = b.arrays := by
  unfold Ctx.load
  rw [Bed.touch_clean b _ _ hc]
  simp only []
  split <;> simp [hc]

theorem Ctx.loadVals_clean (c : Ctx) (b : Bed) (o : Opnd) (n : Nat) (hc : b.ecc = []) :
    c.loadVals b o n = ((c.record b o.ti ((c.vals b o n).map (·.1))).countAll ((c.vals b o n).map (·.2)), none,
      (c.vals b o n).map (·.1)) := by
  unfold Ctx.loadVals
  rw [Bed.touch_clean b _ _ hc]

/-- A store into a bed without errors reports nothing, and leaves none. -/
theorem Ctx.store_clean (c : Ctx) (b : Bed) (ti : Nat) (items : List SItem) (m : Bool) (hc : b.ecc = []) :
    (c.store b ti items m).outs = [] ∧ (c.store b ti items m).bed.ecc = [] := by
  unfold Ctx.store
  simp only []
  split
  · rw [Bed.put_clean _ _ _ _ (by simp [hc])]
    simp [hc]
  · exact ⟨(Bed.puts_clean _ _ _ _ (by simp [hc])).1, (Bed.puts_clean _ _ _ _ (by simp [hc])).2.1⟩

/-! ## Drains -/

theorem DOpt.reset_ecc (opt : DOpt) (on : Bool) (d : Bed) (n : Nat) : (opt.reset on d n).ecc = d.ecc := by
  unfold DOpt.reset
  split
  · split
    · generalize upFrom _ n = ks
      induction ks generalizing d with
      | nil => rfl
      | cons k ks ih => rw [List.foldl_cons, ih]; rfl
    · rfl
  · rfl

theorem Bed.tileFlag_quiet (b : Bed) (compat : Bool) (a : Nat) (w : W64) :
    Quiet (b.tileFlag compat a w).2 ∧ (b.tileFlag compat a w).1.ecc = b.ecc := by
  unfold Bed.tileFlag
  split
  · exact ⟨Quiet.nil, rfl⟩
  · exact ⟨Quiet.one _ _, rfl⟩

theorem drainStats_ecc (b : Bed) (compat : Bool) (f : Fmt) (e0 cols : Nat) (vals : List Val) :
    (drainStats b compat f e0 cols vals).ecc = b.ecc := by
  unfold drainStats
  generalize enumFrom 0 vals = es
  induction es generalizing b with
  | nil => rfl
  | cons e es ih =>
    rw [List.foldl_cons, ih]
    rfl

theorem landVs_ecc (cyc : Nat) (t f : Nat → Nat) (lanes : W64) (g : Bed → Nat → VReg) (ks : List Nat) (b : Bed) :
    (ks.foldl (fun (b : Bed) m => b.landV cyc (t m) (f m) lanes (g b m)) b).ecc = b.ecc := by
  induction ks generalizing b with
  | nil => rfl
  | cons k ks ih => rw [List.foldl_cons, ih]; rfl

/-- A drain in a clean bed tells the rest of the module events only. -/
theorem drainOne_quiet (c : Ctx) (a : Nat) (d : DSrc) (opt : DOpt) (r0 : Nat) (b : Bed) (hc : b.ecc = []) :
    Quiet (drainOne c a d opt r0 b).2 ∧ (drainOne c a d opt r0 b).1.ecc = [] := by
  unfold drainOne
  extract_lets compat tOut s f z nn cols es b' codes b'' b0 r b2 b3 bad fl lines last bx
  have hr : r.outs = [] ∧ r.bed.ecc = [] := by
    simp only [r]
    split
    · exact Ctx.store_clean _ _ _ _ _ (by simp [b', hc])
    · exact ⟨rfl, by simp only [b0]; rw [landVs_ecc c.cyc (fun m => d.first + d.step * m + opt.late f) (fun m => opt.first + r0 + m) (laneMask nn) (fun b m => (b.vreg (opt.first + r0 + m)).fill opt.fmt ((codes.filter fun e => e.1 == m).map (·.2.1)))]; simp [b'', b', hc]⟩
  have h2 : b2.ecc = [] := by
    simp only [b2]
    split
    · rw [drainStats_ecc]; exact hr.2
    · exact hr.2
  have h3 : b3.ecc = [] := by
    simp only [b3]
    split <;> simp [h2]
  have hf : Quiet fl.2 ∧ fl.1.ecc = [] := by
    simp only [fl]
    generalize hbad : bad = l
    cases l
    · exact ⟨Quiet.nil, h3⟩
    · exact ⟨(Bed.tileFlag_quiet _ _ _ _).1, (Bed.tileFlag_quiet _ _ _ _).2.trans h3⟩
  have hx : bx.ecc = [] := by
    simp only [bx]
    split <;> simp [hf.2]
  refine ⟨?_, by simp [hx]⟩
  simp only [hr.1, List.nil_append]
  exact hf.1

end Sys2Proof.Machine
end

