-- ==== Sys2Proof/Tests/Slice0.lean ====
section
/-! SUPPORT. The model's own tests: ill-formed commands refused, words written out from the tables, small steps, and for
every obligation with hypotheses a state and operands that meet them. -/

set_option Elab.async false

namespace Sys2Proof.Tests

open Sys2Proof Sys2Proof.Machine

/-! ## Ill-formed commands are refused, one for each check of WellFormed -/

def h0 : Head := ⟨false, 0, 0, 1⟩
def src0 : Src := ⟨false, 0, 0⟩
def le0 : LinkEnv := ⟨0, 0, 0, 0, 0, false, 0, 0, false, [], [], []⟩
def env0 : BootEnv := ⟨true, none, none, 0, List.replicate 24 le0, 0, 1, 0, 0, 0, 0⟩
def badEnv : BootEnv := { env0 with links := [] }

theorem test_wf_head : Instr.wf (.nop 0 h0) = true ∧ Instr.wf (.nop 0 ⟨false, 5, 0, 1⟩) = false ∧
    Instr.wf (.nop 0 ⟨false, 0, 0, 0⟩) = false ∧ Instr.wf (.loop 0 h0 0 1) = true ∧ Instr.wf (.loop 0 h0 0 0) = false := by decide
theorem test_wf_links : Instr.wf (.lrecv 0 h0 31 0 0 0 0) = true ∧ Instr.wf (.lrecv 0 h0 24 0 0 0 0) = false ∧
    Instr.wf (.cbar 0 h0 31 0 0) = true ∧ Instr.wf (.cbar 0 h0 30 0 0) = false ∧ Instr.wf (.lsend 0 h0 23 0 0 0 0) = true ∧
    Instr.wf (.lsend 0 h0 31 0 0 0 0) = false ∧ Instr.wf (.flitSend 23) = true ∧ Instr.wf (.flitSend 24) = false ∧
    Instr.wf (.messageLand 24 0) = false ∧ Instr.wf (.linkTrain 24 le0) = false ∧ Instr.wf (.lnkCtrlRetrain 0 24) = false := by
  decide
theorem test_wf_units : Instr.wf (.scrubRead 131) = true ∧ Instr.wf (.scrubRead 132) = false ∧
    Instr.wf (.fenceComplete 132) = false ∧ Instr.wf (.selftestEnd 132 true) = false ∧ Instr.wf (.lpddr5Frame 23 false) = true ∧
    Instr.wf (.lpddr5Frame 24 false) = false ∧ Instr.wf (.outboundMailboxPost 10 0 (zeros 64)) = false := by decide
theorem test_wf_lengths : Instr.wf (.idleFlitReceive 0 (zeros 568)) = true ∧ Instr.wf (.idleFlitReceive 0 (zeros 567)) = false ∧
    Instr.wf (.outboundMailboxPost 9 0 (zeros 63)) = false ∧ Instr.wf (.entropyWordDelivery 0 []) = false ∧
    Instr.wf (.thermalSample [] [] []) = false ∧ Instr.wf (.sundialRecheck 0 []) = false ∧
    Instr.wf (.registerWrite 0 false 0 0 0) = false := by decide +kernel
theorem test_wf_values : Instr.wf (.busError 0 5) = true ∧ Instr.wf (.busError 0 6) = false ∧
    Instr.wf (.descriptorFetch 0 none) = true ∧ Instr.wf (.descriptorFetch 0 (some 1)) = false ∧
    Instr.wf (.load src0 (some 6) [] []) = false ∧ Instr.wf (.heartbeatCheck 0) = false ∧
    Instr.wf (.conservationFreeze 5 0 0) = false ∧ Instr.wf (.droopDetect 6) = false ∧ Instr.wf (.bypass 6) = false ∧
    Instr.wf (.bypass 0x10) = false ∧ Instr.wf (.bypass 0xFF) = true := by decide
theorem test_wf_environments : Instr.wf (.railsGood env0) = true ∧ Instr.wf (.railsGood badEnv) = false ∧
    Instr.wf (.hotReset badEnv) = false ∧ Instr.wf (.perstRelease badEnv) = false ∧ Instr.wf (.refclkValid badEnv) = false ∧
    Instr.wf (.glbResetWarm 0 0 badEnv) = false ∧ Instr.wf (.dbgAccess 0 0 badEnv) = false := by decide +kernel

/-! ## Instruction words, written field by field from Tables 9.1, 9.4 to 9.11 and 10.1 to 10.6, bit 127 down -/

/-- Reserved [31:26], gap 1, level 0, cond 0, varies 0. -/
def common : BitVec 24 := 0b000000#6 ++ 0b000000000001#12 ++ 0b00#2 ++ 0b000#3 ++ 0b0#1

theorem test_word_pset : decodeIns 5 (0#76 ++ 0b1#1 ++ 0b10#2 ++ 0b01000#5 ++ 0b0110#4 ++ 0b0101#4 ++ 0b01#2 ++ 0b11#2 ++
    common ++ 0x10#8) = some (.pset 5 h0 3 1 5 6 8 2 true) := by decide +kernel
theorem test_word_spill : decodeIns 5 (0#63 ++ 0b10000#5 ++ 0x00ABCD#24 ++ 0b1#1 ++ 0b0#1 ++ 0b10#2 ++ common ++ 0x18#8) =
    some (.spill 5 h0 2 false true 0x00ABCD 16) := by decide +kernel
theorem test_word_vop : decodeIns 5 (0#24 ++ 0x3F800000#32 ++ 0x7F#8 ++ 0b111#3 ++ 0b1#1 ++ 0b010#3 ++ 0b1011#4 ++ 0b0011#4 ++
    0b0010#4 ++ 0b0001#4 ++ 0b0100#4 ++ 0b00101#5 ++ common ++ 0x20#8) =
    some (.vop 5 h0 5 4 1 2 3 11 2 true 7 0x7F 0x3F800000) := by decide +kernel
theorem test_word_sfn : decodeIns 5 (0#3 ++ 0x0007#16 ++ 0x000003#24 ++ 0x000002#24 ++ 0x000001#24 ++ 0b10001#5 ++ common ++
    0x28#8) = some (.sfn 5 h0 17 1 2 3 7) := by decide +kernel
theorem test_word_statx : decodeIns 5 (0#60 ++ 0x000009#24 ++ 0b000111#6 ++ 0b000011#6 ++ common ++ 0x32#8) =
    some (.statx 5 h0 3 7 9) := by decide +kernel
theorem test_word_pick : decodeIns 5 (0#70 ++ 0b010#3 ++ 0b11111111#8 ++ 0b000000000101#12 ++ 0b111#3 ++ common ++ 0x38#8) =
    some (.pick 5 h0 7 5 255 2) := by decide +kernel
theorem test_word_lsend : decodeIns 5 (0#36 ++ 0x002#12 ++ 0x000001#24 ++ 0b000000000000011#15 ++ 0b1001#4 ++ 0b10111#5 ++
    common ++ 0x48#8) = some (.lsend 5 h0 23 9 3 1 2) := by decide +kernel
theorem test_word_brw : decodeIns 5 (0#9 ++ 0x001#12 ++ 0xFFFFFFFF#32 ++ 0b1#1 ++ 0b10#2 ++ 0x000004#24 ++ 0b0000000011#10 ++
    0b111111#6 ++ common ++ 0x40#8) = some (.brw 5 h0 63 3 4 2 true 0xFFFFFFFF 1) := by decide +kernel
theorem test_word_loop : decodeIns 5 (0#68 ++ 0x003#12 ++ 0x0007#16 ++ common ++ 0x02#8) = some (.loop 5 h0 7 3) := by
  decide +kernel
theorem test_word_head : decodeIns 5 (0#96 ++ 0b000000#6 ++ 0b000000000010#12 ++ 0b11#2 ++ 0b100#3 ++ 0b1#1 ++ 0x00#8) =
    some (.nop 5 ⟨true, 4, 3, 2⟩) := by decide +kernel
theorem test_word_reserved : decodeIns 5 (0b1#1 ++ 0#95 ++ common ++ 0x00#8) = none ∧
    decodeIns 5 (0#96 ++ 0b100000#6 ++ 0#18 ++ 0x00#8) = none ∧ decodeIns 5 (0#96 ++ common ++ 0x03#8) = none := by decide +kernel
theorem test_no_table_word : decodeTableWord 8 0 = none ∧ State.reset.withFetchWord 8 0 = State.reset := by decide +kernel

/-! ## A bed that issues one instruction -/

/-- A module in service with nothing in it. -/
def live : State := { State.reset with
  pins := { perst := false, rails := true, refclk := true }
  clk := { locked := true }
  regs := [(0, 1)]
  grd := { gardState := (List.range 10).map fun g => (g, 1) } }

/-- Bed 5 runs on physical bed 0 and stands at a word. -/
def bedAt (w : BitVec 128) : Bed :=
  { mapped := true, logical := 5, job := some {}, seq := { state := 3 }, store := [(0, w)] }

def demo (i : Instr) : State :=
  { live with beds := [(0, bedAt ((encodeIns i).getD 1))], plots := [(0, { state := 3 })] }

/-- The same bed otherwise, changed. -/
def demoBed (i : Instr) (f : Bed → Bed) : State := (demo i).setBed 0 (f ((demo i).bed 0))

/-- No runner word is on its way: what the samples' plots have. -/
def Still (s : State) (p : Nat) : Prop := (s.plot ((s.bed p).job.getD {}).plot).words = []
theorem arrived_of {s : State} {p : Nat} (x : Still s p) : Arrived s p := by
  intro w hw
  rw [show (s.plot ((s.bed p).job.getD {}).plot).words = [] from x] at hw
  cases hw

theorem issuing_of {s : State} {b : BitVec 7} {h : Head} {i : Instr} {p : Nat}
    (x : decide (s.physOf b.toNat = some p ∧ (s.plot ((s.bed p).job.getD {}).plot).words = [] ∧ s.issues p i = true ∧
      enabled h (s.bed p).seq.loops = true) = true) : Issuing s b h i p := by
  obtain ⟨a, c, d, e⟩ := of_decide_eq_true x
  exact ⟨a, arrived_of c, d, e⟩

theorem skipping_of {s : State} {b : BitVec 7} {h : Head} {i : Instr} {p : Nat}
    (x : decide (s.physOf b.toNat = some p ∧ (s.plot ((s.bed p).job.getD {}).plot).words = [] ∧ s.issues p i = true ∧
      enabled h (s.bed p).seq.loops = false) = true) : Skipping s b h i p := by
  obtain ⟨a, c, d, e⟩ := of_decide_eq_true x
  exact ⟨a, arrived_of c, d, e⟩

/-- One instruction of every kind that a bed issues: arrays and vector unit, special functions, control and movement. -/
def samples1 : List Instr :=
  [.pset 5 h0 3 1 5 6 8 2 true, .fill 5 h0 1 1 63 63 1, .cbld 5 h0 1 1, .mload 5 h0 1 true 60 3 63 1 1, .swap 5 h0 1,
   .pass 5 h0 1 true 0 63 true true true true 1 1, .spill 5 h0 1 true false 1 1, .rdrain 5 h0 1 1 7 true 1,
   .drain 5 h0 1 false true false false false 1 1 0 false 0 true true 1 1, .vop 5 h0 0 1 2 3 4 1 1 true 1 1 1,
   .vld 5 h0 15 0 1 1 1, .vst 5 h0 15 0 1 1 7 true, .mcvt 5 h0 1 1 65535 1, .sfn 5 h0 16 1 1 1 0,
   .smax1 5 h0 1 1 true 63 true 1 1]
def samples2 : List Instr :=
  [.smax2 5 h0 1 1 true 63 true 1 1, .smaxm 5 h0 1 63, .smaxx 5 h0 63 1, .sieve 5 h0 1 1 63 true true 1,
   .sievem 5 h0 1 127 63 true true 1, .sieveo 5 h0 1, .nprep 5 h0 63 true 1, .napply 5 h0 1 1 1 1 true 63 1,
   .statx 5 h0 0 63 1, .statm 5 h0 0 63 1, .pick 5 h0 7 1 255 7, .rpx 5 h0 7 1, .rpm 5 h0 7 true 1, .sprb 5 h0 3 true 1023,
   .sprd 5 h0 3 3 7 7 65535, .vtld 5 h0 1 1]
def samples3 : List Instr :=
  [.nop 5 h0, .endList 5 h0, .loop 5 h0 65535 1, .sdwait 5 h0 1 1, .lrecv 5 h0 31 15 1 1 1, .cwait 5 h0 255 1,
   .cbar 5 h0 31 65535 1, .tflip 5 h0, .hint 5 h0 4095, .tag 5 h0 1 3 1, .entr 5 h0 15 31, .sdrd 5 h0 15 62,
   .ctrrd 5 h0 15 62 255, .brw 5 h0 63 1023 1 3 true 1 1, .rsend 5 h0 1 1 1, .rrecv 5 h0 1 1 1, .lsend 5 h0 23 15 1 1 1,
   .lcoll 5 h0 255 1 1 1 1 1]
def samples : List Instr := samples1 ++ samples2 ++ samples3

/-- Every bed instruction issues somewhere. -/
theorem witness_issuing : ∀ i ∈ samples, (demo i).physOf 5 = some 0 ∧
    ((demo i).plot (((demo i).bed 0).job.getD {}).plot).words = [] ∧ (demo i).issues 0 i = true ∧
    enabled h0 ((demo i).bed 0).seq.loops = true ∧ ((demo i).bed 0).ecc = [] := by decide +kernel

/-- Every bed instruction can stand there disabled: cond 4 in iteration 0. -/
theorem witness_DisabledInstructionsOnlyMoveTheSequencer : Skipping (demo (.nop 5 ⟨true, 4, 3, 1⟩)) 5 ⟨true, 4, 3, 1⟩
    (.nop 5 ⟨true, 4, 3, 1⟩) 0 ∧ Skipping (demo (.lcoll 5 ⟨true, 5, 0, 1⟩ 1 1 1 1 1 1)) 5 ⟨true, 5, 0, 1⟩
    (.lcoll 5 ⟨true, 5, 0, 1⟩ 1 1 1 1 1 1) 0 := ⟨skipping_of (by decide +kernel), skipping_of (by decide +kernel)⟩

/-! ## States and operands that meet the hypotheses of the obligations -/

/-- The sample of an opcode's family issues: what the obligations about it ask, with a clean bed. -/
theorem demo_ok {i : Instr} (b : BitVec 7) (h : Head)
    (x : decide ((demo i).physOf b.toNat = some 0 ∧ ((demo i).plot (((demo i).bed 0).job.getD {}).plot).words = [] ∧
      (demo i).issues 0 i = true ∧ enabled h ((demo i).bed 0).seq.loops = true ∧ ((demo i).bed 0).ecc = []) = true) :
    Issuing (demo i) b h i 0 ∧ Clean ((demo i).bed 0) := by
  obtain ⟨a, w, c, d, e⟩ := of_decide_eq_true x
  exact ⟨⟨a, arrived_of w, c, d⟩, e⟩

theorem tidy_of {s : State} (x : decide ((s.beds.map (·.1)).Pairwise (· < ·) ∧ (s.plots.map (·.1)).Pairwise (· < ·) ∧
    (s.brw.chans.map (·.1)).Pairwise (· < ·) ∧ (s.lnk.links.map (·.1)).Pairwise (· < ·) ∧
    (s.grd.flt.map (·.1)).Pairwise (· < ·) ∧ (s.regs.map (·.1)).Pairwise (· < ·)) = true) : Tidy s := by
  obtain ⟨a, b, c, d, e, f⟩ := of_decide_eq_true x
  exact ⟨a, b, c, d, e, f⟩

theorem witness_ArraysTakePrecisionPlanesCodebooksAndMovingLines :
    (Issuing (demo (.pset 5 h0 3 1 5 6 8 2 true)) 5 h0 (.pset 5 h0 3 1 5 6 8 2 true) 0 ∧
      Clean ((demo (.pset 5 h0 3 1 5 6 8 2 true)).bed 0)) ∧
    (Issuing (demo (.fill 5 h0 1 1 127 63 1)) 5 h0 (.fill 5 h0 1 1 127 63 1) 0 ∧
      Clean ((demo (.fill 5 h0 1 1 127 63 1)).bed 0)) ∧
    (Issuing (demo (.cbld 5 h0 1 1)) 5 h0 (.cbld 5 h0 1 1) 0 ∧ Clean ((demo (.cbld 5 h0 1 1)).bed 0)) ∧
    (Issuing (demo (.swap 5 h0 3)) 5 h0 (.swap 5 h0 3) 0 ∧ Clean ((demo (.swap 5 h0 3)).bed 0)) ∧
    (((demo (.swap 5 h0 3)).bed 0).array 3).shadow.poison = false ∧
    (((demo (.swap 5 h0 3)).bed 0).array 3).idleBank.poison = false ∧
    (Issuing (demo (.mload 5 h0 1 true 63 0 3 1 1)) 5 h0 (.mload 5 h0 1 true 63 0 3 1 1) 0 ∧
      Clean ((demo (.mload 5 h0 1 true 63 0 3 1 1)).bed 0)) :=
  ⟨demo_ok 5 h0 (by decide +kernel), demo_ok 5 h0 (by decide +kernel), demo_ok 5 h0 (by decide +kernel),
   demo_ok 5 h0 (by decide +kernel), by decide +kernel, by decide +kernel, demo_ok 5 h0 (by decide +kernel)⟩

def passI : Instr := .pass 5 h0 1 true 0 63 true true true true 1 1
theorem witness_PassCombinesEveryColumnIntoOneTile : (Issuing (demo passI) 5 h0 passI 0 ∧ Clean ((demo passI).bed 0)) ∧
    (∀ i, i ≤ 63 → (tget (fun _ => ({} : MSlot)) ((((demo passI).bed 0).array 1).half true).slots (0 + i)).poison = false) ∧
    (((demo passI).bed 0).array 1).cur.nn ≤ tileCols (((demo passI).bed 0).array 1).precision.paired :=
  ⟨demo_ok 5 h0 (by decide +kernel), by decide +kernel, by decide +kernel⟩

theorem witness_RainBarrelsAreSpilledIntoAndRecorded :
    (Issuing (demo (.spill 5 h0 1 true false 1 1)) 5 h0 (.spill 5 h0 1 true false 1 1) 0 ∧
      Clean ((demo (.spill 5 h0 1 true false 1 1)).bed 0)) ∧
    (Issuing (demo (.rdrain 5 h0 1 1 7 true 1)) 5 h0 (.rdrain 5 h0 1 1 7 true 1) 0 ∧
      Clean ((demo (.rdrain 5 h0 1 1 7 true 1)).bed 0)) :=
  ⟨demo_ok 5 h0 (by decide +kernel), demo_ok 5 h0 (by decide +kernel)⟩

def drainI (source both : Bool) : Instr := .drain 5 h0 1 false source false both false 1 1 0 false 0 true true 1 1
theorem witness_DrainTakesTheSourceThatItsModeNames : ∀ a b : Bool,
    Issuing (demo (drainI a b)) 5 h0 (drainI a b) 0 ∧ Clean ((demo (drainI a b)).bed 0)
  | true, true => demo_ok 5 h0 (by decide +kernel)
  | true, false => demo_ok 5 h0 (by decide +kernel)
  | false, true => demo_ok 5 h0 (by decide +kernel)
  | false, false => demo_ok 5 h0 (by decide +kernel)

def vopI (op : BitVec 5) : Instr := .vop 5 h0 op 1 2 3 4 1 1 true 1 1 1
theorem witness_VopWritesOneMaskOrOneVectorRegister :
    ∀ op ∈ [0x00, 0x08, 0x09, 0x0C, 0x0D, 0x0F, 0x10, 0x11, 0x12], Issuing (demo (vopI op)) 5 h0 (vopI op) 0 := by
  intro op hop
  exact issuing_of (by
    revert op
    decide +kernel)
/-- A register write, and one of its lane 0 that is on its way and lands at A-cycle 9. -/
theorem witness_VopWritesOneMaskOrOneVectorRegister_lands :
    (∀ l, l < 64 → (0#64).getLsbD l = false → ({} : VReg).lane l = (({} : Bed).vreg 15).lane l) ∧ LandsLast {} 15 8 ∧
    LandsLast { vLand := [(15, [(9, 1)])] } 15 9 ∧
    ∃ e ∈ tget (fun _ => []) ({ vLand := [(15, [(9, 1)])] } : Bed).vLand 15, 8 < e.1 ∧ e.2.getLsbD 0 = true := by
  refine ⟨fun _ _ _ => rfl, fun _ h => (List.not_mem_nil h).elim, fun e h => ?_, (9, 1), List.mem_cons_self, by decide, by decide⟩
  rw [List.mem_singleton.mp h]

theorem witness_VectorMovesGoThroughTheGraders :
    (Issuing (demo (.vld 5 h0 15 0 1 1 1)) 5 h0 (.vld 5 h0 15 0 1 1 1) 0 ∧ Clean ((demo (.vld 5 h0 15 0 1 1 1)).bed 0)) ∧
    (Issuing (demo (.vld 5 h0 0 15 1 1 1)) 5 h0 (.vld 5 h0 0 15 1 1 1) 0 ∧ Clean ((demo (.vld 5 h0 0 15 1 1 1)).bed 0)) ∧
    (Issuing (demo (.vst 5 h0 15 0 1 1 7 true)) 5 h0 (.vst 5 h0 15 0 1 1 7 true) 0 ∧
      Clean ((demo (.vst 5 h0 15 0 1 1 7 true)).bed 0)) ∧
    (Issuing (demo (.mcvt 5 h0 1 1 65535 1)) 5 h0 (.mcvt 5 h0 1 1 65535 1) 0 ∧
      Clean ((demo (.mcvt 5 h0 1 1 65535 1)).bed 0)) :=
  ⟨demo_ok 5 h0 (by decide +kernel), demo_ok 5 h0 (by decide +kernel), demo_ok 5 h0 (by decide +kernel),
   demo_ok 5 h0 (by decide +kernel)⟩

/-- A byte tensor, and an element of it. -/
def byteT : Tensor := { fmt := 0 }
theorem witness_StoresTouchOnlyTheirElementsPlaces :
    (∀ i ∈ ([{ o := { ti := 0, t := byteT, at_ := [0, 0, 0, 0] }, v := .zero, code := some 255 }] : List SItem), i.keep = true →
      ¬(i.o.addr ≤ 1 ∧ 1 < i.o.addr + max 1 ((fmtOf i.o.t.fmt).width / 8))) ∧
    fmtOf byteT.fmt ≠ .t8x ∧ (fmtOf byteT.fmt).width = 8 ∧
    ({ ti := 0, t := byteT, at_ := [0, 0, 0, 0] } : Opnd).bitPos % 8 = 0 ∧ Clean {} :=
  ⟨by decide +kernel, by decide +kernel, by decide +kernel, by decide +kernel, rfl⟩

theorem witness_SpecialFunctionsAndNormalisationStoreEveryElement :
    (Issuing (demo (.sfn 5 h0 15 1 1 1 0)) 5 h0 (.sfn 5 h0 15 1 1 1 0) 0 ∧ Clean ((demo (.sfn 5 h0 15 1 1 1 0)).bed 0)) ∧
    (Issuing (demo (.sfn 5 h0 16 1 1 1 0)) 5 h0 (.sfn 5 h0 16 1 1 1 0) 0 ∧ Clean ((demo (.sfn 5 h0 16 1 1 1 0)).bed 0)) ∧
    (Issuing (demo (.napply 5 h0 1 1 1 1 true 63 1)) 5 h0 (.napply 5 h0 1 1 1 1 true 63 1) 0 ∧
      Clean ((demo (.napply 5 h0 1 1 1 1 true 63 1)).bed 0)) :=
  ⟨demo_ok 5 h0 (by decide +kernel), demo_ok 5 h0 (by decide +kernel), demo_ok 5 h0 (by decide +kernel)⟩

theorem witness_SoftMaximumPassesFeedAndReadARowState :
    (Issuing (demo (.smax1 5 h0 1 1 true 63 true 1 1)) 5 h0 (.smax1 5 h0 1 1 true 63 true 1 1) 0 ∧
      Clean ((demo (.smax1 5 h0 1 1 true 63 true 1 1)).bed 0)) ∧
    (Issuing (demo (.smax2 5 h0 1 1 true 63 true 1 1)) 5 h0 (.smax2 5 h0 1 1 true 63 true 1 1) 0 ∧
      Clean ((demo (.smax2 5 h0 1 1 true 63 true 1 1)).bed 0)) ∧
    (Issuing (demo (.smaxm 5 h0 1 63)) 5 h0 (.smaxm 5 h0 1 63) 0 ∧ Clean ((demo (.smaxm 5 h0 1 63)).bed 0)) ∧
    (Issuing (demo (.smaxx 5 h0 63 1)) 5 h0 (.smaxx 5 h0 63 1) 0 ∧ Clean ((demo (.smaxx 5 h0 63 1)).bed 0)) :=
  ⟨demo_ok 5 h0 (by decide +kernel), demo_ok 5 h0 (by decide +kernel), demo_ok 5 h0 (by decide +kernel),
   demo_ok 5 h0 (by decide +kernel)⟩

theorem witness_TheSieveTakesMergesAndWritesItsList :
    (Issuing (demo (.sieve 5 h0 1 1 63 true true 1)) 5 h0 (.sieve 5 h0 1 1 63 true true 1) 0 ∧
      Clean ((demo (.sieve 5 h0 1 1 63 true true 1)).bed 0)) ∧
    (Issuing (demo (.sievem 5 h0 1 127 63 true true 1)) 5 h0 (.sievem 5 h0 1 127 63 true true 1) 0 ∧
      Clean ((demo (.sievem 5 h0 1 127 63 true true 1)).bed 0)) ∧
    (Issuing (demo (.sieveo 5 h0 1)) 5 h0 (.sieveo 5 h0 1) 0 ∧ Clean ((demo (.sieveo 5 h0 1)).bed 0)) :=
  ⟨demo_ok 5 h0 (by decide +kernel), demo_ok 5 h0 (by decide +kernel), demo_ok 5 h0 (by decide +kernel)⟩

def nprepI : Instr := .nprep 5 h0 0 true 0x3F800000
/-- The entry of NPREP after some elements: of a finite sum, of one that is not. -/
def nprepAt (x : Stat) : State := demoBed nprepI fun b => b.setStat 0 x
theorem witness_StatisticsArePreparedExportedAndMerged :
    Issuing (nprepAt {}) 5 h0 nprepI 0 ∧ (((nprepAt {}).bed 0).stat 0).count = 0 ∧
    Issuing (nprepAt { count := 1 }) 5 h0 nprepI 0 ∧ (((nprepAt { count := 1 }).bed 0).stat 0).count ≠ 0 ∧
    (((nprepAt { count := 1 }).bed 0).stat 0).s1.cls = .fin ∧ (((nprepAt { count := 1 }).bed 0).stat 0).s2.cls = .fin ∧
    Issuing (nprepAt { count := 1, s1 := { cls := .nan } }) 5 h0 nprepI 0 ∧
    (((nprepAt { count := 1, s1 := { cls := .nan } }).bed 0).stat 0).s1.cls ≠ .fin ∧
    (Issuing (demo (.statx 5 h0 0 63 1)) 5 h0 (.statx 5 h0 0 63 1) 0 ∧ Clean ((demo (.statx 5 h0 0 63 1)).bed 0)) ∧
    (Issuing (demo (.statm 5 h0 0 63 1)) 5 h0 (.statm 5 h0 0 63 1) 0 ∧ Clean ((demo (.statm 5 h0 0 63 1)).bed 0)) :=
  ⟨issuing_of (by decide +kernel), by decide +kernel, issuing_of (by decide +kernel), by decide +kernel, by decide +kernel,
   by decide +kernel, issuing_of (by decide +kernel), by decide +kernel, demo_ok 5 h0 (by decide +kernel),
   demo_ok 5 h0 (by decide +kernel)⟩
/-- One element zero: the variance and the addend give a positive sum, or zero. -/
theorem witness_StatisticsArePreparedExportedAndMerged_sums : ∀ e ∈ [(0x3F800000, false), (0, true)],
    let enc := fun v => encodeEl false .t32 0 v
    let dec := fun (k : Nat) => decodeEl false .t32 0 k
    let x : Stat := { count := 1 }
    let v := enc (.fin (quotEx ((x.count : Int) * x.s2.n * 2 ^ 128 - x.s1.n * x.s1.n) (x.count * x.count) (-256)))
    let vv := dec (enc (valAdd (dec v.1) (dec e.1))).1
    (vv.isNan || vv.isZero || vv.isNeg) = e.2 := by decide +kernel

def pickI : Instr := .pick 5 h0 7 1 255 7
theorem witness_RangeRecordsPickShiftsAndTravelAsBytes :
    Issuing (demo pickI) 5 h0 pickI 0 ∧ (((demo pickI).bed 0).range 7).nonzero = 0 ∧
    Issuing (demoBed pickI fun b => b.setRange 7 { nonzero := 1, maxSig := 2 ^ 31 }) 5 h0 pickI 0 ∧
    (((demoBed pickI fun b => b.setRange 7 { nonzero := 1, maxSig := 2 ^ 31 }).bed 0).range 7).nonzero ≠ 0 ∧
    (Issuing (demo (.rpx 5 h0 7 1)) 5 h0 (.rpx 5 h0 7 1) 0 ∧ Clean ((demo (.rpx 5 h0 7 1)).bed 0)) ∧
    (Issuing (demo (.rpm 5 h0 7 true 1)) 5 h0 (.rpm 5 h0 7 true 1) 0 ∧ Clean ((demo (.rpm 5 h0 7 true 1)).bed 0)) :=
  ⟨issuing_of (by decide +kernel), by decide +kernel, issuing_of (by decide +kernel), by decide +kernel,
   demo_ok 5 h0 (by decide +kernel), demo_ok 5 h0 (by decide +kernel)⟩

def sprbI : Instr := .sprb 5 h0 3 true 1023
theorem witness_SprinklersDrawAndTableBanksFlip :
    Issuing (demo (.sprb 5 h0 3 false 1023)) 5 h0 (.sprb 5 h0 3 false 1023) 0 ∧
    Issuing (demoBed sprbI fun b => { b with entropy := [7] }) 5 h0 sprbI 0 ∧
    ((demoBed sprbI fun b => { b with entropy := [7] }).bed 0).entropy = [7] ∧
    Issuing (demo (.sprd 5 h0 3 0 7 15 0)) 5 h0 (.sprd 5 h0 3 0 7 15 0) 0 ∧
    Issuing (demo (.sprd 5 h0 3 3 7 7 65535)) 5 h0 (.sprd 5 h0 3 3 7 7 65535) 0 ∧
    (Issuing (demo (.vtld 5 h0 1 1)) 5 h0 (.vtld 5 h0 1 1) 0 ∧ Clean ((demo (.vtld 5 h0 1 1)).bed 0)) ∧
    Issuing (demo (.tflip 5 h0)) 5 h0 (.tflip 5 h0) 0 ∧ ((demo (.tflip 5 h0)).bed 0).tbank1.poison = false :=
  ⟨issuing_of (by decide +kernel), issuing_of (by decide +kernel), by decide +kernel, issuing_of (by decide +kernel),
   issuing_of (by decide +kernel), demo_ok 5 h0 (by decide +kernel), issuing_of (by decide +kernel), by decide +kernel⟩

/-! ### Sequencing -/

/-- The bed in the last iteration, or an earlier one, of a loop that stops behind its word. -/
def looping (iter : Nat) : State := demoBed (.nop 5 h0) fun b =>
  { b with seq := { b.seq with loops := [{ start := 0, stop := 1, count := 2, iter }] } }
theorem witness_ControlInstructionsSteerTheSequencer :
    Issuing (demo (.nop 5 h0)) 5 h0 (.nop 5 h0) 0 ∧ Issuing (demo (.hint 5 h0 4095)) 5 h0 (.hint 5 h0 4095) 0 ∧
    Issuing (demo (.endList 5 h0)) 5 h0 (.endList 5 h0) 0 ∧ Issuing (demo (.loop 5 h0 65535 1)) 5 h0 (.loop 5 h0 65535 1) 0 ∧
    Issuing (looping 0) 5 h0 (.nop 5 h0) 0 ∧ Issuing (looping 1) 5 h0 (.nop 5 h0) 0 ∧
    ((looping 1).bed 0).seq.loops = [] ++ [{ start := 0, stop := 1, count := 2, iter := 1 }] ∧
    ((looping 1).bed 0).seq.pc + 1 = 1 :=
  ⟨issuing_of (by decide +kernel), issuing_of (by decide +kernel), issuing_of (by decide +kernel),
   issuing_of (by decide +kernel), issuing_of (by decide +kernel), issuing_of (by decide +kernel), by decide +kernel,
   by decide +kernel⟩

/-- The bed waits for a tick: one that has come, or one that had not when its deadline ended. -/
def waiting (target deadline now : Nat) (met : Option Nat) : State :=
  { demoBed (.nop 5 h0) (fun b => { b with seq := { b.seq with state := 4, wait := some { kind := 0, target, deadline, met } } }) with
    clk := { locked := true, sundial := BitVec.ofNat 64 now, cycles := 128 } }
theorem witness_WaitsBeginEndAtOnceAndTimeOut :
    (∀ i ∈ [Instr.sdwait 5 h0 1 1, .lrecv 5 h0 31 15 1 1 1, .cwait 5 h0 255 1, .cbar 5 h0 31 65535 1],
      Issuing (demo i) 5 h0 i 0) ∧
    (∀ x ∈ [(none, 128), (some 139, 139), (some 140, 140)], let s := waiting 8 8 8 x.1;
      s.running = true ∧ (s.plot 0).state = 3 ∧ s.bedsOf 0 = [0] ∧ s.observedAt 0 = some x.2 ∧
        (x.2 + 4 < s.clk.next ↔ x.2 ≠ 140)) ∧ Tidy (waiting 8 8 8 none) ∧
    (let s := waiting 9 8 9 none;
      s.running = true ∧ (s.plot 0).state = 3 ∧ 0 ∈ s.bedsOf 0 ∧
      (s.bed 0).seq.wait = some { kind := 0, target := 9, deadline := 8 } ∧ s.observed 0 = false ∧ 8 < s.plotTime 0) := by
  refine ⟨fun i hi => issuing_of (by revert i; decide +kernel), by decide +kernel, tidy_of (by decide +kernel), by decide +kernel⟩

theorem witness_VaryingReadsFillLanesAndTagsAreRecorded :
    Issuing (demoBed (.entr 5 h0 15 31) fun b => { b with entropy := List.replicate 32 1 }) 5 h0 (.entr 5 h0 15 31) 0 ∧
    (31 : Nat) < ((demoBed (.entr 5 h0 15 31) fun b => { b with entropy := List.replicate 32 1 }).bed 0).entropy.length ∧
    (∀ f ∈ [(0 : BitVec 4), 1],
      Issuing { demo (.entr 5 h0 15 31) with sec := { entropyFail := f } } 5 h0 (.entr 5 h0 15 31) 0 ∧
      ((({ demo (.entr 5 h0 15 31) with sec := { entropyFail := f } } : State).bed 0).entropy.length ≤ 31 ∧
        ({ demo (.entr 5 h0 15 31) with sec := { entropyFail := f } } : State).sec.entropyFail.getLsbD
          ((({ demo (.entr 5 h0 15 31) with sec := { entropyFail := f } } : State).ctx 0).log / 32) = (f == 1))) ∧
    Issuing (demo (.sdrd 5 h0 15 62)) 5 h0 (.sdrd 5 h0 15 62) 0 ∧
    Issuing (demo (.ctrrd 5 h0 15 62 255)) 5 h0 (.ctrrd 5 h0 15 62 255) 0 ∧
    (Issuing (demo (.tag 5 h0 1 3 1)) 5 h0 (.tag 5 h0 1 3 1) 0 ∧ Clean ((demo (.tag 5 h0 1 3 1)).bed 0)) ∧
    (demo (.tag 5 h0 1 3 1)).lnk.comp.enable = false :=
  ⟨issuing_of (by decide +kernel), by decide +kernel,
   fun f hf => ⟨issuing_of (by revert f; decide +kernel), by revert f; decide +kernel⟩,
   issuing_of (by decide +kernel), issuing_of (by decide +kernel), demo_ok 5 h0 (by decide +kernel), by decide +kernel⟩

/-- A send that waits for the bed's first region of segment 1. -/
def sent : Runner := { segment := 1, exec := 1, bed := 0, send := true, addr := 0, bytes := [1], enabled := true }
def rrecvI : Instr := .rrecv 5 h0 1 1 0
/-- A word of bed 0 to a link's hub, in its place or come. -/
def toHub (t : TxItem) : Word := { segment := 1, bed := 256, addr := 0, bytes := [], due := 3, cargo := some (.flit 23 t) }
theorem witness_LinkSendsQueueFlitsAndCollectivesGatherParts_cargo :
    let t : TxItem := { kind := 1, flow := 15, first := true, last := true, lines := 1, tag := 0, payload := zeros 512, plot := 0 };
    let s := (demo rrecvI).setPlot 0 { state := 3, words := [toHub t] };
    let u := (demo rrecvI).setPlot 0 { state := 3, came := [.flit 23 t] };
    ((s.plot 0).words = [toHub t] ∧ (toHub t).err = [] ∧ 256 ≤ (toHub t).bed) ∧ u.plots = [(0, u.plot 0)] ∧
      (u.plot 0).came = [.flit 23 t] := by decide +kernel
/-- A word on its way to the bed, due with its next instruction. -/
def landsIn (err : Tbl Nat) : State :=
  (demo rrecvI).setPlot 0 { state := 3, words := [{ segment := 1, bed := 0, addr := 64, bytes := [1], due := 0, err }] }
theorem witness_RunnerTransfersMeetInPairs_lands : ∀ e ∈ [[], [(0, 138)]],
    ((landsIn e).bed 0).job = some {} ∧ (landsIn e).running = true ∧ ((landsIn e).bed 0).seq.state = 3 ∧
      0 ≤ ((landsIn e).bed 0).due ∧ ((landsIn e).bed 0).due < (landsIn e).clk.next ∧ ((landsIn e).plot 0).state = 3 ∧
      ((landsIn e).plot 0).words = [{ segment := 1, bed := 0, addr := 64, bytes := [1], due := 0, err := e }] ∧
      ((landsIn e).bed 0).admin < 2 ∧ ((landsIn e).bed 0).ecc = [] ∧ (landsIn e).fld 0x10200 0 1 = 0 ∧
      (landsIn e).physOf 5 = some 0 := by decide +kernel
theorem witness_RunnerTransfersMeetInPairs :
    (Issuing (demo (.rsend 5 h0 1 1 1)) 5 h0 (.rsend 5 h0 1 1 1) 0 ∧ Clean ((demo (.rsend 5 h0 1 1 1)).bed 0)) ∧
    Tidy (demo (.rsend 5 h0 1 1 1)) ∧ ((demo (.rsend 5 h0 1 1 1)).plot 0).runner = [] ∧
    Issuing (demo rrecvI) 5 h0 rrecvI 0 ∧ ((demo rrecvI).plot 0).runner = [] ∧
    Issuing ((demo rrecvI).setPlot 0 { state := 3, runner := [sent] }) 5 h0 rrecvI 0 ∧
    ((((demo rrecvI).setPlot 0 { state := 3, runner := [sent] }).plot 0).runner.find? fun o =>
      o.segment == 1 && o.exec == 1 && o.bed == 0 && o.send) = some sent ∧ sent.enabled = true :=
  ⟨demo_ok 5 h0 (by decide +kernel), tidy_of (by decide +kernel), by decide +kernel, issuing_of (by decide +kernel),
   by decide +kernel, issuing_of (by decide +kernel), by decide +kernel, rfl⟩

/-- A program whose collective 255 two beds take part in. -/
def coll2 : Program := { colls := [{ coll := 255, beds := BitVec.ofNat 128 (2 ^ 5 + 2 ^ 6) }] }
def lcollI : Instr := .lcoll 5 h0 255 1 1 1 1 1
theorem witness_LinkSendsQueueFlitsAndCollectivesGatherParts :
    (Issuing (demo (.lsend 5 h0 23 15 1 1 1)) 5 h0 (.lsend 5 h0 23 15 1 1 1) 0 ∧
      Clean ((demo (.lsend 5 h0 23 15 1 1 1)).bed 0)) ∧ (demo (.lsend 5 h0 23 15 1 1 1)).lnk.comp.enable = false ∧
    Issuing ((demo lcollI).setPlot 0 { state := 3, prog := coll2 }) 5 h0 lcollI 0 ∧
    (((demo lcollI).setPlot 0 { state := 3, prog := coll2 }).plot 0).parts = [] ∧
    ((((demo lcollI).setPlot 0 { state := 3, prog := coll2 }).plot 0).prog.coll 255).beds.getLsbD 6 = true ∧
    ((demo lcollI).ctx 0).log = 5 :=
  ⟨demo_ok 5 h0 (by decide +kernel), by decide +kernel, issuing_of (by decide +kernel), by decide +kernel, by decide +kernel,
   by decide +kernel⟩
theorem witness_VaryingReadsFillLanesAndTagsAreRecorded_tag :
    let s : State := { demo (.tag 5 h0 1 3 1) with recs := [(15, { isOpen := true })] };
    s.lnk.comp.enable = false ∧ (s.runRec 15).isOpen = true ∧ (s.runRec 15).events.length + 2 ≤ recLimit := by decide +kernel

/-- A bed without damage, poison or a failed entropy source. -/
theorem sound_demo (i : Instr) : Sound (demo i) 0 :=
  ⟨rfl, by show (0#4).getLsbD _ = false; simp, rfl, rfl, fun _ => ⟨rfl, rfl, fun half _ => by cases half <;> rfl⟩⟩
theorem witness_EveryBedInstructionCompletesInASoundBed : ∀ i ∈ samples, Sound (demo i) 0 ∧ Issuing (demo i) 5 h0 i 0 :=
  fun i hi => ⟨sound_demo i, issuing_of (by
    have w := witness_issuing i hi
    exact decide_eq_true ⟨w.1, w.2.1, w.2.2.1, w.2.2.2.1⟩)⟩

/-! ### Barrows and hubs -/

/-- A transfer of one line between host memory and module memory. -/
def hostXfer (started : Bool) (pos : Nat) (plot : Option (Nat × Nat × Nat)) : Xfer :=
  { desc := copyDesc 2 0 0 0 64 false 0, started, pos, plot }
def chanAt (ch : Nat) (k : Chan) : State := { live with brw := { chans := [(ch, k)] } }
def brwI : Instr := .brw 5 h0 63 1023 1 3 true 1 1
def brwAt (k : Chan) : State := (demo brwI).setChan 63 k
theorem witness_BarrowsAreGivenBegunAndCompleted :
    (∀ k ∈ ([{}, { state := 3 }, { cur := some {} }, { cur := some {}, next := some {} }] : List Chan),
      Issuing (brwAt k) 5 h0 brwI 0 ∧ (brwAt k).chan 63 = k) ∧
    ((chanAt 63 { cur := some (hostXfer false 0 none) }).running = true ∧
      ((chanAt 63 { cur := some (hostXfer false 0 none) }).chan 63).state = 0 ∧
      ((chanAt 63 { cur := some (hostXfer false 0 none) }).engine (hubOf 63)).state = 0 ∧
      ((chanAt 63 { cur := some (hostXfer false 0 none) }).chan 63).cur = some (hostXfer false 0 none) ∧
      (hostXfer false 0 none).due < (chanAt 63 { cur := some (hostXfer false 0 none) }).clk.next) ∧
    ((chanAt 0 { state := 1, cur := some (hostXfer true 1 (some (0, 0, 0))) }).running = true ∧
      ((chanAt 0 { state := 1, cur := some (hostXfer true 1 (some (0, 0, 0))) }).engine (hubOf 0)).state = 0 ∧
      ((chanAt 0 { state := 1, cur := some (hostXfer true 1 (some (0, 0, 0))) }).chan 0).cur =
        some (hostXfer true 1 (some (0, 0, 0))) ∧
      (hostXfer true 1 (some (0, 0, 0))).pos = (hostXfer true 1 (some (0, 0, 0))).count ∧ (hostXfer true 1 (some (0, 0, 0))).till = 0) := by
  refine ⟨fun k hk => ⟨issuing_of (by revert k; decide +kernel), by revert k; decide +kernel⟩, by decide +kernel,
    by decide +kernel⟩

/-- A landing of bed 0 that has finished, or not. -/
def due (done : Bool) : Landing := { channel := 63, bed := 0, index := 0, due := 16, done, slot := some 7, rng := { nonzero := 1 } }
/-- Its A-cycle is in the next tick, in this one, or in the one before. -/
def landingAt (done : Bool) (tick : Nat) : State :=
  { (demo (.nop 5 h0)).setPlot 0 { state := 3, landings := [due done] } with clk := { locked := true, cycles := 16 * tick } }
theorem witness_LandingDeadlinesMergeOrStop : ∀ done : Bool, ∀ k : Fin 3, (landingAt done k).running = true ∧
    (landingAt done k).landingOf 63 = some (0, due done) ∧ (due done).done = done ∧ ((landingAt done k).plot 0).state = 3 ∧
    ((landingAt done k).clk.next ≤ (due done).due ↔ k = 0) ∧ ((due done).due < (landingAt done k).clk.cycles ↔ k = 2) ∧
    (due done).till ≤ (due done).due := by
  decide +kernel
/-- One that had finished a cycle late, and one whose transfer is over in the A-cycle of the landing and not yet completed. -/
theorem witness_LandingDeadlinesMergeOrStop_till :
    (let x := { due true with till := 17 }
      let s := ((demo (.nop 5 h0)).setPlot 0 { state := 3, landings := [x] })
      s.landingOf 63 = some (0, x) ∧ x.due < x.till) ∧
    (let y := hostXfer true 1 (some (0, 0, 0))
      let s := (landingAt false 1).setChan 63 { state := 1, cur := some y }
      s.running = true ∧ s.landingOf 63 = some (0, due false) ∧ (due false).due < s.clk.next ∧ (s.chan 63).cur = some y ∧
        y.plot = some (0, 0, 0) ∧ y.over (due false).due = true) ∧
    (let y := hostXfer true 0 (some (0, 0, 0))
      let s := (landingAt false 2).setChan 63 { state := 1, cur := some y }
      s.landingOf 63 = some (0, due false) ∧ (due false).due < s.clk.cycles ∧ (s.chan 63).cur = some y ∧
        y.over (due false).due = false) := by
  decide +kernel

/-- An engine that stopped in A-cycle 0, with an access of a begun channel and one of another in its log, retried as often as
given. -/
def stoppedHub (st retries ch cycles : Nat) (plot : Option (Nat × Nat × Nat)) : State :=
  { (chanAt ch { state := 2, cur := some (hostXfer true 0 plot) }).setEngine (hubOf ch)
      { state := st, retries, log := [{ chan := ch, index := 0 }, { chan := ch - 1, index := 0 }] } with
    clk := { locked := true, cycles } }
/-- A channel that reads host memory, its access in the log. -/
def reading : State := (chanAt 28 { state := 1, cur := some (hostXfer true 0 none) }).setEngine 0 { log := [{ chan := 28, index := 0 }] }
theorem witness_BusErrorsStopOneHubAndTheManagerHaltsOneChannel :
    (reading.mayFail 28 5 = true ∧ reading.mayFail 28 2 = true ∧ Tidy reading) ∧
    (∀ r : Fin 4, ∀ c ∈ [1008, 1024], let s := stoppedHub 1 r 28 c none;
      s.running = true ∧ (s.engine (b2n false)).state = 1 ∧ ((s.engine 0).stopAt + 1024 < s.clk.next ↔ c = 1024) ∧
        (r.val < s.fld 0x80010 0 3 ↔ r ≠ 3) ∧
        (∀ good ∈ [0, 2], (s.replay (s.engine 0).log good = (s.engine 0).log.length ↔ good = 2))) ∧
    (∀ n ∈ [1, 2], let s := (stoppedHub 2 1 28 0 none).setEngine 0 { (stoppedHub 2 1 28 0 none).engine 0 with replayed := n };
      s.running = true ∧ (s.engine (b2n false)).state = 2 ∧ ((s.engine 0).replayed < (s.engine 0).log.length ↔ n = 1)) ∧
    (∀ o ∈ [none, some (0, 0, 0)], let s := stoppedHub 3 3 60 0 o;
      s.running = true ∧ (s.engine (hubOf 60)).state = 3 ∧
      (s.engine (hubOf 60)).log = [{ chan := 60, index := 0 }, { chan := 59, index := 0 }] ∧
      s.replays { chan := 60, index := 0 } = true ∧ (s.chan 60).cur = some (hostXfer true 0 o)) ∧
    (Served (chanAt 63 { state := 3 }) 0 ∧ ((chanAt 63 { state := 3 }).chan 63).state = 3) :=
  ⟨⟨by decide +kernel, by decide +kernel, tidy_of (by decide +kernel)⟩, by decide +kernel, by decide +kernel, by decide +kernel,
   ⟨by decide +kernel, by decide +kernel, by decide +kernel⟩, by decide +kernel⟩

/-! ### Memory and the nursery -/

/-- A controller in service that wrote a unit in frame 0, with n poisoned ones, in frame 1. -/
def ctlAt (n : Nat) (logRead : Option Nat) : State :=
  { live with
    clk := { locked := true, sundial := 80 }
    ddr := { ctls := [(23, { state := 2, poison := (List.range n).map fun i => 23 + 24 * (i + 1), wrote := [(0, 23)], logRead })] } }
def scrubs (ecc : List (Nat × Nat)) (pend : Option Nat) : State :=
  { live with beds := [(131, { ecc, scrubPending := pend, regs := [(0x818, 1)] })] }
theorem witness_MemoryErrorsArePoisonedAndScrubbed :
    (∀ n ∈ [0, 255, 256], ∀ r ∈ [none, some 0, some 1], ((ctlAt n r).ctl 23).state = 2 ∧
      (((ctlAt n r).ctl 23).logRead = some (ctlAt n r).frame ↔ r = some 1) ∧
      (let k := (ctlAt n r).ctl 23;
        let new := ((k.wrote.filter fun e => e.1 + 1 == (ctlAt n r).frame).map (·.2)).eraseDups.filter fun u => !k.poison.contains u;
        (k.poison ++ new).length ≤ 256 ↔ n ≠ 256)) ∧
    (∀ e ∈ [[], [(3, 137)], [(3, 138)]], (scrubs e none).running = true ∧ wfld (((scrubs e none).bed 131).reg 0x818) 0 1 = 1 ∧
      ((scrubs e none).bed 131).scrubPending = none ∧ ((scrubs e none).bed 131).admin < 2 ∧
      (scrubs e none).banksIdle 131 [((scrubs e none).bed 131).scrubLine % 32] = true) ∧
    ((scrubs [(3, 137)] (some 0)).running = true ∧ ((scrubs [(3, 137)] (some 0)).bed 131).scrubPending = some 0 ∧
      (scrubs [(3, 137)] (some 0)).banksIdle 131 [0] = true ∧
      ∀ e ∈ ((scrubs [(3, 137)] (some 0)).bed 131).ecc, e.1 = 3 → e.2 = ((scrubs [(3, 137)] (some 0)).bed 131).eccAt 3) := by
  decide +kernel

/-- The descriptor of a nursery order of session 0 on walker 3 with page limit 1 and plot 15, its key and word 3. -/
def orderDesc (op key dir : Nat) : List Byte :=
  [6, 0, 0, 0, 0, 0, 0, 0] ++ leBytes 8 key ++ leBytes 8 (op + 3 * 2 ^ 3 + 1 * 2 ^ 23 + 15 * 2 ^ 36) ++ leBytes 8 dir ++ leBytes 8 1 ++
    leBytes 8 196608 ++ zeros 16
/-- Slot 0 of ring 0 has a started descriptor. -/
def asks (d : List Byte) (s : State) : State :=
  s.setRing 0 { state := 1, log2 := 4, start := 1, slots := [(0, { st := 2, started := true, desc := d })] }
/-- Module memory in service, with an entry for sessions 0 and 1. -/
def nursery (e f : List Byte) : State :=
  { live with ddr := { ctls := (List.range 24).map fun c => (c, { state := 2 }), mem := mwrite 0 [] 0 (e ++ f) } }
/-- An entry of the key 7 whose directory, of no page, lies at a page's start. -/
def entryOf (st : Nat) : List Byte := sessBytes none 196608 0 st 15 3 7
def opened (op : Nat) (e f : List Byte) : State := asks (orderDesc op 7 (196608 + 4096 * 2 ^ 40)) (nursery e f)
theorem witness_SessionsOpenCloseAndOrdersQueue :
    ((opened 1 (zeros 64) []).orderAsked src0 1 = true ∧ bits (fieldAt ((opened 1 (zeros 64) []).request src0) 24 8) 40 13 = 4096 ∧
      nurSpace (bits (fieldAt ((opened 1 (zeros 64) []).request src0) 24 8) 0 40) 32768 = true ∧
      bits (fieldAt ((opened 1 (zeros 64) []).request src0) 24 8) 0 40 % pageSize = 0 ∧
      (opened 1 (zeros 64) []).orderCode (orderOf ((opened 1 (zeros 64) []).request src0) src0 0) = 0 ∧
      Live (opened 1 (zeros 64) []) ((opened 1 (zeros 64) []).sessAddr 0)) ∧
    (opened 1 (entryOf 1) []).orderCode (orderOf ((opened 1 (entryOf 1) []).request src0) src0 0) ≠ 0 ∧
    ((opened 5 (entryOf 4) []).orderAsked src0 5 = true ∧
      (opened 5 (entryOf 4) []).orderCode (orderOf ((opened 5 (entryOf 4) []).request src0) src0 0) = 0) ∧
    (opened 5 (zeros 64) []).orderCode (orderOf ((opened 5 (zeros 64) []).request src0) src0 0) ≠ 0 ∧
    (∀ x ∈ [(2, opened 2 (entryOf 1) []), (3, opened 3 (entryOf 2) []), (4, opened 4 (entryOf 1) (entryOf 1))],
      let o := orderOf (x.2.request src0) src0 0
      x.2.orderAsked src0 x.1 = true ∧ o.limit = 1 ∧ x.2.orderCode o = 0 ∧ o.plan % 64 = 0 ∧
        nurSpace o.plan (16 * o.entries) = true) :=
  ⟨⟨by decide +kernel, by decide +kernel, by decide +kernel, by decide +kernel, by decide +kernel, by decide +kernel,
    by decide +kernel, by decide +kernel⟩, by decide +kernel, by decide +kernel, by decide +kernel, by decide +kernel⟩

/-- An entry that reads, or whose unit is poisoned. -/
theorem witness_SessionsOpenCloseAndOrdersQueue_entries : ∀ x ∈ [(1, opened 1 (zeros 64) []), (5, opened 5 (entryOf 4) []), (2, opened 2 (entryOf 1) [])],
    (x.2.badEntry (orderOf (x.2.request src0) src0 0) = none) ∧
    (let s := x.2.setCtl 0 { state := 2, poison := [0] };
      s.orderAsked src0 x.1 = true ∧ (s.badEntry (orderOf (s.request src0) src0 0)).isSome = true) := by decide +kernel

/-- An order to plant session 0 that waited since tick 72. -/
def planting : Order :=
  { op := 2, session := 0, key := 7, limit := 1, plot := 15, digest := false, engine := 0, dest := 1, plan := 0, entries := 0,
    destLimit := 1, src := src0, accepted := 72 }
def walking (k : Walker) : State :=
  { nursery (entryOf 1) [] with clk := { locked := true, sundial := 160 }, beds := [(0, { mapped := true })] }.setWalker 3 k
/-- Some words taken up and done of one page that goes to logical bed 0. -/
def moving (words : Nat) : Work :=
  { order := planting, frame := 0, dir := [⟨196608, 0, 0⟩], words, reads := [(0, words)], landed := [(0, words)] }
/-- The same at tick 8000. -/
def walkingEnd (k : Work) : State := { walking { work := some k } with clk := { locked := true, sundial := 8000 } }
theorem witness_WalkersStartMoveAndCompleteOrders :
    (((walking { queue := [planting] }).walker 3).queue = planting :: [] ∧ (walking { queue := [planting] }).now % 80 = 0 ∧
      planting.accepted.toNat + 8 ≤ (walking { queue := [planting] }).now ∧ planting.plot = 15 ∧
      (walking { queue := [planting] }).orderCode planting = 0 ∧ (walking { queue := [planting] }).badEntry planting = none ∧
      (walking { queue := [planting] }).badDir planting = none ∧
      ((walking { queue := [planting] }).clash ((walking { queue := [planting] }).freeGroup 3 []) = none) ∧
      (walking { queue := [planting] }).dirOf ((walking { queue := [planting] }).sess 0) = []) ∧
    Live (walking { queue := [planting] }) 0 ∧
    (let k := moving 767
      let s := walking { work := some k }
      (s.walker 3).work = some k ∧ s.running = true ∧ k.words < k.total ∧ s.readyStage 3 = none ∧ s.nextPage k = some 0 ∧
        s.ddrBad (196608 + 256 * 767) 256 = none ∧ s.physOf 0 = some 0 ∧ (s.bed 0).admin < 2 ∧ k.order.digest = false ∧
        s.wordIdle 0 (256 * 767) = true ∧ ((s.bed 0).stage.any fun y => y.walker == 3) = false) ∧
    (∀ x ∈ [({ moving 0 with err := 0x65 } : Work), moving 768], ((walkingEnd x).walker 3).work = some x ∧
      (walkingEnd x).dbg.frozen = false ∧ x.orderEnd ≤ (walkingEnd x).now ∧ (x.err ≠ 0 ∨ x.words = x.total)) :=
  ⟨by decide +kernel, ⟨by decide +kernel, by decide +kernel, by decide +kernel⟩, by decide +kernel, by decide +kernel⟩
/-- A plant beside a bed whose MCVT keeps every bank busy, or whose landing stage holds words of the walker. -/
def mcvtBusy : Instr := .mcvt 0 h0 0 0 1023 0
def stalled : State :=
  { nursery (entryOf 1) [] with
    clk := { locked := true, sundial := 160, cycles := 10 }
    beds := [(0, { mapped := true, job := some {}, seq := { state := 3, last := 5, reckoned := 1 } })]
    plots := [(0, { state := 3, prog := { tensors := [{ fmt := 2, ext := [1024, 1, 1, 1] }], lists := [{ code := [(encodeIns mcvtBusy).getD 1] }] } })] }.setWalker 3
      { work := some (moving 0) }
def heldWord : Staged := { walker := 3, page := 0, off := 0, bytes := zeros 256 }
def withStage (n : Nat) (s : State) : State := s.setBed 0 { s.bed 0 with stage := List.replicate n heldWord }
theorem witness_WalkersStartMoveAndCompleteOrders_stage :
    (stalled.running = true ∧ stalled.readyStage 3 = none ∧ stalled.nextPage (moving 0) = some 0 ∧ stalled.wordIdle 0 0 = false) ∧
    (let s := withStage 1 (walking { work := some (moving 1) });
      s.running = true ∧ s.readyStage 3 = some (0, heldWord) ∧ (s.bed 0).ecc = [] ∧ (s.bed 0).admin < 2 ∧ (moving 1).words < (moving 1).total) ∧
    ((withStage 16 stalled).readyStage 3 = none ∧ (withStage 16 stalled).nextPage (moving 0) = none) ∧
    (withStage 1 stalled).readyStage 3 = none ∧ (withStage 1 stalled).nextPage (moving 0) = some 0 := by
  decide +kernel


/-! ### Links -/

def linkAt (l : Nat) (k : Link) : State := { live with lnk := { links := [(l, k)] } }
def item (kind flow tag : Nat) (last : Bool) : TxItem :=
  { kind, flow, first := true, last, lines := 8, tag, payload := zeros 512, plot := 15 }
def up : State := linkAt 23 { state := 2 }
/-- A fold whose accumulator is a numeral at every element: for the kernel. -/
def foldN {α : Type} (f : Nat → α → Nat) : List α → Nat → Nat
  | [], n => n
  | x :: xs, 0 => foldN f xs (f 0 x)
  | x :: xs, n + 1 => foldN f xs (f (n + 1) x)
theorem foldN_eq {α : Type} (f : Nat → α → Nat) (xs : List α) (n : Nat) : foldN f xs n = xs.foldl f n := by
  induction xs generalizing n with
  | nil => simp [foldN]
  | cons x xs ih => cases n <;> simp [foldN, ih]
def crcN (bs : List Byte) : Nat := foldN (fun n b => (crcByte (BitVec.ofNat 64 n) b).toNat) bs (2 ^ 64 - 1)
theorem crcN_eq (bs : List Byte) : crc64 bs = ~~~(BitVec.ofNat 64 (crcN bs)) := by
  have x : ∀ (bs : List Byte) (v : BitVec 64),
      BitVec.ofNat 64 (bs.foldl (fun n b => (crcByte (BitVec.ofNat 64 n) b).toNat) v.toNat) = bs.foldl crcByte v := by
    intro bs
    induction bs with
    | nil => intro v; simp
    | cons b bs ih => intro v; simpa using ih (crcByte v b)
  have y := x bs (BitVec.allOnes 64)
  simp only [crc64, crcN, foldN_eq, ← y, BitVec.toNat_allOnes]
theorem scramble_none (bs : List Byte) : (scramble [] bs).2 = bs := by
  unfold scramble
  generalize hf : (fun (s : List (BitVec 31) × Nat × List Byte) b =>
    let k := scrambleByte (s.1.getD (s.2.1 % 8) 0)
    (s.1.set (s.2.1 % 8) k.1, s.2.1 + 1, (b ^^^ k.2) :: s.2.2)) = f
  have z : (scrambleByte 0).2 = 0 := by decide
  have e : ∀ n r b, f ([], n, r) b = ([], n + 1, b :: r) := by
    intro n r b
    rw [← hf]
    show (([] : List (BitVec 31)), n + 1, (b ^^^ (scrambleByte 0).2) :: r) = _
    rw [z, show b ^^^ (0 : Byte) = b from BitVec.xor_zero]
  have x : ∀ (bs : List Byte) (n : Nat) (r : List Byte), (bs.foldl f ([], n, r)).2.2 = bs.reverse ++ r := by
    intro bs
    induction bs with
    | nil => intro n r; rfl
    | cons b bs ih => intro n r; rw [List.foldl_cons, e, ih]; simp
  show (bs.foldl f ([], 0, [])).2.2.reverse = bs
  rw [x]; simp
/-- The symbols of a codeword of 568 bytes, and the 532 bytes that stand when none is wrong. -/
def wordAt (bs : List Byte) (c : Nat) : List Nat := fecData bs c ++ (List.range 9).map fun j => (bs.getD (532 + 9 * c + j) 0).toNat
def bodyOf (bs : List Byte) : List Byte :=
  (List.range 532).map fun i => BitVec.ofNat 8
    ((((List.range 4).map fun c => (wordAt bs c, false)).getD (i % 4) ([], false)).1.getD (i / 4) 0)
/-- Every k-th of n bytes: what the kernel walks once. -/
def every (k : Nat) : Nat → List Byte → List Nat
  | 0, _ => []
  | n + 1, bs => (bs.headD 0).toNat :: every k n (bs.drop k)
theorem every_eq (k n c : Nat) (bs : List Byte) :
    every k n (bs.drop c) = (List.range n).map fun j => (bs.getD (k * j + c) 0).toNat := by
  induction n generalizing c with
  | zero => rfl
  | succ n ih =>
    rw [every, List.drop_drop, ih, List.range_succ_eq_map, List.map_cons, List.map_map]
    congr 1
    · simp [List.headD_eq_head?_getD, List.head?_drop]
    · apply List.map_congr_left
      intro j _
      simp only [Function.comp_apply, Nat.mul_succ, Nat.add_assoc]
      rw [Nat.add_comm c k]
theorem wordAt_eq (bs : List Byte) (c : Nat) :
    wordAt bs c = every 4 133 (bs.drop c) ++ every 1 9 (bs.drop (532 + 9 * c)) := by
  rw [every_eq, every_eq, wordAt, fecData]
  congr 1
  apply List.map_congr_left
  intro j _
  rw [Nat.one_mul, Nat.add_comm j]
theorem bodyOf_eq {bs : List Byte} (h : bs.length = 568) : bodyOf bs = bs.take 532 := by
  have w : ∀ c j, c < 4 → j < 133 → (wordAt bs c).getD j 0 = (bs.getD (4 * j + c) 0).toNat := by
    intro c j _ hj
    simp [wordAt, fecData, List.getD_eq_getElem?_getD, List.getElem?_append, hj]
  apply List.ext_getElem
  · simp [bodyOf, h]
  · intro i h1 h2
    have hi : i < 532 := by simpa [bodyOf] using h1
    have g : ((List.range 4).map fun c => (wordAt bs c, false)).getD (i % 4) ([], false) = (wordAt bs (i % 4), false) := by
      simp [List.getD_eq_getElem?_getD, Nat.mod_lt]
    simp only [bodyOf, List.getElem_map, List.getElem_range, g, w (i % 4) (i / 4) (Nat.mod_lt _ (by decide)) (by omega),
      Nat.div_add_mod, List.getElem_take]
    simp [List.getD_eq_getElem?_getD, List.getElem?_eq_getElem (show i < bs.length by omega)]
def synOk (bs : List Byte) : Bool :=
  (List.range 4).all fun c => (gfAlphas 9).all fun a =>
    foldN (fun s x => gfMul s a ^^^ x) (every 4 133 (bs.drop c) ++ every 1 9 (bs.drop (532 + 9 * c))) 0 == 0
theorem fecDecode_clean {bs : List Byte} (x : synOk bs = true) : fecDecode bs = some (bodyOf bs, 0) := by
  have y : ∀ c ∈ List.range 4, rsDecode (wordAt bs c) = some (wordAt bs c, false) := by
    intro c hc
    have z := (List.all_eq_true.mp x) c hc
    unfold rsDecode rsSyndromes
    rw [if_pos]
    simp only [foldN_eq, ← wordAt_eq] at z
    simpa [List.all_map, Function.comp_def] using z
  have m : ((List.range 4).map fun c => rsDecode (wordAt bs c)) = (List.range 4).map fun c => some (wordAt bs c, false) :=
    List.map_congr_left y
  have f : fecDecode bs = (let ws := (List.range 4).map fun c => rsDecode (wordAt bs c)
    if ws.any (·.isNone) then none
    else
      let cs := ws.map fun w => w.getD ([], false)
      some ((List.range 532).map fun i => BitVec.ofNat 8 ((cs.getD (i % 4) ([], false)).1.getD (i / 4) 0),
        (cs.filter (·.2)).length)) := rfl
  rw [f, m]
  rfl
/-- A flit without errors as the wire carries it where no lane is scrambled: header, payload of zeros, CRC, parity. -/
def flit (h : Hdr) (crc : Nat) (parity : List Byte) : List Byte := h.bytes ++ zeros 512 ++ leBytes 8 crc ++ parity
theorem accepts_of {s : State} {l kind : Nat} {wire : List Byte} (c : Nat)
    (x : decide ((s.link l).state = 2 ∧ wire.length = 568 ∧ s.clk.locked = true ∧ s.linkFrozen = false ∧
      (s.link l).rxScramble = [] ∧ synOk wire = true ∧ crcN (wire.take 524) = c ∧
      fieldAt (wire.drop 524) 0 8 = (~~~(BitVec.ofNat 64 c)).toNat ∧ (hdrOf wire).kind = kind ∧
      ((hdrOf wire).seq = ((s.link l).rxSeq + 1) % 4096 ∨ kind = 0 ∨ kind = 4)) = true) :
    Accepts s l kind wire (hdrOf wire) ((wire.take 524).drop 12) := by
  obtain ⟨a, b, e, f, g, i, j, k, m, n⟩ := of_decide_eq_true x
  have t : (bodyOf wire).take 524 = wire.take 524 := by rw [bodyOf_eq b, List.take_take]; norm_num
  have d : fieldAt (bodyOf wire) 524 8 = fieldAt (wire.drop 524) 0 8 := by
    rw [bodyOf_eq b]; simp [fieldAt, List.drop_take, List.take_take]
  have u : hdrOf (wire.take 524) = hdrOf wire := by
    simp [hdrOf, fieldAt, List.drop_take, List.take_take]
  refine ⟨a, b, e, f, ⟨(bodyOf wire, 0), by rw [g, scramble_none]; exact fecDecode_clean i, ?_, ?_, ?_⟩, m, fun o => ?_⟩
  · dsimp only
    rw [t, crcN_eq, j, d, k]
  · dsimp only
    rw [t, u]
  · dsimp only
    rw [t]
  · omega
theorem witness_FlitSendTakesTheNakThenTheFlowInTurn :
    (∀ n ∈ [0, 4095], ((linkAt 23 { state := 2, nak := some n }).link 23).nak = some n ∧
      (linkAt 23 { state := 2, nak := some n }).linkFrozen = false ∧ (linkAt 23 { state := 2, nak := some n }).clk.locked = true) ∧
    (((linkAt 23 { state := 2, queue := [item 1 15 0 true] }).link 23).replay = [] ∧
      ((linkAt 23 { state := 2, queue := [item 1 15 0 true] }).link 23).nak = none ∧
      (linkAt 23 { state := 2, queue := [item 1 15 0 true] }).dbg.frozen = false ∧
      (((linkAt 23 { state := 2, queue := [item 1 15 0 true] }).link 23).queue.find? fun x => x.kind == 3) = none ∧
      ((linkAt 23 { state := 2, queue := [item 1 15 0 true] }).link 23).nextFlow = some 15 ∧
      (((linkAt 23 { state := 2, queue := [item 1 15 0 true] }).link 23).queue.find? fun x => x.kind != 3 && x.flow == 15) =
        some (item 1 15 0 true)) := by
  decide +kernel
/-- Every kind of turn: nothing to send, an untrained link, a frost, a replay, a control flit. -/
theorem witness_FlitSendTakesTheNakThenTheFlowInTurn_turns :
    (let s := linkAt 23 { state := 2, replay := [4095], held := [{ seq := 4095, item := item 1 15 0 true, bytes := [], since := 0 }] };
      (s.link 23).state = 2 ∧ s.clk.locked = true ∧ s.linkFrozen = false ∧ (s.link 23).nak = none ∧
      (∀ q ∈ (s.link 23).replay, ∃ x ∈ (s.link 23).held, x.seq = q) ∧
      ((s.link 23).held.find? fun y => y.seq == 4095).isSome = true) ∧
    ((linkAt 23 {}).link 23).state ≠ 2 ∧
    (∀ c : Bool, let s : State := { linkAt 23 { state := 2, queue := [item 3 0 5 true] } with dbg := { frozen := true, multi := true, conservation := c } };
      s.linkFrozen = true ∧ ((s.link 23).queue.find? fun x => x.kind == 3 && x.tag == 5) = some (item 3 0 5 true)) ∧
    (let s := linkAt 23 { state := 2, queue := [item 3 0 3 true] };
      s.linkFrozen = false ∧ s.dbg.frozen = false ∧ (s.link 23).nak = none ∧ (s.link 23).replay = [] ∧
      ((s.link 23).queue.find? fun x => x.kind == 3) = some (item 3 0 3 true)) ∧
    (up.linkFrozen = false ∧ ((up.link 23).queue.find? fun x => x.kind == 3) = none ∧ (up.link 23).nextFlow = none) := by
  decide +kernel
def idleWire : List Byte := flit { ack := 4095, lines := 1 } 2207269179035949953
  [190, 123, 219, 117, 154, 131, 122, 184, 174, 204, 78, 241, 27, 112, 181, 253, 143, 15, 158, 179, 116, 253, 245,
   181, 45, 96, 227, 124, 163, 136, 174, 227, 19, 201, 133, 8]
def dataWire : List Byte := flit { kind := 1, flow := 15, seq := 0, ack := 4095, first := true, last := true, lines := 8 } 9153767333511288024
  [143, 14, 168, 64, 203, 153, 211, 67, 102, 127, 129, 177, 96, 119, 106, 241, 153, 39, 209, 100, 193, 96, 237, 221,
   246, 171, 2, 71, 26, 17, 86, 166, 106, 219, 160, 51]
def collWire : List Byte := flit { kind := 2, flow := 3, seq := 0, ack := 4095, first := true, lines := 8 } 14926105873648362215
  [130, 203, 7, 232, 158, 44, 50, 122, 188, 164, 228, 238, 147, 241, 242, 86, 153, 96, 71, 238, 119, 5, 137, 183, 172,
   224, 211, 101, 50, 59, 200, 236, 25, 144, 211, 236]
def formedWire : List Byte := flit { kind := 3, seq := 0, ack := 4095, first := true, last := true, lines := 8, tag := 7 } 8380431600345181092
  [83, 78, 140, 221, 165, 166, 13, 13, 203, 179, 42, 17, 25, 115, 11, 201, 221, 207, 44, 27, 132, 162, 141, 70, 99,
   40, 35, 13, 237, 61, 113, 135, 125, 206, 241, 121]
def probeWire : List Byte := flit { kind := 3, seq := 0, ack := 4095, first := true, last := true, lines := 8, tag := 1 } 15347908736992379369
  [144, 94, 89, 217, 199, 202, 38, 0, 34, 107, 182, 98, 1, 29, 235, 111, 239, 239, 58, 172, 52, 98, 162, 179, 92, 18, 27,
   67, 170, 123, 73, 1, 10, 141, 60, 179]
def sowWire : List Byte := flit { kind := 3, seq := 0, ack := 4095, first := true, last := true, lines := 8, tag := 3 } 13010920386663360466
  [247, 154, 91, 132, 96, 193, 81, 135, 60, 137, 233, 20, 216, 111, 201, 182, 31, 136, 73, 106, 219, 183, 135, 121,
   181, 182, 36, 245, 131, 164, 209, 89, 129, 146, 238, 203]
def nakWire : List Byte := flit { kind := 4, tag := 4095, ack := 4094 } 6448009405879734664
  [172, 191, 42, 112, 244, 5, 3, 18, 65, 210, 104, 142, 86, 228, 55, 93, 100, 183, 194, 229, 198, 241, 228, 245, 194,
   104, 25, 248, 68, 50, 31, 247, 194, 35, 39, 72]
theorem accepts_idle : Accepts up 23 0 idleWire (hdrOf idleWire) ((idleWire.take 524).drop 12) :=
  accepts_of 16239474894673601662 (by decide +kernel)
theorem accepts_data : Accepts up 23 1 dataWire (hdrOf dataWire) ((dataWire.take 524).drop 12) :=
  accepts_of 9292976740198263591 (by decide +kernel)
theorem accepts_coll : Accepts up 23 2 collWire (hdrOf collWire) ((collWire.take 524).drop 12) :=
  accepts_of 3520638200061189400 (by decide +kernel)
theorem accepts_formed : Accepts up 23 3 formedWire (hdrOf formedWire) ((formedWire.take 524).drop 12) := accepts_of 10066312473364370523 (by decide +kernel)
theorem accepts_sow : Accepts up 23 3 sowWire (hdrOf sowWire) ((sowWire.take 524).drop 12) :=
  accepts_of 5435823687046191149 (by decide +kernel)
/-- The same link, its partner of the same domain, its flow a plot's whose collective another bed still takes part in. -/
def upIn : State :=
  { up with
    lnk := { links := [(23, { state := 2, inDomain := true })] }
    plots := [(0, { state := 3, prog := { claims := [{ kind := 6, first := 23, count := 1, slots := 1 <<< 3 }], colls := [{ coll := 0, beds := 1, parent := 31 }] } })] }
theorem witness_AcceptedFlitsAreKeptByTheirKind_domain :
    ((up.link 23).inDomain = false ∧ (upIn.link 23).inDomain = true ∧ upIn.dbg.frozen = false ∧ (upIn.link 23).rx = [] ∧
      upIn.flowPlot 23 3 = some 0 ∧ upIn.flowPlot 23 4 = none ∧ ((upIn.plot 0).prog.coll 0).parent ≠ 23 ∧
      (upIn.plot 0).partials = [] ∧ (0 : Nat) < 128 ∧ ((upIn.plot 0).prog.coll 0).beds.getLsbD 0 = true ∧ (upIn.plot 0).parts = []) ∧
    ∃ h x, Accepts upIn 23 2 collWire h x ∧ h.flow = 3 ∧ h.tag % 256 = 0 :=
  ⟨by decide +kernel, _, _, accepts_of 3520638200061189400 (by decide +kernel), by decide +kernel, by decide +kernel⟩
theorem witness_AcceptedFlitsAreKeptByTheirKind_control :
    (∃ h x, Accepts upIn 23 3 probeWire h x ∧ h.tag % 256 = 1) ∧ (∃ h x, Accepts upIn 23 3 formedWire h x ∧ h.tag % 256 = 7) :=
  ⟨⟨_, _, accepts_of 3098835336717172246 (by decide +kernel), by decide +kernel⟩,
   ⟨_, _, accepts_of 10066312473364370523 (by decide +kernel), by decide +kernel⟩⟩
theorem witness_AcceptedFlitsAreKeptByTheirKind : (∃ h x, Accepts up 23 0 idleWire h x) ∧ (∃ h x, Accepts up 23 1 dataWire h x) ∧
    (∃ h x, Accepts up 23 2 collWire h x ∧ h.last = false) ∧ (∃ h x, Accepts up 23 3 formedWire h x ∧ h.tag % 256 = 7) ∧
    (∃ h x, Accepts up 23 3 sowWire h x ∧ h.tag % 256 = 3) ∧ Alone up 23 :=
  ⟨⟨_, _, accepts_idle⟩, ⟨_, _, accepts_data⟩, ⟨_, _, accepts_coll, by decide +kernel⟩, ⟨_, _, accepts_formed, by decide +kernel⟩,
   ⟨_, _, accepts_sow, by decide +kernel⟩, .inl (by decide +kernel)⟩
/-- A flit held since tick 0, numbered 4095 and replayed six times. -/
def heldOne : TxHeld := { seq := 4095, item := item 1 15 0 true, bytes := [], since := 0, replays := 6 }
def holding (now : Nat) : State :=
  { linkAt 23 { state := 2, held := [heldOne] } with clk := { locked := true, sundial := BitVec.ofNat 64 now } }
theorem witness_ReplaysRepeatFlitsAndLostLinksGoDownEmpty :
    (((holding 201).link 23).held = heldOne :: [] ∧ ((holding 201).link 23).state = 2 ∧ (holding 201).linkFrozen = false ∧
      heldOne.since.toNat + 200 < (holding 201).now ∧ heldOne.replays < 7) ∧
    (∃ h x, Accepts (holding 200) 23 4 nakWire h x ∧ Alone (holding 200) 23 ∧ heldOne.seq = bits h.tag 0 12 ∧ heldOne.seq ≠ h.ack) ∧
    (((holding 1001).link 23).lastValid.toNat + 1000 < (holding 1001).now ∧ (holding 1001).linkPlots 23 = [] ∧
      (holding 1001).fld (0xB0020 + 0x100 * 23) 0 1 = 0) :=
  ⟨by decide +kernel, ⟨_, _, accepts_of 11998734667829816951 (by decide +kernel), .inl (by decide +kernel), by decide +kernel, by decide +kernel⟩,
   by decide +kernel⟩

def arrived (tag : Nat) : RxItem :=
  { kind := 1, flow := 15, first := true, last := true, lines := 8, tag, payload := zeros 512 }
def portRoute : Route := { segment := 4, source := 0xAB, slots := 1 <<< 16, dest := 1 <<< 5, lambda := 3 }
/-- A plot that holds flow 15 of link 23, whose bed stands or waits at an LRECV of two lines, and a message of some lines. -/
def lrecvAt (wait : Option Wait) (lines : Nat) : State :=
  let i : Instr := .lrecv 5 h0 23 15 1 1 0
  { (demo i).setPlot 0 { state := 3, prog := { claims := [{ kind := 6, first := 23, count := 1, slots := 1 <<< 15 }], routes := [portRoute] } } with
    beds := [(0, { bedAt ((encodeIns i).getD 1) with seq := { state := if wait.isSome then 4 else 3, wait } })]
    lnk := { links := [(23, { state := 2, rx := [arrived (lines - 1)] })] } }
def waitL : Wait := { kind := 1, link := 23, flow := 15, deadline := 8 }
theorem witness_AMessageLandsInTheWindowOfItsLrecv : ∀ x ∈ [(none, 2), (some waitL, 2), (none, 1), (some waitL, 3)],
    ((lrecvAt x.1 x.2).link 23).message 15 = [arrived (x.2 - 1)] ∧ (lrecvAt x.1 x.2).flowPlot 23 15 = some 0 ∧
    (lrecvAt x.1 x.2).running = true ∧ (lrecvAt x.1 x.2).bedsOf 0 = [0] ∧
    (((lrecvAt x.1 x.2).window 0 23 15).map fun w => (w.len, w.isOpen)) = some (2, true) ∧ ((lrecvAt x.1 x.2).bed 0).admin < 2 ∧
    ((lrecvAt x.1 x.2).bed 0).ecc = [] ∧ ((lrecvAt x.1 x.2).messageRoute 0 0 23).segment = 4 ∧
    (lrecvAt x.1 x.2).routeDues 0 ((lrecvAt x.1 x.2).messageRoute 0 0 23) 0 1 = [19] := by decide +kernel
/-- The bytes before a flit that is not its message's first are in the bed, or the message has not begun. -/
theorem witness_AMessageLandsInTheWindowOfItsLrecv_flits : ∀ before ∈ [[], zeros 64], ∀ last : Bool,
    let y := { arrived 1 with first := false, last, lines := 1 }
    let s := { lrecvAt (some waitL) 2 with lnk := { links := [(23, { state := 2, rx := [y], arrived := [(15, before)] })] } }
    (s.link 23).message 15 = [y] ∧ s.flowPlot 23 15 = some 0 ∧ s.running = true ∧ (s.plot 0).state = 3 ∧ s.bedsOf 0 = [0] ∧
      ((s.window 0 23 15).map fun w => (w.len, w.isOpen)) = some (2, true) ∧
      tget (fun _ => []) (s.link 23).arrived 15 = before ∧ (y.first = before.isEmpty ↔ before ≠ []) := by decide +kernel
/-- A word due in A-cycle 19 on its way to bed 0. -/
def onItsWay : State :=
  { (lrecvAt none 2).setPlot 0 { state := 3, words := [{ segment := 4, bed := 0, addr := 64, bytes := [7], due := 19 }] } with clk := {} }
theorem witness_AMessageLandsInTheWindowOfItsLrecv_words :
    (onItsWay.plot 0).words.length = 1 ∧ (onItsWay.bed 0).admin < 2 ∧ (onItsWay.bed 0).ecc = [] ∧
    ((onItsWay.landWord { segment := 4, bed := 0, addr := 64, bytes := [7], due := 19 }).bed 0).mem = [(64, 7)] := by decide +kernel

def serviceDesc (n : Nat) (xs : List Byte) : List Byte := [8, 0, 0, 0, 0, 0, 0, 0] ++ leBytes 2 n ++ zeros 6 ++ xs
/-- Slot 0 of ring 0 asks for a service. -/
def served (n : Nat) (xs : List Byte) (s : State) : State := asks (serviceDesc n (xs ++ zeros (48 - xs.length))) s
def failed : LinkEnv := { le0 with failStep := 1 }
def found : LinkEnv := { le0 with identity := 9 }
theorem witness_LinksTrainRetrainAndDisable :
    (∀ st ∈ [0, 1, 3], ((linkAt 23 { state := st }).link 23).state = st ∧ (linkAt 23 { state := st }).ready = true ∧
      tget (fun _ => 0) (linkAt 23 { state := st }).grd.gardState 8 = 1) ∧
    (let s : State := { linkAt 23 { failedAt := some 0 } with clk := { locked := true, sundial := 10000000 } };
      (s.link 23).state = 0 ∧ s.ready = true ∧ (s.link 23).retryDue s.now = true) ∧
    failed.failStep ≠ 0 ∧ le0.identity = (linkAt 23 {}).sec.identity ∧ found.failStep = 0 ∧
    found.identity ≠ (linkAt 23 {}).sec.identity ∧ ((linkAt 23 { partnerId := some 9 }).link 23).partnerId = some found.identity ∧
    ((linkAt 23 {}).link 23).partnerId = none ∧ Served (linkAt 23 { state := 3 }) 0 ∧
    (∀ l ∈ ([23, 24] : List Byte), (served 0x10 [l] up).service src0 0x10 = true ∧
      fieldAt ((served 0x10 [l] up).request src0) 16 1 = l.toNat) ∧
    (∀ l ∈ ([23, 24] : List Byte), (served 0x11 [l, 1] up).service src0 0x11 = true ∧
      fieldAt ((served 0x11 [l, 1] up).request src0) 16 1 = l.toNat) ∧
    bit (fieldAt ((served 0x11 [23, 0] (linkAt 23 { state := 3 })).request src0) 17 1) 0 = false := by
  refine ⟨by decide +kernel, by decide +kernel, by decide +kernel, by decide +kernel, by decide +kernel, by decide +kernel,
    by decide +kernel, by decide +kernel, ⟨by decide +kernel, by decide +kernel, by decide +kernel⟩, by decide +kernel⟩

def probe0 : Probe := ⟨0, 64, 65, 128⟩
def domainAt (now : Nat) : State :=
  { linkAt 23 { state := 2, inDomain := true } with clk := { locked := true, sundial := BitVec.ofNat 64 now } }
theorem witness_ProbesAddUpAndRechecksFindSlips :
    ((domainAt 0).link 23).inDomain = true ∧ ((domainAt 0).link 23).state = 2 ∧ (domainAt 0).linkFrozen = false ∧
    ((domainAt 0).link 23).probes + 1 ≠ 16 ∧ (domainAt 128).exchanged probe0 = true ∧
    (domainAt 1000000).exchanged probe0 = true ∧ (List.replicate 16 probe0).length = 16 ∧
    ((domainAt 1000000).link 23).lastCheck.toNat + 1000000 ≤ (domainAt 1000000).now := by decide +kernel

/-- An order kept on link 23: its code, its tick 800 and what follows. -/
def kept (code : Nat) (more : List Byte) : State :=
  linkAt 23 { state := 2, ctlIn := [leBytes 1 code ++ leBytes 8 800 ++ more ++ zeros 2] }
def keptOf (s : State) (code : Nat) (more : List Byte) : Option (List Byte) :=
  (s.link 23).ctlIn.find? fun x => x.take (9 + more.length) == leBytes 1 code ++ leBytes 8 800 ++ more
def multiPlot : Plot := { state := 2, prog := { multi := true, digest := 5 } }
def slippedAt (code : Nat) : State := { kept code [] with lnk := { (kept code []).lnk with slipped := true } }
def frozenAt (multi : Bool) (s : State) : State := { s with dbg := { frozen := true, multi, cut := 1 } }
def comparing (r : Option CmpRec) : State :=
  { live with clk := { locked := true, sundial := 101 }, lnk := { comp := { enable := true, link := 23, own := r.toList } },
              regs := [(0, 1), (0xB1800, BitVec.ofNat 64 (1 + 2 * 23 + 2 ^ 7 * 100))] }
theorem witness_DomainOrdersAndCompanionMode :
    ((keptOf (kept 3 (digestBytes 5)) 3 (digestBytes 5)).isSome ∧
      (((kept 3 (digestBytes 5)).setPlot 15 multiPlot).plots.find? fun y => y.2.state == 2 && y.2.prog.multi &&
        y.2.prog.digest == 5 && y.2.sowAt == none) = some (15, multiPlot) ∧ (kept 3 (digestBytes 5)).now ≤ 800) ∧
    ((keptOf (kept 4 []) 4 []).isSome ∧ (kept 4 []).dbg.frostAt = none ∧ (kept 4 []).dbg.frozen = false) ∧
    ((keptOf (frozenAt true (kept 5 [])) 5 []).isSome ∧ (frozenAt true (kept 5 [])).dbg.frozen = true ∧
      (frozenAt true (kept 5 [])).dbg.multi = true ∧ (frozenAt true (kept 5 [])).dbg.thawAt = none) ∧
    ((slippedAt 4).lnk.slipped = true ∧ (keptOf (slippedAt 4) 4 []).isSome ∧ (keptOf (slippedAt 5) 5 []).isSome) ∧
    (∀ l ∈ ([23, 24] : List Byte), (served 0x18 [l, 0, 0, 0, 0, 0, 0, 0, 100] live).service src0 0x18 = true ∧
      fieldAt ((served 0x18 [l, 0, 0, 0, 0, 0, 0, 0, 100] live).request src0) 16 1 = l.toNat) ∧
    ((served 0x18 [23] live).holder 7 23 0 = none ∧ (served 0x18 [23] live).lnk.comp.enable = false ∧
      (served 0x18 [23] (comparing none)).holder 7 23 0 = none ∧ (served 0x18 [23] (comparing none)).lnk.comp.enable = true) ∧
    ((served 0x19 [] live).service src0 0x19 = true ∧ (served 0x19 [] (comparing none)).service src0 0x19 = true) ∧
    ((comparing (some ⟨zeros 32, 0⟩)).linkFrozen = false ∧ (comparing (some ⟨zeros 32, 0⟩)).fld 0xB1808 0 1 = 0 ∧
      (((comparing (some ⟨zeros 32, 0⟩)).lnk.comp.own ++ (comparing (some ⟨zeros 32, 0⟩)).lnk.comp.partner).find? fun x =>
        decide (x.tick.toNat + (comparing (some ⟨zeros 32, 0⟩)).fld 0xB1800 7 32 < (comparing (some ⟨zeros 32, 0⟩)).now)) =
        some ⟨zeros 32, 0⟩) := by
  decide +kernel

/-! ### Host interface -/

/-- Ring 63 with 2 slots. -/
def ringAt (x : Ring) : State := live.setRing 63 { x with log2 := 1 }
def nopDesc (flags : Nat) : List Byte := [0, BitVec.ofNat 8 flags] ++ zeros 62
theorem witness_RingsTakeTailsHeadsAndEnables :
    (∀ x ∈ ([{ state := 1 }, { state := 3 }] : List Ring), Served (ringAt x) 0 ∧ 1 < ((ringAt x).ring 63).size ∧
      ((ringAt x).ring 63).span 0 1 ≤ ((ringAt x).ring 63).free) ∧
    (((ringAt { state := 1 }).ring 63).size ≤ 2 ∧ ((ringAt { state := 2 }).ring 63).state = 2) ∧
    ((ringAt { state := 2, slots := [(0, { st := 4 })] }).ring 63).span 0 1 = 1 ∧
    (∀ i, i < 1 → (((ringAt { state := 2, slots := [(0, { st := 4 })] }).ring 63).slot ((0 + i) % 2)).st = 4) ∧
    (Reached live 0 ∧ live.ready = true ∧ live.fld (0x1010 + 0x40 * 63) 0 1 = 0 ∧ (live.ring 63).state ≠ 2 ∧
      wfld (0x21 : W64) 1 5 = 16 ∧ wfld (0x3 : W64) 1 5 = 1) ∧
    (Reached { ringAt { state := 1 } with regs := [(0, 1), (0x1010 + 0x40 * 63, 3)] } 0 ∧
      ({ ringAt { state := 1 } with regs := [(0, 1), (0x1010 + 0x40 * 63, 3)] } : State).fld (0x1010 + 0x40 * 63) 0 1 = 1) := by
  refine ⟨fun x hx => ⟨⟨by revert x; decide +kernel, by revert x; decide +kernel, by revert x; decide +kernel⟩,
    by revert x; decide +kernel⟩, by decide +kernel, by decide +kernel, by decide +kernel,
    ⟨⟨by decide +kernel, by decide +kernel⟩, by decide +kernel⟩, ⟨by decide +kernel, by decide +kernel⟩, by decide +kernel⟩

/-- Slot 0 active with a descriptor, perhaps another one started before it, and the chain it ends perhaps failed. -/
def starts (d : List Byte) (before bad : Bool) : Ring :=
  { state := 1, start := 0, chain := 1, chainBad := bad,
    slots := [(0, { st := 2, desc := d })] ++ if before then [(1, { st := 2, started := true, desc := nopDesc 0 })] else [] }
def held (x : Ring) : State :=
  ringAt { x with state := 2, post := 1, phase := true, slots := [(1, { st := 3, desc := nopDesc 2, status := 1, code := 7 })] }
/-- A read of ring 63's descriptors that failed. -/
def unread : Xfer := { desc := readDesc 64 64, ring := some 63, started := true, probe := true }
theorem witness_DescriptorsStartAndCompleteInRingOrder :
    ((ringAt { state := 1, slots := [(0, { st := 1 }), (1, { st := 1 })] }).ringsRun 63 = true ∧
      ((List.range 2).takeWhile fun i =>
        (((ringAt { state := 1, slots := [(0, { st := 1 }), (1, { st := 1 })] }).ring 63).slot i).st == 1).length = 2 ∧
      ((ringAt { state := 1, slots := [(0, { st := 1 })] }).chan 31).state ≠ 3 ∧
      (ringAt { state := 1, slots := [(0, { st := 1 })] }).readFree 31 = true) ∧
    (let s : State := { ringAt { state := 1, slots := [(0, { st := 1 })] } with
        brw := { engines := [(0, { state := 3, log := [{ chan := 31, index := 0 }] })], chans := [(31, { state := 2, cur := some unread })] } };
      s.running = true ∧ (s.engine 0).state = 3 ∧ (s.engine 0).log.head? = some { chan := 31, index := 0 } ∧ s.replay [{ chan := 31, index := 0 }] 0 = 0 ∧ (s.chan 31).cur = some unread ∧
      unread.ring = some 63 ∧ unread.src = none ∧ ((s.ring 63).slot (s.ring 63).fetch).st = 1) ∧
    (∀ x ∈ [(nopDesc 1, true, false), (nopDesc 1, false, true), (nopDesc 4, false, false), (serviceDesc 0 (zeros 48), false, false),
        (nopDesc 0, true, false)],
      let s := ringAt (starts x.1 x.2.1 x.2.2)
      s.ready = true ∧ s.gardens 7 = true ∧ ((s.ring 63).slot 0).st = 2 ∧ ((s.ring 63).slot 0).started = false) ∧
    (asks (nopDesc 0) live).descriptor src0 0 = true ∧
    ((held {}).ringsRun 63 = true ∧ (((held {}).ring 63).slot 1).st = 3 ∧ ((held {}).ring 63).state ≠ 0 ∧
      wfld ((held {}).host.msix (2 * ((held {}).ring 63).vector + 1)) 32 1 = 0) := by
  decide +kernel

def faulty : State := { live with host := { dbOut := 4 }, grd := { live.grd with flt := [(0, { valid := true })] } }
def boxes (full : Bool) (svc : Nat) : State :=
  { live with host := { mbIn := [(7, { full, msg := leBytes 2 svc ++ zeros 62 })], mbReply := [(7, zeros 64)] } }
theorem witness_DoorbellsAndMailboxesCarryMessages :
    Served faulty 0 ∧ (faulty.host.dbOut.getLsbD 2 = true ∧ ∃ e ∈ faulty.grd.flt, e.2.valid = true) ∧
    ((boxes false 0).alive = true ∧ ((boxes false 0).host.inbox 7).full = false) ∧
    (((boxes true 0x10).host.inbox 7).full = true ∧ tget (fun _ => []) (boxes true 0x10).host.mbReq 7 = [] ∧
      (boxes true 0x10).gardens 9 = true ∧ mboxServes 7 0x10 = true ∧ mboxServes 7 0 = false ∧
      fieldAt ((boxes true 0x10).host.inbox 7).msg 0 2 = 0x10 ∧ fieldAt ((boxes true 0).host.inbox 7).msg 0 2 = 0) ∧
    (((boxes true 0).host.outbox 7).full = false ∧ tget (fun _ => []) (boxes true 0).host.mbReply 7 = zeros 64 ∧
      tget (fun _ => []) (boxes true 0).host.mbReply 0 = [] ∧ (boxes true 0).gardens 0 = true) ∧
    ({ live with host := { d3hot := true } } : State).host.d3hot = true ∧
    ({ live with host := { mbOut := [(7, { full := true })] } } : State).host.outbox 7 = { full := true } := by
  refine ⟨⟨by decide +kernel, by decide +kernel, by decide +kernel⟩, ⟨by decide +kernel, _, List.mem_cons_self, rfl⟩,
    by decide +kernel⟩

/-! ### Plots -/

def endWord : List Byte := leBytes 16 ((encodeIns (.endList 0 h0)).getD 0).toNat
/-- A whole program image of 512 bytes: one bed, one list of END alone, one byte tensor, one claim of bed 0. -/
def image : List Byte :=
  leBytes 2 2 ++ [0, 0] ++ leBytes 2 1 ++ leBytes 2 1 ++ leBytes 2 1 ++ leBytes 2 1 ++ zeros 20 ++
  leBytes 32 49385331775629761820071231939808507628294116452914340490584418604934314211579 ++
  ([(320, 4), (384, 16), (256, 64), (448, 16), (0, 0), (0, 0), (0, 0), (0, 0)].flatMap fun p => leBytes 4 p.1 ++ leBytes 4 p.2) ++
  zeros 128 ++ (zeros 8 ++ [1, 0, 1, 0, 1, 0, 1, 0] ++ zeros 48) ++ zeros 64 ++ endWord ++ zeros 48 ++
  ([1, 0] ++ leBytes 2 0 ++ leBytes 2 1 ++ zeros 10) ++ zeros 48
def dir0 : List ListDir := [⟨0, 1, 0, 0, 0, 0, 0, 0, 0, 0⟩]
def loading (im : List Byte) : State :=
  asks ([1, 0, 0, 0, 0, 0, 0, 0] ++ leBytes 8 64 ++ leBytes 4 im.length ++ zeros 44)
    { live with host := { mem := mwrite 0 [] 64 im }, beds := [(0, { mapped := true })] }
def loadDone (mapped : Bool) : State :=
  ((loading []).setPlot 15 { state := 1, loadSrc := some src0, prog := programOf image dir0 [] }).setBed 0 { mapped }
/-- A list whose numbers are numerals before anything is done with it: for the kernel. -/
def forced {α : Type} : List Nat → (List Nat → α) → α
  | [], k => k []
  | 0 :: xs, k => forced xs fun l => k (0 :: l)
  | (n + 1) :: xs, k => forced xs fun l => k ((n + 1) :: l)
theorem forced_eq {α : Type} (xs : List Nat) (k : List Nat → α) : forced xs k = k xs := by
  induction xs generalizing k with
  | nil => rfl
  | cons x xs ih => cases x <;> simp [forced, ih]
/-- One round of Keccak, as keccakRounds has it. -/
def roundOf (r : Nat) (st : List W64) : List W64 :=
  let rows := (List.range 5).flatMap fun y => chiRow (((stepRhoPi (stepTheta st)).drop (5 * y)).take 5)
  putAt rows 0 (nth rows 0 0 ^^^ BitVec.ofNat 64 (iotaWord 7 r).1)
def keccakN : Nat → Nat → List Nat → List Nat
  | 0, _, st => st
  | n + 1, r, st => forced ((roundOf r (st.map (BitVec.ofNat 64))).map (·.toNat)) fun l => keccakN n (iotaWord 7 r).2 l
theorem ofNat_map (st : List W64) : (st.map (·.toNat)).map (BitVec.ofNat 64) = st := by simp [Function.comp_def]
theorem keccakN_eq (n r : Nat) (st : List W64) : keccakRounds n r st = (keccakN n r (st.map (·.toNat))).map (BitVec.ofNat 64) := by
  induction n generalizing r st with
  | zero => simp [keccakRounds, keccakN, Function.comp_def]
  | succ n ih => rw [keccakN, forced_eq, ofNat_map, ← ih]; rfl
def takenN : List (List Byte) → List Nat → List Nat
  | [], st => st
  | b :: bs, st => takenN bs (((keccakN 24 1 (((List.zip (st.map (BitVec.ofNat 64)) (words64 25 (b ++ zeros 64))).map fun e =>
      e.1 ^^^ BitVec.ofNat 64 e.2).map (·.toNat))).map (BitVec.ofNat 64)).map (·.toNat))
theorem takenN_eq (bs : List (List Byte)) (st : List W64) :
    bs.foldl shakeTake st = (takenN bs (st.map (·.toNat))).map (BitVec.ofNat 64) := by
  induction bs generalizing st with
  | nil => simp [takenN, Function.comp_def]
  | cons b bs ih => rw [List.foldl_cons, ih, takenN, shakeTake, keccakN_eq, ofNat_map]
/-- The digest of a message, evaluated block by block. -/
def digestN (m : List Byte) : Nat :=
  forced (takenN (chunks shakeRate ((shakePad m).length / shakeRate) (shakePad m)) (List.replicate 25 0)) fun l =>
    leNat ((((l.map (BitVec.ofNat 64)).flatMap fun w => leBytes 8 w.toNat).take shakeRate).take 32)
theorem digestN_eq (m : List Byte) : digest m = BitVec.ofNat 256 (digestN m) := by
  rw [digestN, forced_eq, digest, shake256, takenN_eq]
  rfl
theorem image_digest : imageDigest ((loading image).imageOf src0) =
    BitVec.ofNat 256 (fieldAt ((loading image).imageOf src0) 32 32) := by
  rw [imageDigest, digestN_eq]
  exact congrArg (BitVec.ofNat 256) (by decide +kernel)
theorem image_loads : (loading image).loadFail ((loading image).imageOf src0) dir0 [] = none := by
  rw [State.loadFail, if_neg (by rw [image_digest]; simp)]
  decide +kernel
theorem witness_LoadsCheckThenWriteTheirBeds :
    ((loading image).descriptor src0 1 = true ∧ (loading image).running = true ∧ (loading image).plots = [] ∧
      fieldAt ((loading image).request src0) 8 8 % 64 = 0 ∧ fieldAt ((loading image).request src0) 16 4 = 512 ∧ ((loading image).chan 28).state ≠ 3 ∧
      ((loading image).engine 0).state = 0 ∧ (((loading image).chan 28).cur.getD {}).src ≠ some src0 ∧
      (loading image).readFree 28 = true) ∧
    (loading image).loadFail ((loading image).imageOf src0) dir0 [] = none ∧
    ((loadDone true).running = true ∧ (loadDone true).asked src0 = true ∧ Tidy (loadDone true) ∧
      firstFail (((loadDone true).serviceFails ((loadDone true).plot 15).prog).filter fun f => f.kind == 1) = none ∧
      ((loadDone true).plot 15).prog.beds = [(0, 0)] ∧ (loadDone true).physOf 0 = some 0) ∧
    firstFail (((loadDone false).serviceFails ((loadDone false).plot 15).prog).filter fun f => f.kind == 1) ≠ none :=
  ⟨by decide +kernel, image_loads, ⟨by decide +kernel, by decide +kernel, tidy_of (by decide +kernel), by decide +kernel,
   by decide +kernel, by decide +kernel⟩, by decide +kernel⟩
/-- An image of zeros alone has another digest, and one of no bytes a wrong length. -/
theorem witness_LoadsCheckThenWriteTheirBeds_refused :
    ((loading (zeros 64)).loadFail ((loading (zeros 64)).imageOf src0) dir0 []).isSome = true ∧
    fieldAt ((loading (zeros 64)).request src0) 16 4 = 64 ∧ fieldAt ((loading []).request src0) 16 4 = 0 := by decide +kernel

def sowDesc (op p t : Nat) : List Byte := [BitVec.ofNat 8 op, 0, 0, 0, 0, 0, 0, 0, BitVec.ofNat 8 p] ++ zeros 7 ++ leBytes 8 t ++ zeros 40
def loadedPlot (multi : Bool) : Plot := { state := 2, prog := { multi } }
def sowing (p t : Nat) (x : Plot) : State := (asks (sowDesc 2 p t) live).setPlot 15 x
def holding8 (s : State) : State := { s with clk := { s.clk with hold := some 8, target := 1 } }
def due0 (now : Nat) (x : Plot) : State :=
  { (asks (sowDesc 2 15 8) live).setPlot 15 x with
    clk := { locked := true, sundial := BitVec.ofNat 64 now, runStart := BitVec.ofNat 64 now }
    beds := [(0, { mapped := true, job := some { plot := 15, list := 0 }, seq := { state := 1 } })] }
theorem witness_SowsAreAcceptedAndStartEveryBed :
    (∀ x ∈ [(16, 8), (15, 7), (15, 8), (15, 9)], (sowing x.1 x.2 (loadedPlot false)).descriptor src0 2 = true ∧
      fieldAt ((sowing x.1 x.2 (loadedPlot false)).request src0) 8 1 = x.1 ∧
      fieldAt ((sowing x.1 x.2 (loadedPlot false)).request src0) 16 8 = x.2 ∧
      (sowing x.1 x.2 (loadedPlot false)).fetchTick src0 = 0 ∧ (sowing x.1 x.2 (loadedPlot false)).inHold x.2 = false) ∧
    (holding8 (sowing 15 8 (loadedPlot false))).inHold 8 = true ∧
    (∀ b ∈ [true, false], ({ sowing 15 8 (loadedPlot true) with lnk := { slipped := b } } : State).lnk.slipped = b) ∧
    ((due0 8 { state := 2, sowAt := some 8, sowSrc := some src0 }).sowCode 15 8 = 0 ∧
      (due0 8 { state := 2, sowAt := some 8, sowSrc := some src0 }).running = true ∧
      (due0 8 { state := 2, sowAt := some 8, sowSrc := some src0 }).bedsOf 15 = [0]) ∧
    ((due0 9 { state := 2, sowAt := some 8, sowSrc := some src0 }).sowCode 15 8 ≠ 0 ∧
      (due0 9 { state := 2, sowAt := some 8, sowSrc := some src0 }).asked src0 = true) := by
  decide +kernel

theorem witness_PlotsCompleteAndUnload :
    ((due0 9 { state := 4, sowSrc := some src0 }).running = true ∧ (due0 9 { state := 4, sowSrc := some src0 }).finished 15 = true ∧
      tget (fun _ => 0) (due0 9 { state := 4, sowSrc := some src0 }).grd.gardState 0 ≠ 2 ∧
      (due0 9 { state := 4, sowSrc := some src0 }).asked src0 = true) ∧
    (∀ x ∈ [(16, 2), (15, 0), (15, 1), (15, 2), (15, 3), (15, 4), (15, 5)],
      ((asks (sowDesc 3 x.1 0) live).setPlot 15 { state := x.2 }).descriptor src0 3 = true ∧
      fieldAt (((asks (sowDesc 3 x.1 0) live).setPlot 15 { state := x.2 }).request src0) 8 1 = x.1) ∧
    (((due0 9 { state := 3, unloadAt := some 1 }).plot 15).unloadAt = some 1 ∧
      (due0 9 { state := 3, unloadAt := some 1 }).running = true ∧ 1 + 8 ≤ (due0 9 { state := 3, unloadAt := some 1 }).now) := by
  decide +kernel

def copyAsk (op host len flags : Nat) : State :=
  asks ([BitVec.ofNat 8 op, 0, 0, 0, 0, 0, 0, 0] ++ leBytes 8 host ++ leBytes 8 0 ++ leBytes 4 flags ++ leBytes 4 len ++ zeros 32)
    { live with beds := [(0, { mapped := true })] }
def recordAsk (p a n : Nat) (r : Rec) : State :=
  { asks ([7, 0, 0, 0, 0, 0, 0, 0, BitVec.ofNat 8 p] ++ zeros 7 ++ leBytes 8 a ++ zeros 4 ++ leBytes 4 n ++ zeros 32) live with recs := [(15, r)] }
def copied : State :=
  (asks (zeros 64) live).setChan 28 { state := 1, cur := some { hostXfer true 1 none with src := some src0 } }
theorem witness_CopiesGoThroughFirmwareChannels :
    (∀ op ∈ [4, 5], (copyAsk op 1 64 0).descriptor src0 op = true ∧
      (copyAsk op 1 64 0).copyCode (op == 5) (copyReq ((copyAsk op 1 64 0).request src0)) ≠ 0) ∧
    (∀ op ∈ [4, 5], ∀ f ∈ [0, 1, 14], (copyAsk op 64 64 f).copyCode (op == 5) (copyReq ((copyAsk op 64 64 f).request src0)) = 0 ∧
      ((copyAsk op 64 64 f).chan 28).next = none ∧ (copyAsk op 64 64 f).running = true ∧ ((copyAsk op 64 64 f).chan 28).state ≠ 3 ∧
      (copyAsk op 64 64 f).clash [engineClaim (copyReq ((copyAsk op 64 64 f).request src0)).engine] = none ∧
      ((copyAsk op 64 64 f).bed 0).ecc = []) ∧
    (copied.running = true ∧ (copied.engine (hubOf 28)).state = 0 ∧ copied.asked src0 = true ∧
      (copied.chan 28).cur = some { hostXfer true 1 none with src := some src0 } ∧
      (sideA (hostXfer true 1 none).desc).lines = 1) ∧
    ((recordAsk 15 64 64 { valid := true }).running = true ∧ ((recordAsk 15 64 64 { valid := true }).chan 28).state ≠ 3 ∧
      (recordAsk 15 1 64 {}).descriptor src0 7 = true ∧ (recordAsk 15 64 64 {}).descriptor src0 7 = true ∧
      ((recordAsk 15 64 64 {}).runRec 15).valid = false ∧ ((recordAsk 15 64 64 { valid := true }).runRec 15).valid = true ∧
      fieldAt ((recordAsk 15 64 64 { valid := true }).request src0) 8 1 = 15 ∧
      fieldAt ((recordAsk 15 64 64 { valid := true }).request src0) 16 8 = 64 ∧
      fieldAt ((recordAsk 15 64 64 { valid := true }).request src0) 28 4 = 64) := by
  decide +kernel

/-! ### Fences, tests, frosts -/

def bedIn (b : Bed) (s : State) : State := { s with beds := [(131, b)] }
def at8 (s : State) : State := { s with clk := { s.clk with sundial := 8 } }
theorem witness_FencesTakeEffectAndSelfTestsReturnBeds_fences :
    (∀ x ∈ ([127, 128] : List Byte), (served 0x01 [x, 1] (bedIn { mapped := true, logical := 126 } live)).service src0 0x01 = true ∧
      fieldAt ((served 0x01 [x, 1] (bedIn { mapped := true, logical := 126 } live)).request src0) 16 1 = x.toNat) ∧
    ((served 0x01 [126, 1] (bedIn { mapped := true, logical := 126 } live)).physOf 126 = some 131 ∧
      (served 0x01 [126, 1] (bedIn { mapped := true, logical := 126 } live)).physOf 127 = none) ∧
    ((bedIn {} live).ready = true ∧ (bedIn {} live).fld 0x20100 4 1 = 1 ∧ ((bedIn {} live).bed 131).admin < 2) ∧
    (((at8 (bedIn { fencePending := some (0, true) } live)).bed 131).fencePending = some (0, true) ∧
      (at8 (bedIn { fencePending := some (0, true) } live)).running = true ∧
      0 + 8 ≤ (at8 (bedIn { fencePending := some (0, true) } live)).now) ∧
    (((bedIn { fencing := some true, admin := 2, mapped := true } live).bed 131).fencing = some true ∧
      Tidy (bedIn { fencing := some true, admin := 2, mapped := true } live)) :=
  ⟨by decide +kernel, by decide +kernel, by decide +kernel, by decide +kernel, by decide +kernel, tidy_of (by decide +kernel)⟩

/-- A bed that reads fenced is fenced already; one that a plot holds by a claim alone stops that plot. -/
theorem witness_FencesTakeEffectAndSelfTestsReturnBeds_held :
    (let s := served 0x01 [126, 1] (bedIn { mapped := true, logical := 126, admin := 2 } live);
      s.service src0 0x01 = true ∧ s.physOf 126 = some 131 ∧ 2 ≤ (s.bed 131).admin) ∧
    (let s := { at8 (bedIn { mapped := true, logical := 126, fencePending := some (0, true) } live) with
        plots := [(3, { state := 3, prog := { claims := [{ kind := 1, first := 126, count := 1 }] } })] };
      3 ∈ s.holders 131 ∧ 2 ≤ (s.plot 3).state ∧ (s.plot 3).state ≤ 4) := by decide +kernel

def tested (former : Option Nat) (back : Bool) : State :=
  { bedIn { admin := 3, testing := some (0, back), former } live with clk := { locked := true, sundial := 4000000 } }
theorem witness_FencesTakeEffectAndSelfTestsReturnBeds_tests :
    (∀ x ∈ [((131 : Byte), 2), (131, 0), (132, 2)],
      (served 0x02 [x.1, 1] (bedIn { admin := x.2 } live)).service src0 0x02 = true ∧
      ((served 0x02 [x.1, 1] (bedIn { admin := x.2 } live)).bed 131).admin = x.2 ∧
      fieldAt ((served 0x02 [x.1, 1] (bedIn { admin := x.2 } live)).request src0) 16 1 = x.1.toNat) ∧
    (∀ f ∈ [none, some 127], ∀ b : Bool, ((tested f b).bed 131).testing = some (0, b) ∧ 0 + 4000000 ≤ (tested f b).now ∧
      (tested f b).clk.locked = true ∧ ((tested f b).bed 131).former = f ∧ (tested f b).physOf 127 = none) := by
  decide +kernel

def frostAsk (n t : Nat) (multi : Byte) (s : State) : State := served n (leBytes 8 t ++ [multi]) s
def frozen0 (multi conservation : Bool) (thawAt : Option W64) : State :=
  { live with clk := { locked := true, sundial := 100 }, dbg := { frozen := true, multi, conservation, cut := 8, thawAt } }
def thawing (multi : Bool) : State :=
  { frozen0 multi false (some 1928) with
    clk := { locked := true, sundial := 1928 }, lnk := { links := [(0, { state := 2 })] }, beds := [(0, { mapped := true })]
    plots := [(0, { state := 3 })], recs := [(0, { isOpen := true })] }
def frosting : State := { at8 live with dbg := { frostAt := some (8, true) } }
theorem witness_FrostsHoldEverythingAndThawsGoOn :
    (∀ t ∈ [0, 7, 8], ∀ m ∈ ([0, 1] : List Byte), (frostAsk 0x20 t m live).service src0 0x20 = true ∧
      (frostAsk 0x20 t m live).ready = true ∧ (frostAsk 0x20 t m live).inHold t = false ∧
      fieldAt ((frostAsk 0x20 t m live).request src0) 16 8 = t ∧ bit (fieldAt ((frostAsk 0x20 t m live).request src0) 24 1) 0 = (m == 1)) ∧
    (frostAsk 0x20 8 0 (frozen0 false false none)).service src0 0x20 = true ∧
    frosting.dbg.frostAt ≠ none ∧ (frozen0 false false none).dbg.frozen = true ∧
    (frosting.dbg.frostAt = some (8, true) ∧ frosting.running = true ∧ frosting.clk.locked = true ∧ frosting.now = 8) ∧
    (∀ t ∈ [107, 1928, 1929], ∀ m : Bool, (frostAsk 0x21 t 0 (frozen0 m false none)).service src0 0x21 = true ∧
      fieldAt ((frostAsk 0x21 t 0 (frozen0 m false none)).request src0) 16 8 = t ∧
      (frostAsk 0x21 t 0 (frozen0 m false none)).fetchTick src0 = 0 ∧
      (m = true → (frostAsk 0x21 63 0 { frozen0 m false none with lnk := { reach := 1 } }).service src0 0x21 = true)) ∧
    (frostAsk 0x21 1928 0 (frozen0 false true none)).service src0 0x21 = true ∧
    (∀ m : Bool, (thawing m).dbg.thawAt = some 1928 ∧ (thawing m).dbg.frozen = true ∧ (thawing m).now = 1928 ∧
      (∀ e ∈ (thawing m).brw.chans, e.2.cutRead = false) ∧ (thawing m).sownPlots = [0] ∧ ((thawing m).runRec 0).isOpen = true ∧ ∀ e ∈ (thawing m).lnk.links, e.2.captured = [] ∧ ∀ x ∈ e.2.rx, x.afterCut = false ∧ x.kind ≠ 2) ∧
    Tidy (thawing true) :=
  ⟨by decide +kernel, by decide +kernel, by decide +kernel, by decide +kernel, by decide +kernel, by decide +kernel,
   by decide +kernel, by decide +kernel, tidy_of (by decide +kernel)⟩

/-- A channel that reads host memory at the cut, one that reads nothing. -/
theorem witness_FrostsHoldEverythingAndThawsGoOn_reads :
    ((reading.chan 28).busy = true ∧ (reading.chan 28).cur = some (hostXfer true 0 none) ∧
      (sideA (hostXfer true 0 none).desc).space = 2 ∧ (reading.engine (hubOf 28)).state = 0) ∧
    (reading.chan 29).busy = false := by decide +kernel

def harvesting (len : Nat) : State :=
  { asks (zeros 64) (frozen0 false false (some 100)) with
    dbg := { (frozen0 false false (some 100)).dbg with harvest := some { src := src0, addr := 64, len } } }
/-- The sampler takes one gauge of bed 0, with its place near or at the buffer's end. -/
def sampling (place wrap : Nat) : State :=
  { live with regs := [(0, 1), (0x100100, BitVec.ofNat 64 (1 + 16 * 2 + 2 ^ 6 + wrap * 2 ^ 28))],
              clk := { locked := true, sundial := 65536 }, dbg := { sampNext := place } }
theorem witness_HarvestsAndSamplesWriteTheirBytes :
    ((served 0x22 (zeros 48) live).service src0 0x22 = true ∧ (served 0x22 (zeros 48) live).dbg.frozen = false ∧
      (served 0x22 (zeros 48) (frozen0 false false none)).service src0 0x22 = true) ∧
    ((harvesting 0).asked src0 = true ∧ (harvestLen 0).1 = 0) ∧
    ((harvestLen 4096).1 ≤ 160 * ((harvesting 4096).now - 0) ∧ 0 < (harvestLen 4096).1 ∧ (harvesting 4096).dbg.thawAt = some 100 ∧ (harvesting 4096).now = 100) ∧
    (∀ p ∈ [0, 262120, 262121], ∀ w ∈ [0, 1], wfld ((sampling p w).reg 0x100100) 0 1 = 1 ∧
      (sampling p w).now % 2 ^ wfld ((sampling p w).reg 0x100100) 1 5 = 0 ∧ (sampling p w).running = true ∧
      (sampling p w).dbg.sampled ≠ some (sampling p w).clk.sundial ∧ wfld ((sampling p w).reg 0x100100) 28 1 = w) := by
  decide +kernel

/-! ### Security, faults, registers -/

def reported : State :=
  { asks (zeros 64) live with sec := { seed := some 5, attestBody := some ({ src := src0, nonce := zeros 32, addr := 64 }, zeros 64) } }
theorem witness_AttestationReportsAreQueuedSignedAndWritten :
    ((served 0x30 (zeros 48) live).service src0 0x30 = true ∧ (served 0x30 (zeros 48) live).sec.attestBody = none ∧
      (served 0x30 (zeros 48) live).sec.attestQueue = []) ∧
    (reported.sec.attestBody.isSome ∧ reported.sec.seed = some 5 ∧ reported.asked src0 = true ∧ reported.ready = true) := by
  decide +kernel

/-- A request to remove the owner key: op 2, sequence 1, identity 0. -/
def removal : List Byte := ascii "QP2OWN01" ++ [2] ++ zeros 7 ++ leBytes 8 1 ++ zeros 104
def enrolAsk (req : List Byte) : State :=
  served 0x31 (leBytes 8 64 ++ leBytes 4 128) { live with host := { mem := mwrite 0 [] 64 req } }
def enrolling : State := { asks (zeros 64) live with sec := { seed := some 5, enrol := some (src0, removal) } }
theorem witness_EnrolmentWritesTheOtherSlotAndCapsAreBounded :
    ((enrolAsk (zeros 128)).service src0 0x31 = true ∧ (enrolAsk (zeros 128)).enrolCode (zeros 128) 128 ≠ (0, 0) ∧
      mread 0 (enrolAsk (zeros 128)).host.mem 64 128 = zeros 128) ∧
    ((enrolAsk removal).service src0 0x31 = true ∧ mread 0 (enrolAsk removal).host.mem 64 128 = removal ∧
      fieldAt ((enrolAsk removal).request src0) 16 8 = 64 ∧ fieldAt ((enrolAsk removal).request src0) 24 4 = 128) ∧
    (enrolling.sec.enrol = some (src0, removal) ∧ enrolling.sec.seed = some 5 ∧ enrolling.asked src0 = true ∧ removal.length = 128) ∧
    (∀ v ∈ [799, 800, 2000, 2001], (served 0x40 (leBytes 2 v) live).service src0 0x40 = true ∧
      fieldAt ((served 0x40 (leBytes 2 v) live).request src0) 16 2 = v) := by
  decide +kernel
theorem witness_EnrolmentWritesTheOtherSlotAndCapsAreBounded_accepted : ((enrolAsk removal).enrolCode removal 128).1 = 0 := by
  have h : enrolShape (removal.take 128) 128 false = true ∧ fieldAt (removal.take 128) 24 32 = 0 ∧
      fieldAt (removal.take 128) 16 8 = 1 ∧ fieldAt (removal.take 128) 8 1 = 2 := by decide +kernel
  obtain ⟨a, b, c, d⟩ := h
  have s : (enrolAsk removal).sec = {} := by decide +kernel
  unfold State.enrolCode
  simp [s, a, b, c, d]

/-- Faults of unit 7 in every one of n entries from the first. -/
def faults (n unit : Nat) : State :=
  { live with grd := { live.grd with flt := (List.range n).map fun i => (i, { valid := true, unit := unit + i }) } }
/-- The heartbeat check of tick 0, with gardener 9 having missed some. -/
def beating (missed : Nat) : State := { live with grd := { live.grd with misses := [(9, missed)] } }
theorem witness_FaultsAreCollectedAndHeartbeatsChecked :
    (((faults 1 7).grd.flt.find? fun e => e.2.valid && e.2.unit == 7) = some (0, { valid := true, unit := 7 })) ∧
    (((faults 256 8).grd.freeFrom 0) = none ∧ ∀ e ∈ (faults 256 8).grd.flt, e.2.valid = true → e.2.unit ≠ 7) ∧
    ((faults 1 8).grd.freeFrom 0 = some 1 ∧ ∀ e ∈ (faults 1 8).grd.flt, e.2.valid = true → e.2.unit ≠ 7) ∧ Reached (faults 1 8) 0 ∧
    ((beating 8).now % 100000 = 0 ∧ (beating 8).clk.locked = true ∧ (beating 8).gardens 8 = true ∧
      (beating 8).grd.checked ≠ some (beating 8).clk.sundial ∧ ∀ g : Fin 10, tget (fun _ => 0) (beating 8).grd.misses g < 9) ∧
    (tget (fun _ => 0) (beating 9).grd.gardState 9 = 1 ∧ tget (fun _ => 0) (beating 9).grd.misses 9 = 9 ∧
      (beating 9).gardens 8 = true) := by
  refine ⟨by decide +kernel, by decide +kernel, by decide +kernel, ⟨by decide +kernel, by decide +kernel⟩, by decide +kernel,
    by decide +kernel⟩

def claimedBy (rid : Nat) : State := { live with regs := [(0, 1), (8, BitVec.ofNat 64 (2 ^ 16 + rid))] }
theorem witness_RegisterWritesFollowTheirAccessCodes :
    (live.alive = true ∧ accessOk 4 8 = false ∧ accessOk 8 2 = false ∧ accessOk 4 4 = true ∧ (claimedBy 5).alive = true ∧
      (claimedBy 5).mine 6 = false ∧ ({ live with regs := [] } : State).ready = false ∧
      ({ live with regs := [] } : State).alive = true) ∧
    (Reached (claimedBy 5) 5 ∧ (claimedBy 5).ready = true) ∧ (bedIn { mapped := true, logical := 127 } live).physOf 127 = some 131 :=
  ⟨by decide +kernel, ⟨⟨by decide +kernel, by decide +kernel⟩, by decide +kernel⟩, by decide +kernel⟩

/-! ### Resets, clocks and power -/

theorem witness_WarmResetsKeepWhatTheTableNames :
    Tidy live ∧ live.alive = true ∧ (Reached live 0 ∧ wfld (0x57520001 : W64) 0 1 = 1 ∧ wfld (0x57520001 : W64) 16 16 = 0x5752) ∧
    (({ env0 with flashOk := false } : BootEnv).flashOk = false ∧ env0.tMax.toInt < 360) :=
  ⟨tidy_of (by decide +kernel), by decide +kernel, ⟨⟨by decide +kernel, by decide +kernel⟩, by decide +kernel⟩, by decide +kernel⟩

def waitingDomain : State :=
  { live with regs := [], clk := { locked := true, sundial := 100000000 }, pins := { live.pins with boot := some ⟨10, env0, true, 0⟩ } }
theorem witness_ColdResetsHoldAndReleaseTheModule :
    (live.pins.perst = false ∧ live.pins.rails = true) ∧
    (State.reset.pins.perst = true ∧ State.reset.pins.rails = false ∧ State.reset.pins.refclk = false ∧
      ({ State.reset with pins := { State.reset.pins with perst := false } } : State).alive = false) ∧
    (let s : State := { State.reset with pins := { perst := true, rails := true, refclk := true } };
      ({ s with pins := { s.pins with perst := false } } : State).alive = true ∧ s.ready = false) ∧
    (waitingDomain.pins.boot = some ⟨10, env0, true, 0⟩ ∧ (0 : W64).toNat + waitingDomain.sec.domainWait * 100000 ≤ waitingDomain.now ∧
      env0.bedFail = 0) ∧ Tidy waitingDomain :=
  ⟨by decide +kernel, by decide +kernel, by decide +kernel, by decide +kernel, tidy_of (by decide +kernel)⟩

def entropic (n : Nat) : State := { live with beds := [(131, { mapped := true, logical := 127, entropy := List.replicate n 1 })] }
theorem witness_ModuleFaultsFreezeAndEntropyIsDelivered :
    live.clk.locked = true ∧ 8 ≤ (at8 live).now ∧ (at8 live).clk.locked = true ∧ live.sec.entropyFail.getLsbD 3 = false ∧
    (∀ n ∈ [31, 32], (entropic n).running = true ∧ (entropic n).physOf (32 * 3 + 31) = some 131 ∧
      tget (fun _ => none) (entropic n).sec.entropyFrame 3 ≠ some ((entropic n).clk.cycles / 64) ∧
      ((entropic n).bed 131).entropy.length = n ∧ (entropic n).sec.entropyFail.getLsbD 3 = false) ∧
    (List.replicate 32 (1 : W64)).length = 32 ∧ Tidy (entropic 32) :=
  ⟨by decide +kernel, by decide +kernel, by decide +kernel, by decide +kernel, by decide +kernel, by decide +kernel,
   tidy_of (by decide +kernel)⟩

def powered (clamp : Bool) (mulchOn : Nat) : State :=
  { live with clk := { locked := true, sundial := 100, clamp }, beds := [(0, { mulch := 5 })], regs := [(0, 1), (0x40028, BitVec.ofNat 64 mulchOn)] }
theorem witness_PowerSamplesClampAndMulchMoves :
    (∀ c : Bool, (powered c 1).clk.locked = true ∧ (powered c 1).pwr.lastSample.toNat + 100 ≤ (powered c 1).now ∧
      (powered c 1).pwr.cap = 2000 ∧ (powered c 1).estimate = 0 ∧ (powered c 1).clk.clamp = c) ∧ Tidy (powered true 1) ∧
    (97 * 2000 < 100 * 1941 ∧ 100 * 1940 ≤ 97 * 2000 ∧ (341 : BitVec 9).toNat = 341) ∧
    ((powered false 1).running = true ∧ (powered false 1).clk.hold = none ∧ (powered false 1).fld 0x40028 0 1 = 1 ∧ (powered false 1).pwr.shed = false ∧
      (powered false 0).fld 0x40028 0 1 = 0 ∧ (powered false 1).pwr.lastMulch.toNat + 100 ≤ (powered false 1).now) ∧
    (live.running = true ∧ live.clk.droop = none) :=
  ⟨by decide +kernel, tidy_of (by decide +kernel), by decide +kernel, by decide +kernel, by decide +kernel⟩

/-- Tick 1000, with a temperature in each of the seven groups. -/
def warm (trip : Option (W64 × Nat × Nat)) : State :=
  { live with clk := { locked := true, sundial := 1000, trip }, plots := [(0, { state := 3 })], regs := [(0, 1)] }
def temps (t : Nat) : List (BitVec 12) := List.replicate 7 (BitVec.ofNat 12 t)
def changing (hold : Option W64) (now : Nat) : State :=
  { live with clk := { locked := true, sundial := BitVec.ofNat 64 now, runStart := BitVec.ofNat 64 now, pending := true, target := 0, hold } }
theorem witness_TemperaturesTripAndHoldsChangeThePoint :
    ((warm none).pwr.lastTherm.toNat + 1000 ≤ (warm none).now ∧ (warm none).pins.boot = none ∧ (warm none).clk.trip = none ∧
      (List.replicate 7 (0 : BitVec 6)).length = 7) ∧
    (∀ x ∈ [(399, 399), (400, 400), (407, 407), (408, 408), (439, 439), (440, 440)],
      (temps x.1).length = 7 ∧ (hottestOf (temps x.1)).1 = (x.2 : Int)) ∧
    (4 * (warm none).fld 0x40040 8 8 = 408 ∧ 4 * (warm none).fld 0x40040 16 8 = 440) ∧
    ((warm (some (992, 0, 0))).clk.trip = some (992, 0, 0) ∧ (992 : W64).toNat + 8 ≤ (warm (some (992, 0, 0))).now ∧
      (warm (some (992, 0, 0))).clk.stopped = false ∧ 0 ∈ (warm (some (992, 0, 0))).plots.map (·.1)) ∧
    ((changing none 64).clk.pending = true ∧ (changing none 64).plotsIn [3, 4] = [] ∧ (changing none 64).running = true ∧
      (changing none 64).clk.runStart = (changing none 64).clk.sundial ∧ (changing none 64).clk.runStretched = false) ∧
    Tidy (changing none 64) ∧
    ((changing (some 64) (64 * 33)).clk.hold = some 64 ∧ (64 : W64).toNat + 2000 ≤ (changing (some 64) (64 * 33)).now ∧
      (changing (some 64) (64 * 33)).now % windowTicks (changing (some 64) (64 * 33)).clk.target = 0 ∧
      (changing (some 64) (64 * 33)).running = true) :=
  ⟨by decide +kernel, by decide +kernel, by decide +kernel, by decide +kernel, by decide +kernel, tidy_of (by decide +kernel),
   by decide +kernel⟩

theorem witness_TapInstructionsActOnceEach : live.pins.rails = true ∧ live.alive = true ∧
    wfld (0x3FFFFF8 : W64) 0 63 < 2 ^ 26 ∧ wfld (0x3FFFFF8 : W64) 0 63 % 8 = 0 ∧ (0x3FFFFF8 : W64).getLsbD 63 = false ∧
    (0x8000000003FFFFF8 : W64).getLsbD 63 = true ∧ wfld (0x8000000003FFFFF8 : W64) 0 63 = 0x3FFFFF8 ∧
    State.reset.alive = false ∧ wfld (0x4000000 : W64) 0 63 = 2 ^ 26 ∧ wfld (0x3FFFFFC : W64) 0 63 % 8 = 4 ∧
    wfld (0x100020 : W64) 0 63 % 8 = 0 ∧ wfld (0x8000000000010100 : W64) 0 63 = 0x10100 := by decide +kernel

/-! ### Whole-machine statements -/

theorem witness_AStepRunsTheFrontCommand : ({ live with pending := [.pmD0] } : State).pending = .pmD0 :: [] ∧ live.pending = [] ∧
    live.clk.locked = true ∧ live.clk.stopped = false ∧ live.dbg.frozen = false ∧ State.reset.clk.locked = false := by decide +kernel
theorem witness_EveryInstructionWordRoundTrips : bedHead (.nop 5 h0) = some (5, h0) ∧
    decodeIns 5 ((encodeIns (.nop 5 h0)).getD 1) = some (.nop 5 h0) := by decide +kernel
/-- The state that a step answers. -/
def stepped (s : State) : Option State := match step s with
  | .next t => some t
  | _ => none
theorem test_step_takes_one : stepped { live with pending := [.pmD3hot, .pmD0] } =
    some { live with pending := [.pmD0], host := { live.host with d3hot := true } } := by decide +kernel
theorem test_tick_runs : live.clockRuns.clk.cycles = 16 ∧ live.clockRuns.clk.ticks = 1 := by decide +kernel
theorem witness_TablesStayTidy : Tidy { live with pending := [.pmD3hot] } := tidy_of (by decide +kernel)
/-- Frozen for a conservation fault, with a command to come. -/
theorem witness_AConservationFreezeLastsUntilAReset :
    let s : State := { frozen0 false true none with pending := [.pmD3hot] }
    s.dbg.conservation = true ∧ s.dbg.frozen = true ∧ s.dbg.multi = false ∧ s.dbg.thawAt = none := by decide +kernel

end Sys2Proof.Tests
end

section
/-! PROOFS. Doorbells, mailboxes and power management (R342, R360 to R364, R386, R387): what a vector sent and a doorbell
set do to the state, said once, and each command of these families by those rules. -/

namespace Sys2Proof.Machine

/-! ## Vectors and doorbells -/

theorem getLsbD_one_shiftLeft {w : Nat} (b i : Nat) :
    ((1 <<< b : Nat) : BitVec w).getLsbD i = (decide (i < w) && decide (b = i)) := by
  change (BitVec.ofNat w (1 <<< b)).getLsbD i = _
  rw [BitVec.getLsbD_ofNat, Nat.one_shiftLeft, Nat.testBit_two_pow]

theorem getLsbD_or_one_shiftLeft {w : Nat} (x : BitVec w) {b : Nat} (hb : b < w) :
    (x ||| (1 <<< b)).getLsbD b = true := by
  simp only [BitVec.getLsbD_or, getLsbD_one_shiftLeft, hb, decide_true, Bool.and_self, Bool.or_true]

theorem or_one_shiftLeft_of_getLsbD {w : Nat} {x : BitVec w} {b : Nat} (h : x.getLsbD b = true) : x ||| (1 <<< b) = x := by
  refine BitVec.eq_of_getLsbD_eq fun i _ => ?_
  rw [BitVec.getLsbD_or, getLsbD_one_shiftLeft]
  by_cases hib : b = i
  · rw [← hib, h, Bool.true_or]
  · simp [hib]

/-- A vector that was to go out is pending where the MSI-X table masks it, and among the sent ones otherwise. -/
def HostIf.VectorOut (h : HostIf) (b : Nat) : Prop :=
  if wfld (h.msix (2 * b + 1)) 32 1 = 1 then h.msixPending.getLsbD b = true else b ∈ h.msixSent

theorem State.sendVector_eq (s : State) (v : Nat) :
    ∃ p q, s.sendVector v = { s with host := { s.host with msixPending := p, msixSent := q } } := by
  unfold State.sendVector
  split
  · exact ⟨_, _, rfl⟩
  · exact ⟨_, _, rfl⟩

theorem State.sendVector_msix (s : State) (v i : Nat) : (s.sendVector v).host.msix i = s.host.msix i := by
  obtain ⟨p, q, h⟩ := s.sendVector_eq v
  rw [h]
  rfl

theorem State.sendVector_vectorOut (s : State) {v : Nat} (hv : v < 64) : (s.sendVector v).host.VectorOut v := by
  unfold HostIf.VectorOut
  rw [sendVector_msix]
  unfold State.sendVector
  by_cases hm : wfld (s.host.msix (2 * v + 1)) 32 1 = 1
  · simpa only [if_pos hm] using getLsbD_or_one_shiftLeft _ hv
  · simp [hm]

theorem State.sendVector_keeps_vectorOut (s : State) (v : Nat) {b : Nat} (h : s.host.VectorOut b) :
    (s.sendVector v).host.VectorOut b := by
  unfold HostIf.VectorOut at h ⊢
  rw [sendVector_msix]
  split
  · rw [if_pos ‹_›] at h
    unfold State.sendVector
    split <;> simp [h]
  · rw [if_neg ‹_›] at h
    unfold State.sendVector
    split <;> simp [h]

theorem State.sendVectors_eq (bs : List Nat) (s : State) :
    ∃ p q, bs.foldl (fun (s : State) b => s.sendVector b) s =
      { s with host := { s.host with msixPending := p, msixSent := q } } := by
  induction bs generalizing s with
  | nil => exact ⟨_, _, rfl⟩
  | cons b bs ih =>
    obtain ⟨p, q, h⟩ := s.sendVector_eq b
    obtain ⟨p', q', h'⟩ := ih (s.sendVector b)
    exact ⟨p', q', by rw [List.foldl_cons, h', h]⟩

theorem State.sendVectors_keep_vectorOut (bs : List Nat) (s : State) {b : Nat} (h : s.host.VectorOut b) :
    (bs.foldl (fun (s : State) b => s.sendVector b) s).host.VectorOut b := by
  induction bs generalizing s with
  | nil => exact h
  | cons c bs ih => exact ih _ (s.sendVector_keeps_vectorOut c h)

theorem State.sendVectors_vectorOut (bs : List Nat) (s : State) {b : Nat} (hb : b ∈ bs) (hw : b < 64) :
    (bs.foldl (fun (s : State) b => s.sendVector b) s).host.VectorOut b := by
  induction bs generalizing s with
  | nil => cases hb
  | cons c bs ih =>
    rcases List.mem_cons.mp hb with rfl | hb
    · exact sendVectors_keep_vectorOut bs _ (s.sendVector_vectorOut hw)
    · exact ih _ hb

/-- In service a doorbell bit is set, whatever goes out for it (R360). -/
theorem State.setDoor_eq (s : State) (b : Nat) (hr : s.ready = true) :
    ∃ p q, s.setDoor b =
      { s with host := { s.host with dbOut := s.host.dbOut ||| (1 <<< b), msixPending := p, msixSent := q } } := by
  unfold State.setDoor
  by_cases hb : s.host.dbOut.getLsbD b = true
  · refine ⟨s.host.msixPending, s.host.msixSent, ?_⟩
    rw [or_one_shiftLeft_of_getLsbD hb, if_pos (by simp [hb])]
  · rw [if_neg (by simp [hb, hr])]
    dsimp only
    split
    · exact ⟨_, _, rfl⟩
    · obtain ⟨p, q, h⟩ := State.sendVector_eq
        { s with host := { s.host with dbOut := s.host.dbOut ||| (1 <<< b) } } b
      exact ⟨p, q, h⟩

/-! ## Host writes to BAR2 -/

theorem State.bar2_of_served {s : State} {rid : BitVec 16} (h : Served s rid) (f : State → State) : s.bar2 rid f = f s := by
  obtain ⟨halive, hready, hmine⟩ := h
  simp [State.bar2, State.bar0, halive, hready, hmine]

theorem exec_dbInSet {s : State} {rid : BitVec 16} (h : Served s rid) (v : BitVec 32) :
    exec (.dbInSet rid v) s = .next { s with host := { s.host with dbIn := s.host.dbIn ||| v } } :=
  congrArg Host.Outcome.next (s.bar2_of_served h _)

theorem exec_dbOutClear {s : State} {rid : BitVec 16} (h : Served s rid) (v : BitVec 32) :
    exec (.dbOutClear rid v) s = .next (s.clearDoors v) :=
  congrArg Host.Outcome.next (s.bar2_of_served h _)

theorem exec_dbOutMaskWrite {s : State} {rid : BitVec 16} (h : Served s rid) (v : BitVec 32) :
    exec (.dbOutMaskWrite rid v) s = .next (s.writeDoorMask v) :=
  congrArg Host.Outcome.next (s.bar2_of_served h _)

theorem exec_mboReturn {s : State} {rid : BitVec 16} (h : Served s rid) (i : BitVec 3) :
    exec (.mboReturn rid i) s = .next (s.setOutbox i.toNat { s.host.outbox i.toNat with full := false }) :=
  congrArg Host.Outcome.next (s.bar2_of_served h _)

theorem State.clearDoors_plain (s : State) (v : BitVec 32)
    (h : v.getLsbD 2 = false ∨ s.host.dbOut.getLsbD 2 = false ∨ ∀ e ∈ s.grd.flt, e.2.valid = false) :
    s.clearDoors v = { s with host := { s.host with dbOut := s.host.dbOut &&& ~~~v } } := by
  refine if_neg fun ⟨hv, hd, hf⟩ => ?_
  obtain ⟨e, he, hvalid⟩ := List.any_eq_true.mp hf
  rcases h with h | h | h
  · exact Bool.false_ne_true (h.symm.trans hv)
  · exact Bool.false_ne_true (h.symm.trans hd)
  · exact Bool.false_ne_true ((h e he).symm.trans hvalid)

/-- The bit of unread faults stands again while an entry is valid (R361). -/
theorem State.clearDoors_unread (s : State) (v : BitVec 32) (hr : s.ready = true) (hv : v.getLsbD 2 = true)
    (hd : s.host.dbOut.getLsbD 2 = true) (hf : ∃ e ∈ s.grd.flt, e.2.valid = true) :
    ∃ p q, s.clearDoors v = { s with
      host := { s.host with dbOut := (s.host.dbOut &&& ~~~v) ||| 4, msixPending := p, msixSent := q } } := by
  obtain ⟨p, q, h⟩ := State.setDoor_eq { s with host := { s.host with dbOut := s.host.dbOut &&& ~~~v } } 2 hr
  exact ⟨p, q, (if_pos ⟨hv, hd, List.any_eq_true.mpr hf⟩).trans h⟩

theorem State.writeDoorMask_eq (s : State) (v : BitVec 32) :
    ∃ p q, s.writeDoorMask v =
      { s with host := { s.host with dbOutMask := v, msixPending := p, msixSent := q } } :=
  State.sendVectors_eq _ _

/-- A bit that is set and whose mask is taken away has its vector out (R360). -/
theorem State.writeDoorMask_vectorOut (s : State) (v : BitVec 32) {b : Nat} (hb : b < 32)
    (hm : s.host.dbOutMask.getLsbD b = true) (hv : v.getLsbD b = false) (hd : s.host.dbOut.getLsbD b = true) :
    (s.writeDoorMask v).host.VectorOut b :=
  State.sendVectors_vectorOut _ _ (List.mem_filter.mpr ⟨List.mem_range.mpr hb, by rw [hm, hv, hd]; rfl⟩) (by omega)

/-! ## Power management -/

theorem State.ringsRun_of_d3hot {s : State} (h : s.host.d3hot = true) (r : Nat) : s.ringsRun r = false := by
  simp [State.ringsRun, h]

theorem exec_descriptorFetch_of_d3hot {s : State} (h : s.host.d3hot = true) (r : BitVec 6) (fail : Option (BitVec 3)) :
    exec (.descriptorFetch r fail) s = .next s :=
  if_pos (by simp [State.ringsRun_of_d3hot h])

theorem exec_completionPost_of_d3hot {s : State} (h : s.host.d3hot = true) (r : BitVec 6) :
    exec (.completionPost r) s = .next s :=
  if_pos (by simp [State.ringsRun_of_d3hot h])

/-! ## Inbound mailboxes -/

theorem exec_inboundMailboxPost {s : State} (rid : BitVec 16) (i : BitVec 3) {msg : List Byte} (ha : s.alive = true)
    (hr : s.ready = true) (hl : msg.length = 64) :
    exec (.inboundMailboxPost rid i 0 msg) s = .next (s.setInbox i.toNat
      (if (s.host.inbox i.toNat).full then { s.host.inbox i.toNat with overrun := true }
      else { s.host.inbox i.toNat with full := true, msg, stamp := stampOf rid.toNat 0x10 s.now })) := by
  change execInboundMailboxPost rid i 0 msg s = _
  unfold execInboundMailboxPost
  cases hf : (s.host.inbox i.toNat).full <;> simp [ha, hr, hl, hf]

/-- The state with a message taken out of its inbound mailbox (R363): its stamp in the log, its request begun (R386).
Doorbell bit 4 is yet to ring. -/
def State.takeInbox (s : State) (n : Nat) : State :=
  let m := s.host.inbox n
  let s := s.setInbox n { m with full := false, msg := [], stamp := 0 }
  { s with host := { s.host with
    mbReq := tset (fun _ => []) s.host.mbReq n m.msg, mbLog := s.host.mbLog ++ [(m.stamp, fieldAt m.msg 0 2)] } }

@[simp] theorem State.inbox_setInbox_self (s : State) (n : Nat) (m : Mbox) : (s.setInbox n m).host.inbox n = m :=
  tget_tset_self _ s.host.mbIn n m

theorem State.takeInbox_inbox (s : State) (n : Nat) :
    (s.takeInbox n).host.inbox n = { s.host.inbox n with full := false, msg := [], stamp := 0 } :=
  s.inbox_setInbox_self n _

theorem State.takeInbox_mbReq (s : State) (n : Nat) :
    tget (fun _ => []) (s.takeInbox n).host.mbReq n = (s.host.inbox n).msg :=
  tget_tset_self (fun _ => []) s.host.mbReq n _

/-- The request of mailbox i, as completions name it. -/
def mailboxSrc (i : BitVec 3) : Src := { mailbox := true, idx := i.setWidth 6, slot := 0 }

theorem services_of_mboxServes {n svc : Nat} (h : mboxServes n svc = true) : services.contains svc = true := by
  have hmem : svc ∈ [0x20, 0x21, 0x22, 0x30, 0x31, 0x40] ∨ svc ∈ [0x10, 0x11, 0x18, 0x19] := by
    unfold mboxServes at h
    split at h
    · exact .inl (of_decide_eq_true h)
    · exact .inr (of_decide_eq_true h)
  rw [services, List.contains_iff_mem]
  rcases hmem with hmem | hmem <;> simp only [List.mem_cons, List.not_mem_nil, or_false] at hmem ⊢ <;> omega

theorem exec_inboundMailboxTake {s : State} {i : BitVec 3} (hr : s.ready = true) (hf : (s.host.inbox i.toNat).full = true)
    (hq : tget (fun _ => []) s.host.mbReq i.toNat = []) (hg : s.gardens (if i.toNat < 4 then 8 else 9) = true) :
    exec (.inboundMailboxTake i) s = .next
      (if mboxServes i.toNat (fieldAt (s.host.inbox i.toNat).msg 0 2) then (s.takeInbox i.toNat).setDoor 4
      else ((s.takeInbox i.toNat).setDoor 4).complete (mailboxSrc i) 1 0x07
        (if services.contains (fieldAt (s.host.inbox i.toNat).msg 0 2) then 0x71 else 0x70)) := by
  refine (if_neg (by simp [hr, hf, hq, hg])).trans ?_
  dsimp only
  cases hs : mboxServes i.toNat (fieldAt (s.host.inbox i.toNat).msg 0 2)
  case true => rw [services_of_mboxServes hs]; rfl
  case false =>
    cases services.contains (fieldAt (s.host.inbox i.toNat).msg 0 2) <;> rfl

/-- A mailbox's request answered: it is over, and its reply is ready (R386). -/
theorem State.complete_mailboxSrc (s : State) (i : BitVec 3) (status code result : Nat) :
    ∃ ws, s.complete (mailboxSrc i) status code result = { s with host := { s.host with
      mbReq := tset (fun _ => []) s.host.mbReq i.toNat []
      mbReply := tset (fun _ => []) s.host.mbReply i.toNat (mboxReply (tget (fun _ => []) s.host.mbReq i.toNat) result)
      waiters := ws } } := by
  have hi : (i.setWidth 6).toNat = i.toNat := by
    rw [BitVec.toNat_setWidth]; omega
  refine ⟨s.host.waiters.filter fun w => w.src != mailboxSrc i, (if_pos rfl).trans ?_⟩
  simp only [mailboxSrc, hi]

/-! ## Outbound mailboxes -/

theorem exec_outboundMailboxPost {s : State} {g : BitVec 4} {i : BitVec 3} {msg : List Byte} (hr : s.ready = true)
    (hf : (s.host.outbox i.toNat).full = false) (hl : msg.length = 64) (hg : s.gardens g.toNat = true)
    (hm : tget (fun _ => []) s.host.mbReply i.toNat = [] ∨
      tget (fun _ => []) s.host.mbReply i.toNat = msg ∧ g.toNat = (if i.toNat < 4 then 8 else 9)) :
    ∃ p q, exec (.outboundMailboxPost g i msg) s = .next { s with host := { s.host with
      mbOut := tset (fun _ => {}) s.host.mbOut i.toNat
        { s.host.outbox i.toNat with full := true, msg, stamp := stampOf 0 g.toNat s.now }
      mbReply := tset (fun _ => []) s.host.mbReply i.toNat []
      dbOut := s.host.dbOut ||| (1 <<< 1), msixPending := p, msixSent := q } } := by
  have hfree : (!s.ready || (s.host.outbox i.toNat).full || msg.length != 64 || !s.gardens g.toNat ||
      (!(tget (fun _ => []) s.host.mbReply i.toNat).isEmpty &&
        (msg != tget (fun _ => []) s.host.mbReply i.toNat || g.toNat != if i.toNat < 4 then 8 else 9))) = false := by
    rcases hm with hm | ⟨hm, ho⟩
    · simp [hr, hf, hl, hg, hm]
    · simp [hr, hf, hl, hg, hm, ← ho]
  obtain ⟨p, q, h⟩ := State.setDoor_eq { s with host := { s.host with
    mbOut := tset (fun _ => {}) s.host.mbOut i.toNat
      { s.host.outbox i.toNat with full := true, msg, stamp := stampOf 0 g.toNat s.now }
    mbReply := tset (fun _ => []) s.host.mbReply i.toNat [] } } 1 hr
  exact ⟨p, q, (if_neg (by simp [hfree])).trans (congrArg Host.Outcome.next h)⟩

theorem exec_outboundMailboxPost_of_full {s : State} (g : BitVec 4) {i : BitVec 3} (msg : List Byte)
    (hf : (s.host.outbox i.toNat).full = true) : exec (.outboundMailboxPost g i msg) s = .next s :=
  if_pos (by simp [hf])

/-! ## The mask's vectors, the taken message, and the whole statement -/

theorem exec_dbOutMaskWrite_vectorOut {s : State} {rid : BitVec 16} (h : Served s rid) (v : BitVec 32) :
    ∃ t, exec (.dbOutMaskWrite rid v) s = .next t ∧ t = { s with host := t.host } ∧ t.host.dbOutMask = v ∧
      t.host.dbOut = s.host.dbOut ∧ ∀ b, b < 32 → s.host.dbOutMask.getLsbD b = true → v.getLsbD b = false →
        s.host.dbOut.getLsbD b = true →
        if wfld (s.host.msix (2 * b + 1)) 32 1 = 1 then t.host.msixPending.getLsbD b = true else b ∈ t.host.msixSent := by
  obtain ⟨p, q, ht⟩ := s.writeDoorMask_eq v
  refine ⟨s.writeDoorMask v, exec_dbOutMaskWrite h v, by rw [ht], by rw [ht], by rw [ht], fun b hb hm hv hd => ?_⟩
  have hout := s.writeDoorMask_vectorOut v hb hm hv hd
  have hmsix : (s.writeDoorMask v).host.msix = s.host.msix := by rw [ht]; rfl
  rwa [HostIf.VectorOut, hmsix] at hout

theorem exec_inboundMailboxTake_effect {s : State} {i : BitVec 3} (hr : s.ready = true) (hf : (s.host.inbox i.toNat).full = true)
    (hq : tget (fun _ => []) s.host.mbReq i.toNat = []) (hg : s.gardens (if i.toNat < 4 then 8 else 9) = true) :
    let m := s.host.inbox i.toNat
    let svc := fieldAt m.msg 0 2
    ∃ t, exec (.inboundMailboxTake i) s = .next t ∧ t = { s with host := t.host } ∧
      t.host.inbox i.toNat = { m with full := false, msg := [], stamp := 0 } ∧
      t.host.mbLog = s.host.mbLog ++ [(m.stamp, svc)] ∧ t.host.dbOut.getLsbD 4 = true ∧
      (mboxServes i.toNat svc = true → tget (fun _ => []) t.host.mbReq i.toNat = m.msg) ∧
      (mboxServes i.toNat svc = false → tget (fun _ => []) t.host.mbReq i.toNat = [] ∧
        tget (fun _ => []) t.host.mbReply i.toNat = mboxReply m.msg (if services.contains svc then 0x71 else 0x70)) := by
  intro m svc
  obtain ⟨p, q, hdoor⟩ := (s.takeInbox i.toNat).setDoor_eq 4 hr
  have htake := exec_inboundMailboxTake hr hf hq hg
  cases hs : mboxServes i.toNat svc
  case true =>
    rw [if_pos hs, hdoor] at htake
    exact ⟨_, htake, rfl, s.takeInbox_inbox _, rfl, getLsbD_or_one_shiftLeft _ (by decide), fun _ => s.takeInbox_mbReq _,
      nofun⟩
  case false =>
    obtain ⟨ws, hdone⟩ := State.complete_mailboxSrc ((s.takeInbox i.toNat).setDoor 4) i 1 0x07
      (if services.contains svc then 0x71 else 0x70)
    rw [if_neg (ne_true_of_eq_false hs), hdone, hdoor] at htake
    refine ⟨_, htake, rfl, s.takeInbox_inbox _, rfl, getLsbD_or_one_shiftLeft _ (by decide), nofun, fun _ => ⟨?_, ?_⟩⟩
    · simp only [tget_tset_self]
    · simp only [tget_tset_self, s.takeInbox_mbReq, m]

/-- Settles O36: each command by its own rule, and what a doorbell sends is only in the host interface. -/
theorem doorbellsAndMailboxesCarryMessages : Obligations.DoorbellsAndMailboxesCarryMessages := by
  unfold Obligations.DoorbellsAndMailboxesCarryMessages
  refine ⟨⟨fun s rid v h => ⟨exec_dbInSet h v, fun hp => ?clear, fun hv hd hf => ?unread, exec_dbOutMaskWrite_vectorOut h v⟩,
      fun s => ⟨rfl, rfl, fun hd r fail => ⟨exec_descriptorFetch_of_d3hot hd r fail, exec_completionPost_of_d3hot hd r⟩⟩⟩,
    fun s rid i msg ha hr hl => ⟨fun hf => ?empty, fun hf => ?full⟩,
    fun s i hr hf hq hg => exec_inboundMailboxTake_effect hr hf hq hg,
    fun s g i msg hr hf hl hg hm => ?post,
    fun s g i msg hf => exec_outboundMailboxPost_of_full g msg hf,
    fun s rid i h => exec_mboReturn h i⟩
  case clear => rw [exec_dbOutClear h, s.clearDoors_plain v hp]
  case unread =>
    have ⟨_, hready, _⟩ := h
    obtain ⟨p, q, ht⟩ := s.clearDoors_unread v hready hv hd hf
    exact ⟨_, (exec_dbOutClear h v).trans (congrArg _ ht), rfl, rfl⟩
  case empty => rw [exec_inboundMailboxPost rid i ha hr hl, hf]; rfl
  case full => rw [exec_inboundMailboxPost rid i ha hr hl, hf]; rfl
  case post =>
    obtain ⟨p, q, ht⟩ := exec_outboundMailboxPost hr hf hl hg hm
    refine ⟨_, ht, rfl, ?_, ?_, getLsbD_or_one_shiftLeft _ (by decide)⟩
    · simp only [HostIf.outbox, tget_tset_self]
    · simp only [tget_tset_self]

end Sys2Proof.Machine
end

section
/-! PROOFS. Fields of registers: what a field reads after a field has been written. -/

namespace Sys2Proof.Machine

theorem testBit_setBits (n lo w v i : Nat) : (setBits n lo w v).testBit i =
    if lo ≤ i ∧ i < lo + w then v.testBit (i - lo) else n.testBit i := by
  have hlow : n % 2 ^ lo < 2 ^ lo := Nat.mod_lt _ (Nat.two_pow_pos lo)
  have hmid : 2 ^ lo * (v % 2 ^ w) + n % 2 ^ lo < 2 ^ (lo + w) := by
    have hv : v % 2 ^ w + 1 ≤ 2 ^ w := Nat.mod_lt _ (Nat.two_pow_pos w)
    calc _ < 2 ^ lo * (v % 2 ^ w) + 2 ^ lo := by omega
      _ = 2 ^ lo * (v % 2 ^ w + 1) := (Nat.mul_succ _ _).symm
      _ ≤ 2 ^ lo * 2 ^ w := Nat.mul_le_mul_left _ hv
      _ = 2 ^ (lo + w) := (Nat.pow_add 2 lo w).symm
  have hsum : setBits n lo w v = 2 ^ (lo + w) * (n / 2 ^ (lo + w)) + (2 ^ lo * (v % 2 ^ w) + n % 2 ^ lo) := by
    unfold setBits
    rw [Nat.mul_comm (2 ^ (lo + w)), Nat.mul_comm (2 ^ lo)]
    omega
  rw [hsum, Nat.testBit_two_pow_mul_add _ hmid, Nat.testBit_two_pow_mul_add _ hlow]
  rcases Nat.lt_or_ge i lo with hi | hi
  · simp [hi, Nat.lt_add_right w hi, Nat.not_le.mpr hi, Nat.testBit_mod_two_pow]
  rcases Nat.lt_or_ge i (lo + w) with hw | hw
  · have hiw : i - lo < w := by omega
    simp [hi, hw, Nat.not_lt.mpr hi, Nat.testBit_mod_two_pow, hiw]
  · simp [Nat.not_lt.mpr hw, Nat.testBit_div_two_pow, Nat.sub_add_cancel hw]

theorem getLsbD_wset (x : W64) (lo n v i : Nat) : (wset x lo n v).getLsbD i =
    (decide (i < 64) && if lo ≤ i ∧ i < lo + n then v.testBit (i - lo) else x.getLsbD i) := by
  rw [wset, BitVec.getLsbD_ofNat, testBit_setBits]
  rfl

theorem testBit_wfld (x : W64) (lo n i : Nat) : (wfld x lo n).testBit i = (decide (i < n) && x.getLsbD (lo + i)) := by
  rw [wfld, bits, Nat.testBit_mod_two_pow, Nat.testBit_div_two_pow, Nat.add_comm i lo]
  rfl

theorem wfld_wset_self (x : W64) {lo n : Nat} (v : Nat) (h : lo + n ≤ 64) : wfld (wset x lo n v) lo n = v % 2 ^ n := by
  refine Nat.eq_of_testBit_eq fun i => ?_
  rw [testBit_wfld, getLsbD_wset, Nat.testBit_mod_two_pow]
  by_cases hi : i < n
  · have h64 : lo + i < 64 := by omega
    simp [hi, h64]
  · simp [hi]

theorem wfld_wset_disjoint (x : W64) {lo n lo' n' : Nat} (v : Nat) (h : lo' + n' ≤ lo ∨ lo + n ≤ lo') :
    wfld (wset x lo n v) lo' n' = wfld x lo' n' := by
  refine Nat.eq_of_testBit_eq fun i => ?_
  rw [testBit_wfld, testBit_wfld, getLsbD_wset]
  by_cases hi : i < n'
  · rw [if_neg (by omega)]
    by_cases h64 : lo' + i < 64
    · simp [h64]
    · simp [h64, BitVec.getLsbD_of_ge x _ (Nat.not_lt.mp h64)]
  · simp [hi]

theorem State.fld_setFld_self (s : State) (off : Nat) {lo n : Nat} (v : Nat) (h : lo + n ≤ 64) :
    (s.setFld off lo n v).fld off lo n = v % 2 ^ n := by
  rw [State.fld, State.setFld, State.reg_setReg, if_pos rfl, wfld_wset_self _ v h]

theorem State.fld_setFld_disjoint (s : State) (off : Nat) {lo n lo' n' : Nat} (v : Nat)
    (h : lo' + n' ≤ lo ∨ lo + n ≤ lo') : (s.setFld off lo n v).fld off lo' n' = s.fld off lo' n' := by
  rw [State.fld, State.setFld, State.reg_setReg, if_pos rfl, wfld_wset_disjoint _ v h, State.fld]

theorem State.fld_setFld_of_ne (s : State) {off off' : Nat} (lo n v lo' n' : Nat) (h : off' ≠ off) :
    (s.setFld off lo n v).fld off' lo' n' = s.fld off' lo' n' := by
  rw [State.fld, State.setFld, State.reg_setReg, if_neg h, State.fld]

/-- A counting field is a field set to what it counts to. -/
theorem State.bump_eq_setFld (s : State) (off lo n k : Nat) :
    s.bump off lo n k = s.setFld off lo n (satAdd n (s.fld off lo n) k) := rfl

theorem State.fld_bump_self (s : State) (off : Nat) {lo n : Nat} (k : Nat) (h : lo + n ≤ 64) :
    (s.bump off lo n k).fld off lo n = satAdd n (s.fld off lo n) k := by
  rw [State.bump_eq_setFld, State.fld_setFld_self _ _ _ h]
  refine Nat.mod_eq_of_lt ?_
  have := Nat.two_pow_pos n
  unfold satAdd
  omega

end Sys2Proof.Machine
end

section
/-! PROOFS. Services completed and refused (R352, R359, R386, R387). -/

namespace Sys2Proof.Machine

theorem State.complete_host (s : State) (src : Src) (status code result : Nat) :
    ∃ h, s.complete src status code result = { s with host := h } ∧ h.mem = s.host.mem := by
  unfold State.complete
  simp only []
  split
  · exact ⟨_, rfl, rfl⟩
  · split
    · exact ⟨_, rfl, rfl⟩
    · exact ⟨_, rfl, rfl⟩

/-- A request in progress completes with the outcome given. -/
theorem State.complete_done {s : State} {src : Src} (h : s.asked src = true) (status code result : Nat) :
    Done s (s.complete src status code result) src status code result := by
  unfold State.asked at h
  unfold Done State.complete
  cases hm : src.mailbox
  case true => simp
  case false =>
    have hst : ((s.ring src.idx.toNat).slot src.slot.toNat).st = 2 := by
      simp only [hm, Bool.false_eq_true, if_false, Bool.and_eq_true, beq_iff_eq] at h
      exact h.1
    simp only [hst, Bool.false_eq_true, if_false, if_true, State.ring_setRing]
    split <;> simp only [Ring.slot, Ring.setSlot, tget_tset_self] <;> rfl

theorem State.serve_error (s : State) (src : Src) {code : Nat} (value : Nat) (h : code ≠ 0) :
    s.serve src code value = s.complete src 1 0x07 (code + value * 2 ^ 32) := if_neg h

theorem State.serve_host (s : State) (src : Src) (code value : Nat) :
    ∃ h, s.serve src code value = { s with host := h } ∧ h.mem = s.host.mem := by
  unfold State.serve
  split
  · exact s.complete_host _ _ _ _
  · exact s.complete_host _ _ _ _

@[simp] theorem State.serve_clk (s : State) (src : Src) (code value : Nat) : (s.serve src code value).clk = s.clk := by
  obtain ⟨h, hs, -⟩ := s.serve_host src code value
  rw [hs]

@[simp] theorem State.serve_beds (s : State) (src : Src) (code value : Nat) : (s.serve src code value).beds = s.beds := by
  obtain ⟨h, hs, -⟩ := s.serve_host src code value
  rw [hs]

@[simp] theorem State.serve_plots (s : State) (src : Src) (code value : Nat) : (s.serve src code value).plots = s.plots := by
  obtain ⟨h, hs, -⟩ := s.serve_host src code value
  rw [hs]

@[simp] theorem State.serve_lnk (s : State) (src : Src) (code value : Nat) : (s.serve src code value).lnk = s.lnk := by
  obtain ⟨h, hs, -⟩ := s.serve_host src code value
  rw [hs]

@[simp] theorem State.serve_dbg (s : State) (src : Src) (code value : Nat) : (s.serve src code value).dbg = s.dbg := by
  obtain ⟨h, hs, -⟩ := s.serve_host src code value
  rw [hs]

@[simp] theorem State.serve_mem (s : State) (src : Src) (code value : Nat) :
    (s.serve src code value).host.mem = s.host.mem := by
  obtain ⟨h, hs, hm⟩ := s.serve_host src code value
  rw [hs]
  exact hm

@[simp] theorem State.serve_fld (s : State) (src : Src) (code value off lo n : Nat) :
    (s.serve src code value).fld off lo n = s.fld off lo n := by
  obtain ⟨h, hs, -⟩ := s.serve_host src code value
  rw [hs]
  rfl

/-- Whether a request is in progress, and what its completion says, rest on the rings, the mailboxes and the tick. -/
theorem State.asked_congr {s s' : State} (hr : s'.host.rings = s.host.rings) (hm : s'.host.mbReq = s.host.mbReq) (src : Src) :
    s'.asked src = s.asked src := by
  simp only [State.asked, State.ring, hr, hm]

theorem done_congr {s s' t : State} {src : Src} {status code result : Nat} (hr : s'.host.rings = s.host.rings)
    (hm : s'.host.mbReq = s.host.mbReq) (hc : s'.clk = s.clk) (h : Done s' t src status code result) :
    Done s t src status code result := by
  simpa only [Done, State.ring, State.now, hr, hm, hc] using h

theorem State.asked_of_service {s : State} {src : Src} {n : Nat} (h : s.service src n = true) : s.asked src = true := by
  simp only [State.service, Bool.and_eq_true] at h
  exact h.1.1.1

/-- A refused service leaves everything but the host interface, which holds its code. -/
theorem State.refuses {s : State} {i : Instr} {src : Src} {n code : Nat} (h : s.service src n = true) (hc : code ≠ 0)
    (he : exec i s = .next (s.serve src code 0)) :
    ∃ u, exec i s = .next u ∧ u = { s with host := u.host } ∧ Done s u src 1 0x07 code := by
  have hserve : s.serve src code 0 = s.complete src 1 0x07 code := by
    rw [s.serve_error src 0 hc, Nat.zero_mul, Nat.add_zero]
  obtain ⟨hi, hhost, -⟩ := s.complete_host src 1 0x07 code
  exact ⟨_, hserve ▸ he, by rw [hhost], State.complete_done (State.asked_of_service h) 1 0x07 code⟩

end Sys2Proof.Machine
end

section
/-! PROOFS. The TAP (R465 to R468). -/

namespace Sys2Proof.Machine

theorem State.leaveService_ready (s : State) : s.leaveService.ready = false := by
  have h : s.leaveService.fld 0x0 0 1 = ((s.setFld 0x0 0 1 0).setFld 0x0 2 1 1).fld 0x0 0 1 := rfl
  rw [State.ready, h, State.fld_setFld_disjoint _ _ _ (.inl (by decide)), State.fld_setFld_self _ _ _ (by decide)]
  rfl

theorem State.leaveService_recovery (s : State) : s.leaveService.fld 0x0 2 1 = 1 :=
  State.fld_setFld_self (s.setFld 0x0 0 1 0) 0x0 1 (by decide)

theorem State.leaveService_frame (s : State) : s.leaveService.dbg = s.dbg ∧ s.leaveService.sec = s.sec ∧
    s.leaveService.beds = s.beds ∧ s.leaveService.plots = s.plots := by
  unfold State.leaveService
  simp

theorem State.holdBalls_of_alive {s : State} (h : s.alive = true) (code : Nat) :
    s.holdBalls code =
      ({ (s.tapIr code).tapUse with dbg := { (s.tapIr code).dbg with ballsHeld := true } } : State).leaveService :=
  if_pos h

theorem State.holdBalls_of_held {s : State} (h : s.alive = false) (code : Nat) :
    s.holdBalls code = { (s.tapIr code).tapUse with dbg := { (s.tapIr code).dbg with ballsHeld := true } } :=
  if_neg (ne_true_of_eq_false h)

/-- Where the balls are taken, whether or not there is a service to leave (R467). -/
theorem State.holdBalls_frame (s : State) (code : Nat) :
    (s.holdBalls code).dbg = { s.dbg with ir := BitVec.ofNat 8 code, ballsHeld := true } ∧
      (s.holdBalls code).sec = { s.sec with tapUsed := true } ∧ (s.holdBalls code).beds = s.beds ∧
      (s.holdBalls code).plots = s.plots := by
  cases h : s.alive
  case true => rw [State.holdBalls_of_alive h]; exact State.leaveService_frame _
  case false => rw [State.holdBalls_of_held h]; exact ⟨rfl, rfl, rfl, rfl⟩

theorem State.holdBalls_leaves {s : State} (h : s.alive = true) (code : Nat) :
    (s.holdBalls code).ready = false ∧ (s.holdBalls code).fld 0x0 2 1 = 1 := by
  rw [State.holdBalls_of_alive h]
  exact ⟨State.leaveService_ready _, State.leaveService_recovery _⟩

/-- A command that takes the balls and loads the boundary register. -/
theorem exec_holdBalls_loadCells {s : State} {i : Instr} {code : Nat} {cells : List Bool}
    (he : exec i s = .next ((s.holdBalls code).loadCells cells)) : ∃ t, exec i s = .next t ∧
      t.dbg = { s.dbg with ir := BitVec.ofNat 8 code, boundary := cells, ballsHeld := true } ∧
      t.sec = { s.sec with tapUsed := true } ∧ t.beds = s.beds ∧ t.plots = s.plots ∧
      (s.alive = true → t.ready = false ∧ t.fld 0x0 2 1 = 1) := by
  obtain ⟨hdbg, hsec, hbeds, hplots⟩ := s.holdBalls_frame code
  refine ⟨_, he, ?_, hsec, hbeds, hplots, fun h => State.holdBalls_leaves h code⟩
  simp only [State.loadCells, hdbg]

/-- One that leaves the boundary register loads it with what it holds. -/
theorem State.holdBalls_eq_loadCells (s : State) (code : Nat) :
    s.holdBalls code = (s.holdBalls code).loadCells s.dbg.boundary := by
  have h : s.dbg.boundary = (s.holdBalls code).dbg.boundary := by rw [(s.holdBalls_frame code).1]
  rw [h]
  rfl

/-- The fields of an identification of any stepping a and maker b. -/
theorem identification_fields {x : BitVec 32} {a b : Nat} (hx : x = BitVec.ofNat 32 (a * 2 ^ 28 + 0x0002 * 2 ^ 12 + b * 2 + 1))
    (ha : a < 3) (hb : b < 2 ^ 11) : x.toNat % 2 = 1 ∧ x.toNat / 2 % 2 ^ 11 = b ∧ x.toNat / 2 ^ 12 % 2 ^ 16 = 2 ∧
      x.toNat / 2 ^ 28 = a ∧ a < 3 := by
  rw [hx, BitVec.toNat_ofNat]
  omega

theorem exec_bypass {s : State} (hr : s.pins.rails = true) {code : BitVec 8} (h6 : 0x06 < code.toNat) (h10 : code ≠ 0x10)
    (h11 : code ≠ 0x11) : exec (.bypass code) s = .next { s with dbg := { s.dbg with ir := code } } := by
  refine (if_pos hr).trans ?_
  rw [if_pos ⟨h6, h10, h11⟩, State.tapIr, BitVec.ofNat_toNat, BitVec.setWidth_eq]

/-- The state of a DBG_ACCESS before its access: the instruction selected, the TAP's use shown. -/
def State.accessing (s : State) : State :=
  { s with dbg := { s.dbg with ir := 0x10 }, sec := { s.sec with tapUsed := true } }

section
variable {s : State} (hr : s.pins.rails = true) (addr data : W64) (env : BootEnv)
include hr

theorem exec_dbgAccess_of_none (h : s.alive = false ∨ 2 ^ 26 ≤ wfld addr 0 63 ∨ wfld addr 0 63 % 8 ≠ 0) :
    exec (.dbgAccess addr data env) s = .next { s.accessing with dbg := { s.accessing.dbg with
      dbgReg := (if addr.getLsbD 63 then data else 0) ++ addr } } := by
  refine (if_pos hr).trans (if_pos ?_)
  change (!s.alive) = true ∨ _
  simpa using h

theorem exec_dbgAccess_of_some (h : s.alive = true) (hoff : wfld addr 0 63 < 2 ^ 26) (h8 : wfld addr 0 63 % 8 = 0) :
    exec (.dbgAccess addr data env) s = .next (
      let x := if addr.getLsbD 63 then
          if wfld addr 0 63 = 0x10100 then (data, s.accessing.writeReset data env)
          else (data, s.accessing.writeReg (wfld addr 0 63) data (lowMask 64))
        else s.accessing.readFor (wfld addr 0 63)
      { x.2 with dbg := { x.2.dbg with dbgReg := x.1 ++ addr } }) := by
  have hno : ¬((!s.alive) = true ∨ 2 ^ 26 ≤ wfld addr 0 63 ∨ wfld addr 0 63 % 8 ≠ 0) := by
    simp only [h, h8, Bool.not_true, Bool.false_eq_true, false_or, ne_eq, not_true_eq_false, or_false]
    omega
  refine (if_pos hr).trans ((if_neg hno).trans ?_)
  cases addr.getLsbD 63
  case false => rfl
  case true => by_cases hw : wfld addr 0 63 = 0x10100 <;> simp only [hw, if_true, if_false] <;> rfl

end

/-- Settles O53: each instruction by its own rule; those that take the balls share one, and an access is one of a
register, or of none. -/
theorem tapInstructionsActOnceEach : Obligations.TapInstructionsActOnceEach := by
  unfold Obligations.TapInstructionsActOnceEach
  intro s hr held
  refine ⟨fun cells => ⟨?extest, ?pulse, ?train, if_pos hr⟩,
    identification_fields rfl Config.stepping.isLt Config.maker.isLt, ?clamp, ?highz, if_pos hr, if_pos hr,
    fun code h6 h10 h11 => exec_bypass hr h6 h10 h11, fun frame => if_pos hr, fun addr data env => ⟨?none, ?some⟩⟩
  case extest => exact exec_holdBalls_loadCells (code := 0x00) (if_pos hr)
  case pulse => exact exec_holdBalls_loadCells (code := 0x05) (if_pos hr)
  case train => exact exec_holdBalls_loadCells (code := 0x06) (if_pos hr)
  case clamp => exact exec_holdBalls_loadCells ((if_pos hr).trans (congrArg _ (s.holdBalls_eq_loadCells 0x03)))
  case highz => exact exec_holdBalls_loadCells ((if_pos hr).trans (congrArg _ (s.holdBalls_eq_loadCells 0x04)))
  case none => exact exec_dbgAccess_of_none hr addr data env
  case some =>
    intro ha hoff h8
    have hex := exec_dbgAccess_of_some hr addr data env ha hoff h8
    refine ⟨fun h63 hne => ?read, fun h63 heq => ?window, fun h63 hne => ?write, fun h63 heq => ?reset⟩
    case read => rw [h63, if_neg Bool.false_ne_true, State.readFor, if_neg hne] at hex; exact hex
    case window => rw [h63, if_neg Bool.false_ne_true, State.readFor, if_pos heq] at hex; exact hex
    case write => rw [h63, if_pos rfl, if_neg hne] at hex; exact hex
    case reset => rw [h63, if_pos rfl, if_pos heq] at hex; exact hex

end Sys2Proof.Machine
end

section
/-! PROOFS. Harvest and its window (R456 to R458, R469), and the sampler (R460): what a harvest's end and a sample write,
and where. -/

namespace Sys2Proof.Machine

/-! ## Harvest -/

theorem exec_harvest_refused {s : State} {src : Src} (h : s.service src 0x22 = true)
    (hno : s.dbg.frozen = false ∨ s.dbg.harvest ≠ none) : exec (.harvest src) s = .next (s.serve src 0x72 0) := by
  refine (if_pos h).trans (if_pos ?_)
  simpa [Option.isSome_iff_ne_none] using hno

theorem exec_harvest_accepted {s : State} {src : Src} (h : s.service src 0x22 = true) (hf : s.dbg.frozen = true)
    (hn : s.dbg.harvest = none) : exec (.harvest src) s = .next (
      (({ s with dbg := { s.dbg with harvest := some {
        src, addr := fieldAt (s.request src) 16 8, len := fieldAt (s.request src) 24 4, start := s.now } } } : State).setFld
          0x100010 0 1 1).await 0x22 0 src 0) := by
  refine (if_pos h).trans (if_neg ?_)
  simp [hf, hn]

/-- The bytes that a harvest has written at its end. -/
def State.harvested (s : State) (h : Harvest) (n : Nat) : List Byte := (s.harvestImage h.len).take n

/-- The state at a harvest's end, before its request completes. -/
def State.harvestOver (s : State) (h : Harvest) (n : Nat) (stopped : Bool) : State :=
  (((({ s with
    freeN := s.freeN + 1
    host := { s.host with mem := mwrite 0 s.host.mem h.addr (s.harvested h n) }
    dbg := { s.dbg with harvest := none } } : State).setFld 0x100010 0 1 0).setFld 0x100010 1 1
      (b2n (harvestLen h.len).2)).setFld 0x100010 3 1 (b2n stopped)).setFld 0x100010 4 32 n

theorem State.endHarvest_eq (s : State) (h : Harvest) (n : Nat) (stopped : Bool) :
    s.endHarvest h n stopped = (s.harvestOver h n stopped).serve h.src (if stopped then 0x72 else 0) n := rfl

/-- DBG_HV_STATUS at a harvest's end: not busy, whether it was stopped, and its bytes. -/
theorem State.harvestOver_status (s : State) (h : Harvest) {n : Nat} (stopped : Bool) (hn : n < 2 ^ 32) :
    (s.harvestOver h n stopped).fld 0x100010 0 1 = 0 ∧ (s.harvestOver h n stopped).fld 0x100010 3 1 = b2n stopped ∧
      (s.harvestOver h n stopped).fld 0x100010 4 32 = n := by
  unfold State.harvestOver
  refine ⟨?_, ?_, ?_⟩
  · rw [State.fld_setFld_disjoint _ _ _ (by decide), State.fld_setFld_disjoint _ _ _ (by decide),
      State.fld_setFld_disjoint _ _ _ (by decide), State.fld_setFld_self _ _ _ (by decide)]
    rfl
  · rw [State.fld_setFld_disjoint _ _ _ (by decide), State.fld_setFld_self _ _ _ (by decide)]
    cases stopped <;> rfl
  · rw [State.fld_setFld_self _ _ _ (by decide), Nat.mod_eq_of_lt hn]

/-- Each byte that was written stands in host memory, as the image has it. -/
theorem State.harvested_inside (s : State) (h : Harvest) {n i : Nat} {x : Byte} (hi : i < n)
    (hx : (s.harvestImage h.len)[i]? = some x) :
    mget 0 (mwrite 0 s.host.mem h.addr (s.harvested h n)) (h.addr + i) = x := by
  have hget : (s.harvested h n)[i]? = some x := by rw [State.harvested, List.getElem?_take_of_lt hi, hx]
  obtain ⟨hlt, -⟩ := List.getElem?_eq_some_iff.mp hget
  rw [mget_mwrite_inside _ _ _ _ _ hlt, List.getD_eq_getElem?_getD, hget, Option.getD_some]

theorem State.harvested_outside (s : State) (h : Harvest) {n a : Nat} (ha : a < h.addr ∨ h.addr + n ≤ a) :
    mget 0 (mwrite 0 s.host.mem h.addr (s.harvested h n)) a = mget 0 s.host.mem a := by
  refine mget_mwrite_outside _ _ _ _ _ (ha.imp_right fun hge => Nat.le_trans ?_ hge)
  exact Nat.add_le_add_left (List.length_take_le _ _) _

theorem State.harvestOver_served {s : State} {h : Harvest} (ha : s.asked h.src = true) (n : Nat) (stopped : Bool) :
    if stopped then Done s (s.endHarvest h n stopped) h.src 1 0x07 (0x72 + n * 2 ^ 32)
    else Done s (s.endHarvest h n stopped) h.src 0 0 (n * 2 ^ 32) := by
  have hasked : (s.harvestOver h n stopped).asked h.src = true := (State.asked_congr rfl rfl _).trans ha
  rw [s.endHarvest_eq]
  cases stopped
  · exact done_congr rfl rfl rfl (State.complete_done hasked 0 0 _)
  · exact done_congr rfl rfl rfl (State.complete_done hasked 1 0x07 _)

/-- When a harvest ends (R456, R457): with its last byte, or with what it has written once the thaw's tick has come. -/
theorem exec_harvestComplete {s : State} {h : Harvest} {written : BitVec 32} {u : W64} (hh : s.dbg.harvest = some h)
    (hroom : written.toNat ≤ 160 * (s.now - h.start)) (hend : written.toNat = (harvestLen h.len).1 ∨
      written.toNat < (harvestLen h.len).1 ∧ s.dbg.thawAt = some u ∧ u.toNat ≤ s.now) :
    exec (.harvestComplete written) s =
      .next (s.endHarvest h written.toNat (decide (written.toNat < (harvestLen h.len).1))) := by
  change execHarvestComplete written s = _
  unfold execHarvestComplete
  simp only [hh]
  rw [if_neg (show ¬h.room s.now < written.toNat from Nat.not_lt.mpr hroom)]
  rcases hend with hall | ⟨hlt, hthaw, hu⟩
  · rw [if_pos hall, ← hall, decide_eq_false (Nat.lt_irrefl _)]
  · rw [if_neg hlt.ne, decide_eq_true hlt]
    simp only [hthaw]
    rw [if_pos ⟨hu, hlt⟩]

theorem exec_harvestComplete_effect {s : State} {h : Harvest} {written : BitVec 32} {u : W64}
    (hh : s.dbg.harvest = some h) (ha : s.asked h.src = true) (hroom : written.toNat ≤ 160 * (s.now - h.start))
    (hend : written.toNat = (harvestLen h.len).1 ∨
      written.toNat < (harvestLen h.len).1 ∧ s.dbg.thawAt = some u ∧ u.toNat ≤ s.now) :
    let early := decide (written.toNat < (harvestLen h.len).1)
    ∃ t, exec (.harvestComplete written) s = .next t ∧ t.dbg.harvest = none ∧ t.fld 0x100010 0 1 = 0 ∧
      t.fld 0x100010 3 1 = b2n early ∧ t.fld 0x100010 4 32 = written.toNat ∧ t.beds = s.beds ∧
      (∀ i x, i < written.toNat → (s.harvestImage h.len)[i]? = some x → mget 0 t.host.mem (h.addr + i) = x) ∧
      (∀ a, (a < h.addr ∨ h.addr + written.toNat ≤ a) → mget 0 t.host.mem a = mget 0 s.host.mem a) ∧
      (if early then Done s t h.src 1 0x07 (0x72 + written.toNat * 2 ^ 32)
        else Done s t h.src 0 0 (written.toNat * 2 ^ 32)) := by
  intro early
  obtain ⟨hbusy, hstopped, hbytes⟩ := s.harvestOver_status h early written.isLt
  refine ⟨_, exec_harvestComplete hh hroom hend, ?_, ?_, ?_, ?_, ?_, fun i x hlt hx => ?_, fun a hout => ?_,
    State.harvestOver_served ha _ _⟩
  all_goals rw [s.endHarvest_eq]
  · rw [State.serve_dbg]; rfl
  · rw [State.serve_fld, hbusy]
  · rw [State.serve_fld, hstopped]
  · rw [State.serve_fld, hbytes]
  · rw [State.serve_beds]; rfl
  · rw [State.serve_mem]; exact s.harvested_inside h hlt hx
  · rw [State.serve_mem]; exact s.harvested_outside h hout

/-! ## The harvest window -/

/-- The window moved on by 8 (R469). -/
def State.movedHv (s : State) : State :=
  ({ s with freeN := s.freeN + 1 } : State).setFld 0x100018 20 25 (s.fld 0x100018 20 25 + 8)

theorem State.movedHv_select (s : State) : s.movedHv.fld 0x100018 20 25 = (s.fld 0x100018 20 25 + 8) % 2 ^ 25 ∧
    s.movedHv.fld 0x100018 0 20 = s.fld 0x100018 0 20 := by
  refine ⟨State.fld_setFld_self _ _ _ (by decide), ?_⟩
  rw [State.movedHv, State.fld_setFld_disjoint _ _ _ (by decide)]
  rfl

/-- A read moves the window on, and notes a poisoned line. -/
theorem State.readHv_snd (s : State) :
    s.readHv.2 = if s.hvWord.2 = true then s.movedHv.setFld 0x100010 2 1 1 else s.movedHv := rfl

theorem State.readHv_effect (s : State) : (∃ regs, s.readHv.2 = { s with freeN := s.freeN + 1, regs }) ∧
    s.readHv.2.fld 0x100018 20 25 = (s.fld 0x100018 20 25 + 8) % 2 ^ 25 ∧
    s.readHv.2.fld 0x100018 0 20 = s.fld 0x100018 0 20 ∧ (s.hvWord.2 = true → s.readHv.2.fld 0x100010 2 1 = 1) := by
  obtain ⟨hoff, hsel⟩ := s.movedHv_select
  rw [s.readHv_snd]
  by_cases hp : s.hvWord.2 = true
  · rw [if_pos hp, State.fld_setFld_of_ne _ _ _ _ _ _ (by decide), State.fld_setFld_of_ne _ _ _ _ _ _ (by decide)]
    exact ⟨⟨_, rfl⟩, hoff, hsel, fun _ => State.fld_setFld_self _ _ _ (by decide)⟩
  · rw [if_neg hp]
    exact ⟨⟨_, rfl⟩, hoff, hsel, fun h => absurd h hp⟩

theorem exec_hvDataRead_effect (s : State) : ∃ t, exec .hvDataRead s = .next t ∧
    t.dbg = { s.dbg with hvOut := s.hvWord.1 :: s.dbg.hvOut } ∧
    t.fld 0x100018 20 25 = (s.fld 0x100018 20 25 + 8) % 2 ^ 25 ∧ t.fld 0x100018 0 20 = s.fld 0x100018 0 20 ∧
    (s.hvWord.2 = true → t.fld 0x100010 2 1 = 1) ∧ t.beds = s.beds ∧ t.plots = s.plots ∧ t.host = s.host ∧
    t.lnk = s.lnk := by
  obtain ⟨⟨regs, hread⟩, hoff, hsel, hpoison⟩ := s.readHv_effect
  refine ⟨_, rfl, ?dbg, hoff, hsel, hpoison, ?_, ?_, ?_, ?_⟩
  case dbg => rw [hread]; rfl
  all_goals rw [hread]

/-! ## The sampler -/

/-- A sample's tick has come, and none has been taken in it (R460). -/
def State.SampleDue (s : State) : Prop :=
  wfld (s.reg 0x100100) 0 1 = 1 ∧ s.now % 2 ^ wfld (s.reg 0x100100) 1 5 = 0 ∧ s.running = true ∧ s.clk.locked = true ∧
    s.dbg.sampled ≠ some s.clk.sundial

/-- The state in which a sample of this tick has been formed and not yet written. -/
def State.sampling (s : State) : State :=
  { s with freeN := s.freeN + 1, dbg := { s.dbg with sampled := some s.clk.sundial } }

/-- A sample written at a place of the buffer and counted. -/
def State.putSample (s : State) (a : Nat) : State :=
  (({ s.sampling with dbg := { s.sampling.dbg with
    samples := mwrite 0 s.dbg.samples a s.sampleBytes, sampNext := a + s.sampleBytes.length } } : State).bump
      0x100108 0 32 1).setFld 0x100108 32 18 (a + s.sampleBytes.length)

/-- Where a sample is written: behind the last one where it fits, and at the beginning where it does not and wrap is set. -/
def State.SampleAt (s : State) (a : Nat) : Prop :=
  s.dbg.sampNext + s.sampleBytes.length ≤ 262144 ∧ a = s.dbg.sampNext ∨
    ¬s.dbg.sampNext + s.sampleBytes.length ≤ 262144 ∧ wfld (s.reg 0x100100) 28 1 = 1 ∧ a = 0

theorem exec_samplerSample_put {s : State} (h : s.SampleDue) {a : Nat} (ha : s.SampleAt a) :
    exec .samplerSample s = .next (s.putSample a) := by
  refine (if_pos h).trans ?_
  rcases ha with ⟨hfits, rfl⟩ | ⟨hno, hwrap, rfl⟩
  · have hf : decide (s.dbg.sampNext + s.sampleBytes.length ≤ 262144) = true := decide_eq_true hfits
    simp only [hf, true_or, if_true]
    rfl
  · have hf : decide (s.dbg.sampNext + s.sampleBytes.length ≤ 262144) = false := decide_eq_false hno
    simp only [hf, hwrap, or_true, if_true, Bool.false_eq_true, if_false]
    rfl

theorem exec_samplerSample_dropped {s : State} (h : s.SampleDue)
    (hno : ¬s.dbg.sampNext + s.sampleBytes.length ≤ 262144) (hwrap : wfld (s.reg 0x100100) 28 1 = 0) :
    exec .samplerSample s = .next (s.sampling.bump 0x100108 50 14 1) := by
  refine (if_pos h).trans (if_neg ?_)
  simp only [hwrap, or_false, decide_eq_true_eq, Nat.zero_ne_one]
  exact hno

theorem mread_mwrite (d : Byte) (m : Mem) (a : Nat) (bs : List Byte) : mread d (mwrite d m a bs) a bs.length = bs := by
  refine List.ext_getElem (by simp) fun i h₁ h₂ => ?_
  have hget := mread_getD d (mwrite d m a bs) a bs.length i h₂
  rw [mget_mwrite_inside d m a bs i h₂, List.getD_eq_getElem _ _ h₁, List.getD_eq_getElem _ _ h₂] at hget
  exact hget

theorem State.putSample_effect (s : State) (a : Nat) :
    mread 0 (s.putSample a).dbg.samples a s.sampleBytes.length = s.sampleBytes ∧
      (s.putSample a).dbg.sampNext = a + s.sampleBytes.length ∧
      (s.putSample a).fld 0x100108 0 32 = satAdd 32 (s.fld 0x100108 0 32) 1 ∧
      ∀ d, (d < a ∨ a + s.sampleBytes.length ≤ d) →
        mget 0 (s.putSample a).dbg.samples d = mget 0 s.dbg.samples d := by
  refine ⟨mread_mwrite _ _ _ _, rfl, ?_, fun d hd => mget_mwrite_outside _ _ _ _ _ hd⟩
  rw [State.putSample, State.fld_setFld_disjoint _ _ _ (by decide), State.fld_bump_self _ _ _ (by decide)]
  rfl

theorem exec_samplerSample_effect {s : State} (h : s.SampleDue) : ∃ t, exec .samplerSample s = .next t ∧
    t.dbg.sampled = some s.clk.sundial ∧ t.beds = s.beds ∧ t.plots = s.plots ∧
    (¬s.dbg.sampNext + s.sampleBytes.length ≤ 262144 → wfld (s.reg 0x100100) 28 1 = 0 →
      t.dbg.samples = s.dbg.samples ∧ t.dbg.sampNext = s.dbg.sampNext ∧
        t.fld 0x100108 50 14 = satAdd 14 (s.fld 0x100108 50 14) 1) ∧ ∀ a, s.SampleAt a → t = s.putSample a := by
  by_cases hfits : s.dbg.sampNext + s.sampleBytes.length ≤ 262144
  · refine ⟨_, exec_samplerSample_put h (.inl ⟨hfits, rfl⟩), rfl, rfl, rfl, fun hno => absurd hfits hno, fun a ha => ?_⟩
    rcases ha with ⟨-, rfl⟩ | ⟨hno, -⟩
    · rfl
    · exact absurd hfits hno
  have hbit : wfld (s.reg 0x100100) 28 1 < 2 := Nat.mod_lt _ (by decide)
  rcases Nat.lt_or_ge (wfld (s.reg 0x100100) 28 1) 1 with hwrap | hwrap
  · refine ⟨_, exec_samplerSample_dropped h hfits (by omega), rfl, rfl, rfl,
      fun _ _ => ⟨rfl, rfl, State.fld_bump_self _ _ _ (by decide)⟩, fun a ha => ?_⟩
    rcases ha with ⟨hin, -⟩ | ⟨-, hone, -⟩
    · exact absurd hin hfits
    · omega
  · refine ⟨_, exec_samplerSample_put h (.inr ⟨hfits, by omega, rfl⟩), rfl, rfl, rfl, fun _ hzero => by omega,
      fun a ha => ?_⟩
    rcases ha with ⟨hin, -⟩ | ⟨-, -, rfl⟩
    · exact absurd hin hfits
    · rfl

/-- Settles O43: a harvest asked for, ended and read through the window, and a sample written or dropped. -/
theorem harvestsAndSamplesWriteTheirBytes : Obligations.HarvestsAndSamplesWriteTheirBytes := by
  unfold Obligations.HarvestsAndSamplesWriteTheirBytes
  refine ⟨⟨fun s src h => ⟨fun hno => ?refused, fun hf hn => ?accepted⟩,
    fun s h written u hh ha hroom hend => exec_harvestComplete_effect hh ha hroom hend, exec_hvDataRead_effect⟩,
    fun s hon hperiod hrun hlocked hnew => ?sample⟩
  case refused => exact State.refuses h (by decide) (exec_harvest_refused h hno)
  case accepted =>
    refine ⟨_, exec_harvest_accepted h hf hn, rfl, State.fld_setFld_self _ _ _ (by decide), ?_, rfl⟩
    exact ⟨_, List.mem_append_right _ (List.mem_singleton_self _), rfl⟩
  case sample =>
    obtain ⟨t, hex, hsampled, hbeds, hplots, hdrop, hput⟩ :=
      exec_samplerSample_effect (s := s) ⟨hon, hperiod, hrun, hlocked, hnew⟩
    refine ⟨t, hex, hsampled, hbeds, hplots, hdrop, fun a ha => ?_⟩
    rw [hput a ha]
    exact s.putSample_effect a

end Sys2Proof.Machine
end

section
/-! PROOFS. Tables with rising keys, and operations that walk through one and set its keys. -/

namespace Sys2Proof.Machine

/-- The first key of a table with rising keys is not among the others. -/
theorem rising_of_cons {α : Type} {e : Nat × α} {t : Tbl α} (h : Rising (e :: t)) : (∀ x ∈ t, x.1 ≠ e.1) ∧ Rising t := by
  rw [Rising, List.map_cons, List.pairwise_cons, List.forall_mem_map] at h
  exact ⟨fun x hx => (h.1 x hx).ne', h.2⟩

theorem tget_of_notMem {α : Type} (d : Nat → α) {t : Tbl α} {k : Nat} (h : ∀ e ∈ t, e.1 ≠ k) : tget d t k = d k := by
  induction t with
  | nil => rfl
  | cons e t ih =>
    obtain ⟨j, w⟩ := e
    rw [tget_cons, if_neg (h (j, w) List.mem_cons_self)]
    exact ih fun x hx => h x (List.mem_cons_of_mem _ hx)

theorem tget_of_mem {α : Type} (d : Nat → α) {t : Tbl α} (hr : Rising t) {e : Nat × α} (he : e ∈ t) : tget d t e.1 = e.2 := by
  induction t with
  | nil => cases he
  | cons x t ih =>
    obtain ⟨hne, hr⟩ := rising_of_cons hr
    rcases List.mem_cons.mp he with rfl | he
    · exact if_pos rfl
    · exact (if_neg (hne e he).symm).trans (ih hr he)

/-- What holds of a table's values and of what an unlisted key reads as, holds of every read. -/
theorem tget_forall {α : Type} {d : Nat → α} {t : Tbl α} {P : α → Prop} (hd : ∀ k, P (d k)) (ht : ∀ e ∈ t, P e.2) (k : Nat) :
    P (tget d t k) := by
  induction t with
  | nil => exact hd k
  | cons e t ih =>
    obtain ⟨j, w⟩ := e
    rw [tget_cons]
    split
    · exact ht (j, w) List.mem_cons_self
    · exact ih fun x hx => ht x (List.mem_cons_of_mem _ hx)

theorem mem_tset {α : Type} [DecidableEq α] {d : Nat → α} {t : Tbl α} {k : Nat} {v : α} {e : Nat × α} (h : e ∈ tset d t k v) :
    e = (k, v) ∨ e ∈ t := by
  unfold tset at h
  split at h
  · exact .inr (List.mem_of_mem_filter h)
  · exact (mem_tput _ k v e h).imp_right List.mem_of_mem_filter

/-- A table with the key of one entry set, if there is something to set it to. -/
def updateOne {α : Type} [DecidableEq α] (d : Nat → α) (g : Nat × α → Option α) (b : Tbl α) (e : Nat × α) : Tbl α :=
  match g e with
  | some v => tset d b e.1 v
  | none => b

/-- A table with the keys of entries set, first to last. -/
def updateAll {α : Type} [DecidableEq α] (d : Nat → α) (g : Nat × α → Option α) (es b : Tbl α) : Tbl α :=
  es.foldl (updateOne d g) b

section
variable {α : Type} [DecidableEq α] (d : Nat → α) (g : Nat × α → Option α)

theorem tget_updateOne_self (b : Tbl α) (e : Nat × α) : tget d (updateOne d g b e) e.1 = (g e).getD (tget d b e.1) := by
  unfold updateOne
  cases g e with
  | none => rfl
  | some v => exact tget_tset_self d b e.1 v

theorem tget_updateOne_ne (b : Tbl α) {e : Nat × α} {k : Nat} (h : e.1 ≠ k) : tget d (updateOne d g b e) k = tget d b k := by
  unfold updateOne
  cases g e with
  | none => rfl
  | some v => exact tget_tset_ne d b e.1 v k h.symm

theorem tget_updateAll_of_notMem {es : Tbl α} {k : Nat} (h : ∀ e ∈ es, e.1 ≠ k) (b : Tbl α) :
    tget d (updateAll d g es b) k = tget d b k := by
  induction es generalizing b with
  | nil => rfl
  | cons e es ih =>
    refine (ih (fun x hx => h x (List.mem_cons_of_mem _ hx)) _).trans ?_
    exact tget_updateOne_ne d g b (h e List.mem_cons_self)

theorem tget_updateAll_of_mem {es : Tbl α} (hr : Rising es) {e : Nat × α} (he : e ∈ es) (b : Tbl α) :
    tget d (updateAll d g es b) e.1 = (g e).getD (tget d b e.1) := by
  induction es generalizing b with
  | nil => cases he
  | cons x es ih =>
    obtain ⟨hne, hr⟩ := rising_of_cons hr
    rcases List.mem_cons.mp he with rfl | he
    · exact (tget_updateAll_of_notMem d g hne _).trans (tget_updateOne_self d g b e)
    · refine (ih hr he _).trans ?_
      rw [tget_updateOne_ne d g b (hne e he).symm]

/-- Every key of a table set from its own value; an unlisted key stays. -/
theorem tget_updateAll {t : Tbl α} (hr : Rising t) (k : Nat) (hk : g (k, d k) = none) :
    tget d (updateAll d g t t) k = (g (k, tget d t k)).getD (tget d t k) := by
  by_cases h : ∃ v, (k, v) ∈ t
  · obtain ⟨v, hv⟩ := h
    rw [tget_updateAll_of_mem d g hr hv t, tget_of_mem d hr hv]
  · have hno : ∀ e ∈ t, e.1 ≠ k := fun e he hek => h ⟨e.2, hek ▸ he⟩
    rw [tget_updateAll_of_notMem d g hno, tget_of_notMem d hno, hk]
    rfl

theorem updateAll_forall {P : α → Prop} {es : Tbl α} (hg : ∀ e ∈ es, ∀ v, g e = some v → P v) {b : Tbl α}
    (hb : ∀ e ∈ b, P e.2) : ∀ e ∈ updateAll d g es b, P e.2 := by
  induction es generalizing b with
  | nil => exact hb
  | cons x es ih =>
    refine ih (fun e he => hg e (List.mem_cons_of_mem _ he)) fun e he => ?_
    unfold updateOne at he
    cases hx : g x with
    | none => rw [hx] at he; exact hb e he
    | some v =>
      rw [hx] at he
      rcases mem_tset he with rfl | he
      · exact hg x List.mem_cons_self v hx
      · exact hb e he

/-- An operation that sets, step by step, the keys of a table that the state holds. -/
theorem foldl_eq_updateAll {σ : Type} (put : Tbl α → σ) {step : σ → Nat × α → σ}
    (hstep : ∀ b e, step (put b) e = put (updateOne d g b e)) (es b : Tbl α) :
    es.foldl step (put b) = put (updateAll d g es b) := by
  induction es generalizing b with
  | nil => rfl
  | cons e es ih => rw [List.foldl_cons, hstep, ih]; rfl

end

theorem foldl_fixed_of_mem {σ ι : Type} {step : σ → ι → σ} {s : σ} {xs : List ι} (h : ∀ x ∈ xs, step s x = s) :
    xs.foldl step s = s := by
  induction xs with
  | nil => rfl
  | cons x xs ih =>
    rw [List.foldl_cons, h x List.mem_cons_self]
    exact ih fun y hy => h y (List.mem_cons_of_mem _ hy)

end Sys2Proof.Machine
end

section
/-! PROOFS. Frost and thaw (R452 to R455, R334): the orders, the cut and what goes on after it. -/

namespace Sys2Proof.Machine

/-! ## Orders -/

theorem exec_holdBegin_of_frost {s : State} (h : s.dbg.frostAt ≠ none ∨ s.dbg.frozen = true) :
    exec .holdBegin s = .next s := by
  refine if_neg fun ⟨_, _, _, hrun, hfrost, _⟩ => ?_
  rcases h with h | h
  · exact h hfrost
  · simp [State.running, h] at hrun

/-- The order that goes out along the sow tree, if the frost is one of several modules (R331). -/
def State.orderOut (s : State) (multi : Bool) (code : Nat) (payload : List Byte) : State :=
  if multi then s.flood none code payload else s

theorem State.foldl_sendControl_eq (code : Nat) (payload : List Byte) (ls : List Nat) (s : State) :
    ∃ k, ls.foldl (fun (s : State) l => s.sendControl l code payload) s = { s with lnk := k } := by
  induction ls generalizing s with
  | nil => exact ⟨_, rfl⟩
  | cons l ls ih =>
    obtain ⟨k, h⟩ := ih (s.sendControl l code payload)
    exact ⟨k, h⟩

theorem State.orderOut_eq (s : State) (multi : Bool) (code : Nat) (payload : List Byte) :
    ∃ k, s.orderOut multi code payload = { s with lnk := k } ∧ (multi = false → k = s.lnk) := by
  cases multi
  case false => exact ⟨_, rfl, fun _ => rfl⟩
  case true =>
    obtain ⟨k, h⟩ := State.foldl_sendControl_eq code payload _ s
    exact ⟨k, h, nofun⟩

/-- An order accepted: its tick is kept, and its service completes. -/
theorem State.accept_effect {s : State} {src : Src} (ha : s.asked src = true) (d : Dbg) (multi : Bool) (code : Nat)
    (payload : List Byte) :
    let t := ((({ s with dbg := d } : State).orderOut multi code payload).serve src 0 0)
    t.dbg = d ∧ Done s t src 0 0 0 ∧ t.beds = s.beds ∧ t.plots = s.plots ∧ t.clk = s.clk ∧
      (multi = false → t.lnk = s.lnk) := by
  obtain ⟨k, hout, hk⟩ := State.orderOut_eq { s with dbg := d } multi code payload
  simp only [hout]
  refine ⟨State.serve_dbg _ _ _ _, ?_, State.serve_beds _ _ _ _, State.serve_plots _ _ _ _, State.serve_clk _ _ _ _,
    fun hm => (State.serve_lnk _ _ _ _).trans (hk hm)⟩
  exact done_congr (s' := { s with dbg := d, lnk := k }) rfl rfl rfl (State.complete_done (s := { s with dbg := d, lnk := k }) ha 0 0 0)

/-! ## FROST -/

section
variable {s : State} {src : Src} (h : s.service src 0x20 = true)

/-- Whether a frost asked for is one of several modules. -/
def State.frostMulti (s : State) (src : Src) : Bool := bit (fieldAt (s.request src) 24 1) 0

/-- The cut tick asked for (R452). -/
def State.frostTick (s : State) (src : Src) : Nat :=
  if s.frostMulti src ∨ fieldAt (s.request src) 16 8 ≠ 0 then fieldAt (s.request src) 16 8 else s.now + 8

/-- The first tick for which a frost is accepted (R332, R452). -/
def State.frostFirst (s : State) (src : Src) : Nat :=
  if s.frostMulti src then s.fetchTick src + 64 * s.lnk.reach else s.now + 8

/-- In service, with no frost and outside holds, no state refuses (R452). -/
theorem frost_state_admits {s : State} {src : Src} (hr : s.ready = true) (hf : s.dbg.frozen = false) (hn : s.dbg.frostAt = none)
    (hh : s.inHold (s.frostTick src) = false) : ¬((!s.ready) = true ∨ s.dbg.frozen = true ∨ s.dbg.frostAt.isSome = true ∨
    s.inHold (s.frostTick src) = true) := by
  simp [hr, hf, hn, hh]

include h

theorem exec_frost_of_state (hno : s.ready = false ∨ s.dbg.frozen = true ∨ s.dbg.frostAt ≠ none ∨
    s.inHold (s.frostTick src) = true) : exec (.frost src) s = .next (s.serve src 0x72 0) := by
  refine (if_pos h).trans (if_pos ?_)
  rw [Bool.not_eq_true', Option.isSome_iff_ne_none]
  exact hno

section
variable (hr : s.ready = true) (hf : s.dbg.frozen = false) (hn : s.dbg.frostAt = none)
  (hh : s.inHold (s.frostTick src) = false)
include hr hf hn hh

theorem exec_frost_of_slipped (hm : s.frostMulti src = true) (hs : s.lnk.slipped = true) :
    exec (.frost src) s = .next (s.serve src 0x32 0) :=
  (if_pos h).trans ((if_neg (frost_state_admits hr hf hn hh)).trans (if_pos ⟨hm, hs⟩))

theorem exec_frost_of_early (hm : s.frostMulti src = false ∨ s.lnk.slipped = false) (ht : s.frostTick src < s.frostFirst src) :
    exec (.frost src) s = .next (s.serve src 0x71 0) := by
  have hsync : ¬(s.frostMulti src = true ∧ s.lnk.slipped = true) := by rcases hm with hm | hm <;> simp [hm]
  exact (if_pos h).trans ((if_neg (frost_state_admits hr hf hn hh)).trans ((if_neg hsync).trans (if_pos ht)))

theorem exec_frost_accepted (hm : s.frostMulti src = false ∨ s.lnk.slipped = false)
    (ht : s.frostFirst src ≤ s.frostTick src) : exec (.frost src) s = .next (
      (({ s with dbg := { s.dbg with
        frostAt := some (BitVec.ofNat 64 (s.frostTick src), s.frostMulti src) } } : State).orderOut
          (s.frostMulti src) 4 (leBytes 8 (s.frostTick src))).serve src 0 0) := by
  have hsync : ¬(s.frostMulti src = true ∧ s.lnk.slipped = true) := by rcases hm with hm | hm <;> simp [hm]
  exact (if_pos h).trans ((if_neg (frost_state_admits hr hf hn hh)).trans ((if_neg hsync).trans
    (if_neg (Nat.not_lt.mpr ht))))

end
end

/-! ## THAW -/

section
variable {s : State} {src : Src} (h : s.service src 0x21 = true)

/-- The thaw tick asked for (R455). -/
def State.thawTick (s : State) (src : Src) : Nat := fieldAt (s.request src) 16 8

/-- The first tick for which a thaw is accepted (R332, R455). -/
def State.thawFirst (s : State) (src : Src) : Nat :=
  if s.dbg.multi then s.fetchTick src + 64 * s.lnk.reach else s.now + 8

/-- Frozen, not for a conservation fault, and with no thaw to come, no state refuses (R403, R455). -/
theorem thaw_state_admits {s : State} (hf : s.dbg.frozen = true) (hc : s.dbg.conservation = false) (hn : s.dbg.thawAt = none) :
    ¬((!s.dbg.frozen) = true ∨ s.dbg.conservation = true ∨ s.dbg.thawAt.isSome = true) := by
  simp [hf, hc, hn]

include h

theorem exec_thaw_of_state (hno : s.dbg.frozen = false ∨ s.dbg.conservation = true ∨ s.dbg.thawAt ≠ none) :
    exec (.thaw src) s = .next (s.serve src 0x72 0) := by
  refine (if_pos h).trans (if_pos ?_)
  rw [Bool.not_eq_true', Option.isSome_iff_ne_none]
  exact hno

section
variable (hf : s.dbg.frozen = true) (hc : s.dbg.conservation = false) (hn : s.dbg.thawAt = none)
include hf hc hn

theorem exec_thaw_of_slipped (hm : s.dbg.multi = true) (hs : s.lnk.slipped = true) :
    exec (.thaw src) s = .next (s.serve src 0x32 0) :=
  (if_pos h).trans ((if_neg (thaw_state_admits hf hc hn)).trans (if_pos ⟨hm, hs⟩))

theorem exec_thaw_of_late_order (hm : s.dbg.multi = true) (hs : s.lnk.slipped = false)
    (ht : s.thawTick src < s.thawFirst src) : exec (.thaw src) s = .next (s.serve src 0x30 0) :=
  (if_pos h).trans ((if_neg (thaw_state_admits hf hc hn)).trans ((if_neg (by simp [hs])).trans (if_pos ⟨hm, ht⟩)))

theorem exec_thaw_of_tick (hm : s.dbg.multi = false ∨ s.lnk.slipped = false ∧ s.thawFirst src ≤ s.thawTick src)
    (ht : s.thawTick src < s.thawFirst src ∨ s.thawTick src ≤ s.dbg.cut.toNat ∨
      (s.thawTick src - s.dbg.cut.toNat) % 1920 ≠ 0) : exec (.thaw src) s = .next (s.serve src 0x71 0) := by
  have hsync : ¬(s.dbg.multi = true ∧ s.lnk.slipped = true) := by rcases hm with hm | ⟨hm, -⟩ <;> simp [hm]
  have hintime : ¬(s.dbg.multi = true ∧ s.thawTick src < s.thawFirst src) := by
    rcases hm with hm | ⟨-, hm⟩
    · simp [hm]
    · simp [Nat.not_lt.mpr hm]
  exact (if_pos h).trans ((if_neg (thaw_state_admits hf hc hn)).trans ((if_neg hsync).trans ((if_neg hintime).trans
    (if_pos ht))))

theorem exec_thaw_accepted (hm : s.dbg.multi = false ∨ s.lnk.slipped = false) (hfirst : s.thawFirst src ≤ s.thawTick src)
    (hcut : s.dbg.cut.toNat < s.thawTick src) (hmul : (s.thawTick src - s.dbg.cut.toNat) % 1920 = 0) :
    exec (.thaw src) s = .next (
      (({ s with dbg := { s.dbg with
        thawAt := some (BitVec.ofNat 64 (s.thawTick src)), thaw := BitVec.ofNat 64 (s.thawTick src) } } : State).orderOut
          s.dbg.multi 5 (leBytes 8 (s.thawTick src))).serve src 0 0) := by
  have hsync : ¬(s.dbg.multi = true ∧ s.lnk.slipped = true) := by rcases hm with hm | hm <;> simp [hm]
  have hintime : ¬(s.dbg.multi = true ∧ s.thawTick src < s.thawFirst src) := fun ⟨_, hlt⟩ => Nat.not_lt.mpr hfirst hlt
  have htick : ¬(s.thawTick src < s.thawFirst src ∨ s.thawTick src ≤ s.dbg.cut.toNat ∨
      (s.thawTick src - s.dbg.cut.toNat) % 1920 ≠ 0) := by omega
  exact (if_pos h).trans ((if_neg (thaw_state_admits hf hc hn)).trans ((if_neg hsync).trans ((if_neg hintime).trans
    (if_neg htick))))

end
end

/-! ## The cut -/

/-- What becomes of a channel at a cut: a host read outstanding completes into its buffer and is marked (R290). -/
def State.marked (s : State) (e : Nat × Chan) : Option Chan :=
  match e.2.cur with
  | some t =>
    if e.2.busy && (sideA t.desc).space == 2 && (s.engine (hubOf e.1)).state == 0 then
      some { e.2 with cutRead := true, caught := mread 0 s.host.mem t.next.1 t.next.2 }
    else none
  | none => none

/-- The state with another table of channels. -/
def State.withChans (s : State) (b : Tbl Chan) : State := { s with brw := { s.brw with chans := b } }

/-- The state with another table of links. -/
def State.withLinks (s : State) (b : Tbl Link) : State := { s with lnk := { s.lnk with links := b } }

/-- The state with another table of beds. -/
def State.withBeds (s : State) (b : Tbl Bed) : State := { s with beds := b }

theorem State.markReads_eq (s : State) :
    s.markReads = s.withChans (updateAll (fun _ => {}) s.marked s.brw.chans s.brw.chans) := by
  refine foldl_eq_updateAll (fun _ => {}) s.marked s.withChans (fun b e => ?_) s.brw.chans s.brw.chans
  unfold updateOne State.marked
  cases e.2.cur with
  | none => rfl
  | some t =>
    by_cases hc : (e.2.busy && (sideA t.desc).space == 2 && (s.engine (hubOf e.1)).state == 0) = true
    · simp only [if_pos hc]
      exact if_pos hc
    · simp only [if_neg hc]
      exact if_neg hc

theorem State.marked_read {s : State} {ch : Nat} {x : Xfer} (hx : (s.chan ch).cur = some x) (hb : (s.chan ch).busy = true)
    (hs : (sideA x.desc).space = 2) (he : (s.engine (hubOf ch)).state = 0) : s.marked (ch, s.chan ch) =
      some { s.chan ch with cutRead := true, caught := mread 0 s.host.mem x.next.1 x.next.2 } := by
  simp [State.marked, hx, hb, hs, he]

theorem State.marked_idle {s : State} {ch : Nat} (hb : (s.chan ch).busy = false) : s.marked (ch, s.chan ch) = none := by
  unfold State.marked
  cases (s.chan ch).cur with
  | none => rfl
  | some t => simp [hb]

theorem State.marked_other {s : State} {ch : Nat} {x : Xfer} (hx : (s.chan ch).cur = some x)
    (hno : (sideA x.desc).space ≠ 2 ∨ (s.engine (hubOf ch)).state ≠ 0) : s.marked (ch, s.chan ch) = none := by
  rcases hno with hno | hno <;> simp [State.marked, hx, hno]

/-- A doorbell bit set changes the host interface alone (R360). -/
theorem State.setDoor_frame (s : State) (b : Nat) : ∃ h, s.setDoor b = { s with host := h } := by
  by_cases hr : s.ready = true
  · obtain ⟨p, q, h⟩ := s.setDoor_eq b hr
    exact ⟨_, h⟩
  · exact ⟨_, if_pos (by simp [hr])⟩

/-- The state of a cut, before its reads are marked (R453). -/
def State.cutAt (s : State) (f : W64 × Bool) : State :=
  { s with
    freeN := s.freeN + 1
    dbg := { s.dbg with frostAt := none, frozen := true, multi := f.2, cut := f.1, scan := s.freeN } }

theorem exec_frostCut {s : State} {f : W64 × Bool} (hf : s.dbg.frostAt = some f) (ht : f.1.toNat ≤ s.now)
    (hr : s.running = true) (hl : s.clk.locked = true) :
    exec .frostCut s = .next ((s.cutAt f).markReads.setDoor 9) := by
  change execFrostCut s = _
  unfold execFrostCut
  simp only [hf]
  exact if_pos ⟨ht, hr, hl⟩

theorem exec_frostCut_effect {s : State} {f : W64 × Bool} (hf : s.dbg.frostAt = some f) (ht : f.1.toNat ≤ s.now)
    (hr : s.running = true) (hl : s.clk.locked = true) :
    ∃ u, exec .frostCut s = .next u ∧ u.running = false ∧ u.dbg.frozen = true ∧ u.dbg.frostAt = none ∧
      u.dbg.multi = f.2 ∧ u.dbg.cut = f.1 ∧ u.dbg.conservation = s.dbg.conservation ∧ u.clk = s.clk ∧ u.beds = s.beds ∧
      u.plots = s.plots ∧ u.recs = s.recs ∧ u.brw.engines = s.brw.engines ∧ u.ddr = s.ddr ∧ u.lnk = s.lnk ∧
      (Rising s.brw.chans → ∀ ch, u.chan ch = (s.marked (ch, s.chan ch)).getD (s.chan ch)) ∧
      (s.ready = true → u.host.dbOut.getLsbD 9 = true) := by
  have hmark := (s.cutAt f).markReads_eq
  obtain ⟨h, hdoor⟩ := (s.cutAt f).markReads.setDoor_frame 9
  rw [hmark] at hdoor
  refine ⟨_, exec_frostCut hf ht hr hl, ?_⟩
  rw [hmark, hdoor]
  refine ⟨rfl, rfl, rfl, rfl, rfl, rfl, rfl, rfl, rfl, rfl, rfl, rfl, rfl,
    fun hrise ch => tget_updateAll (fun _ => ({} : Chan)) s.marked hrise ch rfl, fun hready => ?_⟩
  have hready' : ((s.cutAt f).withChans (updateAll (fun _ => {}) s.marked s.brw.chans s.brw.chans)).ready = true := hready
  obtain ⟨p, q, hset⟩ := State.setDoor_eq _ 9 hready'
  have hout := congrArg (fun t : State => t.host.dbOut.getLsbD 9) (hdoor.symm.trans hset)
  exact hout.trans (getLsbD_or_one_shiftLeft _ (by decide))

/-! ## The thaw: links -/

/-- The companion records of a module whose links stood still for d ticks (R334). -/
def State.shiftComp (s : State) (d : Nat) : State :=
  let recs := fun (rs : List CmpRec) => rs.map fun (r : CmpRec) => { r with tick := later r.tick d }
  { s with lnk := { s.lnk with comp := { s.lnk.comp with own := recs s.lnk.comp.own, partner := recs s.lnk.comp.partner } } }

theorem State.shiftLinks_eq (s : State) (d : Nat) : s.shiftLinks d =
    (s.shiftComp d).withLinks (updateAll (fun _ => {}) (fun e => some (e.2.shift d)) s.lnk.links s.lnk.links) := by
  unfold State.shiftLinks
  refine foldl_eq_updateAll (fun _ => {}) (fun e : Nat × Link => some (e.2.shift d)) (s.shiftComp d).withLinks
    (fun _ _ => ?_) s.lnk.links s.lnk.links
  rfl

theorem Link.eq_of_captured {k : Link} (h : k.captured = []) : { k with captured := [] } = k := by
  rw [← h]

/-- With nothing captured a link takes nothing at the thaw. -/
theorem State.foldl_deliver_of_empty (es : Tbl Link) (s : State) (hes : ∀ e ∈ es, e.2.captured = [])
    (hs : ∀ l, (s.link l).captured = []) : ∃ L, es.foldl (fun (s : State) e =>
      e.2.captured.foldl (fun (s : State) w => s.deliverFlit e.1 w) (s.setLink e.1 { s.link e.1 with captured := [] })) s =
        s.withLinks L ∧ ∀ l, tget (fun _ => {}) L l = s.link l := by
  induction es generalizing s with
  | nil => exact ⟨s.lnk.links, rfl, fun _ => rfl⟩
  | cons e es ih =>
    have hlink : ∀ l, (s.setLink e.1 (s.link e.1)).link l = s.link l := fun l => by
      rw [State.link_setLink]
      split
      · rw [‹l = e.1›]
      · rfl
    obtain ⟨L, hfold, hL⟩ := ih (s.setLink e.1 (s.link e.1)) (fun x hx => hes x (List.mem_cons_of_mem _ hx))
      fun l => by rw [hlink, hs]
    refine ⟨L, ?_, fun l => (hL l).trans (hlink l)⟩
    rw [List.foldl_cons, hes e List.mem_cons_self, List.foldl_nil, Link.eq_of_captured (hs _), hfold]
    rfl

/-- A frost of several modules: with nothing captured every link goes on with its timers moved on, and nothing else of the
module changes (R334). -/
theorem State.shiftLinks_deliver {s : State} (hr : Rising s.lnk.links) (hc : ∀ e ∈ s.lnk.links, e.2.captured = []) (d : Nat) :
    ∃ k, (s.shiftLinks d).deliverCaptured = { s with lnk := k } ∧
      ∀ e ∈ s.lnk.links, tget (fun _ => {}) k.links e.1 = e.2.shift d := by
  have hlinks : (s.shiftLinks d).lnk.links =
      updateAll (fun _ => {}) (fun e => some (e.2.shift d)) s.lnk.links s.lnk.links := by rw [s.shiftLinks_eq]; rfl
  have hnone : ∀ e ∈ (s.shiftLinks d).lnk.links, e.2.captured = [] := by
    rw [hlinks]
    refine updateAll_forall (P := fun k : Link => k.captured = []) _ _ (fun e he v hv => ?_) hc
    cases hv
    exact hc e he
  obtain ⟨L, hfold, hL⟩ := State.foldl_deliver_of_empty _ (s.shiftLinks d) hnone
    (tget_forall (P := fun k : Link => k.captured = []) (fun _ => rfl) hnone)
  refine ⟨_, hfold.trans (by rw [s.shiftLinks_eq]; rfl), fun e he => (hL e.1).trans ?_⟩
  rw [State.link, hlinks]
  exact tget_updateAll_of_mem (fun _ => {}) (fun e => some (e.2.shift d)) hr he _

/-- A frost of this module alone: with no flit of a collective a link has nothing to run (R454). -/
theorem State.takeRuns_of_none {s : State} (hr : Rising s.lnk.links) {e : Nat × Link} (he : e ∈ s.lnk.links)
    (hk : ∀ x ∈ e.2.rx, x.kind ≠ 2) : s.takeRuns e.1 = s := by
  have hlink : s.link e.1 = e.2 := tget_of_mem _ hr he
  unfold State.takeRuns
  rw [hlink, List.filter_eq_nil_iff.mpr fun x hx => by simp [hk x hx]]
  rfl

/-! ## The thaw: walkers and beds -/

/-- A fence asked for in the frost is counted from the thaw on (R379). -/
def refenced (t u : Nat) (e : Nat × Bed) : Option Bed :=
  match e.2.fencePending with
  | some q => if t ≤ q.1 then some { e.2 with fencePending := some (u, q.2) } else none
  | none => none

theorem State.foldl_setWalker_eq (f : State → Nat → Walker) (ws : List Nat) (s : State) :
    ∃ d, ws.foldl (fun (s : State) w => s.setWalker w (f s w)) s = { s with ddr := d } := by
  induction ws generalizing s with
  | nil => exact ⟨_, rfl⟩
  | cons w ws ih =>
    obtain ⟨d, h⟩ := ih (s.setWalker w (f s w))
    exact ⟨d, h⟩

theorem State.shiftUnits_eq (s : State) (t u : Nat) : ∃ d, s.shiftUnits t u =
    ({ s with ddr := d } : State).withBeds (updateAll (fun _ => {}) (refenced t u) s.beds s.beds) := by
  obtain ⟨d, hw⟩ := State.foldl_setWalker_eq (fun s w => { s.walker w with work := (s.walker w).work.map fun (x : Work) =>
    { x with frame := x.frame + (u - t) / 80, errFrame := x.errFrame + (u - t) / 80, quota := (x.quota.1 + (u - t) / 80, x.quota.2) } })
      (List.range 4) s
  refine ⟨d, ?_⟩
  unfold State.shiftUnits
  simp only [hw]
  refine foldl_eq_updateAll (fun _ => {}) (refenced t u) ({ s with ddr := d } : State).withBeds (fun b e => ?_) s.beds s.beds
  unfold updateOne refenced
  cases e.2.fencePending with
  | none => rfl
  | some q =>
    by_cases hq : t ≤ q.1
    · simp only [if_pos hq]
      rfl
    · simp only [if_neg hq]

theorem refenced_bedIs (t u k : Nat) (b : Bed) : BedIs ((refenced t u (k, b)).getD b) b := by
  unfold refenced
  cases hb : b.fencePending with
  | none => exact ⟨b.fencePending, rfl⟩
  | some q =>
    by_cases hq : t ≤ q.1
    · simp only [if_pos hq]
      exact ⟨some (u, q.2), rfl⟩
    · simp only [if_neg hq]
      exact ⟨b.fencePending, rfl⟩

/-! ## The thaw: run records and reads -/

/-- A plot's record notes a frost (R399). -/
def State.noteFrost (t u : Nat) (s : State) (p : Nat) : State :=
  let s := s.event p 0x0E 0xFF 0 0 (leBytes 8 t ++ leBytes 8 u)
  let r := s.runRec p
  if r.isOpen then s.setRunRec p { r with frozen := true, frosts := satAdd 32 r.frosts 1 } else s

theorem State.frostEvents_eq (s : State) (t u : Nat) : s.frostEvents t u = s.sownPlots.foldl (State.noteFrost t u) s := rfl

theorem State.noteFrost_aside (t u : Nat) (s : State) (p : Nat) : Aside s (s.noteFrost t u p) := by
  unfold State.noteFrost
  simp only []
  split
  · exact (State.event_aside _ _ _ _ _ _ _).trans (.of_setRunRec _ _ _)
  · exact State.event_aside _ _ _ _ _ _ _

theorem State.frostEvents_aside (s : State) (t u : Nat) : Aside s (s.frostEvents t u) := by
  have hfold : ∀ (ps : List Nat) (s : State), Aside s (ps.foldl (State.noteFrost t u) s) := by
    intro ps
    induction ps with
    | nil => exact .refl
    | cons p ps ih => exact fun s => (s.noteFrost_aside t u p).trans (ih _)
  rw [s.frostEvents_eq]
  exact hfold _ s

theorem State.setRunRec_flags {s : State} {p : Nat} {x : Rec} (ho : x.isOpen = (s.runRec p).isOpen)
    (hf : x.frozen = (s.runRec p).frozen) (q : Nat) : ((s.setRunRec p x).runRec q).isOpen = (s.runRec q).isOpen ∧
      ((s.setRunRec p x).runRec q).frozen = (s.runRec q).frozen := by
  rw [State.runRec_setRunRec]
  split
  · rw [‹q = p›]
    exact ⟨ho, hf⟩
  · exact ⟨rfl, rfl⟩

/-- An event leaves whether its record is open, and whether it notes a frost. -/
theorem State.event_flags (s : State) (p k b i e : Nat) (pl : List Byte) (q : Nat) :
    ((s.event p k b i e pl).runRec q).isOpen = (s.runRec q).isOpen ∧
      ((s.event p k b i e pl).runRec q).frozen = (s.runRec q).frozen := by
  unfold State.event
  simp only []
  split
  · exact ⟨rfl, rfl⟩
  · split
    · refine State.setRunRec_flags ?_ ?_ q <;> rfl
    · refine State.setRunRec_flags ?_ ?_ q <;> rfl

theorem State.noteFrost_isOpen (t u : Nat) (s : State) (p q : Nat) :
    ((s.noteFrost t u p).runRec q).isOpen = (s.runRec q).isOpen := by
  obtain ⟨hopen, -⟩ := s.event_flags p 0x0E 0xFF 0 0 (leBytes 8 t ++ leBytes 8 u) q
  unfold State.noteFrost
  simp only []
  split
  · rw [State.runRec_setRunRec]
    split
    · rw [‹q = p›] at hopen ⊢
      exact hopen
    · exact hopen
  · exact hopen

/-- A record in which the frost is noted keeps it; an open one of the plot itself takes it. -/
theorem State.noteFrost_frozen {t u : Nat} {s : State} {p q : Nat} (ho : (s.runRec q).isOpen = true)
    (h : q = p ∨ (s.runRec q).frozen = true) : ((s.noteFrost t u p).runRec q).frozen = true := by
  obtain ⟨hopen, hfrozen⟩ := s.event_flags p 0x0E 0xFF 0 0 (leBytes 8 t ++ leBytes 8 u) q
  unfold State.noteFrost
  simp only []
  by_cases hqp : q = p
  · subst hqp
    rw [if_pos (hopen.trans ho), State.runRec_setRunRec, if_pos rfl]
  · have hkept : (s.runRec q).frozen = true := h.resolve_left hqp
    split
    · rw [State.runRec_setRunRec, if_neg hqp, hfrozen, hkept]
    · rw [hfrozen, hkept]

theorem State.foldl_noteFrost_frozen (t u : Nat) {ps : List Nat} {s : State} {q : Nat} (ho : (s.runRec q).isOpen = true)
    (h : q ∈ ps ∨ (s.runRec q).frozen = true) : ((ps.foldl (State.noteFrost t u) s).runRec q).frozen = true := by
  induction ps generalizing s with
  | nil => exact h.resolve_left List.not_mem_nil
  | cons p ps ih =>
    refine ih ((s.noteFrost_isOpen t u p q).trans ho) ?_
    rcases h with h | h
    · rcases List.mem_cons.mp h with rfl | h
      · exact .inr (State.noteFrost_frozen ho (.inl rfl))
      · exact .inl h
    · exact .inr (State.noteFrost_frozen ho (.inr h))

/-- With no read marked at the cut no channel goes on with one. -/
theorem State.resumeReads_of_none {s : State} (h : ∀ e ∈ s.brw.chans, e.2.cutRead = false) : s.resumeReads = s := by
  refine foldl_fixed_of_mem fun e he => ?_
  cases e.2.cur with
  | none => rfl
  | some t => exact if_neg (by simp [h e he])

/-! ## The thaw -/

/-- The module as it wakes, before its units go on (R455). -/
def State.awake (s : State) (u : W64) : State :=
  { s with
    dbg := { s.dbg with frozen := false, multi := false, thawAt := none }
    clk := { s.clk with runStart := later s.clk.runStart (u.toNat - s.dbg.cut.toNat) } }

/-- What a link's partner sent in the frost is taken (R334, R454). -/
def State.resumeLinks (s : State) (multi : Bool) (d : Nat) : State :=
  if multi then (s.shiftLinks d).deliverCaptured else s.lnk.links.foldl (fun (s : State) e => s.takeRuns e.1) s

theorem exec_thawResume {s : State} {u : W64} (hu : s.dbg.thawAt = some u) (hf : s.dbg.frozen = true) (ht : u.toNat ≤ s.now)
    (hh : s.dbg.harvest = none) (hl : s.clk.locked = true) : exec .thawResume s = .next (
      (((((s.awake u).resumeLinks s.dbg.multi (u.toNat - s.dbg.cut.toNat)).shiftUnits s.dbg.cut.toNat u.toNat).frostEvents
        s.dbg.cut.toNat u.toNat).resumeReads.setDoor 9)) := by
  change execThawResume s = _
  unfold execThawResume
  simp only [hu]
  exact if_pos ⟨hf, ht, hh, hl⟩

/-- With nothing that came in the frost, the links go on: of a module frozen alone as they are, else with their timers
moved on. -/
theorem State.resumeLinks_eq {s : State} (hr : Rising s.lnk.links)
    (hc : ∀ e ∈ s.lnk.links, e.2.captured = [] ∧ ∀ x ∈ e.2.rx, x.afterCut = false ∧ x.kind ≠ 2) (multi : Bool) (d : Nat) :
    ∃ k, s.resumeLinks multi d = { s with lnk := k } ∧ (multi = false → k = s.lnk) ∧
      (multi = true → ∀ e ∈ s.lnk.links, tget (fun _ => {}) k.links e.1 = e.2.shift d) := by
  cases multi
  case false =>
    exact ⟨s.lnk, foldl_fixed_of_mem fun e he => State.takeRuns_of_none hr he fun x hx => ((hc e he).2 x hx).2,
      fun _ => rfl, nofun⟩
  case true =>
    obtain ⟨k, hk, hshift⟩ := State.shiftLinks_deliver hr (fun e he => (hc e he).1) d
    exact ⟨k, hk, nofun, fun _ => hshift⟩

theorem exec_thawResume_effect {s : State} {u : W64} (hu : s.dbg.thawAt = some u) (hf : s.dbg.frozen = true)
    (ht : u.toNat ≤ s.now) (hh : s.dbg.harvest = none) (hl : s.clk.locked = true) (tidy : Tidy s)
    (hc : ∀ e ∈ s.lnk.links, e.2.captured = [] ∧ ∀ x ∈ e.2.rx, x.afterCut = false ∧ x.kind ≠ 2)
    (hreads : ∀ ch, (s.chan ch).cutRead = false) :
    let d := u.toNat - s.dbg.cut.toNat
    ∃ v, exec .thawResume s = .next v ∧ v.dbg.frozen = false ∧ v.dbg.thawAt = none ∧ v.dbg.multi = false ∧
      v.clk = { s.clk with runStart := later s.clk.runStart d } ∧ (∀ q, BedIs (v.bed q) (s.bed q)) ∧ v.plots = s.plots ∧
      (s.dbg.multi = false → v.lnk = s.lnk) ∧
      (s.dbg.multi = true → ∀ e ∈ s.lnk.links, v.link e.1 = e.2.shift d) ∧
      ∀ p ∈ s.sownPlots, (s.runRec p).isOpen = true → (v.runRec p).frozen = true := by
  intro d
  have hex := exec_thawResume hu hf ht hh hl
  obtain ⟨k, hlinks, halone, hmulti⟩ := State.resumeLinks_eq (s := s.awake u) tidy.links hc s.dbg.multi d
  obtain ⟨w, hunits⟩ := ((s.awake u).resumeLinks s.dbg.multi d).shiftUnits_eq s.dbg.cut.toNat u.toNat
  rw [hlinks] at hex hunits
  generalize State.shiftUnits _ s.dbg.cut.toNat u.toNat = x at hex hunits
  have hnoted := x.frostEvents_aside s.dbg.cut.toNat u.toNat
  have hnone : ∀ e ∈ (x.frostEvents s.dbg.cut.toNat u.toNat).brw.chans, e.2.cutRead = false := by
    rw [hnoted.brw, hunits]
    intro e he
    rw [← tget_of_mem (fun _ => {}) tidy.chans he]
    exact hreads e.1
  obtain ⟨h, hdoor⟩ := (x.frostEvents s.dbg.cut.toNat u.toNat).setDoor_frame 9
  rw [State.resumeReads_of_none hnone, hdoor] at hex
  have hdbg : x.dbg = (s.awake u).dbg := by rw [hunits]; rfl
  have hnotedDbg := hnoted.dbg
  rw [hdbg] at hnotedDbg
  refine ⟨_, hex, ?_, ?_, ?_, ?clock, fun q => ?beds, ?plots, fun hm => ?lone, fun hm e he => ?links, fun p hp ho => ?recs⟩
  case clock => exact hnoted.clk.trans (by rw [hunits]; rfl)
  case plots => exact hnoted.plots.trans (by rw [hunits]; rfl)
  case lone => exact hnoted.lnk.trans (by rw [hunits]; exact halone hm)
  case links =>
    refine (congrArg (fun k : Lnk => tget (fun _ => {}) k.links e.1) hnoted.lnk).trans ?_
    rw [hunits]
    exact hmulti hm e he
  case beds =>
    have hbed : x.bed q = (refenced s.dbg.cut.toNat u.toNat (q, s.bed q)).getD (s.bed q) := by
      rw [hunits]
      exact tget_updateAll (fun _ => {}) (refenced s.dbg.cut.toNat u.toNat) tidy.beds q rfl
    change BedIs ((x.frostEvents s.dbg.cut.toNat u.toNat).bed q) (s.bed q)
    rw [State.bed_congr hnoted.beds, hbed]
    exact refenced_bedIs _ _ _ _
  case recs =>
    change ((x.frostEvents s.dbg.cut.toNat u.toNat).runRec p).frozen = true
    rw [x.frostEvents_eq]
    refine State.foldl_noteFrost_frozen s.dbg.cut.toNat u.toNat ?_ (.inl ?_)
    · rw [hunits]; exact ho
    · rw [hunits]; exact hp
  all_goals exact (congrArg _ hnotedDbg).trans rfl

/-- Settles O42: orders by their refusals in turn, a cut by what it marks, and a thaw by the units that go on. -/
theorem frostsHoldEverythingAndThawsGoOn : Obligations.FrostsHoldEverythingAndThawsGoOn := by
  unfold Obligations.FrostsHoldEverythingAndThawsGoOn
  refine ⟨⟨fun s => exec_holdBegin_of_frost, fun s src h => ⟨fun hno => ?frostState, fun hr hf hn hh =>
      ⟨fun hm hs => ?frostSlipped, fun hm ht => ?frostEarly, fun hm ht => ?frost⟩⟩, fun s f hf ht hr hl => ?cut⟩,
    fun s src h => ⟨fun hno => ?thawState, fun hf hc hn => ⟨fun hm hs => ?thawSlipped, fun hm hs ht => ?thawLate,
      fun hm ht => ?thawEarly, fun hm hfirst ht => ?thawTick, fun hm hfirst hcut hmul => ?thaw⟩⟩,
    fun s u hu hf ht hh hl tidy hc hreads => exec_thawResume_effect hu hf ht hh hl tidy hc hreads⟩
  case frostState => exact State.refuses h (by decide) (exec_frost_of_state h hno)
  case frostSlipped => exact State.refuses h (by decide) (exec_frost_of_slipped h hr hf hn hh hm hs)
  case frostEarly => exact State.refuses h (by decide) (exec_frost_of_early h hr hf hn hh hm ht)
  case frost =>
    obtain ⟨hdbg, hdone, hbeds, hplots, hclk, hlnk⟩ := State.accept_effect (State.asked_of_service h)
      { s.dbg with frostAt := some (BitVec.ofNat 64 (s.frostTick src), s.frostMulti src) } (s.frostMulti src) 4
        (leBytes 8 (s.frostTick src))
    exact ⟨_, exec_frost_accepted h hr hf hn hh hm ht, hdbg, hdone, hbeds, hplots, hclk, hlnk⟩
  case cut =>
    obtain ⟨u, hex, hrun, hfrozen, hat, hmulti, hcut, hcons, hclk, hbeds, hplots, hrecs, heng, hddr, hlnk, hchan, hdoor⟩ :=
      exec_frostCut_effect hf ht hr hl
    refine ⟨u, hex, hrun, hfrozen, hat, hmulti, hcut, hcons, hclk, hbeds, hplots, hrecs, heng, hddr, hlnk,
      fun tidy ch => ⟨fun x hx hb hs he => ?_, fun hb => ?_, fun x hx hno => ?_⟩, hdoor⟩
    all_goals rw [hchan tidy.chans ch]
    · rw [State.marked_read hx hb hs he, Option.getD_some]
    · rw [State.marked_idle hb, Option.getD_none]
    · rw [State.marked_other hx hno, Option.getD_none]
  case thawState => exact State.refuses h (by decide) (exec_thaw_of_state h hno)
  case thawSlipped => exact State.refuses h (by decide) (exec_thaw_of_slipped h hf hc hn hm hs)
  case thawLate => exact State.refuses h (by decide) (exec_thaw_of_late_order h hf hc hn hm hs ht)
  case thawEarly => exact State.refuses h (by decide) (exec_thaw_of_tick h hf hc hn (.inl hm) (.inl ht))
  case thawTick =>
    exact State.refuses h (by decide) (exec_thaw_of_tick h hf hc hn (hm.imp_right fun hs => ⟨hs, hfirst⟩) (.inr ht))
  case thaw =>
    obtain ⟨hdbg, hdone, hbeds, hplots, -, hlnk⟩ := State.accept_effect (State.asked_of_service h)
      { s.dbg with thawAt := some (BitVec.ofNat 64 (s.thawTick src)), thaw := BitVec.ofNat 64 (s.thawTick src) } s.dbg.multi 5
        (leBytes 8 (s.thawTick src))
    exact ⟨_, exec_thaw_accepted h hf hc hn hm hfirst hcut hmul, hdbg, hdone, hbeds, hplots, hlnk⟩

end Sys2Proof.Machine
end

section
/-! PROOFS. Instruction words (R197, R200, R230): what a field of a concatenation reads, and with it decode of encode. -/

namespace Sys2Proof.Machine

/-! ## Fields of concatenations -/

theorem getLsbD_append_low {m n : Nat} (x : BitVec m) (y : BitVec n) {i : Nat} (h : i < n) :
    (x ++ y).getLsbD i = y.getLsbD i := by
  rw [BitVec.getLsbD_append, if_pos h]

theorem getLsbD_append_high {m n : Nat} (x : BitVec m) (y : BitVec n) {i : Nat} (h : n ≤ i) :
    (x ++ y).getLsbD i = x.getLsbD (i - n) := by
  rw [BitVec.getLsbD_append, if_neg (Nat.not_lt.mpr h)]

theorem getLsbD_setWidth_low {m n : Nat} (x : BitVec m) {i : Nat} (h : i < n) :
    (x.setWidth n).getLsbD i = x.getLsbD i := by
  rw [BitVec.getLsbD_setWidth, decide_eq_true h, Bool.true_and]

theorem getLsbD_zero_ofBool (b : Bool) : (BitVec.ofBool b).getLsbD 0 = b := by cases b <;> rfl

/-! ## The common fields -/

theorem opcode_headBits (h : Head) (op : BitVec 8) : ((headBits h op).setWidth 128).extractLsb' 0 8 = op := by
  simp (disch := decide) only [headBits, BitVec.extractLsb'_setWidth_of_le, BitVec.extractLsb'_append_eq_of_add_le,
    BitVec.extractLsb'_eq_self, -Nat.reduceAdd]

theorem opcode_append {k : Nat} (x : BitVec k) (h : Head) (op : BitVec 8) :
    ((x ++ headBits h op).setWidth 128).extractLsb' 0 8 = op := by
  simp (disch := decide) only [headBits, BitVec.extractLsb'_setWidth_of_le, BitVec.extractLsb'_append_eq_of_add_le,
    BitVec.extractLsb'_eq_self, -Nat.reduceAdd]

theorem headOf_headBits (h : Head) (op : BitVec 8) : headOf ((headBits h op).setWidth 128) = h := by
  simp (disch := decide) only [headOf, headBits, BitVec.extractLsb'_setWidth_of_le,
    BitVec.extractLsb'_append_eq_of_add_le, BitVec.extractLsb'_append_eq_of_le, BitVec.extractLsb'_eq_self,
    getLsbD_setWidth_low, getLsbD_append_low, getLsbD_append_high, getLsbD_zero_ofBool, Nat.reduceSub, -Nat.reduceAdd]

theorem headOf_append {k : Nat} (x : BitVec k) (h : Head) (op : BitVec 8) :
    headOf ((x ++ headBits h op).setWidth 128) = h := by
  simp (disch := decide) only [headOf, headBits, BitVec.extractLsb'_setWidth_of_le,
    BitVec.extractLsb'_append_eq_of_add_le, BitVec.extractLsb'_append_eq_of_le, BitVec.extractLsb'_eq_self,
    getLsbD_setWidth_low, getLsbD_append_low, getLsbD_append_high, getLsbD_zero_ofBool, Nat.reduceSub, -Nat.reduceAdd]

/-! ## Encoding and decoding -/

theorem encodeIns_of_bedHead {i : Instr} {b : BitVec 7} {h : Head} (hb : bedHead i = some (b, h)) :
    ∃ w, encodeIns i = some w := by
  cases i
  all_goals
    cases hb
    all_goals exact ⟨_, rfl⟩

theorem bedHead_of_encodeIns {i : Instr} {w : BitVec 128} (hw : encodeIns i = some w) :
    ∃ b h, bedHead i = some (b, h) := by
  cases i
  all_goals
    cases hw
    all_goals exact ⟨_, _, rfl⟩

/-- Each instruction's own word: the opcode selects its line of the table, and every field lies where the line reads it. -/
theorem fieldsOf_encodeIns {i : Instr} {b : BitVec 7} {h : Head} {w : BitVec 128} (hb : bedHead i = some (b, h))
    (hw : encodeIns i = some w) : fieldsOf b w = some i ∧ headOf w = h := by
  cases i
  case nop | endList | tflip =>
    cases hb
    cases hw
    unfold fieldsOf
    rw [opcode_headBits, headOf_headBits]
    exact ⟨rfl, rfl⟩
  all_goals
    cases hb
    all_goals
      cases hw
      unfold fieldsOf
      rw [opcode_append, headOf_append]
      refine ⟨congrArg some ?_, rfl⟩
      simp (disch := decide) only [BitVec.extractLsb'_setWidth_of_le, BitVec.extractLsb'_append_eq_of_add_le,
        BitVec.extractLsb'_append_eq_of_le, BitVec.extractLsb'_eq_self, getLsbD_setWidth_low, getLsbD_append_low,
        getLsbD_append_high, getLsbD_zero_ofBool, Nat.reduceSub, -Nat.reduceAdd]

theorem fieldsOf_bedHead {i : Instr} {b c : BitVec 7} {w : BitVec 128} {h : Head} (hi : fieldsOf b w = some i)
    (hb : bedHead i = some (c, h)) : c = b := by
  unfold fieldsOf at hi
  split at hi
  all_goals
    cases hi
    all_goals
      cases hb
      rfl

theorem decodeIns_eq_some_iff {b : BitVec 7} {w : BitVec 128} {i : Instr} :
    decodeIns b w = some i ↔ fieldsOf b w = some i ∧ encodeIns i = some w := by
  unfold decodeIns
  constructor
  · intro h
    split at h
    · split at h
      · cases h
        exact ⟨‹_›, ‹_›⟩
      · cases h
    · cases h
  · rintro ⟨hf, he⟩
    rw [hf]
    exact if_pos he

/-- Settles O57: a word's fields are what the encoder put there, and decoding accepts an instruction's own word only. -/
theorem everyInstructionWordRoundTrips : Obligations.EveryInstructionWordRoundTrips := by
  unfold Obligations.EveryInstructionWordRoundTrips
  refine ⟨fun i b h hb => ?_, fun b w i hd => ?_⟩
  · obtain ⟨w, hw⟩ := encodeIns_of_bedHead hb
    obtain ⟨hf, hh⟩ := fieldsOf_encodeIns hb hw
    exact ⟨w, hw, decodeIns_eq_some_iff.mpr ⟨hf, hw⟩, hh⟩
  · obtain ⟨hf, hw⟩ := decodeIns_eq_some_iff.mp hd
    obtain ⟨c, h, hb⟩ := bedHead_of_encodeIns hw
    exact ⟨hw, h, fieldsOf_bedHead hf hb ▸ hb⟩

end Sys2Proof.Machine
end

section
/-! PROOFS. What every operation of the state keeps: the queue, the rising keys of the tables, and, but for the few that
cut, thaw or reset, the frost in force (R403). One lemma an operation, each by the operations that it is made of. -/

namespace Sys2Proof.Machine

/-- What a conservation freeze is told by (R403). -/
def Dbg.ice (d : Dbg) : Bool × Bool × Bool × Option W64 := (d.conservation, d.frozen, d.multi, d.thawAt)

/-- An operation leads from one state to another with the same queue, with tables that stay tidy and, where k says so, with
the same frost in force and the same sundial. -/
structure Keeps (k : Bool × Bool) (s t : State) : Prop where
  pending : t.pending = s.pending
  ice : k.1 = true → t.dbg.ice = s.dbg.ice
  sundial : k.2 = true → t.clk.sundial = s.clk.sundial
  tidy : Tidy s → Tidy t

/-- The same of a command that answers a next state. -/
def Answers (k : Bool × Bool) (s : State) (o : Host.Outcome State Fault Refusal) : Prop := ∃ t, o = .next t ∧ Keeps k s t

variable {φ : Bool × Bool} {s₀ s t : State}

theorem Keeps.refl : Keeps φ s s := ⟨rfl, fun _ => rfl, fun _ => rfl, id⟩

theorem Keeps.trans (h : Keeps φ s₀ s) (g : Keeps φ s t) : Keeps φ s₀ t :=
  ⟨g.pending.trans h.pending, fun hk => (g.ice hk).trans (h.ice hk),
    fun hk => (g.sundial hk).trans (h.sundial hk), fun hr => g.tidy (h.tidy hr)⟩

theorem Keeps.of_rest (h : Keeps φ s t) : Keeps (φ.1, false) s t := ⟨h.pending, h.ice, nofun, h.tidy⟩

/-- The parts of a state that an update may leave as they are. -/
def State.kept (s : State) : List Instr × (Bool × Bool × Bool × Option W64) × W64 × Tbl Bed × Tbl Plot × Tbl Chan ×
    Tbl Link × Tbl Flt × Tbl W64 :=
  (s.pending, s.dbg.ice, s.clk.sundial, s.beds, s.plots, s.brw.chans, s.lnk.links, s.grd.flt, s.regs)

/-- An update of other parts of the state. -/
theorem Keeps.upd (hs : Keeps φ s₀ s) (h : t.kept = s.kept) : Keeps φ s₀ t := by
  simp only [State.kept, Prod.mk.injEq] at h
  obtain ⟨hp, hi, hk, hb, hx, hc, hl, hf, hr⟩ := h
  refine ⟨hp.trans hs.pending, fun h => hi.trans (hs.ice h), fun h => hk.trans (hs.sundial h), fun ht => ?_⟩
  obtain ⟨b, x, c, l, f, g⟩ := hs.tidy ht
  exact ⟨hb ▸ b, hx ▸ x, hc ▸ c, hl ▸ l, hf ▸ f, hr ▸ g⟩

/-- An update that may change the frost in force. -/
theorem Keeps.updDbg {d : Dbg} (h : Keeps (false, false) s₀ s) : Keeps (false, false) s₀ { s with dbg := d } :=
  ⟨h.pending, nofun, nofun, fun ht => by
    obtain ⟨b, x, c, l, f, g⟩ := h.tidy ht
    exact ⟨b, x, c, l, f, g⟩⟩

theorem Keeps.ite {c : Prop} [Decidable c] (h : Keeps φ s₀ s) (g : Keeps φ s₀ t) : Keeps φ s₀ (if c then s else t) := by
  split
  · exact h
  · exact g

theorem Keeps.foldl {α : Type} {f : State → α → State} {xs : List α}
    (hf : ∀ t x, Keeps φ s₀ t → Keeps φ s₀ (f t x)) (h : Keeps φ s₀ s) : Keeps φ s₀ (xs.foldl f s) := by
  induction xs generalizing s with
  | nil => exact h
  | cons x xs ih => exact ih (hf s x h)

/-- The same of a start-up step, whether start-up goes on or halts. -/
inductive KeepsEither (k : Bool × Bool) (s : State) : Except State State → Prop
  | ok {t : State} : Keeps k s t → KeepsEither k s (.ok t)
  | error {t : State} : Keeps k s t → KeepsEither k s (.error t)

theorem KeepsEither.ite {c : Prop} [Decidable c] {e f : Except State State} (h : KeepsEither φ s₀ e) (g : KeepsEither φ s₀ f) :
    KeepsEither φ s₀ (if c then e else f) := by
  split
  · exact h
  · exact g

theorem Answers.next (h : Keeps φ s₀ s) : Answers φ s₀ (.next s) := ⟨s, rfl, h⟩

theorem Answers.ite {c : Prop} [Decidable c] {o p : Host.Outcome State Fault Refusal} (h : Answers φ s₀ o) (g : Answers φ s₀ p) :
    Answers φ s₀ (if c then o else p) := by
  split
  · exact h
  · exact g

/-! ## The tables' own updates -/

theorem rising_iff {α : Type} {t : Tbl α} : Rising t ↔ t.Pairwise fun a b => a.1 < b.1 := List.pairwise_map

/-- Setting a key keeps keys rising. -/
theorem rising_tset {α : Type} [DecidableEq α] {d : Nat → α} {t : Tbl α} {k : Nat} {v : α} (h : Rising t) :
    Rising (tset d t k v) := by
  have hd := tdel_pairwise t k (rising_iff.mp h)
  rw [rising_iff]
  unfold Machine.tset
  split
  · exact hd
  · exact tput_pairwise _ k v hd (tdel_ne t k)

theorem rising_map {α β : Type} {t : Tbl α} {f : Nat × α → β} (h : Rising t) : Rising (t.map fun e => (e.1, f e)) := by
  simpa [Rising, List.map_map, Function.comp_def] using h

theorem rising_filter {α : Type} {t : Tbl α} {p : Nat × α → Bool} (h : Rising t) : Rising (t.filter p) :=
  h.sublist ((List.filter_sublist (p := p)).map _)

theorem rising_range {α : Type} {n : Nat} {f : Nat → α} : Rising ((List.range n).map fun k => (k, f k)) := by
  simpa [Rising, List.map_map, Function.comp_def] using List.pairwise_lt_range

theorem Keeps.setBed {p : Nat} {b : Bed} (h : Keeps φ s₀ s) : Keeps φ s₀ (s.setBed p b) :=
  ⟨h.pending, h.ice, h.sundial, fun ht => { h.tidy ht with beds := rising_tset (d := fun _ => ({} : Bed)) (h.tidy ht).beds }⟩

theorem Keeps.setPlot {p : Nat} {x : Plot} (h : Keeps φ s₀ s) : Keeps φ s₀ (s.setPlot p x) :=
  ⟨h.pending, h.ice, h.sundial, fun ht => { h.tidy ht with plots := rising_tset (d := fun _ => ({} : Plot)) (h.tidy ht).plots }⟩

theorem Keeps.setChan {c : Nat} {x : Chan} (h : Keeps φ s₀ s) : Keeps φ s₀ (s.setChan c x) :=
  ⟨h.pending, h.ice, h.sundial, fun ht => { h.tidy ht with chans := rising_tset (d := fun _ => ({} : Chan)) (h.tidy ht).chans }⟩

theorem Keeps.setLink {l : Nat} {x : Link} (h : Keeps φ s₀ s) : Keeps φ s₀ (s.setLink l x) :=
  ⟨h.pending, h.ice, h.sundial, fun ht => { h.tidy ht with links := rising_tset (d := fun _ => ({} : Link)) (h.tidy ht).links }⟩

theorem Keeps.setReg {off : Nat} {v : W64} (h : Keeps φ s₀ s) : Keeps φ s₀ (s.setReg off v) :=
  ⟨h.pending, h.ice, h.sundial, fun ht => { h.tidy ht with regs := rising_tset (h.tidy ht).regs }⟩

/-- A fault entry set, and the collector's own counts with it. -/
theorem Keeps.setFlt {e n o d : Nat} {x : Flt} (h : Keeps φ s₀ s) : Keeps φ s₀
    { s with grd := { s.grd with flt := tset (fun _ => {}) s.grd.flt e x, fltNext := n, fltOrder := o, fltDropped := d } } :=
  ⟨h.pending, h.ice, h.sundial, fun ht => { h.tidy ht with flt := rising_tset (d := fun _ => ({} : Flt)) (h.tidy ht).flt }⟩

theorem Keeps.draw {w : Nat} (h : Keeps φ s₀ s) : Keeps φ s₀ (s.draw w).2 := .upd h rfl

/-- The TAP's own identification register. -/
theorem Keeps.idReg {v : BitVec 32} (h : Keeps φ s₀ s) : Keeps φ s₀ { s with dbg := { s.dbg with idReg := v } } :=
  ⟨h.pending, h.ice, h.sundial, fun ht => { h.tidy ht with }⟩

/-- An update of the links' own state but for the links. -/
theorem Keeps.slip (h : Keeps φ s₀ s) : Keeps φ s₀ { s with lnk := { s.lnk with slipped := true } } := .upd h rfl

theorem Keeps.setSec {x : Sec} (h : Keeps φ s₀ s) : Keeps φ s₀ { s with sec := x } := .upd h rfl

theorem Keeps.setClk {c : Clk} {x : Pins} (h : Keeps φ s₀ s) (hc : c.sundial = s.clk.sundial) :
    Keeps φ s₀ { s with clk := c, pins := x } :=
  ⟨h.pending, h.ice, fun hk => hc.trans (h.sundial hk), fun ht => { h.tidy ht with }⟩

/-- A sundial set. -/
theorem Keeps.setSundial {i : Bool} {n : W64} (h : Keeps (i, false) s₀ s) :
    Keeps (i, false) s₀ { s with clk := { s.clk with sundial := n } } :=
  ⟨h.pending, h.ice, nofun, fun ht => { h.tidy ht with }⟩

/-- A sundial set back. -/
theorem Keeps.backSundial (h : Keeps (φ.1, false) s₀ t) (hs : Keeps φ s₀ s) :
    Keeps φ s₀ { t with clk := { t.clk with sundial := s.clk.sundial } } :=
  ⟨h.pending, h.ice, hs.sundial, fun ht => { h.tidy ht with }⟩

theorem Keeps.setDbg {d : Dbg} {x : Pins} (h : Keeps (false, false) s₀ s) :
    Keeps (false, false) s₀ { s with dbg := d, pins := x } :=
  ⟨h.pending, nofun, nofun, fun ht => { h.tidy ht with }⟩

theorem Keeps.setPins {x : Pins} (h : Keeps φ s₀ s) : Keeps φ s₀ { s with pins := x } := .upd h rfl

theorem Keeps.setLnk {x : Lnk} (h : Keeps φ s₀ s) (hl : x.links = s.lnk.links) : Keeps φ s₀ { s with lnk := x } :=
  ⟨h.pending, h.ice, h.sundial, fun ht => { h.tidy ht with links := hl ▸ (h.tidy ht).links }⟩

end Sys2Proof.Machine
end

section
/-! PROOFS. What each operation of these parts of the model keeps: operations of the state, module memory, the A-clock and the runner network. -/

namespace Sys2Proof.Machine

variable {φ : Bool × Bool} {i : Bool} {s₀ s t : State}

/-! ## Operations of the state -/

theorem Keeps.setRunRec {p : Nat} {x : Rec} (hs : Keeps φ s₀ s) : Keeps φ s₀ (s.setRunRec p x) := by
  unfold State.setRunRec
  exact .upd hs rfl

theorem Keeps.setRing {r : Nat} {x : Ring} (hs : Keeps φ s₀ s) : Keeps φ s₀ (s.setRing r x) := by
  unfold State.setRing
  extract_lets _
  exact .upd hs rfl

theorem Keeps.setEngine {h : Nat} {x : Engine} (hs : Keeps φ s₀ s) : Keeps φ s₀ (s.setEngine h x) := by
  unfold State.setEngine
  extract_lets _
  exact .upd hs rfl

theorem Keeps.setCtl {c : Nat} {x : Ctl} (hs : Keeps φ s₀ s) : Keeps φ s₀ (s.setCtl c x) := by
  unfold State.setCtl
  extract_lets _
  exact .upd hs rfl

theorem Keeps.setWalker {w : Nat} {x : Walker} (hs : Keeps φ s₀ s) : Keeps φ s₀ (s.setWalker w x) := by
  unfold State.setWalker
  extract_lets _
  exact .upd hs rfl

theorem Keeps.setFld {off lo n v : Nat} (hs : Keeps φ s₀ s) : Keeps φ s₀ (s.setFld off lo n v) := by
  unfold State.setFld
  exact .setReg hs

theorem Keeps.bump {off lo n k : Nat} (hs : Keeps φ s₀ s) : Keeps φ s₀ (s.bump off lo n k) := by
  unfold State.bump
  exact .setReg hs

theorem Keeps.mapBeds {p : Nat} {f : Bed → Bed} (hs : Keeps φ s₀ s) : Keeps φ s₀ (s.mapBeds p f) := by
  unfold State.mapBeds
  exact .foldl (fun _ _ h1 => .setBed h1) hs

theorem Keeps.sendVector {v : Nat} (hs : Keeps φ s₀ s) : Keeps φ s₀ (s.sendVector v) := by
  unfold State.sendVector
  extract_lets _
  exact .ite (.upd hs rfl) (.upd hs rfl)

theorem Keeps.setDoor {b : Nat} (hs : Keeps φ s₀ s) : Keeps φ s₀ (s.setDoor b) := by
  unfold State.setDoor
  extract_lets _ s1
  have h1 : Keeps φ s₀ s1 := .upd hs rfl
  exact .ite hs (.ite h1 (.sendVector h1))

theorem Keeps.report {unit reporter cause detail : Nat}
    (hs : Keeps φ s₀ s) : Keeps φ s₀ (s.report unit reporter cause detail) := by
  unfold State.report
  extract_lets _ _
  split
  · extract_lets _
    exact .setFlt hs
  · split
    · exact .upd hs rfl
    · extract_lets s1
      have h1 : Keeps φ s₀ s1 := .setFlt hs
      exact .setDoor h1

theorem Keeps.event {p kind bed index exec : Nat} {payload : List Byte}
    (hs : Keeps φ s₀ s) : Keeps φ s₀ (s.event p kind bed index exec payload) := by
  unfold State.event
  extract_lets _ _
  exact .ite hs (.ite (.setRunRec hs) (.setRunRec hs))

theorem Keeps.eventAt {tick : W64} {p kind bed index exec : Nat} {payload : List Byte}
    (hs : Keeps φ s₀ s) : Keeps φ s₀ (s.eventAt tick p kind bed index exec payload) := by
  unfold State.eventAt
  exact .backSundial (.event (.setSundial hs.of_rest)) hs

theorem Keeps.endEpisode {p : Nat} (hs : Keeps φ s₀ s) : Keeps φ s₀ (s.endEpisode p) := by
  unfold State.endEpisode
  extract_lets _
  split
  · exact hs
  · exact .setPlot (.eventAt hs)

theorem Keeps.complete {src : Src} {status code result : Nat}
    (hs : Keeps φ s₀ s) : Keeps φ s₀ (s.complete src status code result) := by
  unfold State.complete
  extract_lets _ _ _ _ _ s1 _
  have h1 : Keeps φ s₀ s1 := .upd hs rfl
  exact .ite (.upd hs rfl) (.ite (.setRing h1) h1)

theorem Keeps.await {svc unit : Nat} {src : Src} {arg : Nat}
    (hs : Keeps φ s₀ s) : Keeps φ s₀ (s.await svc unit src arg) := by
  unfold State.await
  extract_lets _
  exact .upd hs rfl

theorem Keeps.answer {svc unit status code result : Nat}
    (hs : Keeps φ s₀ s) : Keeps φ s₀ (s.answer svc unit status code result) := by
  unfold State.answer
  exact .foldl (fun _ _ h1 => .complete h1) hs

theorem Keeps.serve {src : Src} {code value : Nat} (hs : Keeps φ s₀ s) : Keeps φ s₀ (s.serve src code value) := by
  unfold State.serve
  exact .ite (.complete hs) (.complete hs)

theorem Keeps.sendControl {l code : Nat} {payload : List Byte}
    (hs : Keeps φ s₀ s) : Keeps φ s₀ (s.sendControl l code payload) := by
  unfold State.sendControl
  extract_lets _
  exact .setLink hs

theorem Keeps.flood {but : Option Nat} {code : Nat} {payload : List Byte}
    (hs : Keeps φ s₀ s) : Keeps φ s₀ (s.flood but code payload) := by
  unfold State.flood
  exact .foldl (fun _ _ h1 => .sendControl h1) hs

theorem Keeps.mismatch {kind : Nat} {r : List Byte} (hs : Keeps φ s₀ s) : Keeps φ s₀ (s.mismatch kind r) := by
  unfold State.mismatch
  extract_lets _ _ _ _ s1 s2 s3 _ _
  have h1 : Keeps φ s₀ s1 := .ite hs (.setReg hs)
  have h2 : Keeps φ s₀ s2 := .report h1
  have h3 : Keeps φ s₀ s3 := .setDoor h2
  exact .ite (.flood (.upd h3 rfl)) h3

theorem Keeps.settle (hs : Keeps φ s₀ s) : Keeps φ s₀ (s.settle) := by
  unfold State.settle
  extract_lets _ _ _
  split
  · exact .ite hs (.mismatch (.upd hs rfl))
  · extract_lets _ s1
    have h1 : Keeps φ s₀ s1 := .upd hs rfl
    exact .ite h1 (.mismatch h1)

theorem Keeps.compare {kind bed index exec sow value : Nat}
    (hs : Keeps φ s₀ s) : Keeps φ s₀ (s.compare kind bed index exec sow value) := by
  unfold State.compare
  extract_lets _ _ _
  exact .ite (.settle (.upd hs rfl)) hs

theorem Keeps.boundary (hs : Keeps φ s₀ s) : Keeps φ s₀ (s.boundary) := by
  unfold State.boundary
  extract_lets _ _
  exact .ite (.upd hs rfl) hs

theorem Keeps.closeRec {p outcome code : Nat} (hs : Keeps φ s₀ s) : Keeps φ s₀ (s.closeRec p outcome code) := by
  unfold State.closeRec
  extract_lets s1 s2 s3 _
  have h1 : Keeps φ s₀ s1 := .endEpisode hs
  have h2 : Keeps φ s₀ s2 := .foldl (fun _ _ h2 => by
      extract_lets _
      exact .event h2) h1
  have h3 : Keeps φ s₀ s3 := .foldl (fun _ _ h3 => .foldl (fun _ _ h4 => .event h4) h3) h2
  exact .setRunRec h3

theorem Keeps.dropTransfers {p : Nat} (hs : Keeps φ s₀ s) : Keeps φ s₀ (s.dropTransfers p) := by
  unfold State.dropTransfers
  extract_lets _ _ s1 _
  have h1 : Keeps φ s₀ s1 := .foldl (fun _ _ h1 => by
      extract_lets _
      exact .ite (.setChan h1) h1) hs
  exact .ite h1 (.foldl (fun _ _ h2 => by
      extract_lets _
      exact .setEngine h2) h1)

theorem Keeps.unask {p : Nat} (hs : Keeps φ s₀ s) : Keeps φ s₀ (s.unask p) := by
  unfold State.unask
  extract_lets _
  exact .upd hs rfl

theorem Keeps.stopPlot {p code : Nat} {at_ : Option (Nat × Nat × Nat × Nat)}
    (hs : Keeps φ s₀ s) : Keeps φ s₀ (s.stopPlot p code at_) := by
  unfold State.stopPlot
  extract_lets _ _ s1 _ _ _ _ s2 s3 s4 s5 _ s6 _ s7 _ s8
  have h1 : Keeps φ s₀ s1 := by
    unfold s1
    split
    · exact .setBed hs
    · exact .mapBeds hs
  have h2 : Keeps φ s₀ s2 := .ite (.event h1) h1
  have h3 : Keeps φ s₀ s3 := .mapBeds h2
  have h4 : Keeps φ s₀ s4 := .ite (.closeRec h3) h3
  have h5 : Keeps φ s₀ s5 := .dropTransfers h4
  have h6 : Keeps φ s₀ s6 := .setPlot h5
  have h7 : Keeps φ s₀ s7 := .ite (.compare h6) h6
  have h8 : Keeps φ s₀ s8 := by
    unfold s8
    split
    · exact .setPlot (.unask (.complete h7))
    · exact h7
  exact .ite (.boundary h8) hs

theorem Keeps.stopSown {code : Nat} (hs : Keeps φ s₀ s) : Keeps φ s₀ (s.stopSown code) := by
  unfold State.stopSown
  exact .foldl (fun _ _ h1 => .stopPlot h1) hs

theorem Keeps.leaveService (hs : Keeps φ s₀ s) : Keeps φ s₀ (s.leaveService) := by
  unfold State.leaveService
  extract_lets s1 _
  have h1 : Keeps φ s₀ s1 := .setFld (.setFld hs)
  exact .upd h1 rfl

theorem Keeps.recover {cause : Nat} (hs : Keeps φ s₀ s) : Keeps φ s₀ (s.recover cause) := by
  unfold State.recover
  extract_lets s1 _
  have h1 : Keeps φ s₀ s1 := .leaveService hs
  exact .upd h1 rfl

theorem Keeps.askFence {p : Nat} {remap : Bool} (hs : Keeps φ s₀ s) : Keeps φ s₀ (s.askFence p remap) := by
  unfold State.askFence
  extract_lets _
  exact .ite hs (.setBed hs)

theorem Keeps.watchEcc {p : Nat} (hs : Keeps φ s₀ s) : Keeps φ s₀ (s.watchEcc p) := by
  unfold State.watchEcc
  exact .ite (.askFence hs) hs

theorem Keeps.landBytes {counted : Bool} {bed addr : Nat} {bytes : List Byte} {at_ : Nat}
    (hs : Keeps φ s₀ s) : Keeps φ s₀ (s.landBytes counted bed addr bytes at_) := by
  unfold State.landBytes
  extract_lets _ _ _ s1
  have h1 : Keeps φ s₀ s1 := .setBed hs
  exact .ite hs (.watchEcc (.foldl (fun _ _ h2 => by
      split
      · exact .report h2
      · exact h2) h1))

theorem Keeps.landWords {counted : Bool} {bed addr : Nat} {bytes : List Byte}
    (hs : Keeps φ s₀ s) : Keeps φ s₀ (s.landWords counted bed addr bytes) := by
  unfold State.landWords
  exact .landBytes hs

theorem Keeps.landWord {w : Word} (hs : Keeps φ s₀ s) : Keeps φ s₀ (s.landWord w) := by
  unfold State.landWord
  extract_lets _ s1 s2
  have h1 : Keeps φ s₀ s1 := .ite hs (.bump hs)
  have h2 : Keeps φ s₀ s2 := .ite h1 (.setReg h1)
  exact .ite (.report h2) (.ite h1 (.landBytes h1))

theorem Keeps.landDue {p : Nat} {bed : Option Nat} {t : Nat}
    (hs : Keeps φ s₀ s) : Keeps φ s₀ (s.landDue p bed t) := by
  unfold State.landDue
  extract_lets _ _ _ s1
  have h1 : Keeps φ s₀ s1 := .foldl (fun _ _ h1 => .landWord h1) (.setPlot hs)
  exact .ite hs (.ite (.stopPlot h1) h1)

theorem Keeps.trace {bytes : List Byte} (hs : Keeps φ s₀ s) : Keeps φ s₀ (s.trace bytes) := by
  unfold State.trace
  extract_lets _ _ _ _ s1
  have h1 : Keeps φ s₀ s1 := .upd hs rfl
  exact .ite (.setReg hs) (.ite (.setReg h1) (.ite (.setReg h1) (.setReg h1)))

theorem Keeps.landed {p : Nat} (hs : Keeps φ s₀ s) : Keeps φ s₀ (s.landed p) := by
  unfold State.landed
  extract_lets _
  split
  · exact .ite (.landDue hs) hs
  · exact hs

theorem Keeps.traceIssue {c : Ctx} (hs : Keeps φ s₀ s) : Keeps φ s₀ (s.traceIssue c) := by
  unfold State.traceIssue
  extract_lets _
  exact .ite (.trace hs) hs

theorem Keeps.issueBoth {b : BitVec 7} {h : Head} {i : Instr} {opens : Option
    (Nat × Nat)} {f : Bool → Ctx → State → State}
    (hf : ∀ a0 a1 t, Keeps φ s₀ t → Keeps φ s₀ (f a0 a1 t)) (hs : Keeps φ s₀ s) :
    Keeps φ s₀ (s.issueBoth b h i opens f) := by
  unfold State.issueBoth
  split
  · exact hs
  · extract_lets s1 _ _ _ s2 s3
    have h1 : Keeps φ s₀ s1 := .landed hs
    have h2 : Keeps φ s₀ s2 := .setBed h1
    have h3 : Keeps φ s₀ s3 := .ite (.event h2) h2
    exact .ite (.ite (hf _ _ _ (.traceIssue h3)) (hf _ _ _ h2)) h1

theorem Keeps.issueWith {b : BitVec 7} {h : Head} {i : Instr} {opens : Option (Nat × Nat)} {f : Ctx → State → State}
    (hf : ∀ a0 t, Keeps φ s₀ t → Keeps φ s₀ (f a0 t)) (hs : Keeps φ s₀ s) :
    Keeps φ s₀ (s.issueWith b h i opens f) := by
  unfold State.issueWith
  exact .issueBoth (fun _ _ _ h1 => .ite (hf _ _ h1) h1) hs

theorem Keeps.outs {c : Ctx} {os : List BOut} (hs : Keeps φ s₀ s) : Keeps φ s₀ (s.outs c os) := by
  unfold State.outs
  exact .foldl (fun _ _ h1 => by
    split
    · exact .event h1
    · exact .report h1
    · exact .stopPlot (.ite h1 (.report h1))) hs

theorem Keeps.topUp {p log n : Nat} (hs : Keeps φ s₀ s) : Keeps φ s₀ (s.topUp p log n) := by
  unfold State.topUp
  exact .ite hs (.foldl (fun _ _ h1 => by
    extract_lets _ _
    exact .setBed (.draw h1)) hs)

theorem Keeps.issue {b : BitVec 7} {h : Head} {i : Instr} {body : Ctx → Bed → Bed × List BOut}
    (hs : Keeps φ s₀ s) : Keeps φ s₀ (s.issue b h i body) := by
  unfold State.issue
  exact .issueWith (fun _ _ h1 => by
    extract_lets _
    exact .watchEcc (.outs (.setBed h1))) hs

theorem Keeps.issueFresh {b : BitVec 7} {h : Head} {i : Instr} {n : Nat} {body : Ctx → Bed → Bed × List BOut}
    (hs : Keeps φ s₀ s) : Keeps φ s₀ (s.issueFresh b h i n body) := by
  unfold State.issueFresh
  exact .issueWith (fun _ _ h1 => by
    extract_lets s2 _
    have h2 : Keeps φ s₀ s2 := .topUp h1
    exact .watchEcc (.outs (.setBed h2))) hs

/-! ## Module memory -/

theorem Keeps.ddrFail {u : Nat} (hs : Keeps φ s₀ s) : Keeps φ s₀ (s.ddrFail u) := by
  unfold State.ddrFail
  extract_lets _ _ s1 s2 s3
  have h1 : Keeps φ s₀ s1 := .upd hs rfl
  have h2 : Keeps φ s₀ s2 := .bump h1
  have h3 : Keeps φ s₀ s3 := .ite h2 (.setReg h2)
  exact .ite hs (.report h3)

theorem Keeps.ddrWrite {a : Nat} {bytes : List Byte} (hs : Keeps φ s₀ s) : Keeps φ s₀ (s.ddrWrite a bytes) := by
  unfold State.ddrWrite
  extract_lets _ _ _ _ _ s1
  have h1 : Keeps φ s₀ s1 := .upd hs rfl
  exact .foldl (fun _ _ h2 => by
      split
      · exact h2
      · exact .setCtl h2) h1

theorem answers_execLpddr5Frame {c : BitVec 5} {logged : Bool}
    (hs : Keeps φ s₀ s) : Answers φ s₀ (execLpddr5Frame c logged s) := by
  unfold execLpddr5Frame
  extract_lets _ _ _ s1 s2
  have h1 : Keeps φ s₀ s1 := .bump (.setCtl hs)
  have h2 : Keeps φ s₀ s2 := .report h1
  exact .ite (.next hs) (.ite (.next (.ite (.report h2) h2)) (.next (.setCtl hs)))

/-! ## The A-clock -/

theorem Keeps.countStretch {source : Nat} (hs : Keeps φ s₀ s) : Keeps φ s₀ (s.countStretch source) := by
  unfold State.countStretch
  extract_lets s1
  have h1 : Keeps φ s₀ s1 := .ite (.bump hs) (.bump hs)
  exact .foldl (fun _ _ h2 => by
      extract_lets _ s3 _
      have h3 : Keeps φ s₀ s3 := .setRunRec h2
      exact .setPlot h3) h1

theorem Keeps.nextRun (hs : Keeps φ s₀ s) : Keeps φ s₀ (s.nextRun) := by
  unfold State.nextRun
  extract_lets _ source _ s1
  have h1 : Keeps φ s₀ s1 := .upd hs rfl
  clear_value s1 source
  split
  · exact .countStretch h1
  · exact .foldl (fun _ _ h2 => .endEpisode h2) h1

theorem Keeps.slowTick (hs : Keeps φ s₀ s) : Keeps φ s₀ (s.slowTick) := by
  unfold State.slowTick
  exact .ite (.foldl (fun _ _ h1 => by
    extract_lets _
    exact .setPlot h1) hs) hs

theorem Keeps.clockRuns (hs : Keeps φ s₀ s) : Keeps φ s₀ (s.clockRuns) := by
  unfold State.clockRuns
  extract_lets s1 _ s2
  have h1 : Keeps φ s₀ s1 := .slowTick hs
  have h2 : Keeps φ s₀ s2 := .upd h1 rfl
  exact .ite (.nextRun h2) h2

theorem Keeps.heartbeat (hs : Keeps φ s₀ s) : Keeps φ s₀ (s.heartbeat) := by
  unfold State.heartbeat
  exact .ite (.setFld hs) hs

theorem Keeps.observe (hs : Keeps φ s₀ s) : Keeps φ s₀ (s.observe) := by
  unfold State.observe
  exact .foldl (fun _ _ h1 => by
    extract_lets _ _
    split
    · exact .setBed h1
    · exact h1) hs

theorem Keeps.upset (hs : Keeps φ s₀ s) : Keeps φ s₀ (s.upset) := by
  unfold State.upset
  extract_lets _ s1 _
  have h1 : Keeps φ s₀ s1 := .ite hs (.upd hs rfl)
  split
  · exact h1
  · exact .ite (.setBed h1) h1
  · exact .upd h1 rfl
  · exact .ite (.bump h1) h1
  · extract_lets _ _
    split
    · exact .ite (.setPlot h1) h1
    · exact h1

theorem Keeps.crossWords {p : Nat} (hs : Keeps φ s₀ s) : Keeps φ s₀ (s.crossWords p) := by
  unfold State.crossWords
  extract_lets _ _ _ s1
  have h1 : Keeps φ s₀ s1 := .setPlot hs
  exact .ite (.ite h1 (.bump h1)) hs

theorem Keeps.landPast (hs : Keeps φ s₀ s) : Keeps φ s₀ (s.landPast) := by
  unfold State.landPast
  extract_lets s1
  have h1 : Keeps φ s₀ s1 := .foldl (fun _ _ h1 => .crossWords h1) hs
  exact .foldl (fun _ _ h2 => .ite h2 (.landDue h2)) h1

/-! ## The runner network -/

theorem Keeps.addWords {p : Nat} {ws : List Word} (hs : Keeps φ s₀ s) : Keeps φ s₀ (s.addWords p ws) := by
  unfold State.addWords
  extract_lets _
  exact .setPlot hs

theorem Keeps.sendWords {p : Nat} {e : Runner} {addr : Nat}
    (hs : Keeps φ s₀ s) : Keeps φ s₀ (s.sendWords p e addr) := by
  unfold State.sendWords
  extract_lets _
  exact .addWords hs

theorem Keeps.sendHub {c : Ctx} {segment : Nat} {bytes : List Byte} {what : Nat → Option Cargo}
    (hs : Keeps φ s₀ s) : Keeps φ s₀ (s.sendHub c segment bytes what) := by
  unfold State.sendHub
  extract_lets _ _ _
  exact .addWords hs

theorem Keeps.pair {p : Nat} {e : Runner} (hs : Keeps φ s₀ s) : Keeps φ s₀ (s.pair p e) := by
  unfold State.pair
  extract_lets _
  split
  · exact .setPlot hs
  · extract_lets s1 _ _
    have h1 : Keeps φ s₀ s1 := .setPlot hs
    exact .ite (.sendWords h1) h1

theorem Keeps.sendFrom {c : Ctx} {segment addr len : Nat} {f : List Byte → State → State}
    (hf : ∀ a0 t, Keeps φ s₀ t → Keeps φ s₀ (f a0 t)) (hs : Keeps φ s₀ s) :
    Keeps φ s₀ (s.sendFrom c segment addr len f) := by
  unfold State.sendFrom
  extract_lets _ s1
  have h1 : Keeps φ s₀ s1 := .setBed hs
  split
  · exact .watchEcc (.outs h1)
  · exact .watchEcc (hf _ _ h1)

theorem Keeps.send {c : Ctx} {segment : Nat} {bytes : List Byte} {on : Bool}
    (hs : Keeps φ s₀ s) : Keeps φ s₀ (s.send c segment bytes on) := by
  unfold State.send
  extract_lets _ _ s1 _
  have h1 : Keeps φ s₀ s1 := .setPlot hs
  exact .foldl (fun _ _ h2 => .pair h2) h1

theorem Keeps.queueFlits {l : Nat} {fs : List TxItem} (hs : Keeps φ s₀ s) : Keeps φ s₀ (s.queueFlits l fs) := by
  unfold State.queueFlits
  extract_lets _ s1
  have h1 : Keeps φ s₀ s1 := .setLink hs
  exact .foldl (fun _ _ h2 => by
      extract_lets _
      exact .setPlot h2) h1

theorem answers_execLsend {b : BitVec 7} {h : Head} {link : BitVec 5} {flow : BitVec 4} {len : BitVec 15} {src : BitVec 24} {route : BitVec 12} (hs : Keeps φ s₀ s) :
    Answers φ s₀ (execLsend b h link flow len src route s) := by
  unfold execLsend
  exact .next (.issueWith (fun _ _ h1 => by
    exact .sendFrom (fun _ _ h2 => by
    extract_lets _
    exact .compare (.sendHub h2)) h1) hs)

theorem Keeps.stickyParts {p k : Nat} (hs : Keeps φ s₀ s) : Keeps φ s₀ (s.stickyParts p k) := by
  unfold State.stickyParts
  exact .foldl (fun _ _ h1 => by
    split
    · exact .setBed h1
    · exact h1) hs

theorem Keeps.owe {l flow n : Nat} (hs : Keeps φ s₀ s) : Keeps φ s₀ (s.owe l flow n) := by
  unfold State.owe
  extract_lets _
  exact .setLink hs

theorem Keeps.queueRun {l : Nat} {fs : List TxItem} (hs : Keeps φ s₀ s) : Keeps φ s₀ (s.queueRun l fs) := by
  unfold State.queueRun
  exact .ite (.queueFlits hs) hs

theorem Keeps.deliver {p k : Nat} {bytes : List Byte} (hs : Keeps φ s₀ s) : Keeps φ s₀ (s.deliver p k bytes) := by
  unfold State.deliver
  extract_lets _ _ _ _ s1 _ _ _ s2 _
  have h1 : Keeps φ s₀ s1 := .foldl (fun _ _ h1 => .queueRun h1) hs
  have h2 : Keeps φ s₀ s2 := .foldl (fun _ _ h2 => by
      split
      · exact h2
      · extract_lets s3 _ _ _ _
        have h3 : Keeps φ s₀ s3 := .sendWords h2
        exact .ite (.setBed h3) h3) h1
  exact .setPlot h2

theorem Keeps.passOn {p k : Nat} (hs : Keeps φ s₀ s) : Keeps φ s₀ (s.passOn p k) := by
  unfold State.passOn
  extract_lets _ _ _ _ _ s1
  have h1 : Keeps φ s₀ s1 := .setPlot hs
  exact .ite hs (.ite (.deliver h1) (.queueRun h1))

theorem Keeps.freeFlits {p k flow n : Nat} {q : Partial}
    (hs : Keeps φ s₀ s) : Keeps φ s₀ (s.freeFlits p k flow n q) := by
  unfold State.freeFlits
  extract_lets _ s1
  have h1 : Keeps φ s₀ s1 := .setPlot hs
  exact .owe (.setLink h1)

theorem Keeps.combine {p k : Nat} (hs : Keeps φ s₀ s) : Keeps φ s₀ (s.combine p k) := by
  unfold State.combine
  extract_lets _ _ _ _ _ _ _ _ _ _ _
  split
  · exact hs
  · split
    · exact hs
    · extract_lets _ s1 s2
      have h1 : Keeps φ s₀ s1 := .setPlot hs
      have h2 : Keeps φ s₀ s2 := .foldl (fun _ _ h2 => .freeFlits h2) h1
      exact .passOn (.ite (.stickyParts h2) h2)

theorem answers_execLcoll {b : BitVec 7} {h : Head} {coll : BitVec 8} {op : BitVec 3} {count : BitVec 16} {src dst : BitVec 24} {route : BitVec 12} (hs : Keeps φ s₀ s) :
    Answers φ s₀ (execLcoll b h coll op count src dst route s) := by
  unfold execLcoll
  exact .next (.issueWith (fun _ _ h1 => by
    exact .sendFrom (fun _ _ h2 => by
    extract_lets _ _ _ s3 _
    have h3 : Keeps φ s₀ s3 := .setBed h2
    exact .sendHub h3) h1) hs)

theorem Keeps.takeCargo {p : Nat} {c : Cargo} (hs : Keeps φ s₀ s) : Keeps φ s₀ (s.takeCargo p c) := by
  unfold State.takeCargo
  extract_lets _
  split
  · exact .queueFlits hs
  · exact .combine (.setPlot hs)
  · extract_lets s1 s2 _ s3
    have h1 : Keeps φ s₀ s1 := .event hs
    have h2 : Keeps φ s₀ s2 := .event h1
    have h3 : Keeps φ s₀ s3 := .ite (.setRunRec h2) h2
    exact .compare h3

theorem Keeps.takeAll (hs : Keeps φ s₀ s) : Keeps φ s₀ (s.takeAll) := by
  unfold State.takeAll
  exact .foldl (fun _ _ h1 => by
    extract_lets _
    exact .ite h1 (.foldl (fun _ _ h2 => .takeCargo h2) (.setPlot h1))) hs

end Sys2Proof.Machine
end

section
/-! PROOFS. What each operation of these parts of the model keeps: barrows, control, the nursery, power. -/

namespace Sys2Proof.Machine

variable {φ : Bool × Bool} {i : Bool} {s₀ s t : State}

/-! ## Barrows -/

theorem Keeps.readLines {x : Side} {from_ n : Nat} (hs : Keeps φ s₀ s) : Keeps φ s₀ (s.readLines x from_ n).2 := by
  unfold State.readLines
  extract_lets _
  split
  · exact .draw (w := 8 * n) hs
  · exact hs

theorem Keeps.placeBytes {counted : Bool} {space addr : Nat} {bytes : List Byte}
    (hs : Keeps φ s₀ s) : Keeps φ s₀ (s.placeBytes counted space addr bytes) := by
  unfold State.placeBytes
  extract_lets _
  split
  · exact .ddrWrite hs
  · split
    · exact .landWords hs
    · exact hs
  · exact .upd hs rfl

theorem Keeps.placeStream {counted : Bool} {x : Side} {off : Nat} {bytes : List Byte}
    (hs : Keeps φ s₀ s) : Keeps φ s₀ (s.placeStream counted x off bytes) := by
  unfold State.placeStream
  exact .foldl (fun _ _ h1 => .placeBytes h1) hs

theorem Keeps.gradeCount {ch : Nat} {d : List Byte} {es : List (Nat × Cnv × Val)} {bytes : Nat}
    (hs : Keeps φ s₀ s) : Keeps φ s₀ (s.gradeCount ch d es bytes) := by
  unfold State.gradeCount
  extract_lets _ _ s1 s2 _
  have h1 : Keeps φ s₀ s1 := .bump (.bump (.bump hs))
  have h2 : Keeps φ s₀ s2 := .setReg h1
  exact .ite (.setChan h2) h2

theorem Keeps.logged {ch : Nat} (hs : Keeps φ s₀ s) : Keeps φ s₀ (s.logged ch) := by
  unfold State.logged
  extract_lets _ _ _
  exact .ite hs (.setEngine hs)

theorem Keeps.unlog {ch : Nat} (hs : Keeps φ s₀ s) : Keeps φ s₀ (s.unlog ch) := by
  unfold State.unlog
  extract_lets _
  exact .setEngine hs

theorem Keeps.carry {ch good : Nat} (hs : Keeps φ s₀ s) : Keeps φ s₀ (s.carry ch good) := by
  unfold State.carry
  extract_lets _
  split
  · exact hs
  · extract_lets _ _ _ _ _ _ s1 _ _ _ s2
    have h1 : Keeps φ s₀ s1 := .readLines hs
    have h2 : Keeps φ s₀ s2 := .setChan h1
    exact .ite hs (.ite (.setChan hs) (.placeStream (.gradeCount h2)))

theorem Keeps.depart {p : Nat} {t : Xfer} {off : Nat} {out : List Byte} {from_ : Nat}
    (hs : Keeps φ s₀ s) : Keeps φ s₀ (s.depart p t off out from_).1 := by
  unfold State.depart
  extract_lets _ _ _ _ _ _
  exact .addWords hs

theorem Keeps.dataCome {ch a : Nat} (hs : Keeps φ s₀ s) : Keeps φ s₀ (s.dataCome ch a) := by
  unfold State.dataCome
  extract_lets _ _
  split
  · exact hs
  · extract_lets _ _ _ _ _ _ _ _ s1
    have h1 : Keeps φ s₀ s1 := .setEngine hs
    split
    · exact hs
    · extract_lets _ _
      exact .ite (.setChan h1) (.gradeCount (.setChan (.depart h1)))

theorem Keeps.dataDue {ch j a n : Nat} (hs : Keeps φ s₀ s) : Keeps φ s₀ (s.dataDue ch j a n) := by
  induction n generalizing s with
  | zero => exact hs
  | succ n ih =>
    unfold State.dataDue
    split
    · exact hs
    · exact .ite (ih (.dataCome hs)) hs

theorem Keeps.issueIn {p : Path} {ch j a n : Nat} {x : Xfer} {k : Spot}
    (hs : Keeps φ s₀ s) : Keeps φ s₀ (s.issueIn p ch j a n x k) := by
  induction n generalizing s x k with
  | zero => exact .setChan hs
  | succ n ih => exact .ite (ih (.setEngine hs)) (.setChan hs)

theorem Keeps.slotFor {j a ch : Nat} (hs : Keeps φ s₀ s) : Keeps φ s₀ (s.slotFor j a ch) := by
  unfold State.slotFor
  extract_lets _ _ _
  exact .ite (.issueIn hs) hs

theorem Keeps.countBuffers {a ch : Nat} (hs : Keeps φ s₀ s) : Keeps φ s₀ (s.countBuffers a ch) := by
  unfold State.countBuffers
  extract_lets _
  split
  · exact .ite (.setChan hs) hs
  · exact hs

theorem Keeps.barrowSlots (hs : Keeps φ s₀ s) : Keeps φ s₀ (s.barrowSlots) := by
  unfold State.barrowSlots
  extract_lets _ s1
  have h1 : Keeps φ s₀ s1 := by
    unfold s1
    split
    · exact hs
    · extract_lets _ s2
      have h2 : Keeps φ s₀ s2 := .foldl (fun _ _ h2 => .ite (.dataDue h2) h2) hs
      exact .foldl (fun _ _ h3 => .slotFor h3) h2
  exact .foldl (fun _ _ h2 => .countBuffers h2) h1

theorem Keeps.begin {ch good : Nat} (hs : Keeps φ s₀ s) : Keeps φ s₀ (s.begin ch good) := by
  unfold State.begin
  extract_lets _
  split
  · exact hs
  · extract_lets _
    split
    · exact .logged (.carry (.setChan hs))
    · extract_lets _ s1
      have h1 : Keeps φ s₀ s1 := .setChan hs
      split
      · exact h1
      · exact .countBuffers (.slotFor h1)

theorem answers_execBarrowTransferStart {ch : BitVec 6} {good : Nat}
    (hs : Keeps φ s₀ s) : Answers φ s₀ (execBarrowTransferStart ch good s) := by
  unfold execBarrowTransferStart
  extract_lets _ _
  exact .ite (.next (.begin hs)) (.next hs)

theorem Keeps.noteInput {p idx bed index : Nat} {d : BitVec 256}
    (hs : Keeps φ s₀ s) : Keeps φ s₀ (s.noteInput p idx bed index d) := by
  unfold State.noteInput
  extract_lets _ _ _ s1 _
  have h1 : Keeps φ s₀ s1 := .ite (.event hs) (.setPlot hs)
  exact .setPlot h1

theorem Keeps.arrive {p tensor bed index : Nat} {bytes : List Byte}
    (hs : Keeps φ s₀ s) : Keeps φ s₀ (s.arrive p tensor bed index bytes) := by
  unfold State.arrive
  extract_lets _
  exact .ite (.noteInput hs) hs

theorem Keeps.arriveCopy {bed addr len : Nat} {d : BitVec 256}
    (hs : Keeps φ s₀ s) : Keeps φ s₀ (s.arriveCopy bed addr len d) := by
  unfold State.arriveCopy
  exact .foldl (fun _ _ h1 => .foldl (fun _ _ h2 => .noteInput h2) h1) hs

theorem Keeps.dropEngine {t : Xfer} (hs : Keeps φ s₀ s) : Keeps φ s₀ (s.dropEngine t) := by
  unfold State.dropEngine
  exact .ite (.upd hs rfl) hs

theorem Keeps.finishFw {ch : Nat} {x : Xfer} (hs : Keeps φ s₀ s) : Keeps φ s₀ (s.finishFw ch x) := by
  unfold State.finishFw
  extract_lets _ _ _ _ _ _ _ _ s1 _ s2 s3
  have h1 : Keeps φ s₀ s1 := by
    unfold s1
    split
    · exact .placeBytes hs
    · exact hs
  have h2 : Keeps φ s₀ s2 := .ite (.arriveCopy h1) h1
  have h3 : Keeps φ s₀ s3 := .dropEngine h2
  split
  · exact .setChan hs
  · split
    · exact .complete h3
    · exact h3

theorem Keeps.finish {ch : Nat} (hs : Keeps φ s₀ s) : Keeps φ s₀ (s.finish ch) := by
  unfold State.finish
  extract_lets _
  split
  · exact hs
  · extract_lets s1 _
    have h1 : Keeps φ s₀ s1 := .setChan hs
    split
    · extract_lets _ s2
      have h2 : Keeps φ s₀ s2 := .setPlot h1
      exact .arrive h2
    · exact .finishFw h1

theorem answers_execBarrowTransferComplete {ch : BitVec 6}
    (hs : Keeps φ s₀ s) : Answers φ s₀ (execBarrowTransferComplete ch s) := by
  unfold execBarrowTransferComplete
  extract_lets _
  split
  · exact .ite (.next (.finish hs)) (.next hs)
  · exact .next hs

theorem Keeps.holdChans {h : Nat} {held : Bool} (hs : Keeps φ s₀ s) : Keeps φ s₀ (s.holdChans h held) := by
  unfold State.holdChans
  exact .foldl (fun _ _ h1 => by
    extract_lets _
    exact .ite (.setChan h1) h1) hs

theorem Keeps.incident {h cause : Nat} (hs : Keeps φ s₀ s) : Keeps φ s₀ (s.incident h cause) := by
  unfold State.incident
  extract_lets _ s1 s2
  have h1 : Keeps φ s₀ s1 := .setEngine hs
  have h2 : Keeps φ s₀ s2 := .ite h1 (.setReg h1)
  exact .report h2

theorem Keeps.busError {ch cause : Nat} (hs : Keeps φ s₀ s) : Keeps φ s₀ (s.busError ch cause) := by
  unfold State.busError
  extract_lets _
  split
  · exact hs
  · extract_lets s1 s2 _
    have h1 : Keeps φ s₀ s1 := .ite (.ddrFail hs) hs
    have h2 : Keeps φ s₀ s2 := .ite (.incident h1) h1
    exact .holdChans (.setEngine h2)

theorem answers_execBusError {ch : BitVec 6} {cause : BitVec 3}
    (hs : Keeps φ s₀ s) : Answers φ s₀ (execBusError ch cause s) := by
  unfold execBusError
  exact .ite (.next (.busError hs)) (.next hs)

theorem answers_execHostCompletionTimeout {ch : BitVec 6}
    (hs : Keeps φ s₀ s) : Answers φ s₀ (execHostCompletionTimeout ch s) := by
  unfold execHostCompletionTimeout
  exact .ite (.next (.busError hs)) (.next hs)

theorem Keeps.dropProbe {ch : Nat} (hs : Keeps φ s₀ s) : Keeps φ s₀ (s.dropProbe ch) := by
  unfold State.dropProbe
  extract_lets _
  split
  · exact .ite (.setChan hs) hs
  · exact hs

theorem Keeps.settleAccess {x : Access} (hs : Keeps φ s₀ s) : Keeps φ s₀ (s.settleAccess x) := by
  unfold State.settleAccess
  split
  · exact .ite (.dataCome hs) (.dropProbe (.unlog (.carry hs)))
  · exact .unlog hs

theorem Keeps.goOn {cs : List Nat} {good : Nat} (hs : Keeps φ s₀ s) : Keeps φ s₀ (s.goOn cs good) := by
  induction cs generalizing s good with
  | nil => exact hs
  | cons ch cs ih =>
    unfold State.goOn
    split
    · split
      · exact ih (.setChan hs)
      · exact ih (.dropProbe (.logged (.carry hs)))
    · exact ih hs

theorem Keeps.endIncident {h : Nat} {transient : Bool} {replayed : List Access} {good : Nat}
    (hs : Keeps φ s₀ s) : Keeps φ s₀ (s.endIncident h transient replayed good) := by
  unfold State.endIncident
  extract_lets _ s1 s2 _ s3
  have h1 : Keeps φ s₀ s1 := .setEngine hs
  have h2 : Keeps φ s₀ s2 := .ite (.setFld h1) h1
  have h3 : Keeps φ s₀ s3 := .foldl (fun _ _ h3 => .settleAccess h3) (.holdChans h2)
  exact .goOn h3

theorem answers_execEngineRestart {hub : Bool} {good : Nat}
    (hs : Keeps φ s₀ s) : Answers φ s₀ (execEngineRestart hub good s) := by
  unfold execEngineRestart
  extract_lets _ _ _ s1
  have h1 : Keeps φ s₀ s1 := .setEngine hs
  exact .ite (.next (.endIncident hs)) (.ite (.ite (.next (.ite (.endIncident h1) h1)) (.next (.setEngine hs)))
      (.next hs))

theorem Keeps.unreadRing {r : Nat} (hs : Keeps φ s₀ s) : Keeps φ s₀ (s.unreadRing r) := by
  unfold State.unreadRing
  extract_lets _ _ _
  exact .ite hs (.setRing hs)

theorem Keeps.haltChan {ch cause addr : Nat} (hs : Keeps φ s₀ s) : Keeps φ s₀ (s.haltChan ch cause addr) := by
  unfold State.haltChan
  extract_lets _ s1 s2 s3 s4 fail
  have h4 : Keeps φ s₀ s4 := .report (.setReg (.unlog (.setChan hs)))
  have hf : ∀ t x, Keeps φ s₀ t → Keeps φ s₀ (fail t x) := by
    intro t x h
    unfold fail
    split
    · extract_lets s5
      have h5 : Keeps φ s₀ s5 := by
        unfold s5
        split
        · exact .unreadRing h
        · exact h
      split
      · exact .complete (.dropEngine h5)
      · exact h5
    · exact h
  exact hf _ _ (hf _ _ h4)

theorem answers_execIsolationAccess {ch : BitVec 6} {good : Nat}
    (hs : Keeps φ s₀ s) : Answers φ s₀ (execIsolationAccess ch good s) := by
  unfold execIsolationAccess
  extract_lets _ _ _ _ _ _ _ s1 s2 _
  have h1 : Keeps φ s₀ s1 := .ite (.ddrFail hs) hs
  have h2 : Keeps φ s₀ s2 := .haltChan h1
  split
  · exact .next (.ite (.endIncident hs) hs)
  · extract_lets s3
    have h3 : Keeps φ s₀ s3 := .settleAccess hs
    exact .ite (.ite (.next (.ite (.endIncident h3) h3)) (.next (.endIncident h2))) (.next hs)

theorem Keeps.failRead {ch cause : Nat} {t : Xfer} (hs : Keeps φ s₀ s) : Keeps φ s₀ (s.failRead ch cause t) := by
  unfold State.failRead
  extract_lets _
  exact .busError (.logged (.setChan hs))

theorem Keeps.clearHalt {ch : Nat} (hs : Keeps φ s₀ s) : Keeps φ s₀ (s.clearHalt ch) := by
  unfold State.clearHalt
  extract_lets _
  exact .ite (.setChan hs) hs

theorem Keeps.give {ch : Nat} {t : Xfer} (hs : Keeps φ s₀ s) : Keeps φ s₀ (s.give ch t) := by
  unfold State.give
  extract_lets _
  split
  · exact .setChan hs
  · exact .setChan hs
  · exact hs

theorem answers_execBrw {b : BitVec 7} {h : Head} {channel : BitVec 6} {desc : BitVec 10} {bed : BitVec 24} {level : BitVec 2} {stepEn : Bool} {extStep : BitVec 32} {route : BitVec 12} (hs : Keeps φ s₀ s) :
    Answers φ s₀ (execBrw b h channel desc bed level stepEn extStep route s) := by
  unfold execBrw
  extract_lets _
  exact .next (.issueWith (fun _ _ h1 => by
      extract_lets _ _ s2 s3 _
      have h2 : Keeps φ s₀ s2 := .setPlot h1
      have h3 : Keeps φ s₀ s3 := .ite h2 (.give h2)
      exact .setChan h3) hs)

theorem Keeps.mergeLanding {p : Nat} {y : Landing} (hs : Keeps φ s₀ s) : Keeps φ s₀ (s.mergeLanding p y) := by
  unfold State.mergeLanding
  extract_lets _ s1
  have h1 : Keeps φ s₀ s1 := .setPlot hs
  split
  · exact .setBed h1
  · exact h1

theorem answers_execBrwLandingDeadline {ch : BitVec 6}
    (hs : Keeps φ s₀ s) : Answers φ s₀ (execBrwLandingDeadline ch s) := by
  unfold execBrwLandingDeadline
  extract_lets _ s1
  have h1 : Keeps φ s₀ s1 := .finish hs
  split
  · exact .next hs
  · exact .ite (.next hs) (.ite (.next (.mergeLanding hs)) (.ite (.next (by
      split
      · exact .mergeLanding h1
      · exact h1)) (.ite (.next hs) (.next (.stopPlot (.report hs))))))

/-! ## Control instructions -/

theorem Keeps.endBed {c : Ctx} (hs : Keeps φ s₀ s) : Keeps φ s₀ (s.endBed c) := by
  unfold State.endBed
  extract_lets _ _ s1 _
  have h1 : Keeps φ s₀ s1 := .setBed hs
  exact .ite (.setPlot h1) h1

theorem Keeps.startWait {c : Ctx} {w : Wait} (hs : Keeps φ s₀ s) : Keeps φ s₀ (s.startWait c w) := by
  unfold State.startWait
  extract_lets _ _
  exact .setBed hs

theorem answers_execSyncWaitEnd {p : BitVec 4} (hs : Keeps φ s₀ s) : Answers φ s₀ (execSyncWaitEnd p s) := by
  unfold execSyncWaitEnd
  split
  · exact .ite (.next (.mapBeds hs)) (.next hs)
  · exact .next hs

theorem answers_execSyncTimeout {p : BitVec 4} (hs : Keeps φ s₀ s) : Answers φ s₀ (execSyncTimeout p s) := by
  unfold execSyncTimeout
  extract_lets _ _ _ _
  exact .ite (.next (.stopPlot (.report hs))) (.next hs)

theorem answers_execHint {b : BitVec 7} {h : Head} {entry : BitVec 12}
    (hs : Keeps φ s₀ s) : Answers φ s₀ (execHint b h entry s) := by
  unfold execHint
  exact .next (.issueWith (fun _ _ h1 => by
    extract_lets _
    exact .setPlot h1) hs)

/-! ## The nursery -/

theorem Keeps.setSess {i : Nat} {e : List Byte} (hs : Keeps φ s₀ s) : Keeps φ s₀ (s.setSess i e) := by
  unfold State.setSess
  exact .ddrWrite hs

theorem Keeps.setSessState {i st plot : Nat} (hs : Keeps φ s₀ s) : Keeps φ s₀ (s.setSessState i st plot) := by
  unfold State.setSessState
  exact .ddrWrite hs

theorem Keeps.orderDone {src : Src} {code : Nat} (hs : Keeps φ s₀ s) : Keeps φ s₀ (s.orderDone src code) := by
  unfold State.orderDone
  exact .ite (.complete hs) (.complete hs)

theorem Keeps.entryLost {src : Src} {e : Nat × Nat} (hs : Keeps φ s₀ s) : Keeps φ s₀ (s.entryLost src e) := by
  unfold State.entryLost
  exact .orderDone (.setSessState (.ddrFail hs))

theorem Keeps.orderRefused {o : Order} {code : Nat} (hs : Keeps φ s₀ s) : Keeps φ s₀ (s.orderRefused o code) := by
  unfold State.orderRefused
  extract_lets s1
  have h1 : Keeps φ s₀ s1 := by
    unfold s1
    split
    · exact .ddrFail hs
    · exact hs
  exact .orderDone h1

theorem answers_execNurseryOpen {src : Src} (hs : Keeps φ s₀ s) : Answers φ s₀ (execNurseryOpen src s) := by
  unfold execNurseryOpen
  extract_lets _ _ _ _ _ s1
  have h1 : Keeps φ s₀ s1 := .ite (.setSess hs) hs
  split
  · split
    · exact .next (.complete hs)
    · split
      · exact .next (.complete hs)
      · split
        · exact .next (.entryLost hs)
        · exact .next (.orderDone h1)
  · exact .next hs

theorem answers_execNurseryClose {src : Src} (hs : Keeps φ s₀ s) : Answers φ s₀ (execNurseryClose src s) := by
  unfold execNurseryClose
  extract_lets _ _ s1
  have h1 : Keeps φ s₀ s1 := .ite (.setSess hs) hs
  split
  · split
    · exact .next (.entryLost hs)
    · exact .next (.orderDone h1)
  · exact .next hs

theorem Keeps.acceptOrder {src : Src} (hs : Keeps φ s₀ s) : Keeps φ s₀ (s.acceptOrder src) := by
  unfold State.acceptOrder
  extract_lets _ _ _ _ _
  split
  · exact .complete hs
  · split
    · exact .entryLost hs
    · exact .ite (.orderRefused hs) (.await (.setWalker hs))

theorem answers_execNurseryPlant {src : Src} (hs : Keeps φ s₀ s) : Answers φ s₀ (execNurseryPlant src s) := by
  unfold execNurseryPlant
  exact .ite (.next (.acceptOrder hs)) (.next hs)

theorem answers_execNurseryLift {src : Src} (hs : Keeps φ s₀ s) : Answers φ s₀ (execNurseryLift src s) := by
  unfold execNurseryLift
  exact .ite (.next (.acceptOrder hs)) (.next hs)

theorem answers_execNurseryTransplant {src : Src}
    (hs : Keeps φ s₀ s) : Answers φ s₀ (execNurseryTransplant src s) := by
  unfold execNurseryTransplant
  extract_lets _
  exact .ite (.ite (.next (.complete hs)) (.ite (.next (.complete hs)) (.next (.acceptOrder hs)))) (.next hs)

theorem Keeps.unstage {w : Nat} (hs : Keeps φ s₀ s) : Keeps φ s₀ (s.unstage w) := by
  unfold State.unstage
  exact .foldl (fun _ _ h1 => by
    extract_lets _
    exact .ite (.setBed h1) h1) hs

theorem Keeps.walkFail {w : Nat} {k : Work} {code page : Nat} {dest : Bool}
    (hs : Keeps φ s₀ s) : Keeps φ s₀ (s.walkFail w k code page dest) := by
  unfold State.walkFail
  extract_lets _ _ s1 s2 _
  have h1 : Keeps φ s₀ s1 := .ite hs (.setReg hs)
  have h2 : Keeps φ s₀ s2 := .report h1
  exact .setWalker (.unstage h2)

theorem Keeps.makeMoving {o : Order} (hs : Keeps φ s₀ s) : Keeps φ s₀ (s.makeMoving o) := by
  unfold State.makeMoving
  extract_lets s1
  have h1 : Keeps φ s₀ s1 := .setSess hs
  exact .ite (.setSess h1) h1

theorem answers_execNurseryOrderStart {w : BitVec 2}
    (hs : Keeps φ s₀ s) : Answers φ s₀ (execNurseryOrderStart w s) := by
  unfold execNurseryOrderStart
  extract_lets _ _
  split
  · extract_lets s1 _ _ _ _ _ s2 _ _ _ s3
    have h1 : Keeps φ s₀ s1 := .setWalker hs
    have h2 : Keeps φ s₀ s2 := .upd h1 rfl
    have h3 : Keeps φ s₀ s3 := .makeMoving (.setWalker h2)
    split
    · split
      · exact .next (.walkFail (.setSessState (.ddrFail h1)))
      · split
        · exact .next (.orderRefused h1)
        · split
          · exact .next (.orderDone h1)
          · exact .next (.orderDone h1)
          · split
            · exact .next (.walkFail (.ddrFail (.makeMoving h2)))
            · exact .next (.ite (.walkFail h3) h3)
    · exact .next hs
  · exact .next hs

theorem Keeps.setWork {w : Nat} {k : Work} (hs : Keeps φ s₀ s) : Keeps φ s₀ (s.setWork w k) := by
  unfold State.setWork
  extract_lets _
  exact .setWalker hs

theorem Keeps.plantLands {w : Nat} {k : Work} {p page off : Nat} {bytes : List Byte}
    (hs : Keeps φ s₀ s) : Keeps φ s₀ (s.plantLands w k p page off bytes) := by
  unfold State.plantLands
  exact .setWork (.landWords hs)

theorem Keeps.liftWord {w : Nat} {k : Work} {p page off : Nat}
    (hs : Keeps φ s₀ s) : Keeps φ s₀ (s.liftWord w k p page off) := by
  unfold State.liftWord
  extract_lets _ _ s1
  have h1 : Keeps φ s₀ s1 := .setBed hs
  split
  · exact .watchEcc (.walkFail (.report h1))
  · exact .watchEcc (.setWork (.ddrWrite h1))

theorem Keeps.unstageWord {w : Nat} {k : Work} {p : Nat} {x : Staged}
    (hs : Keeps φ s₀ s) : Keeps φ s₀ (s.unstageWord w k p x) := by
  unfold State.unstageWord
  extract_lets _ s1
  have h1 : Keeps φ s₀ s1 := .setBed hs
  exact .ite (.liftWord h1) (.plantLands h1)

theorem Keeps.takeWord {w : Nat} {k : Work} {page : Nat} (hs : Keeps φ s₀ s) : Keeps φ s₀ (s.takeWord w k page) := by
  unfold State.takeWord
  extract_lets _ _ _ _ _ _
  split
  · exact .walkFail hs
  · extract_lets _ _ s1 _
    have h1 : Keeps φ s₀ s1 := .ite (.plantLands hs) (.setWork (.setBed hs))
    split
    · exact .ite (.liftWord hs) (.setWork (.setBed hs))
    · split
      · exact .walkFail (.ddrFail hs)
      · exact .ite (.walkFail h1) h1

theorem Keeps.moveWord {w : Nat} {k : Work} (hs : Keeps φ s₀ s) : Keeps φ s₀ (s.moveWord w k) := by
  unfold State.moveWord
  extract_lets _ _ _
  split
  · exact .setWork (.ddrWrite hs)
  · extract_lets _
    split
    · exact .walkFail (.ddrFail hs)
    · exact .setWork (.ddrWrite hs)

theorem answers_execWalkerWordTransfer {w : BitVec 2}
    (hs : Keeps φ s₀ s) : Answers φ s₀ (execWalkerWordTransfer w s) := by
  unfold execWalkerWordTransfer
  extract_lets _
  split
  · exact .next hs
  · split
    · exact .next hs
    · split
      · exact .next (.ite (.moveWord hs) hs)
      · split
        · exact .next (.unstageWord hs)
        · split
          · exact .next (.takeWord hs)
          · exact .next hs

theorem Keeps.plantArrives {k : Work} {dig : BitVec 256} (hs : Keeps φ s₀ s) : Keeps φ s₀ (s.plantArrives k dig) := by
  unfold State.plantArrives
  extract_lets _ _
  exact .foldl (fun _ _ h1 => .noteInput h1) hs

theorem Keeps.orderEntries {k : Work} {code : Nat} (hs : Keeps φ s₀ s) : Keeps φ s₀ (s.orderEntries k code) := by
  unfold State.orderEntries
  extract_lets _ _ _ _ _ s1
  have h1 : Keeps φ s₀ s1 := .setSess hs
  split
  · exact .ite (.setSess hs) (.ite (.setSessState hs) (.setSess hs))
  · exact .ite (.setSess hs) (.setSessState hs)
  · exact .ite (.setSess h1) (.ite (.setSessState h1) (.setSessState (.setSess h1)))

theorem Keeps.enterOrder {w : Nat} {k : Work} (hs : Keeps φ s₀ s) : Keeps φ s₀ (s.enterOrder w k) := by
  unfold State.enterOrder
  exact .ite hs (.setWork (.orderEntries hs))

theorem Keeps.walkEntries (hs : Keeps φ s₀ s) : Keeps φ s₀ (s.walkEntries) := by
  unfold State.walkEntries
  exact .foldl (fun _ _ h1 => by
    split
    · exact .ite (.enterOrder h1) h1
    · exact h1) hs

theorem answers_execNurseryOrderComplete {w : BitVec 2}
    (hs : Keeps φ s₀ s) : Answers φ s₀ (execNurseryOrderComplete w s) := by
  unfold execNurseryOrderComplete
  extract_lets _
  split
  · exact .next hs
  · extract_lets _ s1 s2 _ s3 s4
    have h1 : Keeps φ s₀ s1 := .enterOrder hs
    have h2 : Keeps φ s₀ s2 := .ite (.plantArrives h1) h1
    have h3 : Keeps φ s₀ s3 := .setWalker h2
    have h4 : Keeps φ s₀ s4 := .upd h3 rfl
    exact .ite (.next (.orderDone h4)) (.next hs)

theorem answers_execScrubRead {p : BitVec 8} (hs : Keeps φ s₀ s) : Answers φ s₀ (execScrubRead p s) := by
  unfold execScrubRead
  extract_lets _ _ _ _ _ _ _ s1 s2
  have h1 : Keeps φ s₀ s1 := .setBed hs
  have h2 : Keeps φ s₀ s2 := .foldl (fun _ _ h2 => .report h2) h1
  exact .ite (.next (.watchEcc h2)) (.next hs)

theorem answers_execScrubWriteback {p : BitVec 8} (hs : Keeps φ s₀ s) : Answers φ s₀ (execScrubWriteback p s) := by
  unfold execScrubWriteback
  extract_lets _ _
  split
  · exact .next hs
  · exact .ite (.next (.setBed hs)) (.next hs)

/-! ## Power and clocks -/

theorem Keeps.powerEvent {b : Nat} (hs : Keeps φ s₀ s) : Keeps φ s₀ (s.powerEvent b) := by
  unfold State.powerEvent
  exact .setFld (.setFld hs)

theorem Keeps.noMulch (hs : Keeps φ s₀ s) : Keeps φ s₀ (s.noMulch) := by
  unfold State.noMulch
  exact .foldl (fun _ _ h1 => by
    extract_lets _
    exact .setBed h1) hs

theorem Keeps.overSample {m e : Nat} (hs : Keeps φ s₀ s) : Keeps φ s₀ (s.overSample m e) := by
  unfold State.overSample
  extract_lets _ _ _ _ _ s1
  have h1 : Keeps φ s₀ s1 := .upd hs rfl
  exact .ite (.ite (.setDoor (.powerEvent h1)) h1) (.upd hs rfl)

theorem Keeps.underSample {m e : Nat} (hs : Keeps φ s₀ s) : Keeps φ s₀ (s.underSample m e) := by
  unfold State.underSample
  extract_lets _ s1
  have h1 : Keeps φ s₀ s1 := .upd hs rfl
  exact .ite (.ite (.powerEvent h1) h1) (.upd hs rfl)

theorem Keeps.clampSample {m a : Nat} (hs : Keeps φ s₀ s) : Keeps φ s₀ (s.clampSample m a) := by
  unfold State.clampSample
  extract_lets _ _ _ s1 s2 _ _ s3
  have h1 : Keeps φ s₀ s1 := .upd hs rfl
  have h2 : Keeps φ s₀ s2 := .ite (.noMulch h1) h1
  have hk : Keeps (true, true) s s2 := .ite (.noMulch (.upd .refl rfl)) (.upd .refl rfl)
  have hc : s2.clk.sundial = s.clk.sundial := hk.sundial rfl
  have h3 : Keeps φ s₀ s3 := .upd h2 (by
    clear_value s2
    simp only [State.kept, s3, Prod.mk.injEq, true_and, and_true]
    exact hc.symm)
  exact .ite (.powerEvent h3) h3

theorem answers_execPowerSample {watts : BitVec 12} {amps : BitVec 9}
    (hs : Keeps φ s₀ s) : Answers φ s₀ (execPowerSample watts amps s) := by
  unfold execPowerSample
  extract_lets _ _ _ s1 _ _ s2
  have h1 : Keeps φ s₀ s1 := .upd hs rfl
  have h2 : Keeps φ s₀ s2 := .setFld (.setFld (.draw h1))
  exact .ite (.next (.clampSample (.underSample (.overSample h2)))) (.next hs)

theorem Keeps.corrClear (hs : Keeps φ s₀ s) : Keeps φ s₀ (s.corrClear) := by
  unfold State.corrClear
  extract_lets _
  exact .upd hs rfl

theorem answers_execPowerCap {src : Src} (hs : Keeps φ s₀ s) : Answers φ s₀ (execPowerCap src s) := by
  unfold execPowerCap
  extract_lets _ _ _ s1 s2
  have h1 : Keeps φ s₀ s1 := .upd hs rfl
  have h2 : Keeps φ s₀ s2 := .serve h1
  exact .ite (.ite (.next (.serve hs)) (.next (.ite (.setDoor h2) h2))) (.next hs)

theorem answers_execMulchLevelStep (hs : Keeps φ s₀ s) : Answers φ s₀ (execMulchLevelStep s) := by
  unfold execMulchLevelStep
  extract_lets _ s1
  have h1 : Keeps φ s₀ s1 := .upd hs rfl
  exact .ite (.ite (.next (.noMulch h1)) (.next (.foldl (fun _ _ h2 => by
      extract_lets _
      exact .setBed h2) h1))) (.next hs)

theorem answers_execDroopDetect {source : BitVec 3}
    (hs : Keeps φ s₀ s) : Answers φ s₀ (execDroopDetect source s) := by
  unfold execDroopDetect
  extract_lets _
  exact .ite (.next (.upd hs rfl)) (.next hs)

theorem Keeps.readTemps {hottest : List (BitVec 12)} {sensor : List (BitVec 6)} {coolest : List (BitVec 12)}
    (hs : Keeps φ s₀ s) : Keeps φ s₀ (s.readTemps hottest sensor coolest) := by
  unfold State.readTemps
  extract_lets _ s1 s2 _ _ s3 _ s4 s5 _ _
  have h1 : Keeps φ s₀ s1 := .upd hs rfl
  have h2 : Keeps φ s₀ s2 := .foldl (fun _ _ h2 => .setReg h2) h1
  have h3 : Keeps φ s₀ s3 := .ite (.setDoor (.powerEvent h2)) h2
  have h4 : Keeps φ s₀ s4 := .ite (.ite h3 (.powerEvent (.setClk h3 rfl))) (.ite (.setClk h3 rfl) h3)
  have h5 : Keeps φ s₀ s5 := .powerEvent h4
  exact .ite (.setClk h5 rfl) h4

theorem answers_execThermalTripStop (hs : Keeps φ s₀ s) : Answers φ s₀ (execThermalTripStop s) := by
  unfold execThermalTripStop
  extract_lets s1
  have h1 : Keeps φ s₀ s1 := .stopSown hs
  split
  · exact .next hs
  · extract_lets s2 _ s3
    have h2 : Keeps φ s₀ s2 := .report h1
    have h3 : Keeps φ s₀ s3 := .upd h2 rfl
    exact .ite (.next (.recover h3)) (.next hs)

theorem answers_execHoldBegin (hs : Keeps φ s₀ s) : Answers φ s₀ (execHoldBegin s) := by
  unfold execHoldBegin
  extract_lets _
  exact .ite (.next (.noMulch (.upd hs rfl))) (.next hs)

theorem answers_execHoldEnd {base : BitVec 12} (hs : Keeps φ s₀ s) : Answers φ s₀ (execHoldEnd base s) := by
  unfold execHoldEnd
  extract_lets _ s1
  have h1 : Keeps φ s₀ s1 := .upd hs rfl
  split
  · exact .next hs
  · exact .ite (.next (.setFld h1)) (.next hs)

theorem answers_execPllLockLoss (hs : Keeps φ s₀ s) : Answers φ s₀ (execPllLockLoss s) := by
  unfold execPllLockLoss
  extract_lets s1 s2 _ s3
  have h1 : Keeps φ s₀ s1 := .report hs
  have h2 : Keeps φ s₀ s2 := .setFld h1
  have h3 : Keeps φ s₀ s3 := .upd h2 rfl
  exact .ite (.next (.recover h3)) (.next hs)

theorem answers_execEntropyHealthFail {die : BitVec 2}
    (hs : Keeps φ s₀ s) : Answers φ s₀ (execEntropyHealthFail die s) := by
  unfold execEntropyHealthFail
  extract_lets _ s1
  have h1 : Keeps φ s₀ s1 := .upd hs rfl
  exact .ite (.next hs) (.next (.report h1))

theorem answers_execEntropyWordDelivery {die : BitVec 2} {words : List W64}
    (hs : Keeps φ s₀ s) : Answers φ s₀ (execEntropyWordDelivery die words s) := by
  unfold execEntropyWordDelivery
  extract_lets _ _ s1
  have h1 : Keeps φ s₀ s1 := .upd hs rfl
  exact .ite (.next (.foldl (fun _ _ h2 => by
      split
      · exact h2
      · extract_lets _
        exact .ite (.setBed h2) h2) h1)) (.next hs)

end Sys2Proof.Machine
end

section
/-! PROOFS. What each operation of these parts of the model keeps: links, training, sowing, frost and thaw. -/

namespace Sys2Proof.Machine

variable {φ : Bool × Bool} {i : Bool} {s₀ s t : State}

/-! ## Links -/

theorem Keeps.wire {l : Nat} {bytes : List Byte} (hs : Keeps φ s₀ s) : Keeps φ s₀ (s.wire l bytes) := by
  unfold State.wire
  extract_lets _ _
  exact .setLink hs

theorem Keeps.traceLink {l : Nat} {kind : Byte} {h : Hdr} {sender : Nat}
    (hs : Keeps φ s₀ s) : Keeps φ s₀ (s.traceLink l kind h sender) := by
  unfold State.traceLink
  extract_lets _
  exact .ite (.trace (.draw hs)) hs

theorem Keeps.sideband {l : Nat} (hs : Keeps φ s₀ s) : Keeps φ s₀ (s.sideband l).2 := by
  unfold State.sideband
  extract_lets _ _
  split
  · exact .upd hs rfl
  · split
    · exact hs
    · exact hs

theorem Keeps.launch {l : Nat} {h : Hdr} {payload : List Byte}
    (hs : Keeps φ s₀ s) : Keeps φ s₀ (s.launch l h payload).1 := by
  unfold State.launch
  extract_lets _ _ _ _ s1 _ s2 _
  have h1 : Keeps φ s₀ s1 := .sideband hs
  have h2 : Keeps φ s₀ s2 := .setLink h1
  exact .wire (.traceLink h2)

theorem Keeps.stamped {x : TxItem} (hs : Keeps φ s₀ s) : Keeps φ s₀ (s.stamped x).2 := by
  unfold State.stamped
  extract_lets _
  split
  · exact .draw (w := 4096) hs
  · exact hs

theorem Keeps.sendItem {l : Nat} {t : TxItem} (hs : Keeps φ s₀ s) : Keeps φ s₀ (s.sendItem l t) := by
  unfold State.sendItem
  extract_lets _ _ _ _ _ _ _
  exact .setLink (.launch (.setLink (.stamped hs)))

theorem answers_execFlitSend {l : BitVec 5} (hs : Keeps φ s₀ s) : Answers φ s₀ (execFlitSend l s) := by
  unfold execFlitSend
  extract_lets _ _
  split
  · exact .next hs
  · split
    · split
      · exact .next (.ite hs (.sendItem hs))
      · exact .next hs
    · split
      · exact .next (.launch (.setLink hs))
      · split
        · extract_lets s1
          have h1 : Keeps φ s₀ s1 := .setLink hs
          split
          · exact .next (.wire (.traceLink h1))
          · exact .next h1
        · split
          · exact .next (.launch hs)
          · split
            · exact .next (.sendItem hs)
            · split
              · split
                · exact .next (.sendItem hs)
                · exact .next hs
              · exact .next (.launch hs)

theorem Keeps.unsend {ts : List TxItem} (hs : Keeps φ s₀ s) : Keeps φ s₀ (s.unsend ts) := by
  unfold State.unsend
  exact .foldl (fun _ _ h1 => by
    extract_lets _
    exact .ite (.setPlot h1) h1) hs

theorem Keeps.retree {kids : List Nat} (hs : Keeps φ s₀ s) : Keeps φ s₀ (s.retree kids) := by
  unfold State.retree
  extract_lets _ _ _ _
  exact .foldl (fun _ _ h1 => by
      extract_lets _ _
      exact .setLink h1) hs

theorem Keeps.linkDown {l cause : Nat} (hs : Keeps φ s₀ s) : Keeps φ s₀ (s.linkDown l cause) := by
  unfold State.linkDown
  extract_lets _ _ _ s1 s2 s3 s4 s5
  have h1 : Keeps φ s₀ s1 := .ite hs (.setReg hs)
  have h2 : Keeps φ s₀ s2 := .unsend h1
  have h3 : Keeps φ s₀ s3 := .setLink h2
  have h4 : Keeps φ s₀ s4 := .retree h3
  have h5 : Keeps φ s₀ s5 := .report h4
  exact .foldl (fun _ _ h6 => .ite (.stopPlot h6) h6) h5

theorem answers_execLinkSilenceTimeout {l : BitVec 5}
    (hs : Keeps φ s₀ s) : Answers φ s₀ (execLinkSilenceTimeout l s) := by
  unfold execLinkSilenceTimeout
  extract_lets _
  exact .ite (.next (.linkDown hs)) (.next hs)

theorem answers_execFlitAlignmentLost {l : BitVec 5}
    (hs : Keeps φ s₀ s) : Answers φ s₀ (execFlitAlignmentLost l s) := by
  unfold execFlitAlignmentLost
  exact .ite (.next (.linkDown hs)) (.next hs)

theorem Keeps.replayEvent {l : Nat} {x : TxHeld} (hs : Keeps φ s₀ s) : Keeps φ s₀ (s.replayEvent l x) := by
  unfold State.replayEvent
  exact .foldl (fun _ _ h1 => .event h1) hs

theorem Keeps.startReplay {l seq : Nat} (hs : Keeps φ s₀ s) : Keeps φ s₀ (s.startReplay l seq) := by
  unfold State.startReplay
  extract_lets _ _ s1 s2 s3 _ _ s4
  have h1 : Keeps φ s₀ s1 := .bump hs
  have h2 : Keeps φ s₀ s2 := .foldl (fun _ _ h2 => by
      extract_lets _
      exact .ite (.setRunRec h2) h2) h1
  have h3 : Keeps φ s₀ s3 := .foldl (fun _ _ h3 => .replayEvent h3) h2
  have h4 : Keeps φ s₀ s4 := .setLink h3
  exact .ite hs (.ite (.linkDown h4) h4)

theorem answers_execReplayTimeout {l : BitVec 5} (hs : Keeps φ s₀ s) : Answers φ s₀ (execReplayTimeout l s) := by
  unfold execReplayTimeout
  extract_lets _ _
  split
  · exact .next hs
  · exact .ite (.next (.startReplay (.bump hs))) (.next hs)

theorem Keeps.ackTo {l n : Nat} (hs : Keeps φ s₀ s) : Keeps φ s₀ (s.ackTo l n) := by
  unfold State.ackTo
  extract_lets _ _ _
  exact .ite (.setLink (.unsend hs)) hs

theorem Keeps.credit {l flow n : Nat} (hs : Keeps φ s₀ s) : Keeps φ s₀ (s.credit l flow n) := by
  unfold State.credit
  extract_lets _
  exact .setLink hs

theorem Keeps.sidebandIn {l : Nat} {w : BitVec 32} (hs : Keeps φ s₀ s) : Keeps φ s₀ (s.sidebandIn l w) := by
  unfold State.sidebandIn
  extract_lets _ _ _ _
  exact .ite (.ite (.upd hs rfl) (.settle (.upd hs rfl))) hs

theorem Keeps.headerIn {l : Nat} {h : Hdr} (hs : Keeps φ s₀ s) : Keeps φ s₀ (s.headerIn l h) := by
  unfold State.headerIn
  exact .sidebandIn (.credit (.ackTo (.traceLink hs)))

theorem Keeps.outOfOrder {l : Nat} (hs : Keeps φ s₀ s) : Keeps φ s₀ (s.outOfOrder l) := by
  unfold State.outOfOrder
  extract_lets _ _
  split
  · exact .ite hs (.setLink hs)
  · exact .setLink hs

theorem Keeps.thawOrderIn {l : Nat} {wire : List Byte} (hs : Keeps φ s₀ s) : Keeps φ s₀ (s.thawOrderIn l wire) := by
  unfold State.thawOrderIn
  extract_lets _ _
  split
  · exact hs
  · extract_lets _ _ _
    exact .ite (.flood (.setLink hs)) hs

theorem Keeps.capture {l kind : Nat} {wire : List Byte} (hs : Keeps φ s₀ s) : Keeps φ s₀ (s.capture l kind wire) := by
  unfold State.capture
  extract_lets s1 _
  have h1 : Keeps φ s₀ s1 := .ite (.thawOrderIn hs) hs
  exact .ite (.setLink h1) hs

theorem Keeps.receive {l kind : Nat} {wire : List Byte} {f : Hdr → List Byte → State → State}
    (hf : ∀ a0 a1 t, Keeps φ s₀ t → Keeps φ s₀ (f a0 a1 t)) (hs : Keeps φ s₀ s) :
    Keeps φ s₀ (s.receive l kind wire f) := by
  unfold State.receive
  extract_lets _ _ s1 _ _
  have h1 : Keeps φ s₀ s1 := .setLink hs
  split
  · exact hs
  · split
    · exact .capture hs
    · split
      · exact .bump h1
      · extract_lets _ s2 _ _ s3 _ s4
        have h2 : Keeps φ s₀ s2 := .bump h1
        have h3 : Keeps φ s₀ s3 := .setLink h2
        have h4 : Keeps φ s₀ s4 := .ite (.setLink h3) h3
        exact .ite (.bump h2) (.ite h2 (.ite hs (.ite (.outOfOrder h3) (hf _ _ _ (.headerIn h4)))))

theorem Keeps.nakIn {l : Nat} {h : Hdr} (hs : Keeps φ s₀ s) : Keeps φ s₀ (Machine.nakIn l h s) := by
  unfold Machine.nakIn
  exact .startReplay (.bump hs)

theorem Keeps.dataIn {l : Nat} {h : Hdr} {payload : List Byte}
    (hs : Keeps φ s₀ s) : Keeps φ s₀ (Machine.dataIn l h payload s) := by
  unfold Machine.dataIn
  extract_lets _
  exact .setLink hs

theorem Keeps.takeRun {l flow c : Nat} (hs : Keeps φ s₀ s) : Keeps φ s₀ (s.takeRun l flow c) := by
  unfold State.takeRun
  extract_lets _ _ s1 s2
  have h1 : Keeps φ s₀ s1 := .setLink hs
  have h2 : Keeps φ s₀ s2 := .setLink hs
  split
  · exact hs
  · extract_lets _ _ _ _
    exact .ite hs (.ite (.deliver (.owe h1)) (.ite hs (.combine (.setPlot h2))))

theorem Keeps.collIn {l : Nat} {h : Hdr} {payload : List Byte}
    (hs : Keeps φ s₀ s) : Keeps φ s₀ (Machine.collIn l h payload s) := by
  unfold Machine.collIn
  extract_lets _ s1
  have h1 : Keeps φ s₀ s1 := .setLink hs
  exact .ite (.owe hs) (.ite h1 (.takeRun h1))

theorem Keeps.takeRuns {l : Nat} (hs : Keeps φ s₀ s) : Keeps φ s₀ (s.takeRuns l) := by
  unfold State.takeRuns
  exact .foldl (fun _ _ h1 => .takeRun h1) hs

theorem Keeps.landMessage {p l b : Nat} {w : Window} {before bytes : List Byte} {ends : Bool} {dues : List Nat}
    (hs : Keeps φ s₀ s) : Keeps φ s₀ (s.landMessage p l b w before bytes ends dues) := by
  unfold State.landMessage
  extract_lets s1 _ _ _ s2
  have h1 : Keeps φ s₀ s1 := .sendWords hs
  have h2 : Keeps φ s₀ s2 := .setBed h1
  exact .ite (.arrive h2) h1

theorem Keeps.takeFlits {l f : Nat} {m : List RxItem} {kept : List Byte}
    (hs : Keeps φ s₀ s) : Keeps φ s₀ (s.takeFlits l f m kept) := by
  unfold State.takeFlits
  extract_lets _
  exact .owe (.setLink hs)

theorem answers_execMessageLand {l : BitVec 5} {f : BitVec 4}
    (hs : Keeps φ s₀ s) : Answers φ s₀ (execMessageLand l f s) := by
  unfold execMessageLand
  extract_lets _ _ _ _ _
  split
  · extract_lets _ _ _ s1 _ _
    have h1 : Keeps φ s₀ s1 := .takeFlits hs
    split
    · exact .next (.takeFlits hs)
    · split
      · exact .next hs
      · split
        · exact .next (.stopPlot (.report hs))
        · exact .next (.foldl (fun _ _ h2 => .landMessage h2) h1)
  · exact .next hs

/-! ## Training -/

theorem Keeps.means {theta2 delay2 : Int} (hs : Keeps φ s₀ s) : Keeps φ s₀ (s.means theta2 delay2).2 := .upd hs rfl

theorem Keeps.measured {l : Nat} {theta delay : Int} (hs : Keeps φ s₀ s) : Keeps φ s₀ (s.measured l theta delay) := by
  unfold State.measured
  exact .setReg (.setReg hs)

theorem Keeps.train {l : Nat} {env : LinkEnv} (hs : Keeps φ s₀ s) : Keeps φ s₀ (s.train l env) := by
  unfold State.train
  extract_lets _ _ _ _ _ _ s1 _ _ s2
  have h1 : Keeps φ s₀ s1 := .setLink hs
  have h2 : Keeps φ s₀ s2 := .ite (.measured (.means h1)) h1
  exact .ite (.retree (.setLink hs)) (.ite (.linkDown h1) (.retree h2))

theorem Keeps.trainEnd {l : Nat} (hs : Keeps φ s₀ s) : Keeps φ s₀ (s.trainEnd l) := by
  unfold State.trainEnd
  exact .ite (.setDoor (.answer hs)) hs

theorem answers_execLinkTrain {l : BitVec 5} {env : LinkEnv}
    (hs : Keeps φ s₀ s) : Answers φ s₀ (execLinkTrain l env s) := by
  unfold execLinkTrain
  extract_lets _
  exact .ite (.next (.trainEnd (.train hs))) (.next hs)

theorem answers_execLinkTrainRetry {l : BitVec 5} {env : LinkEnv}
    (hs : Keeps φ s₀ s) : Answers φ s₀ (execLinkTrainRetry l env s) := by
  unfold execLinkTrainRetry
  extract_lets _
  exact .ite (.next (.train hs)) (.next hs)

theorem Keeps.retrain {l : Nat} (hs : Keeps φ s₀ s) : Keeps φ s₀ (s.retrain l) := by
  unfold State.retrain
  extract_lets s1 _
  have h1 : Keeps φ s₀ s1 := .ite (.linkDown hs) hs
  exact .ite hs (.setLink h1)

theorem Keeps.disable {l : Nat} {on : Bool} (hs : Keeps φ s₀ s) : Keeps φ s₀ (s.disable l on) := by
  unfold State.disable
  extract_lets s1 _ _
  have h1 : Keeps φ s₀ s1 := .ite (.linkDown hs) hs
  exact .ite (.setLink h1) (.ite (.setLink hs) hs)

theorem answers_execLinkRetrain {src : Src} (hs : Keeps φ s₀ s) : Answers φ s₀ (execLinkRetrain src s) := by
  unfold execLinkRetrain
  extract_lets _
  exact .ite (.ite (.next (.serve hs)) (.ite (.next (.serve hs)) (.next (.await (.retrain hs))))) (.next hs)

theorem answers_execLinkDisable {src : Src} (hs : Keeps φ s₀ s) : Answers φ s₀ (execLinkDisable src s) := by
  unfold execLinkDisable
  extract_lets _ _ s1
  have h1 : Keeps φ s₀ s1 := .setFld hs
  exact .ite (.ite (.next (.serve hs)) (.next (.setDoor (.serve (.disable h1))))) (.next hs)

theorem answers_execSundialRecheck {l : BitVec 5} {probes : List Probe}
    (hs : Keeps φ s₀ s) : Answers φ s₀ (execSundialRecheck l probes s) := by
  unfold execSundialRecheck
  extract_lets _ _ r _ s1 s2 _ s3
  have h0 : Keeps φ s₀ r.2 := .means hs
  have h1 : Keeps φ s₀ s1 := .measured (.setLink h0)
  have h2 : Keeps φ s₀ s2 := .ite h1 (.setReg h1)
  clear_value s2
  have h3 : Keeps φ s₀ s3 := .slip h2
  split
  · exact .ite (.next (.report h3)) (.next h1)
  · exact .next hs

theorem answers_execCompanionStart {src : Src} (hs : Keeps φ s₀ s) : Answers φ s₀ (execCompanionStart src s) := by
  unfold execCompanionStart
  extract_lets _ _ _ s1 s2
  have h1 : Keeps φ s₀ s1 := .upd hs rfl
  have h2 : Keeps φ s₀ s2 := .setFld (.setFld (.setFld h1))
  split
  · split
    · exact .next (.serve hs)
    · split
      · exact .next (.complete hs)
      · exact .ite (.next (.serve hs)) (.next (.serve h2))
  · exact .next hs

theorem answers_execCompanionStop {src : Src} (hs : Keeps φ s₀ s) : Answers φ s₀ (execCompanionStop src s) := by
  unfold execCompanionStop
  extract_lets _ s1
  have h1 : Keeps φ s₀ s1 := .upd hs rfl
  exact .ite (.ite (.next (.serve (.setFld h1))) (.next (.serve hs))) (.next hs)

theorem answers_execCompanionRecordTimeout (hs : Keeps φ s₀ s) : Answers φ s₀ (execCompanionRecordTimeout s) := by
  unfold execCompanionRecordTimeout
  extract_lets _ _ _
  split
  · split
    · exact .next hs
    · extract_lets s1
      have h1 : Keeps φ s₀ s1 := .upd hs rfl
      exact .next (.mismatch h1)
  · exact .next hs

/-! ## Sowing -/

theorem Keeps.askedDone {q : Asked} (hs : Keeps φ s₀ s) : Keeps φ s₀ (s.askedDone q) := by
  unfold State.askedDone
  extract_lets _ s1
  have h1 : Keeps φ s₀ s1 := .upd hs rfl
  exact .ite (.complete h1) hs

theorem Keeps.sowAnswer {tick : Nat} {dig : BitVec 256} {a : SowAns} {code : Nat}
    (hs : Keeps φ s₀ s) : Keeps φ s₀ (s.sowAnswer tick dig a code) := by
  unfold State.sowAnswer
  extract_lets _
  split
  · extract_lets _
    exact .askedDone (.upd hs rfl)
  · split
    · exact .sendControl hs
    · exact hs

theorem Keeps.ctlIn {l : Nat} {h : Hdr} {payload : List Byte}
    (hs : Keeps φ s₀ s) : Keeps φ s₀ (Machine.ctlIn l h payload s) := by
  unfold Machine.ctlIn
  extract_lets _ _ _ _ _ s1 _ s2 _ _
  have h1 : Keeps φ s₀ s1 := .upd hs rfl
  have h2 : Keeps φ s₀ s2 := .setLink h1
  split
  · exact .sendControl (.draw hs)
  · exact .flood h2
  · exact .flood (.setLink hs)
  · exact .sowAnswer hs
  · exact .setLink hs
  · exact hs

theorem Keeps.takeOrder {l code tick : Nat} {rest : List Byte} (hs : Keeps φ s₀ s)
    (h : s.takeOrder l code tick rest = some t) : Keeps φ s₀ t := by
  simp only [State.takeOrder] at h
  split at h
  · cases h
    exact .setLink hs
  · cases h

theorem answers_execMmSowOrder {l : BitVec 5} {tick : W64} {digest : BitVec 256}
    (hs : Keeps φ s₀ s) : Answers φ s₀ (execMmSowOrder l tick digest s) := by
  unfold execMmSowOrder
  split
  · exact .next hs
  next s1 heq =>
    have h1 : Keeps φ s₀ s1 := .takeOrder hs heq
    split
    · exact .next (.sowAnswer h1)
    · exact .ite (.next (.sowAnswer h1)) (.ite (.next (.sowAnswer h1)) (.next (.setPlot h1)))

theorem answers_execSow {src : Src} (hs : Keeps φ s₀ s) : Answers φ s₀ (execSow src s) := by
  unfold execSow
  extract_lets _ _ _ _ _ _ s1 s2 _ _ s3
  have h1 : Keeps φ s₀ s1 := .setPlot hs
  have h2 : Keeps φ s₀ s2 := .await h1
  have h3 : Keeps φ s₀ s3 := .upd h2 rfl
  exact .ite (.ite (.next (.complete hs)) (.ite (.next (.complete hs)) (.ite (.next (.complete hs)) (.ite (.next
      (.complete hs)) (.ite (.next (.complete hs)) (.ite (.next (.complete hs)) (.ite (.next (.complete hs)) (.ite (.next (.flood h3)) (.next h2))))))))) (.next hs)

theorem Keeps.openRec {p : Nat} (hs : Keeps φ s₀ s) : Keeps φ s₀ (s.openRec p) := by
  unfold State.openRec
  extract_lets _
  exact .setRunRec hs

theorem Keeps.sowPlot {p : Nat} (hs : Keeps φ s₀ s) : Keeps φ s₀ (s.sowPlot p) := by
  unfold State.sowPlot
  extract_lets _ _ s1 s2 _ _
  have h1 : Keeps φ s₀ s1 := .setPlot hs
  have h2 : Keeps φ s₀ s2 := .openRec (.mapBeds h1)
  exact .ite (.setPlot (.setRunRec h2)) h2

theorem Keeps.dropAsked {p : Nat} {bad : Bool} (hs : Keeps φ s₀ s) : Keeps φ s₀ (s.dropAsked p bad) := by
  unfold State.dropAsked
  extract_lets _ _
  exact .upd hs rfl

theorem Keeps.refuseSow {p code : Nat} (hs : Keeps φ s₀ s) : Keeps φ s₀ (s.refuseSow p code) := by
  unfold State.refuseSow
  extract_lets _ s1
  have h1 : Keeps φ s₀ s1 := .setPlot hs
  split
  · exact h1
  · exact .ite (.dropAsked h1) (.complete h1)

theorem answers_execPlotSow {p : BitVec 4} (hs : Keeps φ s₀ s) : Answers φ s₀ (execPlotSow p s) := by
  unfold execPlotSow
  extract_lets _ _ s1
  have h1 : Keeps φ s₀ s1 := .sowPlot hs
  split
  · exact .next hs
  · extract_lets _ s2
    have h2 : Keeps φ s₀ s2 := .refuseSow hs
    exact .ite (.ite (.next (.ite (.sowAnswer h1) h1)) (.next (.ite (.sowAnswer h2) h2))) (.next hs)

theorem Keeps.leaveLinks {p : Nat} (hs : Keeps φ s₀ s) : Keeps φ s₀ (s.leaveLinks p) := by
  unfold State.leaveLinks
  extract_lets _ _
  exact .foldl (fun _ _ h1 => by
      extract_lets _ _ _
      exact .setLink h1) hs

theorem Keeps.release {p : Nat} (hs : Keeps φ s₀ s) : Keeps φ s₀ (s.release p) := by
  unfold State.release
  extract_lets _ s1 s2 _ s3 s4 s5
  have h1 : Keeps φ s₀ s1 := .foldl (fun _ _ h1 => .landWord h1) hs
  have h2 : Keeps φ s₀ s2 := .leaveLinks (.foldl (fun _ _ h2 => .takeCargo h2) h1)
  have h3 : Keeps φ s₀ s3 := .foldl (fun _ _ h3 => by
      exact .foldl (fun _ _ h4 => by
      extract_lets _
      exact .ite (.setChan h4) h4) h3) h2
  have h4 : Keeps φ s₀ s4 := .mapBeds h3
  have h5 : Keeps φ s₀ s5 := .ite (.setFld h4) h4
  exact .setPlot h5

theorem answers_execPlotComplete {p : BitVec 4} (hs : Keeps φ s₀ s) : Answers φ s₀ (execPlotComplete p s) := by
  unfold execPlotComplete
  extract_lets _ _ s1 s2 _ s3 s4
  have h1 : Keeps φ s₀ s1 := .closeRec hs
  have h2 : Keeps φ s₀ s2 := .compare h1
  have h3 : Keeps φ s₀ s3 := .release h2
  have h4 : Keeps φ s₀ s4 := by
    unfold s4
    split
    · exact .unask (.complete h3)
    · exact h3
  exact .ite (.next (.boundary (.answer h4))) (.next hs)

theorem answers_execUnload {src : Src} (hs : Keeps φ s₀ s) : Answers φ s₀ (execUnload src s) := by
  unfold execUnload
  extract_lets _ _ s1
  have h1 : Keeps φ s₀ s1 := by
    unfold s1
    split
    · exact .ite (.sowAnswer (.dropAsked hs)) (.complete hs)
    · split
      · exact .sowAnswer hs
      · exact hs
  exact .ite (.ite (.next (.complete hs)) (.ite (.next (.await (.setPlot hs)))
    (.next (.complete (.answer (.release h1)))))) (.next hs)

theorem answers_execUnloadStop {p : BitVec 4} (hs : Keeps φ s₀ s) : Answers φ s₀ (execUnloadStop p s) := by
  unfold execUnloadStop
  extract_lets _
  split
  · exact .next hs
  · exact .ite (.next (.answer (.release (.stopPlot hs)))) (.next hs)

theorem answers_execRecord {src : Src} (hs : Keeps φ s₀ s) : Answers φ s₀ (execRecord src s) := by
  unfold execRecord
  extract_lets _ _ _ _ _ _ _ s1
  have h1 : Keeps φ s₀ s1 := .upd hs rfl
  exact .ite (.ite (.next (.complete hs)) (.ite (.next (.complete hs)) (.ite (.next (.complete hs)) (.ite (.next hs)
      (.next (.complete h1)))))) (.next hs)

/-! ## Frost and thaw -/

theorem answers_execFrost {src : Src} (hs : Keeps φ s₀ s) : Answers φ s₀ (execFrost src s) := by
  unfold execFrost
  extract_lets _ _ _ _ _ _ s1 s2
  have h1 : Keeps φ s₀ s1 := .upd hs rfl
  have h2 : Keeps φ s₀ s2 := .ite (.flood h1) h1
  exact .ite (.ite (.next (.serve hs)) (.ite (.next (.serve hs)) (.ite (.next (.serve hs)) (.next (.serve h2)))))
      (.next hs)

theorem answers_execMmFrostOrder {l : BitVec 5} {tick : W64}
    (hs : Keeps φ s₀ s) : Answers φ s₀ (execMmFrostOrder l tick s) := by
  unfold execMmFrostOrder
  split
  · exact .next hs
  next s1 heq =>
    have h1 : Keeps φ s₀ s1 := .takeOrder hs heq
    exact .ite (.next h1) (.next (.upd h1 rfl))

theorem Keeps.markReads (hs : Keeps φ s₀ s) : Keeps φ s₀ (s.markReads) := by
  unfold State.markReads
  exact .foldl (fun _ _ h1 => by
    extract_lets _
    split
    · exact .ite (.setChan h1) h1
    · exact h1) hs

theorem Keeps.resumeReads (hs : Keeps φ s₀ s) : Keeps φ s₀ (s.resumeReads) := by
  unfold State.resumeReads
  exact .foldl (fun _ _ h1 => by
    split
    · exact .ite (.dropProbe (.logged (.carry h1))) h1
    · exact h1) hs

theorem answers_execFrostCut (hs : Keeps (false, false) s₀ s) : Answers (false, false) s₀ (execFrostCut s) := by
  unfold execFrostCut
  split
  · exact .next hs
  · extract_lets _ s1
    have h1 : Keeps (false, false) s₀ s1 := .upd (.updDbg hs) rfl
    exact .ite (.next (.setDoor (.markReads h1))) (.next hs)

theorem answers_execThaw {src : Src}
    (hs : Keeps (false, false) s₀ s) : Answers (false, false) s₀ (execThaw src s) := by
  unfold execThaw
  extract_lets _ _ _ _ _ _ s1 s2
  have h1 : Keeps (false, false) s₀ s1 := .updDbg hs
  have h2 : Keeps (false, false) s₀ s2 := .ite (.flood h1) h1
  exact .ite (.ite (.next (.serve hs)) (.ite (.next (.serve hs)) (.ite (.next (.serve hs)) (.ite (.next (.serve hs))
    (.next (.serve h2)))))) (.next hs)

theorem answers_execMmThawOrder {l : BitVec 5} {tick : W64}
    (hs : Keeps (false, false) s₀ s) : Answers (false, false) s₀ (execMmThawOrder l tick s) := by
  unfold execMmThawOrder
  split
  · exact .next hs
  next s1 heq =>
    have h1 : Keeps (false, false) s₀ s1 := .takeOrder hs heq
    exact .ite (.next h1) (.next (.updDbg h1))

theorem Keeps.shiftLinks {d : Nat} (hs : Keeps φ s₀ s) : Keeps φ s₀ (s.shiftLinks d) := by
  unfold State.shiftLinks
  extract_lets _ _ _ s1
  have h1 : Keeps φ s₀ s1 := .upd hs rfl
  exact .foldl (fun _ _ h2 => .setLink h2) h1

theorem Keeps.deliverFlit {l : Nat} {wire : List Byte} (hs : Keeps φ s₀ s) : Keeps φ s₀ (s.deliverFlit l wire) := by
  unfold State.deliverFlit
  split
  · exact .receive (fun _ _ _ h1 => h1) hs
  · exact .receive (fun _ _ _ h1 => .dataIn h1) hs
  · exact .receive (fun _ _ _ h1 => .collIn h1) hs
  · exact .receive (fun _ _ _ h1 => .ctlIn h1) hs
  · exact .receive (fun _ _ _ h1 => .nakIn h1) hs

theorem Keeps.deliverCaptured (hs : Keeps φ s₀ s) : Keeps φ s₀ (s.deliverCaptured) := by
  unfold State.deliverCaptured
  exact .foldl (fun _ _ h1 => by
    extract_lets _
    exact .foldl (fun _ _ h2 => .deliverFlit h2) (.setLink h1)) hs

theorem Keeps.shiftUnits {t u : Nat} (hs : Keeps φ s₀ s) : Keeps φ s₀ (s.shiftUnits t u) := by
  unfold State.shiftUnits
  extract_lets _ s1
  have h1 : Keeps φ s₀ s1 := .foldl (fun _ _ h1 => by
      extract_lets _
      exact .setWalker h1) hs
  exact .foldl (fun _ _ h2 => by
      extract_lets _
      split
      · exact .ite (.setBed h2) h2
      · exact h2) h1

theorem Keeps.frostEvents {t u : Nat} (hs : Keeps φ s₀ s) : Keeps φ s₀ (s.frostEvents t u) := by
  unfold State.frostEvents
  exact .foldl (fun _ _ h1 => by
    extract_lets s2 _
    have h2 : Keeps φ s₀ s2 := .event h1
    exact .ite (.setRunRec h2) h2) hs

theorem answers_execThawResume (hs : Keeps (false, false) s₀ s) : Answers (false, false) s₀ (execThawResume s) := by
  unfold execThawResume
  split
  · exact .next hs
  · extract_lets _ _ _ _ s1 s2
    have h1 : Keeps (false, false) s₀ s1 := .upd (.updDbg hs) rfl
    have h2 : Keeps (false, false) s₀ s2 := .ite (.deliverCaptured (.shiftLinks h1)) (.foldl
        (fun _ _ h2 => .takeRuns h2) h1)
    exact .ite (.next (.setDoor (.resumeReads (.frostEvents (.shiftUnits h2))))) (.next hs)

theorem answers_execHarvest {src : Src} (hs : Keeps φ s₀ s) : Answers φ s₀ (execHarvest src s) := by
  unfold execHarvest
  extract_lets _ _ s1
  have h1 : Keeps φ s₀ s1 := .upd hs rfl
  exact .ite (.ite (.next (.serve hs)) (.next (.await (.setFld h1)))) (.next hs)

theorem Keeps.endHarvest {h : Harvest} {n : Nat} {stopped : Bool}
    (hs : Keeps φ s₀ s) : Keeps φ s₀ (s.endHarvest h n stopped) := by
  unfold State.endHarvest
  extract_lets _ _ _ s1 s2
  have h1 : Keeps φ s₀ s1 := .upd hs rfl
  have h2 : Keeps φ s₀ s2 := .setFld (.setFld (.setFld (.setFld h1)))
  exact .serve h2

theorem answers_execHarvestComplete {written : BitVec 32}
    (hs : Keeps φ s₀ s) : Answers φ s₀ (execHarvestComplete written s) := by
  unfold execHarvestComplete
  split
  · exact .next hs
  · extract_lets _
    split
    · exact .next hs
    · split
      · exact .next (.endHarvest hs)
      · split
        · exact .ite (.next (.endHarvest hs)) (.next hs)
        · exact .next hs

theorem Keeps.readHv (hs : Keeps φ s₀ s) : Keeps φ s₀ (s.readHv).2 := by
  unfold State.readHv
  extract_lets _ s1 s2
  have h1 : Keeps φ s₀ s1 := .upd hs rfl
  have h2 : Keeps φ s₀ s2 := .setFld h1
  exact .ite (.setFld h2) h2

theorem answers_execHvDataRead (hs : Keeps φ s₀ s) : Answers φ s₀ (execHvDataRead s) := by
  unfold execHvDataRead
  extract_lets _ s1 _
  have h1 : Keeps φ s₀ s1 := .readHv hs
  exact .next (.upd h1 rfl)

theorem answers_execSamplerSample (hs : Keeps φ s₀ s) : Answers φ s₀ (execSamplerSample s) := by
  unfold execSamplerSample
  extract_lets _ _ _ s1 _ _ _ s2
  have h1 : Keeps φ s₀ s1 := .upd hs rfl
  have h2 : Keeps φ s₀ s2 := .upd h1 rfl
  exact .ite (.ite (.next (.setFld (.bump h2))) (.next (.bump h1))) (.next hs)

end Sys2Proof.Machine
end

section
/-! PROOFS. What each operation of these parts of the model keeps: rings, security, start-up, copies, faults, fencing, loading, registers, the TAP, the tick. -/

namespace Sys2Proof.Machine

variable {φ : Bool × Bool} {i : Bool} {s₀ s t : State}

/-! ## Rings and doorbells -/

theorem Keeps.bar0 {rid : BitVec 16} {f : State → State} (hf : ∀ t, Keeps φ s₀ t → Keeps φ s₀ (f t))
    (hs : Keeps φ s₀ s) : Keeps φ s₀ (s.bar0 rid f) := by
  unfold State.bar0
  exact .ite hs (.ite (hf _ hs) (.bump hs))

theorem Keeps.bar2 {rid : BitVec 16} {f : State → State} (hf : ∀ t, Keeps φ s₀ t → Keeps φ s₀ (f t))
    (hs : Keeps φ s₀ s) : Keeps φ s₀ (s.bar2 rid f) := by
  unfold State.bar2
  exact .ite hs (.ite (.bump hs) (.bar0 (fun _ h1 => hf _ h1) hs))

theorem Keeps.writeTail {r v : Nat} (hs : Keeps φ s₀ s) : Keeps φ s₀ (s.writeTail r v) := by
  unfold State.writeTail
  extract_lets _ _ _ _ s1 _
  have h1 : Keeps φ s₀ s1 := .setRing hs
  exact .ite (.upd h1 rfl) (.bump hs)

theorem Keeps.writeHead {r v : Nat} (hs : Keeps φ s₀ s) : Keeps φ s₀ (s.writeHead r v) := by
  unfold State.writeHead
  extract_lets _ _ _
  exact .ite (.setRing hs) hs

theorem Keeps.writeRingCfg {r : Nat} {v : W64} (hs : Keeps φ s₀ s) : Keeps φ s₀ (s.writeRingCfg r v) := by
  unfold State.writeRingCfg
  extract_lets _ _ _ _
  exact .ite (.ite hs (.setRing (.setReg hs))) (.ite (.setReg hs) (.ite hs (.ite (.bump hs) (.setRing (.setReg hs)))))

theorem answers_execRingEnable {rid : BitVec 16} {r : BitVec 6} {v : W64}
    (hs : Keeps φ s₀ s) : Answers φ s₀ (execRingEnable rid r v s) := by
  unfold execRingEnable
  exact .ite (.next (.bar0 (fun _ h1 => .writeRingCfg h1) hs)) (.next hs)

theorem answers_execRingDisable {rid : BitVec 16} {r : BitVec 6} {v : W64}
    (hs : Keeps φ s₀ s) : Answers φ s₀ (execRingDisable rid r v s) := by
  unfold execRingDisable
  exact .ite (.next hs) (.next (.bar0 (fun _ h1 => .writeRingCfg h1) hs))

theorem answers_execDescriptorFetch {r : BitVec 6} {fail : Option (BitVec 3)}
    (hs : Keeps φ s₀ s) : Answers φ s₀ (execDescriptorFetch r fail s) := by
  unfold execDescriptorFetch
  extract_lets _ _ _ _ _ s1 _
  have h1 : Keeps φ s₀ s1 := .setRing hs
  split
  · exact .next hs
  · split
    · exact .ite (.next (.failRead hs)) (.next hs)
    · exact .next (.upd h1 rfl)

theorem answers_execDescriptorStart {r : BitVec 6} (hs : Keeps φ s₀ s) : Answers φ s₀ (execDescriptorStart r s) := by
  unfold execDescriptorStart
  extract_lets _ _ _ _ _ _ _ _ _ s1 _
  have h1 : Keeps φ s₀ s1 := .setRing hs
  exact .ite (.next hs) (.ite (.next (.complete h1)) (.ite (.next (.complete h1)) (.ite (.next (.complete h1))
      (.next h1))))

theorem answers_execNopDescriptor {src : Src} (hs : Keeps φ s₀ s) : Answers φ s₀ (execNopDescriptor src s) := by
  unfold execNopDescriptor
  exact .ite (.next (.complete hs)) (.next hs)

theorem answers_execCompletionPost {r : BitVec 6} (hs : Keeps φ s₀ s) : Answers φ s₀ (execCompletionPost r s) := by
  unfold execCompletionPost
  extract_lets _ _ _ _ _ s1 _ _ _ s2
  have h1 : Keeps φ s₀ s1 := .upd hs rfl
  have h2 : Keeps φ s₀ s2 := .setRing h1
  exact .ite (.next hs) (.next (.ite (.sendVector h2) h2))

theorem answers_execDbInSet {rid : BitVec 16} {v : BitVec 32}
    (hs : Keeps φ s₀ s) : Answers φ s₀ (execDbInSet rid v s) := by
  unfold execDbInSet
  exact .next (.bar2 (fun _ h1 => by
    extract_lets _
    exact .upd h1 rfl) hs)

theorem Keeps.clearDoors {v : BitVec 32} (hs : Keeps φ s₀ s) : Keeps φ s₀ (s.clearDoors v) := by
  unfold State.clearDoors
  extract_lets _ s1
  have h1 : Keeps φ s₀ s1 := .upd hs rfl
  exact .ite (.setDoor h1) h1

theorem Keeps.writeDoorMask {v : BitVec 32} (hs : Keeps φ s₀ s) : Keeps φ s₀ (s.writeDoorMask v) := by
  unfold State.writeDoorMask
  extract_lets _ _
  exact .foldl (fun _ _ h1 => .sendVector h1) (.upd hs rfl)

theorem Keeps.setInbox {i : Nat} {m : Mbox} (hs : Keeps φ s₀ s) : Keeps φ s₀ (s.setInbox i m) := by
  unfold State.setInbox
  extract_lets _
  exact .upd hs rfl

theorem Keeps.setOutbox {i : Nat} {m : Mbox} (hs : Keeps φ s₀ s) : Keeps φ s₀ (s.setOutbox i m) := by
  unfold State.setOutbox
  extract_lets _
  exact .upd hs rfl

theorem answers_execInboundMailboxTake {i : BitVec 3}
    (hs : Keeps φ s₀ s) : Answers φ s₀ (execInboundMailboxTake i s) := by
  unfold execInboundMailboxTake
  extract_lets _ _ _ s1 _ s2 s3 _
  have h1 : Keeps φ s₀ s1 := .setInbox hs
  have h2 : Keeps φ s₀ s2 := .upd h1 rfl
  have h3 : Keeps φ s₀ s3 := .setDoor h2
  exact .ite (.next hs) (.ite (.next (.complete h3)) (.ite (.next (.complete h3)) (.next h3)))

theorem Keeps.returnMbox {i : Nat} (hs : Keeps φ s₀ s) : Keeps φ s₀ (s.returnMbox i) := by
  unfold State.returnMbox
  extract_lets _
  exact .setOutbox hs

theorem answers_execPmD3hot (hs : Keeps φ s₀ s) : Answers φ s₀ (execPmD3hot s) := by
  unfold execPmD3hot
  extract_lets _
  exact .next (.upd hs rfl)

theorem answers_execPmD0 (hs : Keeps φ s₀ s) : Answers φ s₀ (execPmD0 s) := by
  unfold execPmD0
  extract_lets _
  exact .next (.upd hs rfl)

/-! ## Security -/

theorem answers_execOwnerEnrol {src : Src} (hs : Keeps φ s₀ s) : Answers φ s₀ (execOwnerEnrol src s) := by
  unfold execOwnerEnrol
  extract_lets _ _ _ _ _ s1
  have h1 : Keeps φ s₀ s1 := .upd hs rfl
  exact .ite (.ite (.next (.serve hs)) (.next (.await h1))) (.next hs)

theorem answers_execOwnerEnrolComplete (hs : Keeps φ s₀ s) : Answers φ s₀ (execOwnerEnrolComplete s) := by
  unfold execOwnerEnrolComplete
  extract_lets _ _ _
  split
  · extract_lets s1
    have h1 : Keeps φ s₀ s1 := .upd hs rfl
    exact .next (.serve h1)
  · exact .next hs

theorem Keeps.startReport (hs : Keeps φ s₀ s) : Keeps φ s₀ (s.startReport) := by
  unfold State.startReport
  extract_lets _
  split
  · extract_lets s1 _
    have h1 : Keeps φ s₀ s1 := .upd hs rfl
    exact .upd h1 rfl
  · exact hs

theorem answers_execAttest {src : Src} (hs : Keeps φ s₀ s) : Answers φ s₀ (execAttest src s) := by
  unfold execAttest
  extract_lets _ _ _ s1
  have h1 : Keeps φ s₀ s1 := .upd hs rfl
  exact .ite (.next (.startReport (.await h1))) (.next hs)

theorem answers_execAttestReportWritten (hs : Keeps φ s₀ s) : Answers φ s₀ (execAttestReportWritten s) := by
  unfold execAttestReportWritten
  extract_lets _ _
  split
  · extract_lets s1
    have h1 : Keeps φ s₀ s1 := .upd hs rfl
    exact .next (.startReport (.setDoor (.serve h1)))
  · exact .next hs

/-! ## Reset and start-up -/

theorem Keeps.atStep {step : Nat} (hs : Keeps φ s₀ s) : Keeps φ s₀ (s.atStep step) := by
  unfold State.atStep
  exact .setFld hs

theorem Keeps.status {code detail : Nat} (hs : Keeps φ s₀ s) : Keeps φ s₀ (s.status code detail) := by
  unfold State.status
  exact .setFld (.setFld hs)

theorem Keeps.fatal {step code detail : Nat} (hs : Keeps φ s₀ s) : Keeps φ s₀ (s.fatal step code detail) := by
  unfold State.fatal
  extract_lets s1 _
  have h1 : Keeps φ s₀ s1 := .setFld (.status (.atStep hs))
  exact .setPins h1

theorem Keeps.useSeed {x : BitVec 256 × Bool} (hs : Keeps φ s₀ s) : Keeps φ s₀ (s.useSeed x) := by
  unfold State.useSeed
  extract_lets _ _ _ _
  exact .upd hs rfl

theorem Keeps.useSlot {i : Nat} (hs : Keeps φ s₀ s) : Keeps φ s₀ (s.useSlot i) := by
  unfold State.useSlot
  extract_lets _ _ _ s1
  have h1 : Keeps φ s₀ s1 := .setSec hs
  exact .setReg h1

theorem Keeps.applyEntry {kind v : Nat} (hs : Keeps φ s₀ s) : Keeps φ s₀ (s.applyEntry kind v) := by
  unfold State.applyEntry
  extract_lets _
  split
  · exact .setReg hs
  · exact .setReg hs
  · exact .setReg hs
  · exact .setReg hs
  · exact .setReg hs
  · exact .upd hs rfl
  · exact .upd hs rfl
  · exact .upd hs rfl

theorem Keeps.bootGardeners (hs : Keeps φ s₀ s) : Keeps φ s₀ (s.bootGardeners) := by
  unfold State.bootGardeners
  extract_lets s1 _
  have h1 : Keeps φ s₀ s1 := .atStep hs
  exact .upd h1 rfl

theorem Keeps.bootDdr {env : BootEnv} (hs : Keeps φ s₀ s) : Keeps φ s₀ (s.bootDdr env) := by
  unfold State.bootDdr
  extract_lets s1 _ s2 _
  have h1 : Keeps φ s₀ s1 := .atStep hs
  have h2 : Keeps φ s₀ s2 := .foldl (fun _ _ h2 => by
      extract_lets _
      exact .setCtl h2) h1
  exact .ite (.status h2) h2

theorem Keeps.bootLinks {env : BootEnv} (hs : Keeps φ s₀ s) : Keeps φ s₀ (s.bootLinks env) := by
  unfold State.bootLinks
  extract_lets s1 s2 _
  have h1 : Keeps φ s₀ s1 := .atStep hs
  have h2 : Keeps φ s₀ s2 := .foldl (fun _ _ h2 => by
      extract_lets _
      split
      · exact .setLink (.setFld h2)
      · split
        · exact .train h2
        · exact h2) h1
  exact .ite (.status h2) h2

theorem Keeps.stepSundial {n : Int} (hs : Keeps (i, false) s₀ s) : Keeps (i, false) s₀ (s.stepSundial n) := by
  unfold State.stepSundial
  extract_lets _ s1 _ s2 _ s3
  have h2 : Keeps (i, false) s₀ s2 := .upd (.setReg hs) rfl
  have h3 : Keeps (i, false) s₀ s3 := .setSundial h2
  exact .foldl (fun _ _ h4 => .setLink h4) h3

theorem Keeps.formDomain {env : BootEnv} (hs : Keeps φ s₀ s) : Keeps φ s₀ (s.formDomain env) := by
  unfold State.formDomain
  extract_lets _ s1
  have h1 : Keeps φ s₀ s1 := .upd hs rfl
  exact .foldl (fun _ _ h2 => .sendControl h2) h1

theorem Keeps.ddrService (hs : Keeps φ s₀ s) : Keeps φ s₀ (s.ddrService) := by
  unfold State.ddrService
  exact .foldl (fun _ _ h1 => by
    extract_lets _
    exact .ite (.setCtl h1) h1) (.atStep hs)

theorem Keeps.bootBeds {env : BootEnv} (hs : Keeps φ s₀ s) : Keeps φ s₀ (s.bootBeds env) := by
  unfold State.bootBeds
  extract_lets s1 s2 _ _
  have h1 : Keeps φ s₀ s1 := .atStep hs
  have h2 : Keeps φ s₀ s2 :=
    ⟨h1.pending, h1.ice, h1.sundial, fun ht => { h1.tidy ht with beds := rising_range (n := 132) }⟩
  exact .ite (.status h2) h2

theorem aligned_sundial (c : Clk) : c.aligned.sundial = c.sundial := rfl

theorem Keeps.bootLast {env : BootEnv} (hs : Keeps φ s₀ s) : Keeps φ s₀ (s.bootLast env) := by
  unfold State.bootLast
  extract_lets s1 s2 _ s3 s4
  have h2 : Keeps φ s₀ s2 := .atStep (.setFld (.atStep (.bootBeds (.ddrService hs))))
  have h3 : Keeps φ s₀ s3 := .setClk h2 (aligned_sundial _)
  have h4 : Keeps φ s₀ s4 := .setDoor (.setFld (.setFld h3))
  exact .ite h3 (.ite (.setDoor h4) h4)

theorem Keeps.tryForm {env : BootEnv} {restarted : Bool}
    (hs : Keeps (i, false) s₀ s) (h : s.tryForm env restarted = some t) :
    Keeps (i, false) s₀ t := by
  unfold State.tryForm at h
  split at h
  · split at h
    · cases h
      exact .formDomain hs
    · cases h
  · split at h
    · obtain ⟨x, -, rfl⟩ := Option.map_eq_some_iff.mp h
      exact .formDomain (.stepSundial hs)
    · cases h

theorem Keeps.bootDomain {env : BootEnv} {cold restarted : Bool}
    (hs : Keeps (i, false) s₀ s) : Keeps (i, false) s₀ (s.bootDomain env cold restarted) := by
  unfold State.bootDomain
  extract_lets s1
  have h1 : Keeps (i, false) s₀ s1 := .atStep hs
  split
  next heq => exact .bootLast (.tryForm h1 heq)
  · exact .upd h1 rfl

theorem KeepsEither.bootKeys {env : BootEnv} (hs : Keeps φ s₀ s) : KeepsEither φ s₀ (s.bootKeys env) := by
  unfold State.bootKeys
  extract_lets s1 _ s2 s3 s4
  have h1 : Keeps φ s₀ s1 := .atStep hs
  have h2 : Keeps φ s₀ s2 := by
    unfold s2
    split
    · exact .useSeed h1
    · exact h1
  have h3 : Keeps φ s₀ s3 := .atStep h2
  have h4 : Keeps φ s₀ s4 := .ite (.useSlot h3) (.status (.useSlot h3))
  exact .ite (.error (.fatal h1)) (.ite (.error (.fatal h1)) (.ite (.ite (.error (.fatal h4)) (.ok (.atStep h4)))
    (.error (.fatal h3))))

theorem KeepsEither.bootRecords {is set : List Nat}
    (hs : Keeps φ s₀ s) : KeepsEither φ s₀ (s.bootRecords is set) := by
  induction is generalizing s set with
  | nil => exact .ok hs
  | cons i rest ih =>
    unfold State.bootRecords
    extract_lets _ s1 _ s2
    have h1 : Keeps φ s₀ s1 := .foldl (fun _ _ h => .applyEntry h) hs
    have h2 : Keeps φ s₀ s2 := .setSec h1
    exact .ite (ih hs) (.ite (ih h2) (.error (.fatal hs)))

theorem Keeps.bootFrom3 {env : BootEnv} {cold restarted : Bool}
    (hs : Keeps (i, false) s₀ s) : Keeps (i, false) s₀ (s.bootFrom3 env cold restarted) := by
  unfold State.bootFrom3
  extract_lets _ s1
  have h1 : KeepsEither (i, false) s₀ (s1.bootKeys env) := .bootKeys (.upd hs rfl)
  generalize s1.bootKeys env = e at h1 ⊢
  cases h1 with
  | error h1 => exact h1
  | @ok s2 h1 =>
    have h2 : KeepsEither (i, false) s₀ ((s2.atStep 6).bootRecords (List.range 64) []) := .bootRecords (.atStep h1)
    dsimp only
    generalize (s2.atStep 6).bootRecords (List.range 64) [] = e at h2 ⊢
    cases h2 with
    | error h2 => exact h2
    | ok h2 => exact .bootDomain (.bootLinks (.bootDdr (.bootGardeners h2)))

theorem Keeps.startUp {env : BootEnv} {cold restarted hot : Bool}
    (hs : Keeps (i, false) s₀ s) : Keeps (i, false) s₀ (s.startUp env cold restarted hot) := by
  unfold State.startUp
  extract_lets _ _ s1 s2 s3 _
  have h1 : Keeps (i, false) s₀ s1 := .upd hs rfl
  have h2 : Keeps (i, false) s₀ s2 := .atStep h1
  have h3 : Keeps (i, false) s₀ s3 := .status h2
  exact .ite (.setPins h3) (.bootFrom3 h2)

theorem Keeps.base (hs : Keeps (false, false) s₀ s) : Keeps (false, false) s₀ (s.base) :=
  ⟨hs.pending, nofun, nofun, fun ht =>
    { beds := .nil, plots := .nil, chans := .nil, links := rising_filter (rising_map
        (hs.tidy ht).links), flt := .nil, regs := .nil }⟩

theorem Keeps.coldHold {kind : Nat} (hs : Keeps (false, false) s₀ s) : Keeps (false, false) s₀ (s.coldHold kind) := by
  unfold State.coldHold
  exact .setFld (.base hs)

theorem Keeps.adjustSessions (hs : Keeps φ s₀ s) : Keeps φ s₀ (s.adjustSessions) := by
  unfold State.adjustSessions
  extract_lets _ s1
  have h1 : Keeps φ s₀ s1 := .foldl (fun _ _ h1 => by
      split
      · exact h1
      · split
        · exact .ite (.setSess h1) h1
        · exact .ite (.setSess h1) h1
        · exact .ite (.setSess (.ite (.setSess h1) h1)) (.ite (.setSess h1) h1)) hs
  exact .foldl (fun _ _ h2 => .setSess h2) h1

theorem Keeps.closeRecords (hs : Keeps φ s₀ s) : Keeps φ s₀ (s.closeRecords) := by
  unfold State.closeRecords
  exact .foldl (fun _ _ h1 => .ite (.closeRec h1) h1) hs

theorem rising_keptRegs (h : Rising s.regs) : Rising s.keptRegs := by
  unfold State.keptRegs
  refine rising_filter ?_
  have h2 := rising_filter (p := fun e => e.1 == 0x8 || e.1 == 0x10108 || e.1 == 0x10300 || e.1 == 0x30010 ||
    (decide (0x1000 ≤ e.1 ∧ e.1 < 0x2000) && decide (e.1 % 0x40 < 0x18))) h
  have h3 := rising_map
      (f := fun e => if 0x1000 ≤ e.1 ∧ e.1 < 0x2000 ∧ e.1 % 0x40 = 0x10 then wset e.2 0 1 0 else e.2) h2
  convert h3 using 3
  split <;> rfl

theorem Keeps.warmHold {kind : Nat} (hs : Keeps (false, false) s₀ s) : Keeps (false, false) s₀ (s.warmHold kind) := by
  unfold State.warmHold
  extract_lets s1 _ s2 _ _ _ s3 _ s4 s5
  have h1 : Keeps (false, false) s₀ s1 := .adjustSessions (.closeRecords hs)
  have h2 : Keeps (false, false) s₀ s2 := .base h1
  clear_value s1 s2
  have h3 : Keeps (false, false) s₀ s3 :=
    ⟨h2.pending, nofun, nofun, fun ht => { h2.tidy ht with
      beds := rising_filter (rising_map (h1.tidy ht).beds)
      flt := (h1.tidy ht).flt
      regs := rising_keptRegs (h1.tidy ht).regs }⟩
  have h4 : Keeps (false, false) s₀ s4 := .setFld h3
  have h5 : Keeps (false, false) s₀ s5 := .ite (.setFld h4) h4
  exact .setFld (.bump h5)

theorem Keeps.warmReset {kind : Nat} {env : BootEnv}
    (hs : Keeps (false, false) s₀ s) : Keeps (false, false) s₀ (s.warmReset kind env) := by
  unfold State.warmReset
  exact .ite (.startUp (.warmHold hs)) hs

theorem Keeps.coldStart {env : BootEnv} (hs : Keeps (i, false) s₀ s) : Keeps (i, false) s₀ (s.coldStart env) := by
  unfold State.coldStart
  exact .ite (.startUp hs) hs

theorem Keeps.writeReset {v : W64} {env : BootEnv}
    (hs : Keeps (false, false) s₀ s) : Keeps (false, false) s₀ (s.writeReset v env) := by
  unfold State.writeReset
  exact .ite (.warmReset hs) hs

theorem answers_execGlbResetWarm {rid : BitVec 16} {v : W64} {env : BootEnv}
    (hs : Keeps (false, false) s₀ s) : Answers (false, false) s₀ (execGlbResetWarm rid v env s) := by
  unfold execGlbResetWarm
  exact .ite (.next (.bar0 (fun _ h1 => .writeReset h1) hs)) (.next hs)

theorem answers_execPerstAssert (hs : Keeps (false, false) s₀ s) : Answers (false, false) s₀ (execPerstAssert s) := by
  unfold execPerstAssert
  extract_lets _ s1
  have h1 : Keeps (false, false) s₀ s1 := .upd hs rfl
  exact .ite (.next hs) (.next (.ite (.coldHold h1) h1))

theorem answers_execPerstRelease {env : BootEnv}
    (hs : Keeps (i, false) s₀ s) : Answers (i, false) s₀ (execPerstRelease env s) := by
  unfold execPerstRelease
  extract_lets _ s1
  have h1 : Keeps (i, false) s₀ s1 := .upd hs rfl
  exact .ite (.next (.coldStart h1)) (.next hs)

theorem answers_execHotReset {env : BootEnv}
    (hs : Keeps (false, false) s₀ s) : Answers (false, false) s₀ (execHotReset env s) := by
  unfold execHotReset
  exact .next (.warmReset hs)

theorem answers_execRailUndervoltage
    (hs : Keeps (false, false) s₀ s) : Answers (false, false) s₀ (execRailUndervoltage s) :=
  .next (.coldHold (.setDbg hs))

theorem answers_execRailsGood {env : BootEnv}
    (hs : Keeps (i, false) s₀ s) : Answers (i, false) s₀ (execRailsGood env s) := by
  unfold execRailsGood
  extract_lets _ s1
  have h1 : Keeps (i, false) s₀ s1 := .upd hs rfl
  exact .ite (.next hs) (.next (.coldStart h1))

theorem answers_execRefclkValid {env : BootEnv}
    (hs : Keeps (i, false) s₀ s) : Answers (i, false) s₀ (execRefclkValid env s) := by
  unfold execRefclkValid
  extract_lets _ s1
  have h1 : Keeps (i, false) s₀ s1 := .upd hs rfl
  exact .ite (.next hs) (.next (.coldStart h1))

theorem answers_execDomainWaitExpiry (hs : Keeps φ s₀ s) : Answers φ s₀ (execDomainWaitExpiry s) := by
  unfold execDomainWaitExpiry
  extract_lets s1 _ _ s2
  have h1 : Keeps φ s₀ s1 := .status hs
  have h2 : Keeps φ s₀ s2 := .setLnk h1 rfl
  split
  · exact .next hs
  · exact .ite (.next (.bootLast (.foldl (fun _ _ h3 => .setLink h3) h2))) (.next hs)

theorem Keeps.resumeBoot (hs : Keeps (i, false) s₀ s) : Keeps (i, false) s₀ (s.resumeBoot) := by
  unfold State.resumeBoot
  split
  · split
    · split
      next heq => exact .bootLast (.tryForm hs heq)
      · exact hs
    · exact hs
  · exact hs

theorem answers_execSundialProbe {l : BitVec 5} {probe : Probe}
    (hs : Keeps (i, false) s₀ s) : Answers (i, false) s₀ (execSundialProbe l probe s) := by
  unfold execSundialProbe
  extract_lets _ _ _ _ s1
  have h1 : Keeps (i, false) s₀ s1 := .setLink (.means hs)
  exact .ite (.ite (.next (.resumeBoot (.measured h1))) (.next (.setLink hs))) (.next hs)

/-! ## Copies -/

theorem Keeps.giveCopy {src : Src} {ch good : Nat} {t : Xfer}
    (hs : Keeps φ s₀ s) : Keeps φ s₀ (s.giveCopy src ch good t) := by
  unfold State.giveCopy
  extract_lets _ s1
  have h1 : Keeps φ s₀ s1 := .give (.await hs)
  exact .ite (.complete (.dropEngine hs)) (.ite (.begin h1) h1)

theorem Keeps.startCopy {src : Src} {out : Bool} {f : CopyReq → Nat → State → State}
    (hf : ∀ a0 a1 t, Keeps φ s₀ t → Keeps φ s₀ (f a0 a1 t)) (hs : Keeps φ s₀ s) :
    Keeps φ s₀ (s.startCopy src out f) := by
  unfold State.startCopy
  extract_lets _ _ _
  split
  · exact .complete hs
  · split
    · exact hs
    · split
      · split
        · exact .complete hs
        · exact hf _ _ _ (.upd hs rfl)
      · exact hf _ _ _ hs

theorem answers_execCopyIn {src : Src} {good : Nat} (hs : Keeps φ s₀ s) : Answers φ s₀ (execCopyIn src good s) := by
  unfold execCopyIn
  exact .ite (.next (.startCopy (fun _ _ _ h1 => .giveCopy h1) hs)) (.next hs)

theorem answers_execCopyOut {src : Src} (hs : Keeps φ s₀ s) : Answers φ s₀ (execCopyOut src s) := by
  unfold execCopyOut
  exact .ite (.next (.startCopy (fun _ _ _ h1 => by
    extract_lets _ _
    split
    · split
      · exact h1
      · extract_lets _ s2
        have h2 : Keeps φ s₀ s2 := .setBed h1
        split
        · exact .giveCopy h2
        · extract_lets _ s3
          have h3 : Keeps φ s₀ s3 := .placeBytes h2
          exact .complete (.dropEngine (.watchEcc (.report h3)))
    · exact .giveCopy h1) hs)) (.next hs)

/-! ## The fault collector -/

theorem Keeps.ackFault {e : Nat} (hs : Keeps φ s₀ s) : Keeps φ s₀ (s.ackFault e) := by
  unfold State.ackFault
  extract_lets _
  exact .setFlt hs

theorem Keeps.watchdog {g : Nat} (hs : Keeps φ s₀ s) : Keeps φ s₀ (s.watchdog g) := by
  unfold State.watchdog
  extract_lets s1 _ s2 _ s3
  have h1 : Keeps φ s₀ s1 := .report hs
  have h2 : Keeps φ s₀ s2 := .upd h1 rfl
  have h3 : Keeps φ s₀ s3 := .foldl (fun _ _ h3 => by
      extract_lets _
      exact .ite h3 (.setRing h3)) h2
  exact .recover h3

theorem Keeps.checkGardener {g : Nat} {alive : Bool} (hs : Keeps φ s₀ s) : Keeps φ s₀ (s.checkGardener g alive) := by
  unfold State.checkGardener
  extract_lets _ _ s1
  have h1 : Keeps φ s₀ s1 := .upd hs rfl
  exact .ite hs (.ite (.upd hs rfl) (.ite (.watchdog h1) h1))

theorem answers_execHeartbeatCheck {alive : BitVec 10}
    (hs : Keeps φ s₀ s) : Answers φ s₀ (execHeartbeatCheck alive s) := by
  unfold execHeartbeatCheck
  extract_lets _ s1
  have h1 : Keeps φ s₀ s1 := .upd hs rfl
  exact .ite (.next (.foldl (fun _ _ h2 => .checkGardener h2) h1)) (.next hs)

/-! ## Fencing -/

theorem answers_execFence {src : Src} (hs : Keeps φ s₀ s) : Answers φ s₀ (execFence src s) := by
  unfold execFence
  extract_lets _ _ _
  split
  · split
    · exact .next (.serve hs)
    · split
      · exact .next (.serve hs)
      · exact .ite (.next (.serve hs)) (.next (.await (.askFence hs)))
  · exact .next hs

theorem Keeps.refuseLoads {log : Nat} (hs : Keeps φ s₀ s) : Keeps φ s₀ (s.refuseLoads log) := by
  unfold State.refuseLoads
  exact .foldl (fun _ _ h1 => by
    extract_lets s2
    have h2 : Keeps φ s₀ s2 := .setPlot h1
    split
    · split
      · exact .complete h2
      · exact h2
    · exact h1) hs

theorem Keeps.fenceOrders {log : Nat} (hs : Keeps φ s₀ s) : Keeps φ s₀ (s.fenceOrders log) := by
  unfold State.fenceOrders
  refine .foldl (fun _ _ h1 => ?_) hs
  split
  · dsimp only
    split
    · exact .ite (.walkFail h1) h1
    · exact h1
  · exact h1

theorem Keeps.parkSessions {is : List Nat} (hs : Keeps φ s₀ s) : Keeps φ s₀ (s.parkSessions is) := by
  unfold State.parkSessions
  exact .foldl (fun _ _ h1 => .setSess h1) hs

theorem Keeps.fencePlot {p : Nat} (hs : Keeps φ s₀ s) : Keeps φ s₀ (s.fencePlot p) := by
  unfold State.fencePlot
  extract_lets _ s1
  have h1 : Keeps φ s₀ s1 := .stopPlot hs
  split
  · exact .ite (.sowAnswer h1) h1
  · exact h1

theorem Keeps.fenceNow {p : Nat} {remap : Bool} (hs : Keeps φ s₀ s) : Keeps φ s₀ (s.fenceNow p remap) := by
  unfold State.fenceNow
  extract_lets _ _ s1 s2 s3 _
  have h1 : Keeps φ s₀ s1 := .foldl (fun _ _ h1 => .fencePlot h1) hs
  have h2 : Keeps φ s₀ s2 := .ite (.fenceOrders (.refuseLoads h1)) h1
  have h3 : Keeps φ s₀ s3 := .parkSessions h2
  exact .setBed h3

theorem answers_execFenceTakeEffect {p : BitVec 8} (hs : Keeps φ s₀ s) : Answers φ s₀ (execFenceTakeEffect p s) := by
  unfold execFenceTakeEffect
  extract_lets _
  split
  · exact .next hs
  · exact .ite (.next (.fenceNow hs)) (.next hs)

theorem Keeps.fenceDone {p : Nat} {remap : Bool} (hs : Keeps φ s₀ s) : Keeps φ s₀ (s.fenceDone p remap) := by
  unfold State.fenceDone
  extract_lets _ s1 s2 s3 s4
  have h1 : Keeps φ s₀ s1 := .ite (.foldl (fun _ _ h1 => by
      extract_lets _ _
      exact .setPlot h1) hs) hs
  have h2 : Keeps φ s₀ s2 := .setBed h1
  have h3 : Keeps φ s₀ s3 := by
    unfold s3
    split
    · extract_lets _
      exact .setBed h2
    · exact h2
  have h4 : Keeps φ s₀ s4 := .report h3
  exact .setDoor (.answer h4)

theorem answers_execFenceComplete {p : BitVec 8} (hs : Keeps φ s₀ s) : Answers φ s₀ (execFenceComplete p s) := by
  unfold execFenceComplete
  extract_lets _
  split
  · exact .next hs
  · exact .ite (.next (.fenceDone hs)) (.next hs)

theorem answers_execBedPollTimeout {p : BitVec 8} (hs : Keeps φ s₀ s) : Answers φ s₀ (execBedPollTimeout p s) := by
  unfold execBedPollTimeout
  exact .ite (.next (.askFence hs)) (.next hs)

theorem answers_execSelftest {src : Src} (hs : Keeps φ s₀ s) : Answers φ s₀ (execSelftest src s) := by
  unfold execSelftest
  extract_lets _ _ _
  exact .ite (.ite (.next (.serve hs)) (.ite (.next (.serve hs)) (.next (.await (.setBed hs))))) (.next hs)

theorem Keeps.tested {p : Nat} {unfence pass : Bool} (hs : Keeps φ s₀ s) : Keeps φ s₀ (s.tested p unfence pass) := by
  unfold State.tested
  extract_lets _ _ _ _
  exact .ite (.setBed hs) (.report (.draw (.setBed hs)))

theorem answers_execSelftestEnd {p : BitVec 8} {pass : Bool}
    (hs : Keeps φ s₀ s) : Answers φ s₀ (execSelftestEnd p pass s) := by
  unfold execSelftestEnd
  extract_lets _
  split
  · exact .next hs
  · exact .ite (.next (.setDoor (.answer (.tested hs)))) (.next hs)

/-! ## Loading -/

theorem Keeps.startLoad {src : Src} {g : Program} (hs : Keeps φ s₀ s) : Keeps φ s₀ (s.startLoad src g) := by
  unfold State.startLoad
  extract_lets _
  exact .setPlot hs

theorem Keeps.writeImages {g : Program} {sec : List Byte} (hs : Keeps φ s₀ s) : Keeps φ s₀ (s.writeImages g sec) := by
  unfold State.writeImages
  exact .foldl (fun _ _ h1 => by
    extract_lets _
    split
    · exact .setBed h1
    · exact h1) hs

theorem Keeps.clearChannels {g : Program} (hs : Keeps φ s₀ s) : Keeps φ s₀ (s.clearChannels g) := by
  unfold State.clearChannels
  exact .foldl (fun _ _ h1 => .foldl (fun _ _ h2 => .setReg h2) h1) hs

theorem Keeps.takeTrace {p : Nat} {g : Program} (hs : Keeps φ s₀ s) : Keeps φ s₀ (s.takeTrace p g) := by
  unfold State.takeTrace
  extract_lets _ s1
  have h1 : Keeps φ s₀ s1 := .upd hs rfl
  exact .ite (.setReg (.setFld h1)) hs

theorem Keeps.finishLoad {p : Nat} {src : Src} (hs : Keeps φ s₀ s) : Keeps φ s₀ (s.finishLoad p src) := by
  unfold State.finishLoad
  extract_lets _ _ s1 s2 s3 s4
  have h1 : Keeps φ s₀ s1 := .writeImages hs
  have h2 : Keeps φ s₀ s2 := .foldl (fun _ _ h2 => by
      split
      · exact .setBed h2
      · exact h2) h1
  have h3 : Keeps φ s₀ s3 := .setRunRec (.takeTrace (.clearChannels h2))
  have h4 : Keeps φ s₀ s4 := .setPlot h3
  exact .complete h4

theorem answers_execLoadComplete {p : BitVec 4} (hs : Keeps φ s₀ s) : Answers φ s₀ (execLoadComplete p s) := by
  unfold execLoadComplete
  extract_lets _ _
  split
  · exact .next hs
  · split
    · split
      · exact .next (.complete (.setPlot hs))
      · exact .next (.finishLoad hs)
    · exact .next hs

/-! ## Registers -/

theorem Keeps.rw {off : Nat} {v cover mask : W64} (hs : Keeps φ s₀ s) : Keeps φ s₀ (s.rw off v cover mask) := by
  unfold State.rw
  exact .setReg hs

theorem Keeps.rwl {off : Nat} {v cover mask : W64} (hs : Keeps φ s₀ s) : Keeps φ s₀ (s.rwl off v cover mask) := by
  unfold State.rwl
  exact .ite (.rw hs) hs

theorem Keeps.clearAll {off : Nat} {v cover : W64} (hs : Keeps φ s₀ s) : Keeps φ s₀ (s.clearAll off v cover) := by
  unfold State.clearAll
  exact .ite (.setReg hs) hs

theorem Keeps.clearBits {off : Nat} {v cover mask : W64}
    (hs : Keeps φ s₀ s) : Keeps φ s₀ (s.clearBits off v cover mask) := by
  unfold State.clearBits
  exact .setReg hs

theorem Keeps.writeDisable {l : Nat} {on : Bool} (hs : Keeps φ s₀ s) : Keeps φ s₀ (s.writeDisable l on) := by
  unfold State.writeDisable
  exact .disable (.setFld hs)

theorem Keeps.writeLinkCtrl {l : Nat} {v : W64} (hs : Keeps φ s₀ s) : Keeps φ s₀ (s.writeLinkCtrl l v) := by
  unfold State.writeLinkCtrl
  extract_lets s1
  have h1 : Keeps φ s₀ s1 := .ite (.writeDisable hs) hs
  exact .ite (.retrain h1) h1

theorem Keeps.writeHst {off : Nat} {v cover : W64} (hs : Keeps φ s₀ s) : Keeps φ s₀ (s.writeHst off v cover) := by
  unfold State.writeHst
  extract_lets _
  split
  · exact .rw hs
  · split
    · split
      · exact .ite hs (.rw hs)
      · exact .ite hs (.rw hs)
      · exact .ite (.writeRingCfg hs) hs
      · exact hs
    · exact hs

theorem Keeps.writeMove {off : Nat} {v cover : W64} (hs : Keeps φ s₀ s) : Keeps φ s₀ (s.writeMove off v cover) := by
  unfold State.writeMove
  exact .ite (.rwl hs) (.ite (.rwl hs) (.ite (.clearAll hs) (.ite (.ite (.writeLinkCtrl hs) hs) (.ite (.rw hs) hs))))

theorem Keeps.writeCtl {off : Nat} {v cover : W64} (hs : Keeps φ s₀ s) : Keeps φ s₀ (s.writeCtl off v cover) := by
  unfold State.writeCtl
  extract_lets s1
  have h1 : Keeps φ s₀ s1 := .rwl hs
  exact .ite (.clearAll hs) (.ite (.rw hs) (.ite (.ite (.ackFault hs) hs) (.ite (.clearBits hs) (.ite (.ite
      (.corrClear hs) hs) (.ite (.clearBits hs) (.ite (.rwl hs) (.ite (.rw hs) (.ite (.setReg h1) (.ite (.rw hs) hs)))))))))

theorem Keeps.writeData {off : Nat} {v cover : W64} (hs : Keeps φ s₀ s) : Keeps φ s₀ (s.writeData off v cover) := by
  unfold State.writeData
  exact .ite (.rwl hs) (.ite (.clearAll hs) (.ite (.ite (.clearHalt hs) hs) (.ite (.clearBits hs) (.ite (.rw hs)
      (.ite (.setReg hs) (.ite (.ite (.rw hs) hs) hs))))))

theorem Keeps.writeReg {off : Nat} {v cover : W64} (hs : Keeps φ s₀ s) : Keeps φ s₀ (s.writeReg off v cover) := by
  unfold State.writeReg
  split
  · split
    · exact .setBed hs
    · exact hs
  · exact .ite (.writeHst hs) (.ite (.writeCtl hs) (.ite (.writeData hs) (.writeMove hs)))

theorem Keeps.sendWaiting (hs : Keeps φ s₀ s) : Keeps φ s₀ (s.sendWaiting) := by
  unfold State.sendWaiting
  exact .foldl (fun _ _ h1 => by
    extract_lets _ s2
    have h2 : Keeps φ s₀ s2 := .upd h1 rfl
    exact .sendVector h2) hs

theorem Keeps.writeBar2 {off : Nat} {v cover : W64} (hs : Keeps φ s₀ s) : Keeps φ s₀ (s.writeBar2 off v cover) := by
  unfold State.writeBar2
  extract_lets _ _ _ _ _
  exact .ite (.ite (.writeTail hs) hs) (.ite (.ite (.writeHead hs) hs) (.ite (.upd hs rfl) (.ite (.clearDoors hs)
      (.ite (.ite (.writeDoorMask hs) hs) (.ite (.ite (.setInbox hs) hs) (.ite (.ite (.returnMbox hs) hs) (.ite (.sendWaiting (.upd hs rfl)) hs)))))))

theorem answers_execLnkCtrlRetrain {rid : BitVec 16} {l : BitVec 5}
    (hs : Keeps φ s₀ s) : Answers φ s₀ (execLnkCtrlRetrain rid l s) := by
  unfold execLnkCtrlRetrain
  exact .ite (.next (.bar0 (fun _ h1 => .retrain h1) hs)) (.next hs)

theorem answers_execLnkCtrlDisable {rid : BitVec 16} {l : BitVec 5} {on : Bool}
    (hs : Keeps φ s₀ s) : Answers φ s₀ (execLnkCtrlDisable rid l on s) := by
  unfold execLnkCtrlDisable
  exact .ite (.next (.bar0 (fun _ h1 => .writeDisable h1) hs)) (.next hs)

/-! ## The TAP -/

theorem Keeps.tapIr {code : Nat} (hs : Keeps φ s₀ s) : Keeps φ s₀ (s.tapIr code) := by
  unfold State.tapIr
  extract_lets _
  exact .upd hs rfl

theorem Keeps.tapUse (hs : Keeps φ s₀ s) : Keeps φ s₀ (s.tapUse) := by
  unfold State.tapUse
  extract_lets _
  exact .upd hs rfl

theorem Keeps.loadCells {cells : List Bool} (hs : Keeps φ s₀ s) : Keeps φ s₀ (s.loadCells cells) := by
  unfold State.loadCells
  extract_lets _
  exact .upd hs rfl

theorem Keeps.holdBalls {code : Nat} (hs : Keeps φ s₀ s) : Keeps φ s₀ (s.holdBalls code) := by
  unfold State.holdBalls
  extract_lets s1 _ s2
  have h1 : Keeps φ s₀ s1 := .tapUse (.tapIr hs)
  have h2 : Keeps φ s₀ s2 := .upd h1 rfl
  exact .ite (.leaveService h2) h2

theorem answers_execExtest {cells : List Bool} (hs : Keeps φ s₀ s) : Answers φ s₀ (execExtest cells s) := by
  unfold execExtest
  exact .ite (.next (.loadCells (.holdBalls hs))) (.next hs)

theorem answers_execSamplePreload {cells : List Bool}
    (hs : Keeps φ s₀ s) : Answers φ s₀ (execSamplePreload cells s) := by
  unfold execSamplePreload
  exact .ite (.next (.loadCells (.tapIr hs))) (.next hs)

theorem answers_execIdcode
    (hs : Keeps φ s₀ s) : Answers φ s₀ (execIdcode s) := .ite (.next (.idReg (.tapIr hs))) (.next hs)

theorem answers_execClamp (hs : Keeps φ s₀ s) : Answers φ s₀ (execClamp s) := by
  unfold execClamp
  exact .ite (.next (.holdBalls hs)) (.next hs)

theorem answers_execHighz (hs : Keeps φ s₀ s) : Answers φ s₀ (execHighz s) := by
  unfold execHighz
  exact .ite (.next (.holdBalls hs)) (.next hs)

theorem answers_execExtestPulse {cells : List Bool} (hs : Keeps φ s₀ s) : Answers φ s₀ (execExtestPulse cells s) := by
  unfold execExtestPulse
  exact .ite (.next (.loadCells (.holdBalls hs))) (.next hs)

theorem answers_execExtestTrain {cells : List Bool} (hs : Keeps φ s₀ s) : Answers φ s₀ (execExtestTrain cells s) := by
  unfold execExtestTrain
  exact .ite (.next (.loadCells (.holdBalls hs))) (.next hs)

theorem Keeps.readFor {off : Nat} (hs : Keeps φ s₀ s) : Keeps φ s₀ (s.readFor off).2 := by
  unfold State.readFor
  split
  · exact .readHv hs
  · exact hs

theorem answers_execDbgAccess {addr data : W64} {env : BootEnv}
    (hs : Keeps (false, false) s₀ s) : Answers (false, false) s₀ (execDbgAccess addr data env s) := by
  unfold execDbgAccess
  extract_lets _ s1 _ _
  have h1 : Keeps (false, false) s₀ s1 := .tapUse (.tapIr hs)
  exact .ite (.ite (.next (.upd h1 rfl)) (.ite (.ite (.next (.upd (.writeReset h1) rfl)) (.next (.upd
      (.writeReg h1) rfl))) (.next (.upd (.readFor h1) rfl)))) (.next hs)

theorem answers_execFlashAccess {frame : W64} (hs : Keeps φ s₀ s) : Answers φ s₀ (execFlashAccess frame s) := by
  unfold execFlashAccess
  extract_lets _ s1 _
  have h1 : Keeps φ s₀ s1 := .tapUse (.tapIr hs)
  exact .ite (.next (.upd h1 rfl)) (.next hs)

theorem answers_execBypass {code : BitVec 8} (hs : Keeps φ s₀ s) : Answers φ s₀ (execBypass code s) := by
  unfold execBypass
  exact .ite (.next (.tapIr hs)) (.next hs)

theorem answers_execTapReset
    (hs : Keeps φ s₀ s) : Answers φ s₀ (execTapReset s) := .ite (.next (.idReg (.tapIr hs))) (.next hs)

/-- What a tick does once the sundial has stepped. -/
def State.afterTick (s : State) : State :=
  let s := if s.running then s.clockRuns.landPast.takeAll else s
  let s := s.upset
  let s := if s.running then s.barrowSlots.walkEntries else s
  let s := if s.dbg.frozen then
      s.sownPlots.foldl (fun (s : State) p => s.setPlot p { s.plot p with frozenTicks := (s.plot p).frozenTicks + 1 }) s
    else s
  s.heartbeat

/-- The state whose sundial a tick steps: every wait has observed its condition. -/
def State.beforeTick (s : State) : State := if s.running then s.observe else s

theorem tick_eq : tick s = if s.clk.locked then
    State.afterTick { s.beforeTick with clk := { s.beforeTick.clk with sundial := s.beforeTick.clk.sundial + 1 } } else s := rfl

theorem Keeps.afterTick (hs : Keeps φ s₀ s) : Keeps φ s₀ (s.afterTick) := by
  unfold State.afterTick
  extract_lets s3 s4 s5 s6
  have h3 : Keeps φ s₀ s3 := .ite (.takeAll (.landPast (.clockRuns hs))) hs
  have h4 : Keeps φ s₀ s4 := .upset h3
  have h5 : Keeps φ s₀ s5 := .ite (.walkEntries (.barrowSlots h4)) h4
  have h6 : Keeps φ s₀ s6 := .ite (.foldl (fun _ _ h6 => .setPlot h6) h5) h5
  exact .heartbeat h6

/-! ## The tick -/

theorem Keeps.tick (hs : Keeps (i, false) s₀ s) : Keeps (i, false) s₀ (Machine.tick s) := by
  rw [tick_eq]
  exact .ite (.afterTick (.setSundial (.ite (.observe hs) hs))) hs

end Sys2Proof.Machine
end

section
/-! PROOFS. What every command keeps. -/

namespace Sys2Proof.Machine

variable {φ : Bool × Bool} {i : Bool} {s₀ s t : State}

theorem answers_execTag {b : BitVec 7} {h : Head} {tensor : BitVec 12} {engine : BitVec 2} {route : BitVec 12}
    (hs : Keeps φ s₀ s) : Answers φ s₀ (execTag b h tensor engine route s) := by
  unfold execTag
  exact .next (.issueWith (fun _ _ h1 => by
    extract_lets _ _ _ _ _ _ s2 _ _ _ _
    have h2 : Keeps φ s₀ s2 := .setBed h1
    split
    · exact .watchEcc (.outs (.setBed h1))
    · exact .watchEcc (.addWords (.sendHub h2))) hs)

theorem answers_execRrecv {b : BitVec 7} {h : Head} {route : BitVec 12} {dst : BitVec 24} {len : BitVec 15}
    (hs : Keeps φ s₀ s) : Answers φ s₀ (execRrecv b h route dst len s) := by
  unfold execRrecv
  exact .next (.issueBoth (fun _ _ _ h1 => by
    extract_lets _ _ _ s2
    have h2 : Keeps φ s₀ s2 := .setPlot h1
    exact .pair h2) hs)

theorem answers_execInboundMailboxPost {rid : BitVec 16} {i : BitVec 3} {offset : BitVec 6} {msg : List Byte}
    (hs : Keeps φ s₀ s) : Answers φ s₀ (execInboundMailboxPost rid i offset msg s) := by
  unfold execInboundMailboxPost
  extract_lets _
  exact .ite (.next hs) (.ite (.next (.bump hs)) (.ite (.next (.bump hs)) (.ite (.next (.setInbox hs)) (.next
      (.setInbox hs)))))

theorem answers_execOutboundMailboxPost {g : BitVec 4} {i : BitVec 3} {msg : List Byte}
    (hs : Keeps φ s₀ s) : Answers φ s₀ (execOutboundMailboxPost g i msg s) := by
  unfold execOutboundMailboxPost
  extract_lets _ _ _ _ s1 _ s2
  have h1 : Keeps φ s₀ s1 := .setOutbox hs
  have h2 : Keeps φ s₀ s2 := .upd h1 rfl
  exact .ite (.next hs) (.next (.setDoor h2))

theorem answers_execLoad {src : Src} {fail : Option (BitVec 3)} {dir : List ListDir} {tableDigests : List
    (BitVec 256)} (hs : Keeps φ s₀ s) :
    Answers φ s₀ (execLoad src fail dir tableDigests s) := by
  unfold execLoad
  extract_lets _ _ _ _
  split
  · split
    · exact .next hs
    · split
      · exact .next (.complete hs)
      · split
        · exact .next (.complete hs)
        · split
          · exact .next hs
          · split
            · exact .ite (.next (.failRead hs)) (.next hs)
            · split
              · exact .next (.complete hs)
              · exact .next (.startLoad hs)
  · exact .next hs

theorem answers_execFaultReport {unit reporter : BitVec 20} {cause : BitVec 8} {detail : W64}
    (hs : Keeps φ s₀ s) : Answers φ s₀ (execFaultReport unit reporter cause detail s) := by
  unfold execFaultReport
  exact .ite (.next (.report hs)) (.next hs)

theorem answers_execRegisterWrite {rid : BitVec 16} {bar2 : Bool} {offset : BitVec 26} {bytes : Nat} {v : W64}
    (hs : Keeps φ s₀ s) : Answers φ s₀ (execRegisterWrite rid bar2 offset bytes v s) := by
  unfold execRegisterWrite
  extract_lets _ _
  exact .ite (.next hs) (.ite (.ite (.next hs) (.ite (.next (.bump hs)) (.ite (.ite (.next hs) (.next (.bump hs)))
      (.ite (.next (.bump hs)) (.next (.bar2 (fun _ h1 => .writeBar2 h1) hs)))))) (.ite (.next (.bump hs)) (.next (.bar0 (fun _ h1 => .writeReg h1) hs))))

theorem answers_execConservationFreeze {pool : BitVec 3} {index : BitVec 8} {tally : W64}
    (hs : Keeps (false, false) s₀ s) : Answers (false, false) s₀ (execConservationFreeze pool index tally s) := by
  unfold execConservationFreeze
  extract_lets _ _ _ s1 s2 _ s3 s4 s5 s6 _ s7 _ s8
  have h2 : Keeps (false, false) s₀ s2 := .report (.setSundial hs)
  have h4 : Keeps (false, false) s₀ s4 := .setReg (.setSundial h2)
  have h5 : Keeps (false, false) s₀ s5 := .ite (.setFld h4) h4
  have h6 : Keeps (false, false) s₀ s6 := .ite (.setFld h5) h5
  have h7 : Keeps (false, false) s₀ s7 := .ite (.setRing h6) h6
  clear_value s7
  have h8 : Keeps (false, false) s₀ s8 := .upd (.updDbg h7) rfl
  exact .ite (.next (.recover h8)) (.next hs)

theorem answers_execThermalSample {hottest : List (BitVec 12)} {sensor : List (BitVec 6)} {coolest : List (BitVec 12)}
    (hs : Keeps (i, false) s₀ s) : Answers (i, false) s₀ (execThermalSample hottest sensor coolest s) := by
  unfold execThermalSample
  extract_lets s1
  have h1 : Keeps (i, false) s₀ s1 := .readTemps hs
  exact .ite (.next (by
      split
      · exact .ite (.bootFrom3 (.status h1)) h1
      · exact h1)) (.next hs)

/-- The commands that cut, thaw or reset. -/
def turnsFrost : Instr → Bool
  | .mmThawOrder .. => true
  | .frostCut => true
  | .thaw .. => true
  | .thawResume => true
  | .glbResetWarm .. => true
  | .perstAssert => true
  | .hotReset .. => true
  | .railUndervoltage => true
  | .conservationFreeze .. => true
  | .dbgAccess .. => true
  | _ => false

/-- Every command answers a next state, and keeps what its operations keep. -/
theorem answers_exec (s : State) : ∀ c : Instr, Answers (!turnsFrost c, false) s (exec c s)
  | .pset .. => .next (.issue .refl)
  | .fill .. => .next (.issue .refl)
  | .cbld .. => .next (.issue .refl)
  | .mload .. => .next (.issue .refl)
  | .swap .. => .next (.issue .refl)
  | .pass .. => .next (.issue .refl)
  | .spill .. => .next (.issue .refl)
  | .rdrain .. => .next (.issue .refl)
  | .drain .. => .next (.issue .refl)
  | .vop .. => .next (.issue .refl)
  | .vld .. => .next (.issue .refl)
  | .vst .. => .next (.issue .refl)
  | .mcvt .. => .next (.issue .refl)
  | .sfn .. => .next (.issue .refl)
  | .smax1 .. => .next (.issue .refl)
  | .smax2 .. => .next (.issue .refl)
  | .smaxm .. => .next (.issue .refl)
  | .smaxx .. => .next (.issue .refl)
  | .sieve .. => .next (.issue .refl)
  | .sievem .. => .next (.issue .refl)
  | .sieveo .. => .next (.issue .refl)
  | .nprep .. => .next (.issue .refl)
  | .napply .. => .next (.issue .refl)
  | .statx .. => .next (.issue .refl)
  | .statm .. => .next (.issue .refl)
  | .pick .. => .next (.issue .refl)
  | .rpx .. => .next (.issue .refl)
  | .rpm .. => .next (.issue .refl)
  | .sprb .. => .next (.issueFresh .refl)
  | .sprd .. => .next (.issue .refl)
  | .vtld .. => .next (.issue .refl)
  | .nop .. => .next (.issueWith (fun _ _ h1 => h1) .refl)
  | .endList .. => .next (.issueWith (fun _ _ h1 => .endBed h1) .refl)
  | .loop .. => .next (.issueWith (fun _ _ h1 => h1) .refl)
  | .sdwait .. => .next (.issueWith (fun _ _ h1 => .startWait h1) .refl)
  | .lrecv .. => .next (.issueWith (fun _ _ h1 => .startWait h1) .refl)
  | .cwait .. => .next (.issueWith (fun _ _ h1 => .startWait h1) .refl)
  | .cbar .. => .next (.issueWith (fun _ _ h1 => .startWait h1) .refl)
  | .tflip .. => .next (.issue .refl)
  | .hint .. => answers_execHint .refl
  | .tag .. => answers_execTag .refl
  | .entr .. => .next (.issueFresh .refl)
  | .sdrd .. => .next (.issue .refl)
  | .ctrrd .. => .next (.issue .refl)
  | .brw .. => answers_execBrw .refl
  | .rsend .. => .next (.issueBoth (fun _ _ _ h1 => .ite (.sendFrom (fun _ _ h2 => .send h2) h1) (.send h1)) .refl)
  | .rrecv .. => answers_execRrecv .refl
  | .lsend .. => answers_execLsend .refl
  | .lcoll .. => answers_execLcoll .refl
  | .syncWaitEnd .. => answers_execSyncWaitEnd .refl
  | .syncTimeout .. => answers_execSyncTimeout .refl
  | .brwLandingDeadline .. => answers_execBrwLandingDeadline .refl
  | .barrowTransferStart .. => answers_execBarrowTransferStart .refl
  | .barrowTransferComplete .. => answers_execBarrowTransferComplete .refl
  | .busError .. => answers_execBusError .refl
  | .hostCompletionTimeout .. => answers_execHostCompletionTimeout .refl
  | .engineRestart .. => answers_execEngineRestart .refl
  | .isolationAccess .. => answers_execIsolationAccess .refl
  | .lpddr5Frame .. => answers_execLpddr5Frame .refl
  | .nurseryOrderStart .. => answers_execNurseryOrderStart .refl
  | .walkerWordTransfer .. => answers_execWalkerWordTransfer .refl
  | .nurseryOrderComplete .. => answers_execNurseryOrderComplete .refl
  | .scrubRead .. => answers_execScrubRead .refl
  | .scrubWriteback .. => answers_execScrubWriteback .refl
  | .messageLand .. => answers_execMessageLand .refl
  | .flitSend .. => answers_execFlitSend .refl
  | .dataFlitReceive .. => .next (.receive (fun _ _ _ h1 => .dataIn h1) .refl)
  | .collectiveFlitReceive .. => .next (.receive (fun _ _ _ h1 => .collIn h1) .refl)
  | .controlFlitReceive .. => .next (.receive (fun _ _ _ h1 => .ctlIn h1) .refl)
  | .idleFlitReceive .. => .next (.receive (fun _ _ _ h1 => h1) .refl)
  | .nakReceive .. => .next (.receive (fun _ _ _ h1 => .nakIn h1) .refl)
  | .replayTimeout .. => answers_execReplayTimeout .refl
  | .linkSilenceTimeout .. => answers_execLinkSilenceTimeout .refl
  | .linkTrain .. => answers_execLinkTrain .refl
  | .linkTrainRetry .. => answers_execLinkTrainRetry .refl
  | .sundialProbe .. => answers_execSundialProbe .refl
  | .sundialRecheck .. => answers_execSundialRecheck .refl
  | .mmSowOrder .. => answers_execMmSowOrder .refl
  | .mmFrostOrder .. => answers_execMmFrostOrder .refl
  | .mmThawOrder .. => answers_execMmThawOrder .refl
  | .companionRecordTimeout => answers_execCompanionRecordTimeout .refl
  | .sqTailWrite .. => .next (.bar2 (fun _ h1 => .writeTail h1) .refl)
  | .cqHeadWrite .. => .next (.bar2 (fun _ h1 => .writeHead h1) .refl)
  | .ringEnable .. => answers_execRingEnable .refl
  | .ringDisable .. => answers_execRingDisable .refl
  | .dbInSet .. => answers_execDbInSet .refl
  | .dbOutClear .. => .next (.bar2 (fun _ h1 => .clearDoors h1) .refl)
  | .dbOutMaskWrite .. => .next (.bar2 (fun _ h1 => .writeDoorMask h1) .refl)
  | .inboundMailboxPost .. => answers_execInboundMailboxPost .refl
  | .inboundMailboxTake .. => answers_execInboundMailboxTake .refl
  | .outboundMailboxPost .. => answers_execOutboundMailboxPost .refl
  | .mboReturn .. => .next (.bar2 (fun _ h1 => .returnMbox h1) .refl)
  | .descriptorFetch .. => answers_execDescriptorFetch .refl
  | .descriptorStart .. => answers_execDescriptorStart .refl
  | .completionPost .. => answers_execCompletionPost .refl
  | .nopDescriptor .. => answers_execNopDescriptor .refl
  | .load .. => answers_execLoad .refl
  | .loadComplete .. => answers_execLoadComplete .refl
  | .sow .. => answers_execSow .refl
  | .plotSow .. => answers_execPlotSow .refl
  | .plotComplete .. => answers_execPlotComplete .refl
  | .unload .. => answers_execUnload .refl
  | .unloadStop .. => answers_execUnloadStop .refl
  | .copyIn .. => answers_execCopyIn .refl
  | .copyOut .. => answers_execCopyOut .refl
  | .record .. => answers_execRecord .refl
  | .nurseryOpen .. => answers_execNurseryOpen .refl
  | .nurseryPlant .. => answers_execNurseryPlant .refl
  | .nurseryLift .. => answers_execNurseryLift .refl
  | .nurseryTransplant .. => answers_execNurseryTransplant .refl
  | .nurseryClose .. => answers_execNurseryClose .refl
  | .fence .. => answers_execFence .refl
  | .fenceTakeEffect .. => answers_execFenceTakeEffect .refl
  | .fenceComplete .. => answers_execFenceComplete .refl
  | .bedPollTimeout .. => answers_execBedPollTimeout .refl
  | .selftest .. => answers_execSelftest .refl
  | .selftestEnd .. => answers_execSelftestEnd .refl
  | .linkRetrain .. => answers_execLinkRetrain .refl
  | .linkDisable .. => answers_execLinkDisable .refl
  | .companionStart .. => answers_execCompanionStart .refl
  | .companionStop .. => answers_execCompanionStop .refl
  | .frost .. => answers_execFrost .refl
  | .frostCut => answers_execFrostCut .refl
  | .thaw .. => answers_execThaw .refl
  | .thawResume => answers_execThawResume .refl
  | .harvest .. => answers_execHarvest .refl
  | .harvestComplete .. => answers_execHarvestComplete .refl
  | .attest .. => answers_execAttest .refl
  | .attestReportWritten => answers_execAttestReportWritten .refl
  | .ownerEnrol .. => answers_execOwnerEnrol .refl
  | .ownerEnrolComplete => answers_execOwnerEnrolComplete .refl
  | .powerCap .. => answers_execPowerCap .refl
  | .faultReport .. => answers_execFaultReport .refl
  | .faultAck .. => .next (.bar0 (fun _ h1 => .ackFault h1) .refl)
  | .heartbeatCheck .. => answers_execHeartbeatCheck .refl
  | .clearHalt .. => .next (.bar0 (fun _ h1 => .clearHalt h1) .refl)
  | .lnkCtrlRetrain .. => answers_execLnkCtrlRetrain .refl
  | .lnkCtrlDisable .. => answers_execLnkCtrlDisable .refl
  | .pwrCorrClear .. => .next (.bar0 (fun _ h1 => .corrClear h1) .refl)
  | .hvDataRead => answers_execHvDataRead .refl
  | .registerWrite .. => answers_execRegisterWrite .refl
  | .glbResetWarm .. => answers_execGlbResetWarm .refl
  | .perstAssert => answers_execPerstAssert .refl
  | .perstRelease .. => answers_execPerstRelease .refl
  | .hotReset .. => answers_execHotReset .refl
  | .domainWaitExpiry => answers_execDomainWaitExpiry .refl
  | .railUndervoltage => answers_execRailUndervoltage .refl
  | .railsGood .. => answers_execRailsGood .refl
  | .pmD3hot => answers_execPmD3hot .refl
  | .pmD0 => answers_execPmD0 .refl
  | .pllLockLoss => answers_execPllLockLoss .refl
  | .conservationFreeze .. => answers_execConservationFreeze .refl
  | .entropyHealthFail .. => answers_execEntropyHealthFail .refl
  | .powerSample .. => answers_execPowerSample .refl
  | .mulchLevelStep => answers_execMulchLevelStep .refl
  | .droopDetect .. => answers_execDroopDetect .refl
  | .thermalSample .. => answers_execThermalSample .refl
  | .thermalTripStop => answers_execThermalTripStop .refl
  | .holdBegin => answers_execHoldBegin .refl
  | .holdEnd .. => answers_execHoldEnd .refl
  | .samplerSample => answers_execSamplerSample .refl
  | .extest .. => answers_execExtest .refl
  | .samplePreload .. => answers_execSamplePreload .refl
  | .idcode => answers_execIdcode .refl
  | .clamp => answers_execClamp .refl
  | .highz => answers_execHighz .refl
  | .extestPulse .. => answers_execExtestPulse .refl
  | .extestTrain .. => answers_execExtestTrain .refl
  | .dbgAccess .. => answers_execDbgAccess .refl
  | .flashAccess .. => answers_execFlashAccess .refl
  | .bypass .. => answers_execBypass .refl
  | .flitAlignmentLost .. => answers_execFlitAlignmentLost .refl
  | .refclkValid .. => answers_execRefclkValid .refl
  | .tapReset => answers_execTapReset .refl
  | .entropyWordDelivery .. => answers_execEntropyWordDelivery .refl

end Sys2Proof.Machine
end

section
/-! PROOFS. A step takes one command off the queue, keeps the tables tidy, and leaves a conservation freeze in force
unless it is a reset (R403). -/

namespace Sys2Proof.Machine

variable {s t : State} {c : Instr}

theorem step_nil (h : s.pending = []) : step s = .next (tick s) := by
  unfold step
  rw [h]

theorem step_cons {rest : List Instr} (h : s.pending = c :: rest) : step s = exec c { s with pending := rest } := by
  unfold step
  rw [h]

/-- A step is a tick, or the front command's effect on the state with the queue's rest. -/
theorem answers_step (s : State) : ∃ k, Answers k { s with pending := s.pending.tail } (step s) := by
  cases h : s.pending with
  | nil =>
    have hs : ({ s with pending := [] } : State) = s := by rw [← h]
    rw [step_nil h, List.tail_nil, hs]
    exact ⟨(true, false), .next (.tick .refl)⟩
  | cons c rest =>
    rw [step_cons h]
    exact ⟨_, answers_exec _ c⟩

/-- Settles O60: each command answers a next state, with the queue that it was given. -/
theorem everyStepCompletesAndTakesOneCommand : Obligations.EveryStepCompletesAndTakesOneCommand := by
  refine ⟨fun s => ?_, fun c s => ?_⟩
  · obtain ⟨k, t, ht, hk⟩ := answers_step s
    exact ⟨t, ht, hk.pending⟩
  · obtain ⟨t, ht, hk⟩ := answers_exec s c
    exact ⟨t, ht, hk.pending⟩

/-- Settles O58: the only writes of a table are its own update, maps and filters of it, and new tables with rising keys. -/
theorem tablesStayTidy : Obligations.TablesStayTidy := by
  intro s t hs h
  obtain ⟨k, u, hu, hk⟩ := answers_step s
  cases h.symm.trans hu
  exact hk.tidy { hs with }

/-! ## A conservation freeze -/

/-- A module frozen for a conservation fault has no thaw to come. -/
def Iced (d : Dbg) : Prop := d.conservation = true → d.frozen = true ∧ d.multi = false ∧ d.thawAt = none

/-- Between two states a conservation freeze stays as it is, and none begins. -/
def StaysIced (s t : State) : Prop :=
  t.dbg.conservation = s.dbg.conservation ∧ (s.dbg.conservation = true → t.dbg.ice = s.dbg.ice)

theorem staysIced_of_ice (h : t.dbg.ice = s.dbg.ice) : StaysIced s t := ⟨congrArg (·.1) h, fun _ => h⟩

theorem iced_of_ice {d e : Dbg} (h : d.ice = e.ice) (he : Iced e) : Iced d := by
  simp only [Dbg.ice, Prod.mk.injEq] at h
  obtain ⟨hc, hf, hm, ht⟩ := h
  unfold Iced
  rw [hc, hf, hm, ht]
  exact he

theorem StaysIced.iced (h : StaysIced s t) (hi : Iced s.dbg) : Iced t.dbg := fun hc =>
  iced_of_ice (h.2 (h.1 ▸ hc)) hi hc

/-- An answer that comes, without a change of the frost in force, from a state with no conservation freeze. -/
def Mild (o : Host.Outcome State Fault Refusal) : Prop := ∃ u : State, Answers (true, false) u o ∧ u.dbg.conservation = false

theorem Mild.next {u : State} (h : Keeps (true, false) u t) (hu : u.dbg.conservation = false) : Mild (.next t) := ⟨u, .next h, hu⟩

theorem Mild.ite {p : Prop} [Decidable p] {o q : Host.Outcome State Fault Refusal} (h : Mild o) (g : Mild q) :
    Mild (if p then o else q) := by
  split
  · exact h
  · exact g

theorem staysIced_of_answers {o : Host.Outcome State Fault Refusal}
    (h : Answers (true, false) s o ∨ s.dbg.conservation = false ∧ Mild o) (ht : o = .next t) : StaysIced s t := by
  obtain ⟨u, hu, hk⟩ | ⟨hs, u, ⟨v, hv, hk⟩, huc⟩ := h
  · cases ht.symm.trans hu
    exact staysIced_of_ice (hk.ice rfl)
  · cases ht.symm.trans hv
    exact ⟨((staysIced_of_ice (hk.ice rfl)).1.trans huc).trans hs.symm, fun h => absurd (hs ▸ h) (by decide)⟩

theorem exec_staysIced (hf : turnsFrost c = false) (h : exec c s = .next t) : StaysIced s t := by
  have ha := answers_exec s c
  rw [hf] at ha
  exact staysIced_of_answers (.inl ha) h

/-- A cut needs a module that runs, which a frozen one does not. -/
theorem execFrostCut_staysIced (hi : Iced s.dbg) (h : execFrostCut s = .next t) : StaysIced s t := by
  refine staysIced_of_answers ?_ h
  cases hc : s.dbg.conservation with
  | true =>
    have hr : s.running = false := by simp [State.running, (hi hc).1]
    left
    unfold execFrostCut
    split
    · exact .next .refl
    · rw [if_neg (by simp [hr])]
      exact .next .refl
  | false =>
    refine .inr ⟨rfl, ?_⟩
    unfold execFrostCut
    split
    · exact .next .refl hc
    · exact .ite (.next (.setDoor (.markReads .refl)) hc) (.next .refl hc)

/-- A thaw is refused while the freeze is a conservation fault's. -/
theorem execThaw_staysIced {src : Src} (h : execThaw src s = .next t) : StaysIced s t := by
  refine staysIced_of_answers ?_ h
  cases hc : s.dbg.conservation with
  | true =>
    left
    unfold execThaw
    refine .ite ?_ (.next .refl)
    dsimp only
    rw [if_pos (by simp [hc])]
    exact .next (.serve .refl)
  | false =>
    have hs : ∀ code value, Mild (.next (s.serve src code value)) := fun _ _ => .next (.serve .refl) hc
    refine .inr ⟨rfl, ?_⟩
    unfold execThaw
    extract_lets _ _ _ _ _ _ s1 s2
    have hm : Mild (.next (s2.serve src 0 0)) := .next (u := s1) (.serve (.ite (.flood .refl) .refl)) hc
    exact .ite (.ite (hs _ _) (.ite (hs _ _) (.ite (hs _ _) (.ite (hs _ _) hm)))) (.next .refl hc)

/-- A module that a conservation fault froze has no thaw tick. -/
theorem execThawResume_staysIced (hi : Iced s.dbg) (h : execThawResume s = .next t) : StaysIced s t := by
  refine staysIced_of_answers ?_ h
  cases hc : s.dbg.conservation with
  | true =>
    left
    unfold execThawResume
    rw [(hi hc).2.2]
    exact .next .refl
  | false =>
    refine .inr ⟨rfl, ?_⟩
    unfold execThawResume
    split
    · exact .next .refl hc
    · exact .ite (.next (.setDoor (.resumeReads (.frostEvents (.shiftUnits
        (.ite (.deliverCaptured (.shiftLinks .refl)) (.foldl (fun _ _ h => .takeRuns h) .refl)))))) hc) (.next .refl hc)

/-- A domain's thaw order needs a freeze of the domain, which a conservation fault's is not. -/
theorem execMmThawOrder_staysIced {l : BitVec 5} {tick : W64} (hi : Iced s.dbg) (h : execMmThawOrder l tick s = .next t) :
    StaysIced s t := by
  refine staysIced_of_answers ?_ h
  unfold execMmThawOrder
  split
  · exact .inl (.next .refl)
  next u hu =>
    have hk : Keeps (true, false) s u := .takeOrder .refl hu
    have hd := hk.ice rfl
    simp only [Dbg.ice, Prod.mk.injEq] at hd
    obtain ⟨hdc, -, hdm, -⟩ := hd
    split
    · exact .inl (.next hk)
    next hn =>
      have hc : s.dbg.conservation = false := by
        cases hc : s.dbg.conservation with
        | true => simp [hdm, (hi hc).2.1] at hn
        | false => rfl
      exact .inr ⟨hc, .next .refl (hdc.trans hc)⟩

/-! ## The conservation fault itself, and the resets -/

/-- What a conservation fault leaves of the frost in force: frozen at its tick, with no thaw to come. -/
theorem execConservationFreeze_ice {pool : BitVec 3} {index : BitVec 8} {tally : W64}
    (h : execConservationFreeze pool index tally s = .next t) :
    t.dbg.ice = s.dbg.ice ∨ t.dbg.ice = (true, true, false, none) := by
  simp only [execConservationFreeze] at h
  split at h
  · cases h
    exact .inr ((Keeps.recover (φ := (true, false)) .refl).ice rfl)
  · cases h
    exact .inl rfl

theorem coldHold_ice {kind : Nat} : (s.coldHold kind).dbg.ice = (false, false, false, none) :=
  (Keeps.setFld (φ := (true, false)) .refl).ice rfl

theorem warmHold_ice {kind : Nat} : (s.warmHold kind).dbg.ice = (false, false, false, none) :=
  (Keeps.setFld (φ := (true, false)) (.bump (.ite (.setFld (.setFld .refl)) (.setFld .refl)))).ice rfl

/-- A warm reset of a module that has started leaves it without a frost; of any other it does nothing. -/
theorem warmReset_ice {kind : Nat} {env : BootEnv} :
    (s.warmReset kind env).dbg.ice = s.dbg.ice ∨ (s.warmReset kind env).dbg.ice = (false, false, false, none) := by
  unfold State.warmReset
  split
  · exact .inr (((Keeps.startUp (i := true) .refl).ice rfl).trans warmHold_ice)
  · exact .inl rfl

/-- The resets that a command can be. -/
def resets (c : Instr) : Prop :=
  (∃ r v e, c = .glbResetWarm r v e) ∨ (∃ e, c = .hotReset e) ∨ c = .perstAssert ∨ c = .railUndervoltage ∨
    ∃ a d e, c = .dbgAccess a d e

/-- A state whose frost in force is another's, or none at all. -/
def KeptOrNone (s t : State) : Prop := t.dbg.ice = s.dbg.ice ∨ t.dbg.ice = (false, false, false, none)

theorem KeptOrNone.trans {u : State} (h : Keeps (true, false) s u) (g : KeptOrNone u t) : KeptOrNone s t :=
  g.imp_left fun g => g.trans (h.ice rfl)

theorem KeptOrNone.keeps {u : State} (h : KeptOrNone s u) (g : Keeps (true, false) u t) : KeptOrNone s t := by
  unfold KeptOrNone
  rw [g.ice rfl]
  exact h

theorem writeReset_keptOrNone {v : W64} {env : BootEnv} : KeptOrNone s (s.writeReset v env) := by
  unfold State.writeReset
  split
  · exact warmReset_ice
  · exact .inl rfl

theorem execGlbResetWarm_keptOrNone {rid : BitVec 16} {v : W64} {env : BootEnv} (h : execGlbResetWarm rid v env s = .next t) :
    KeptOrNone s t := by
  unfold execGlbResetWarm State.bar0 at h
  split at h
  · cases h
    split
    · exact .inl rfl
    · split
      · exact writeReset_keptOrNone
      · exact .inl ((Keeps.bump (φ := (true, true)) .refl).ice rfl)
  · cases h
    exact .inl rfl

theorem execPerstAssert_keptOrNone (h : execPerstAssert s = .next t) : KeptOrNone s t := by
  unfold execPerstAssert at h
  split at h
  · cases h
    exact .inl rfl
  · cases h
    split
    · exact .inr coldHold_ice
    · exact .inl rfl

theorem execDbgAccess_keptOrNone {addr data : W64} {env : BootEnv} (h : execDbgAccess addr data env s = .next t) :
    KeptOrNone s t := by
  have h1 : Keeps (true, false) s ((s.tapIr 0x10).tapUse) := .tapUse (.tapIr .refl)
  simp only [execDbgAccess] at h
  split at h
  · split at h
    · cases h
      exact .inl (h1.ice rfl)
    · split at h
      · split at h
        · cases h
          exact .trans h1 (.keeps writeReset_keptOrNone (.upd .refl rfl))
        · cases h
          exact .inl ((Keeps.upd (.writeReg h1) rfl).ice rfl)
      · cases h
        exact .inl ((Keeps.upd (.readFor h1) rfl).ice rfl)
  · cases h
    exact .inl rfl

/-- What a command makes of the frost in force: it keeps a conservation freeze, begins one, or is a reset that ends it. -/
theorem frost_of_exec (hi : Iced s.dbg) (h : exec c s = .next t) :
    StaysIced s t ∨ t.dbg.ice = (true, true, false, none) ∨ (t.dbg.ice = (false, false, false, none) ∧ resets c) := by
  have hr : ∀ {u : State}, KeptOrNone s u → resets c →
      StaysIced s u ∨ u.dbg.ice = (true, true, false, none) ∨ (u.dbg.ice = (false, false, false, none) ∧ resets c) :=
    fun hk hc => hk.imp staysIced_of_ice fun hk => .inr ⟨hk, hc⟩
  cases c
  case mmThawOrder => exact .inl (execMmThawOrder_staysIced hi h)
  case frostCut => exact .inl (execFrostCut_staysIced hi h)
  case thaw => exact .inl (execThaw_staysIced h)
  case thawResume => exact .inl (execThawResume_staysIced hi h)
  case conservationFreeze => exact (execConservationFreeze_ice h).imp staysIced_of_ice .inl
  case glbResetWarm => exact hr (execGlbResetWarm_keptOrNone h) (.inl ⟨_, _, _, rfl⟩)
  case hotReset env =>
    cases h
    exact hr warmReset_ice (.inr (.inl ⟨env, rfl⟩))
  case perstAssert => exact hr (execPerstAssert_keptOrNone h) (.inr (.inr (.inl rfl)))
  case railUndervoltage =>
    cases h
    exact hr (.inr coldHold_ice) (.inr (.inr (.inr (.inl rfl))))
  case dbgAccess => exact hr (execDbgAccess_keptOrNone h) (.inr (.inr (.inr (.inr ⟨_, _, _, rfl⟩))))
  all_goals exact .inl (exec_staysIced rfl h)

theorem iced_of_exec (hi : Iced s.dbg) (h : exec c s = .next t) : Iced t.dbg := by
  rcases frost_of_exec hi h with hs | hf | ⟨hn, -⟩
  · exact hs.iced hi
  · exact iced_of_ice (e := { conservation := true, frozen := true }) hf fun _ => ⟨rfl, rfl, rfl⟩
  · exact iced_of_ice (e := {}) hn nofun

theorem iced_of_step (hi : Iced s.dbg) (h : step s = .next t) : Iced t.dbg := by
  cases hp : s.pending with
  | nil =>
    rw [step_nil hp] at h
    cases h
    exact iced_of_ice ((Keeps.tick .refl).ice rfl) hi
  | cons c rest =>
    rw [step_cons hp] at h
    exact iced_of_exec (s := { s with pending := rest }) hi h

/-- Settles O59: every command keeps the frost in force but for ten, and of these each is taken alone. -/
theorem aConservationFreezeLastsUntilAReset : Obligations.AConservationFreezeLastsUntilAReset := by
  refine ⟨nofun, fun s t hi h => iced_of_step hi h, fun c s t hi hc h => ?_⟩
  rcases frost_of_exec hi h with hs | hf | ⟨hn, hr⟩
  · exact .inl (hs.1.trans hc)
  · exact .inl (congrArg (·.1) hf)
  · exact .inr ⟨congrArg (·.2.1) hn, hr⟩

end Sys2Proof.Machine
end

section
/-! PROOFS. The step and its tick (R406), and the state that reset leaves. -/

namespace Sys2Proof.Machine

variable {s : State}

theorem tick_of_unlocked (h : s.clk.locked = false) : tick s = s := by
  rw [tick_eq, if_neg (by simp [h])]

/-- While the root PLL is locked a tick steps the sundial. -/
theorem tick_sundial (h : s.clk.locked = true) : (tick s).clk.sundial = s.clk.sundial + 1 := by
  have hb : Keeps (true, true) s s.beforeTick := .ite (.observe .refl) .refl
  rw [tick_eq, if_pos h, (Keeps.afterTick (φ := (true, true)) .refl).sundial rfl, hb.sundial rfl]

/-- Settles O54: by the two equations of a step, and what a tick keeps but for the sundial. -/
theorem aStepRunsTheFrontCommand : Obligations.AStepRunsTheFrontCommand := by
  refine ⟨fun c s rest h => step_cons h, fun c s => step_cons rfl, fun s h => step_nil h, fun s hp hl _ _ => ?_,
    fun s hp hl => ?_⟩
  · exact ⟨tick s, step_nil hp, tick_sundial hl, (Keeps.tick (i := true) .refl).pending.trans hp⟩
  · rw [step_nil hp, tick_of_unlocked hl]

theorem tidy_reset : Tidy State.reset := ⟨.nil, .nil, .nil, .nil, .nil, .nil⟩

/-- Settles O55: the tables of the reset state are empty, and a register that is not stored reads its reset word. -/
theorem resetHoldsTheModuleAtItsResetValues : Obligations.ResetHoldsTheModuleAtItsResetValues := by
  refine ⟨rfl, rfl, rfl, tidy_reset, rfl, rfl, rfl, ?_⟩
  refine ⟨?_, ?_, ?_, ?_, ?_, ?_, ?_, ?_, ?_, ?_, fun p => ⟨rfl, rfl, rfl, rfl⟩⟩
  all_goals decide +kernel

end Sys2Proof.Machine
end

section
/-! PROOFS. The array instructions (R205 to R209): precision, planes, codebooks and moving lines. -/

namespace Sys2Proof.Machine

variable {s t : State} {b : BitVec 7} {h : Head} {i : Instr} {p : Nat}

/-! ## Beds and their arrays -/

@[simp] theorem Bed.array_setArray_self (d : Bed) (a : Nat) (x : MArray) : (d.setArray a x).array a = x := by
  simp [Bed.array, Bed.setArray]

@[simp] theorem Bed.array_gauge (d : Bed) (g n a : Nat) : (d.gauge g n).array a = d.array a := rfl

theorem Bed.array_of_arrays {d e : Bed} (h : d.arrays = e.arrays) (a : Nat) : d.array a = e.array a := by
  unfold Bed.array
  rw [h]

@[simp] theorem State.issued_array (o : Option (Nat × Nat)) (a : Nat) : (s.issued h p o).array a = (s.bed p).array a := rfl

theorem issued_clean {o : Option (Nat × Nat)} (hc : Clean (s.bed p)) : Clean (s.issued h p o) := hc

theorem bedIs_array {d x : Bed} (h : BedIs d x) (a : Nat) : d.array a = x.array a := by
  obtain ⟨f, rfl⟩ := h
  rfl

/-! ## PSET -/

/-- PSET on the bed that issues it. -/
theorem psetBody_eq (a : Nat) (q : Prec) (d : Bed) : psetBody a q d =
    (if (d.array a).prec = some q then d
     else if (d.array a).prec = none then d.setArray a { d.array a with prec := some q }
     else d.setArray a { d.array a with
        prec := some q, fences := (d.array a).fences + 1, fenceEnd := max (d.array a).fenceEnd (d.fenceTill (d.array a)) }, []) := by
  simp only [psetBody]
  split
  next ho => simp [ho]
  next o ho => by_cases hq : o = q <;> simp [ho, hq]

theorem execPset_issues {a path : BitVec 2} {mov sta : BitVec 4} {w : BitVec 5} {sem : BitVec 2} {paired : Bool}
    (hI : Issuing s b h (.pset b h a path mov sta w sem paired) p) :
    Issues (.pset b h a path mov sta w sem paired) s p
      (psetBody a.toNat (psetPrec path mov sta w sem paired) (s.issued h p none)).1 :=
  State.issue_issues hI rfl (by rw [psetBody_eq]) .nil

/-! ## FILL, CBLD and SWAP -/

theorem fillLines_eq (f : BitVec 4) : fillLines f = 64 * 128 * (match fmtOf f with
    | .c4 => 4
    | .t16 => 16
    | .l16 => 16
    | .t32 => 16
    | _ => 8) / 512 := by
  unfold fillLines
  cases fmtOf f <;> rfl

theorem fillBody_clean (c : Ctx) (a : Nat) (src : BitVec 24) (kn nn bs : Nat) {d : Bed} (hc : Clean d) :
    fillBody c a src kn nn bs d = ((d.setArray a ((d.array a).setShadow
      { fmt := (c.opnd src).t.fmt, kn, nn, tensor := (c.opnd src).ti, ready := true, poison := false,
        till := c.cyc + fillCycles (c.opnd src).t.fmt bs,
        codes := (fillCodes d (c.opnd src) kn nn).filter fun e => e.2 != 0 })).gauge 3 (fillLines (c.opnd src).t.fmt), []) := by
  simp [fillBody, Bed.touch_clean _ _ _ hc]

theorem cbldBody_clean (c : Ctx) (a tensor : Nat) {d : Bed} (hc : Clean d) :
    cbldBody c a tensor d =
      ((d.setArray a ((if decide (c.cyc < (d.array a).shadow.till) then
          (d.array a).setShadow { (d.array a).shadow with till := (d.array a).shadow.till + 1 } else d.array a).setIdleBank
        { codes := (List.range 16).map fun i => leNat (d.bytes ((c.tensor tensor).codebook + 2 * i) 2), tensor,
          till := (if decide (c.cyc < (d.array a).shadow.till) then (d.array a).shadow.till else c.cyc) + 128
          poison := false })).gauge 3 1, []) := by
  simp [cbldBody, Bed.touch_clean _ _ _ hc]

/-- The plane in use is the one that the tag names, whatever is written into the shadow. -/
@[simp] theorem MArray.cur_setShadow (x : MArray) (y : Plane) : (x.setShadow y).cur = x.cur := by
  unfold MArray.setShadow MArray.cur
  cases x.tag <;> rfl

@[simp] theorem MArray.bank_setShadow (x : MArray) (y : Plane) : (x.setShadow y).bank = x.bank := by
  unfold MArray.setShadow MArray.bank
  cases x.tag <;> rfl

@[simp] theorem MArray.bank_setIdleBank (x : MArray) (k : Bank) : (x.setIdleBank k).bank = x.bank := by
  unfold MArray.setIdleBank MArray.bank
  cases x.tag <;> rfl

/-- What a swap of clean planes and banks makes of an array. -/
def MArray.swapped (x : MArray) (till : Nat) : MArray :=
  let y := { x with tag := !x.tag }
  let y := y.setShadow { y.shadow with ready := false }
  if x.cur.ready && x.cur.fmt != x.shadow.fmt && decide (x.fenceEnd < till) then
    { y with fences := y.fences + 1, fenceEnd := till } else y

theorem swapBody_clean {a : Nat} {d : Bed} (hs : (d.array a).shadow.poison = false) (hb : (d.array a).idleBank.poison = false) :
    swapBody a d = (d.setArray a ((d.array a).swapped (d.fenceTill (d.array a))), []) := by
  simp [swapBody, hs, hb, MArray.swapped]

theorem MArray.swapped_eq (x : MArray) (till : Nat) :
    x.swapped till = { x with
      tag := !x.tag, plane0 := (x.swapped till).plane0, plane1 := (x.swapped till).plane1
      fences := if x.cur.ready && x.cur.fmt != x.shadow.fmt && decide (x.fenceEnd < till) then x.fences + 1 else x.fences
      fenceEnd := if x.cur.ready && x.cur.fmt != x.shadow.fmt && decide (x.fenceEnd < till) then till else x.fenceEnd } := by
  unfold MArray.swapped MArray.setShadow
  cases x.tag <;> (dsimp only; split <;> rfl)

theorem MArray.swapped_planes (x : MArray) (till : Nat) :
    (x.swapped till).cur = x.shadow ∧ (x.swapped till).shadow = { x.cur with ready := false } ∧
      (x.swapped till).bank = x.idleBank ∧ (x.swapped till).idleBank = x.bank := by
  unfold MArray.swapped
  generalize (x.cur.ready && x.cur.fmt != x.shadow.fmt && decide (x.fenceEnd < till)) = late
  cases late <;> cases ht : x.tag <;>
    simp [MArray.setShadow, MArray.cur, MArray.shadow, MArray.bank, MArray.idleBank, ht]

/-! ## MLOAD -/

theorem mloadLine_clean (c : Ctx) (o : Opnd) (kn : Nat) (mov : Fmt) {d : Bed} (hc : Clean d) :
    (mloadLine c d o kn mov).bad = none ∧ Clean (mloadLine c d o kn mov).bed ∧ (mloadLine c d o kn mov).bed.arrays = d.arrays := by
  unfold mloadLine
  split
  · obtain ⟨hb, he, -, ha⟩ := Ctx.load_clean c d o (8 * kn) .b1 0 hc
    exact ⟨hb, he, ha⟩
  · split
    · obtain ⟨hb, he, -, ha⟩ := Ctx.load_clean c d o kn .f8 (c.zeroOf d o.ti) hc
      exact ⟨hb, he, ha⟩
    · obtain ⟨hb, he, -, ha⟩ := Ctx.load_clean c d o kn mov 0 hc
      exact ⟨hb, he, ha⟩

/-- The bed after the first n lines of an MLOAD. -/
def mloadBeds (c : Ctx) (o : Opnd) (kn : Nat) (mov : Fmt) (d : Bed) (n : Nat) : Bed :=
  (List.range n).foldl (fun (d : Bed) j => (mloadLine c d (o.shift 0 j) kn mov).bed) d

theorem mloadBeds_succ (c : Ctx) (o : Opnd) (kn : Nat) (mov : Fmt) (d : Bed) (n : Nat) :
    mloadBeds c o kn mov d (n + 1) = (mloadLine c (mloadBeds c o kn mov d n) (o.shift 0 n) kn mov).bed := by
  simp [mloadBeds, List.range_succ]

theorem mloadBeds_clean (c : Ctx) (o : Opnd) (kn : Nat) (mov : Fmt) {d : Bed} (hc : Clean d) (n : Nat) :
    Clean (mloadBeds c o kn mov d n) ∧ (mloadBeds c o kn mov d n).arrays = d.arrays := by
  induction n with
  | zero => exact ⟨hc, rfl⟩
  | succ n ih =>
    rw [mloadBeds_succ]
    obtain ⟨-, he, ha⟩ := mloadLine_clean c (o.shift 0 n) kn mov ih.1
    exact ⟨he, ha.trans ih.2⟩

/-- The slot that line i of an MLOAD fills. -/
def mloadSlot (c : Ctx) (o : Opnd) (kn : Nat) (mov : BitVec 4) (d : Bed) (i : Nat) : MSlot :=
  let codes := (mloadLine c (mloadBeds c o kn (fmtOf mov) d i) (o.shift 0 i) kn (fmtOf mov)).codes
  { loaded := true, poison := false, fmt := mov, codes := codes ++ List.replicate (128 - codes.length) (zeroCode (fmtOf mov)) }

/-- What an MLOAD of a bed without errors makes of its buffer half. -/
def mloadHalf (c : Ctx) (o : Opnd) (kn : Nat) (d : Bed) (m0 count : Nat) (mov : BitVec 4) (x : Half) : Half :=
  { x with
    tensor := o.ti, kn, fmt := mov
    slots := tsetAll (fun _ => {}) x.slots ((List.range count).map fun i => (m0 + i, mloadSlot c o kn mov d i)) }

theorem mloadBody_clean (c : Ctx) (a : Nat) (half : Bool) (m0 count kn : Nat) (src : BitVec 24) {d : Bed} (hc : Clean d) :
    mloadBody c a half m0 count kn src d =
      (((mloadBeds c (c.opnd src) kn (fmtOf (d.array a).precision.mov) d count).setArray a ((d.array a).setHalf half
        (mloadHalf c (c.opnd src) kn d m0 count (d.array a).precision.mov ((d.array a).half half)))).gauge 3
          (count * portCycles (c.opnd src) (if fmtOf (d.array a).precision.mov = .b1 then 8 * kn else kn)), []) := by
  generalize ho : c.opnd src = o
  generalize hm : (d.array a).precision.mov = mov
  have hf : ∀ n, (List.range n).foldl
      (fun (s : Bed × List (Nat × MSlot)) i =>
        let l := mloadLine c s.1 (o.shift 0 i) kn (fmtOf mov)
        (l.bed, s.2 ++ [(m0 + i, ({
          loaded := true, poison := l.bad.isSome, fmt := mov,
          codes := l.codes ++ List.replicate (128 - l.codes.length) (zeroCode (fmtOf mov)) } : MSlot))])) (d, []) =
      (mloadBeds c o kn (fmtOf mov) d n, (List.range n).map fun i => (m0 + i, mloadSlot c o kn mov d i)) := by
    intro n
    induction n with
    | zero => rfl
    | succ n ih =>
      rw [List.range_succ, List.foldl_append, ih, List.map_append, mloadBeds_succ]
      obtain ⟨hb, -, -⟩ := mloadLine_clean c (o.shift 0 n) kn (fmtOf mov) (mloadBeds_clean c o kn (fmtOf mov) hc n).1
      simp [mloadSlot, hb]
  have ha := Bed.array_of_arrays (mloadBeds_clean c o kn (fmtOf mov) hc count).2 a
  simp only [mloadBody, ho, hm, hf, ha, mloadHalf]

theorem upFrom_nodup (k n : Nat) : (upFrom k n).Nodup := by
  unfold upFrom
  exact (List.nodup_range).map fun x y hxy => Nat.add_left_cancel hxy

theorem mloadHalf_slot (c : Ctx) (o : Opnd) (kn : Nat) (d : Bed) (m0 count : Nat) (mov : BitVec 4) (x : Half) {i : Nat}
    (hi : i < count) : tget (fun _ => ({} : MSlot)) (mloadHalf c o kn d m0 count mov x).slots (m0 + i) = mloadSlot c o kn mov d i := by
  refine tget_tsetAll_inside _ _ _ _ _ ?_ (List.mem_map.mpr ⟨i, List.mem_range.mpr hi, rfl⟩)
  rw [List.map_map]
  exact (List.nodup_range).map fun x y hxy => Nat.add_left_cancel hxy

theorem mloadHalf_slot_other (c : Ctx) (o : Opnd) (kn : Nat) (d : Bed) (m0 count : Nat) (mov : BitVec 4) (x : Half) {k : Nat}
    (hk : k < m0 ∨ m0 + count ≤ k) :
    tget (fun _ => ({} : MSlot)) (mloadHalf c o kn d m0 count mov x).slots k = tget (fun _ => ({} : MSlot)) x.slots k := by
  refine tget_tsetAll_outside _ _ _ _ fun e he => ?_
  obtain ⟨i, hi, rfl⟩ := List.mem_map.mp he
  have := List.mem_range.mp hi
  show m0 + i ≠ k
  omega

/-- Settles O1: each body's effect on a bed without errors, put into the bed that issues it. -/
theorem arraysTakePrecisionPlanesCodebooksAndMovingLines : Obligations.ArraysTakePrecisionPlanesCodebooksAndMovingLines := by
  refine ⟨?_, ⟨?_, ?_, ?_⟩, ?_⟩
  · intro s b h a path mov sta w sem paired p hI
    have hi := execPset_issues hI
    rw [psetBody_eq] at hi
    exact hi
  · intro s b h a src kn nn bs p hI hc
    obtain ⟨t, ht, hb, ho⟩ := State.issue_issues hI rfl
      (fillBody_clean (s.ctx p) a.toNat src (kn.toNat + 1) (nn.toNat + 1) bs.toNat (issued_clean hc)) .nil
    refine ⟨t, ht, ho, ?_, ?_⟩
    · rw [fillCycles, fillLines_eq] at hb
      exact hb
    · rw [bedIs_array hb]
      simp
  · intro s b h a tensor p hI hc
    obtain ⟨t, ht, hb, ho⟩ := State.issue_issues hI rfl (cbldBody_clean (s.ctx p) a.toNat tensor.toNat (issued_clean hc)) .nil
    refine ⟨t, ht, ho, hb, ?_⟩
    rw [bedIs_array hb, Bed.array_gauge, Bed.array_setArray_self, MArray.bank_setIdleBank]
    split <;> simp
  · intro s b h a p hI x till late hs hk
    obtain ⟨t, ht, hb, ho⟩ := State.issue_issues hI rfl (swapBody_clean (d := s.issued h p none) hs hk) .nil
    have ha : (t.bed p).array a.toNat = x.swapped till := by
      rw [bedIs_array hb, Bed.array_setArray_self]
      rfl
    refine ⟨t, ht, ho, ?_⟩
    rw [ha]
    exact ⟨hb, x.swapped_eq till, x.swapped_planes till⟩
  · intro s b h a half m0 count kn src bm p hI hc
    obtain ⟨t, ht, hb, ho⟩ := State.issue_issues hI rfl
      (mloadBody_clean (s.ctx p) a.toNat half m0.toNat (count.toNat + 1) (kn.toNat + 1) src (issued_clean hc)) .nil
    refine ⟨t, _, ht, ho, hb, rfl, rfl, rfl, fun i hi => ?_, fun k hk => ?_⟩
    · exact mloadHalf_slot _ _ _ _ _ _ _ _ (Nat.lt_succ_of_le hi)
    · exact mloadHalf_slot_other _ _ _ _ _ _ _ _ (hk.imp_right fun hk => by omega)

end Sys2Proof.Machine
end

section
/-! PROOFS. PASS (R210): the tile that it makes, entry by entry. -/

namespace Sys2Proof.Machine

variable {s t : State} {b : BitVec 7} {h : Head} {p : Nat}

/-! ## Entries set at the places of a grid -/

theorem entryKey_inj {m n m' n' : Nat} (hn : n < 64) (hn' : n' < 64) (h : entryKey m n = entryKey m' n') : m = m' ∧ n = n' := by
  unfold entryKey at h
  omega

theorem enumFrom_nodup {α : Type} (k : Nat) (l : List α) : ((enumFrom k l).map (·.1)).Nodup := by
  rw [enumFrom_keys]
  exact upFrom_nodup _ _

theorem lt_of_mem_enumFrom {α : Type} {l : List α} {e : Nat × α} (h : e ∈ enumFrom 0 l) : e.1 < l.length :=
  (List.getElem?_eq_some_iff.mp ((mem_enumFrom 0 l e.1 e.2).mp h).2).1

/-- A table set at several keys, none twice, reads what was set for a key, and its old value at every other. -/
theorem tget_tsetAll_find {α : Type} [DecidableEq α] (d : Nat → α) (kvs : List (Nat × α)) (t : Tbl α) (k : Nat)
    (hn : (kvs.map (·.1)).Nodup) :
    tget d (tsetAll d t kvs) k = ((kvs.find? fun e => e.1 == k).map (·.2)).getD (tget d t k) := by
  cases hf : kvs.find? fun e => e.1 == k with
  | none =>
    refine tget_tsetAll_outside d kvs t k fun e he hk => ?_
    have := List.find?_eq_none.mp hf e he
    simp [hk] at this
  | some e =>
    have hk : e.1 = k := by simpa using List.find?_some hf
    exact tget_tsetAll_inside d kvs t k e.2 hn (hk ▸ List.mem_of_find?_eq_some hf)

/-- The keys of the rows of a grid of at most 64 columns are distinct. -/
theorem grid_nodup {α β : Type} (l : List α) (f : α → Nat) (row : α → List β) (hf : (l.map f).Nodup)
    (hr : ∀ a ∈ l, (row a).length ≤ 64) :
    (l.flatMap fun a => (enumFrom 0 (row a)).map fun e => entryKey (f a) e.1).Nodup := by
  rw [List.nodup_flatMap]
  constructor
  · intro a ha
    have h := enumFrom_nodup 0 (row a)
    rw [show ((enumFrom 0 (row a)).map fun e => entryKey (f a) e.1) = ((enumFrom 0 (row a)).map (·.1)).map (entryKey (f a)) by
      rw [List.map_map]; rfl]
    exact h.map fun x y hxy => Nat.add_left_cancel hxy
  · have hp : l.Pairwise fun a c => f a ≠ f c := List.pairwise_map.mp hf
    refine hp.imp_of_mem fun {a c} ha hc hac => ?_
    rw [Function.onFun, List.disjoint_left]
    intro k hk hk'
    obtain ⟨e, he, rfl⟩ := List.mem_map.mp hk
    obtain ⟨e', he', hee⟩ := List.mem_map.mp hk'
    have h1 := lt_of_mem_enumFrom he
    have h2 := lt_of_mem_enumFrom he'
    exact hac (entryKey_inj (Nat.lt_of_lt_of_le h2 (hr c hc)) (Nat.lt_of_lt_of_le h1 (hr a ha)) hee).1.symm

/-! ## The initial entries -/

theorem Ctx.vals_length (c : Ctx) (d : Bed) (o : Opnd) (n : Nat) : (c.vals d o n).length = n := by
  unfold Ctx.vals
  split <;> simp [Bed.codes]

/-- The initial entries stand at the places of a grid of the reduction's rows and columns. -/
theorem passInit_keys (c : Ctx) (d : Bed) (r : Redn) (pre corr : Option Opnd) (mt : Nat) :
    ∃ row : Nat → List Entry, (∀ m, (row m).length = r.nn) ∧ (passInit c d r pre corr mt).map (·.1) =
      (List.range mt).flatMap fun m => (enumFrom 0 (row m)).map fun e => entryKey m e.1 := by
  unfold passInit
  cases pre with
  | none =>
    exact ⟨fun _ => List.replicate r.nn r.prec.ident, fun _ => by simp, by simp [List.map_flatMap, Function.comp_def]⟩
  | some o =>
    refine ⟨fun m => (c.vals d (o.shift 0 m) r.nn).map fun v => r.prec.preload v.1 (r.shift c d (c.shiftOf d o.ti)),
      fun m => by simp [Ctx.vals_length], by simp [List.map_flatMap, Function.comp_def]⟩

theorem passInit_nodup (c : Ctx) (d : Bed) (r : Redn) (pre corr : Option Opnd) (mt : Nat) (hn : r.nn ≤ 64) :
    ((passInit c d r pre corr mt).map (·.1)).Nodup := by
  obtain ⟨row, hl, hk⟩ := passInit_keys c d r pre corr mt
  rw [hk]
  exact grid_nodup _ id row (by simpa using List.nodup_range) fun m _ => by rw [hl]; exact hn

theorem passInit_key (c : Ctx) (d : Bed) (r : Redn) (pre corr : Option Opnd) (mt : Nat) {e : Nat × Entry}
    (he : e ∈ passInit c d r pre corr mt) : ∃ m n, m < mt ∧ n < r.nn ∧ e.1 = entryKey m n := by
  obtain ⟨row, hl, hk⟩ := passInit_keys c d r pre corr mt
  have hm := List.mem_map_of_mem (f := (·.1)) he
  rw [hk] at hm
  obtain ⟨m, hm, hf⟩ := List.mem_flatMap.mp hm
  obtain ⟨x, hx, hxe⟩ := List.mem_map.mp hf
  exact ⟨m, x.1, List.mem_range.mp hm, hl m ▸ lt_of_mem_enumFrom hx, hxe.symm⟩

/-- An entry of the tile that a PASS adds to. -/
theorem passBase_entry (c : Ctx) (d : Bed) (x : MArray) (r : Redn) (begins : Bool) (pre corr : Option Opnd) (mt : Nat)
    (hn : r.nn ≤ 64) (k : Nat) :
    (passBase c d x r begins pre corr mt).entry k =
      if begins then
        (((passInit c d r pre corr mt).find? fun e => e.1 == k).map (·.2)).getD
          (tget (fun _ => ({} : Entry)) (clearedEntries r.prec) k)
      else (x.tile r.tile).entry k := by
  unfold passBase Tile.entry Tile.setEntries
  cases begins with
  | false => rfl
  | true =>
    rw [if_pos rfl, if_pos rfl]
    exact tget_tsetAll_find _ _ _ _ (passInit_nodup c d r pre corr mt hn)

theorem passBase_entry_outside (c : Ctx) (d : Bed) (x : MArray) (r : Redn) (begins : Bool) (pre corr : Option Opnd) (mt : Nat)
    (hn : r.nn ≤ 64) (k : Nat) (hk : ∀ m n, m < mt → n < r.nn → k ≠ entryKey m n) :
    (passBase c d x r begins pre corr mt).entry k =
      if begins then tget (fun _ => ({} : Entry)) (clearedEntries r.prec) k else (x.tile r.tile).entry k := by
  rw [passBase_entry _ _ _ _ _ _ _ _ hn]
  have hf : ((passInit c d r pre corr mt).find? fun e => e.1 == k) = none := by
    rw [List.find?_eq_none]
    intro e he
    obtain ⟨m, n, hm, hnn, hek⟩ := passInit_key c d r pre corr mt he
    have := hk m n hm hnn
    simpa [hek] using this.symm
  rw [hf]
  rfl

/-! ## The entries of a pass -/

theorem passNew_keys (compat : Bool) (x : MArray) (zw : Int) (base : Tile) (as ws : List (List Val)) :
    (passNew compat x zw base as ws).map (·.1) =
      (enumFrom 0 as).flatMap fun a => (enumFrom 0 ws).map fun w => entryKey a.1 w.1 := by
  simp [passNew, List.map_flatMap, Function.comp_def]

theorem passNew_nodup (compat : Bool) (x : MArray) (zw : Int) (base : Tile) (as ws : List (List Val)) (hw : ws.length ≤ 64) :
    ((passNew compat x zw base as ws).map (·.1)).Nodup := by
  rw [passNew_keys]
  exact grid_nodup (enumFrom 0 as) (fun a => a.1) (fun _ => ws) (enumFrom_nodup 0 as) fun _ _ => hw

/-- A tile with the entries of a pass set: in the grid of its elements and columns what the pass makes of the entry. -/
theorem passNew_entry (compat : Bool) (x : MArray) (zw : Int) (base : Tile) (as ws : List (List Val)) (hw : ws.length ≤ 64)
    {m n : Nat} (hm : m < as.length) (hn : n < ws.length) :
    (base.setEntries ((passNew compat x zw base as ws).map fun e => (e.1, e.2.1))).entry (entryKey m n) =
      (passEntry compat x.precision zw (base.entry (entryKey m n)) (as.getD m []) (ws.getD n [])).1 := by
  have hk : ((passNew compat x zw base as ws).map fun e => (e.1, e.2.1)).map (·.1) = (passNew compat x zw base as ws).map (·.1) := by
    rw [List.map_map]
    rfl
  refine tget_tsetAll_inside _ _ _ _ _ (hk ▸ passNew_nodup compat x zw base as ws hw) ?_
  have ha : (m, as.getD m []) ∈ enumFrom 0 as := (mem_enumFrom 0 as m _).mpr ⟨Nat.zero_le m, by simp [hm]⟩
  have hwn : (n, ws.getD n []) ∈ enumFrom 0 ws := (mem_enumFrom 0 ws n _).mpr ⟨Nat.zero_le n, by simp [hn]⟩
  exact List.mem_map.mpr ⟨_, List.mem_flatMap.mpr ⟨_, ha, List.mem_map.mpr ⟨_, hwn, rfl⟩⟩, rfl⟩

theorem passNew_entry_outside (compat : Bool) (x : MArray) (zw : Int) (base : Tile) (as ws : List (List Val)) {k : Nat}
    (hk : ∀ m n, m < as.length → n < ws.length → k ≠ entryKey m n) :
    (base.setEntries ((passNew compat x zw base as ws).map fun e => (e.1, e.2.1))).entry k = base.entry k := by
  refine tget_tsetAll_outside _ _ _ _ fun e he => ?_
  obtain ⟨f, hf, rfl⟩ := List.mem_map.mp he
  obtain ⟨a, ha, hm⟩ := List.mem_flatMap.mp hf
  obtain ⟨w, hw, rfl⟩ := List.mem_map.mp hm
  exact (hk a.1 w.1 (lt_of_mem_enumFrom ha) (lt_of_mem_enumFrom hw)).symm

/-! ## The instruction -/

theorem tileCols_le (paired : Bool) : tileCols paired ≤ 64 := by
  cases paired <;> decide

theorem passMoving_length (compat : Bool) (x : MArray) (half : Bool) (m0 mt k : Nat) :
    (passMoving compat x half m0 mt k).length = mt := by simp [passMoving]

theorem passStationary_length (compat : Bool) (x : MArray) (k : Nat) :
    (passStationary compat x k).length = min x.cur.nn (tileCols x.precision.paired) := by simp [passStationary]

/-- An array after a PASS. -/
def MArray.passed (x : MArray) (tile : Bool) (y : Tile) (mt start : Nat) : MArray :=
  { x.setTile tile y with
    passes := x.passes + 1, feedEnd := start + mt * x.precision.steps, sumEnd := start + mt * x.precision.steps + 191
    sumPrev := x.sumEnd, lastPass := some { tile, mt, start, steps := x.precision.steps } }

/-- A bed that differs from another at most in its gauges and its registers. -/
def Marked (d e : Bed) : Prop := ∃ g r, e = { d with gauges := g, regs := r }

theorem Marked.refl {d : Bed} : Marked d d := ⟨_, _, rfl⟩

theorem Marked.gauge {d e : Bed} {g n : Nat} (h : Marked d e) : Marked d (e.gauge g n) := by
  obtain ⟨g, r, rfl⟩ := h
  exact ⟨_, r, rfl⟩

theorem Marked.setReg {d e : Bed} {o : Nat} {v : W64} (h : Marked d e) : Marked d (e.setReg o v) := by
  obtain ⟨g, r, rfl⟩ := h
  exact ⟨g, _, rfl⟩

theorem Marked.setSticky {d e : Bed} (h : Marked d e) : Marked d e.setSticky := h.setReg

theorem Marked.noteInvalid {d e : Bed} {debug : Bool} {a n : Nat} {i : Option (Nat × Nat × Nat)} (h : Marked d e) :
    Marked d (e.noteInvalid debug a n i) := by
  unfold Bed.noteInvalid
  split
  · dsimp only
    split
    · exact h.setReg
    · exact h
  · exact h

theorem Marked.exists {d e : Bed} {os : List BOut} (h : Marked d e) : ∃ g r, (e, os) = ({ d with gauges := g, regs := r }, os) := by
  obtain ⟨g, r, rfl⟩ := h
  exact ⟨g, r, rfl⟩

/-- A PASS that feeds no poisoned slot, of a bed without errors: gauges, the sticky bit and the invalid-product latch beside
its array. -/
theorem passBody_clean (c : Ctx) (a : Nat) (half : Bool) (m0 mt : Nat) (tile begins : Bool) (pre corr : Option (BitVec 24))
    {d : Bed} (hc : Clean d)
    (hp : ∀ i, i < mt → (tget (fun _ => ({} : MSlot)) ((d.array a).half half).slots (m0 + i)).poison = false) :
    ∃ g r, passBody c a half m0 mt tile begins pre corr d = ({ d.setArray a ((d.array a).passed tile
      (passTile c d (d.array a) half m0 mt tile begins (pre.map c.opnd) (corr.map c.opnd)).1 mt
      (max c.cyc (d.array a).fenceEnd)) with gauges := g, regs := r }, []) := by
  have hs : ((upFrom m0 mt).any fun m => (tget (fun _ => ({} : MSlot)) ((d.array a).half half).slots m).poison) = false := by
    rw [List.any_eq_false]
    intro k hk
    obtain ⟨i, hi, rfl⟩ := List.mem_map.mp hk
    rw [hp i (List.mem_range.mp hi)]
    decide
  simp only [passBody, hs, Bed.touch_clean _ _ _ hc, Bool.false_eq_true, if_false]
  refine Marked.exists (.noteInvalid (.gauge (.gauge (.gauge ?_))))
  split
  · exact .setSticky .refl
  · exact .refl

/-- The operands that a PASS names. -/
theorem passOpnd_eq (c : Ctx) (on : Bool) (r : BitVec 24) :
    (if on then some r else none : Option (BitVec 24)).map c.opnd = if on then some (c.opnd r) else none := by
  cases on <;> rfl

theorem tile_isOpen_setEntries (c : Ctx) (d : Bed) (x : MArray) (half : Bool) (m0 mt : Nat) (tile begins : Bool)
    (pre corr : Option Opnd) : (passTile c d x half m0 mt tile begins pre corr).1.isOpen = true ∧
      (passTile c d x half m0 mt tile begins pre corr).1.redn = passRedn x half tile begins mt := ⟨rfl, rfl⟩

/-- The entries of the tile that a PASS makes: those of the grid of its elements and the plane's columns are combined, every
other is the tile's that it adds to. -/
theorem passTile_entry (c : Ctx) (d : Bed) (x : MArray) (half : Bool) (m0 mt : Nat) (tile begins : Bool)
    (pre corr : Option Opnd) (k : Nat) :
    (passTile c d x half m0 mt tile begins pre corr).1.entry k =
      ((passBase c d x (passRedn x half tile begins mt) begins pre corr mt).setEntries
        ((passNew c.prog.compat x (passZero c d x) (passBase c d x (passRedn x half tile begins mt) begins pre corr mt)
          (passMoving c.prog.compat x half m0 mt (min x.cur.kn (x.half half).kn))
          (passStationary c.prog.compat x (min x.cur.kn (x.half half).kn))).map fun e => (e.1, e.2.1))).entry k := rfl

/-- Settles O2: a PASS sets the entries of a grid, each from its own column, over the entries that it begins with. -/
theorem passCombinesEveryColumnIntoOneTile : Obligations.PassCombinesEveryColumnIntoOneTile := by
  intro s b h a half m0 mt tile begins preEn corrEn pre corr p hI hc c x q k as ws hp hn fed
  obtain ⟨g, r, hb⟩ := passBody_clean c a.toNat half m0.toNat (mt.toNat + 1) tile begins (if preEn then some pre else none)
    (if corrEn then some corr else none) (issued_clean (h := h) (o := none) hc) fun i hi => hp i (Nat.le_of_lt_succ hi)
  rw [passOpnd_eq, passOpnd_eq] at hb
  obtain ⟨t, ht, hb, ho⟩ := State.issue_issues hI rfl hb .nil
  have h64 : x.cur.nn ≤ 64 := Nat.le_trans hn (tileCols_le _)
  refine ⟨t, _, ht, ho, ⟨g, r, hb⟩, rfl, rfl, fun key hk => ?_, fun m n hm hnn => ?_⟩
  · rw [passTile_entry, passNew_entry_outside, passBase_entry_outside _ _ _ _ _ _ _ _ h64]
    · rfl
    · exact fun m n hm hnn => hk m n (Nat.le_of_lt_succ hm) (Nat.lt_of_lt_of_le hnn hn)
    · intro m n hm hnn
      rw [passMoving_length] at hm
      rw [passStationary_length] at hnn
      exact hk m n (Nat.le_of_lt_succ hm) (Nat.lt_of_lt_of_le hnn (Nat.min_le_right _ _))
  · intro base
    have hi : passInit c (s.issued h p none) = passInit c (s.bed p) := rfl
    have hbase : (passBase c (s.issued h p none) x (passRedn x half tile begins (mt.toNat + 1)) begins
        (if preEn then some (c.opnd pre) else none) (if corrEn then some (c.opnd corr) else none) (mt.toNat + 1)).entry
          (entryKey m n) = base := by
      rw [passBase_entry _ _ _ _ _ _ _ _ h64]
      simp only [base]
      cases begins with
      | false => rfl
      | true =>
        rw [if_pos rfl, if_pos rfl, hi]
        generalize List.find? _ _ = f
        cases f <;> rfl
    rw [passTile_entry]
    by_cases hnx : n < x.cur.nn
    · rw [if_pos hnx, passNew_entry]
      · exact congrArg (fun e => (passEntry c.prog.compat q (passZero c (s.bed p) x) e (as.getD m []) (ws.getD n [])).1) hbase
      · rw [passStationary_length]
        exact Nat.le_trans (Nat.min_le_left _ _) (Nat.le_trans hn (tileCols_le _))
      · rw [passMoving_length]
        exact Nat.lt_succ_of_le hm
      · rw [passStationary_length]
        exact Nat.lt_min.mpr ⟨hnx, hnn⟩
    · rw [if_neg hnx, passNew_entry_outside]
      · exact hbase
      · intro m' n' hm' hn' he
        rw [passStationary_length] at hn'
        have hlt := Nat.lt_min.mp hn'
        have := (entryKey_inj (Nat.lt_of_lt_of_le hnn (tileCols_le _)) (Nat.lt_of_lt_of_le hlt.2 (tileCols_le _)) he).2
        exact hnx (this ▸ hlt.1)

end Sys2Proof.Machine
end

section
/-! PROOFS. SPILL, RDRAIN and DRAIN (R211 to R215): the accumulators' ways out. -/

namespace Sys2Proof.Machine

/-- Settles O3: the body of each in a bed without errors. -/
theorem rainBarrelsAreSpilledIntoAndRecorded : Obligations.RainBarrelsAreSpilledIntoAndRecorded := by
  constructor
  · intro s b h a tile first barrel bp p hI hc x t0 q base len new res bytes info done
    have hc' : Clean (s.issued h p none) := issued_clean hc
    have hbody : spillBody (s.ctx p) a.toNat tile first barrel (bp.toNat + 1) (s.issued h p none) =
        (((if res.any (·.2) then done.setSticky else done).gauge 3 (len / 64 * (if first then 1 else 2))).finish
          ((s.ctx p).cyc + ceilDiv (len / 64 * (if first then 1 else 2)) (bp.toNat + 1)), []) := by
      simp only [spillBody, Bed.touch_clean _ _ _ hc', ite_self, Bed.putBytes_clean _ _ _ _ hc']
      rfl
    obtain ⟨t, ht, hb, ho⟩ := State.issue_issues hI rfl hbody .nil
    refine ⟨t, ht, ho, hb, fun d hd => ?_⟩
    obtain ⟨f, hf⟩ := hb
    have hm : (t.bed p).mem = mwrite 0 (s.bed p).mem base bytes := by
      rw [hf]
      split <;> rfl
    rw [hm, mget_mwrite_outside _ _ _ _ _ hd]
  · intro s b h a barrel slot clear bp p hI hc base info cols kept
    have hc' : Clean (s.issued h p none) := issued_clean hc
    refine State.issue_issues hI rfl (os := []) ?_ .nil
    simp only [rdrainBody, Bed.touch_clean _ _ _ hc']
    rfl

/-! ## DRAIN -/

theorem DOpt.reset_clean (opt : DOpt) (on : Bool) {d : Bed} (n : Nat) (hc : Clean d) : Clean (opt.reset on d n) :=
  (opt.reset_ecc on d n).trans hc

/-- Settles O4: which source a drain takes follows its mode and source bits; what it tells the module are flags' events. -/
theorem drainTakesTheSourceThatItsModeNames : Obligations.DrainTakesTheSourceThatItsModeNames := by
  intro s b h a mode source tile both toReg dst regFmt func fuse e0 statEn statClear barrel bp p i hI hc c x opt cleared per one
  have hc' : Clean (s.issued h p none) := issued_clean hc
  have hper : opt.per = per := by
    simp only [opt, DOpt.per, per]
    cases fuse <;> rfl
  have hbody : ∀ r : Bed × List BOut, drainBody c a.toNat mode source tile both opt statClear barrel (s.issued h p none) = r →
      Quiet r.2 → Issues i s p r.1 := fun r hr hq => State.issue_issues hI rfl hr hq
  have hcl : ∀ n, Clean (cleared (s.issued h p none) n) := fun n => opt.reset_clean statClear n hc'
  have hone : ∀ d src row0, Clean d → Quiet (one d src row0).2 ∧ Clean (one d src row0).1 :=
    fun d src row0 hd => drainOne_quiet c a.toNat src opt row0 d hd
  refine ⟨?_, ?_, ?_⟩
  · intro hs base info len r
    subst hs
    refine hbody r ?_ (drainOne_quiet _ _ _ _ _ _ ((Bed.gauge_ecc _ _ _).trans (hcl _))).1
    simp only [drainBody, Bed.touch_clean _ _ _ hc', hper, if_true]
    rfl
  · intro hs hb q w first till r
    subst hs hb
    refine hbody r ?_ (drainOne_quiet _ _ _ _ _ _ ((Bed.setArray_ecc _ _ _).trans (hcl _))).1
    simp only [drainBody, hper, Bool.false_eq_true, if_false]
    cases mode <;> rfl
  · intro hs hb f d0 d1 r0 r1
    subst hs hb
    have hq0 := hone ((cleared (s.issued h p none) (max d0.rows d1.rows)).setArray a.toNat
      ((x.emptyTile f (c.cyc + 64 * per)).emptyTile (!f) (c.cyc + 128 * per))) d0 0 ((Bed.setArray_ecc _ _ _).trans (hcl _))
    have hq1 := hone r0.1 d1 d0.rows hq0.2
    refine hbody (r1.1, r0.2 ++ r1.2) ?_ (hq0.1.append hq1.1)
    simp only [drainBody, hper, Bool.false_eq_true, if_false, if_true]
    rfl

end Sys2Proof.Machine
end

section
/-! PROOFS. Vector and mask registers: their lanes, and where a write lands (R201, R202). -/

namespace Sys2Proof.Machine

/-! ## Lanes packed and read back -/

theorem packLanes_div_mod (vs : List Nat) (l : Nat) : packLanes vs / 2 ^ (32 * l) % 2 ^ 32 = vs.getD l 0 % 2 ^ 32 := by
  induction vs generalizing l with
  | nil => simp [packLanes]
  | cons v vs ih =>
    cases l with
    | zero => simp [packLanes]
    | succ l =>
      have hq : packLanes (v :: vs) / 2 ^ 32 = packLanes vs := by
        change (v % 2 ^ 32 + 2 ^ 32 * packLanes vs) / 2 ^ 32 = packLanes vs
        omega
      rw [show 32 * (l + 1) = 32 + 32 * l by ring, pow_add, ← Nat.div_div_eq_div_mul, hq, ih]
      simp

theorem VReg.lane_eq (r : VReg) (l : Nat) : r.lane l = r.lanes.toNat / 2 ^ (32 * l) % 2 ^ 32 := by
  unfold VReg.lane
  rw [BitVec.extractLsb'_toNat, Nat.shiftRight_eq_div_pow]

theorem VReg.lane_lt (r : VReg) (l : Nat) : r.lane l < 2 ^ 32 := BitVec.isLt _

theorem vregOf_lane (tag : BitVec 4) (vs : List Nat) {l : Nat} (hl : l < 64) : (vregOf tag vs).lane l = vs.getD l 0 % 2 ^ 32 := by
  have hp : 2048 = 32 * l + (2048 - 32 * l) := by omega
  rw [VReg.lane_eq, ← packLanes_div_mod]
  unfold vregOf
  rw [BitVec.toNat_ofNat, hp, pow_add, Nat.mod_mul_right_div_self, Nat.mod_mod_of_dvd _ (pow_dvd_pow 2 (by omega))]

/-- A register made of one value for each lane. -/
theorem vregOf_map_lane (tag : BitVec 4) (f : Nat → Nat) {l : Nat} (hl : l < 64) :
    (vregOf tag ((List.range 64).map f)).lane l = f l % 2 ^ 32 := by
  rw [vregOf_lane _ _ hl]
  simp [List.getD_eq_getElem?_getD, hl]

/-! ## Mask words -/

theorem b2n_testBit_zero (q : Bool) : (b2n q).testBit 0 = q := by cases q <;> rfl

theorem bitSum_testBit (q : Nat → Bool) (n : Nat) :
    ((List.range n).map fun i => b2n (q i) * 2 ^ i).foldl (· + ·) 0 < 2 ^ n ∧
      ∀ l, l < n → (((List.range n).map fun i => b2n (q i) * 2 ^ i).foldl (· + ·) 0).testBit l = q l := by
  induction n with
  | zero => simp
  | succ n ih =>
    obtain ⟨hlt, hbit⟩ := ih
    rw [List.range_succ, List.map_append, List.foldl_append]
    generalize ((List.range n).map fun i => b2n (q i) * 2 ^ i).foldl (· + ·) 0 = x at hlt hbit
    simp only [List.map_cons, List.map_nil, List.foldl_cons, List.foldl_nil]
    have hb : b2n (q n) ≤ 1 := by cases q n <;> decide
    refine ⟨?_, fun l hl => ?_⟩
    · have := Nat.mul_le_mul_right (2 ^ n) hb
      rw [pow_succ]
      omega
    · rw [show x + b2n (q n) * 2 ^ n = 2 ^ n * b2n (q n) + x by ring, Nat.testBit_two_pow_mul_add _ hlt]
      split
      · exact hbit l ‹_›
      · rw [show l = n by omega, Nat.sub_self, b2n_testBit_zero]

theorem maskWord_getLsbD (old : W64) (keep f : Nat → Bool) {l : Nat} (hl : l < 64) :
    (maskWord old keep f).getLsbD l = if keep l then f l else old.getLsbD l := by
  have hs : maskWord old keep f =
      BitVec.ofNat 64 (((List.range 64).map fun i => b2n (if keep i then f i else old.getLsbD i) * 2 ^ i).foldl (· + ·) 0) := by
    unfold maskWord
    congr 3
    funext i
    split <;> rfl
  rw [hs, BitVec.getLsbD_ofNat, (bitSum_testBit _ 64).2 l hl]
  simp [hl]

theorem laneMask_64 (l : Nat) (hl : l < 64) : (laneMask 64).getLsbD l = true := by
  unfold laneMask
  rw [BitVec.getLsbD_ofNat, Nat.min_self, Nat.testBit_two_pow_sub_one]
  simp [hl]

/-! ## Landing -/

theorem freeLanes_getLsbD (ls : List (Nat × W64)) (land : Nat) (m : W64) {l : Nat} (hl : l < 64) :
    (freeLanes ls land m).getLsbD l = (m.getLsbD l && ls.all fun e => !(decide (land < e.1) && e.2.getLsbD l)) := by
  unfold freeLanes
  induction ls generalizing m with
  | nil => simp
  | cons e ls ih =>
    by_cases he : land < e.1
    · rw [List.filter_cons_of_pos (by simpa using he), List.foldl_cons, ih]
      simp only [he, hl, List.all_cons, BitVec.getLsbD_and, BitVec.getLsbD_not, decide_true, Bool.true_and, Bool.and_assoc]
    · rw [List.filter_cons_of_neg (by simpa using he), ih]
      simp [he]

theorem Bed.landV_vreg_ne (b : Bed) (cyc land i : Nat) (lanes : W64) (r : VReg) {k : Nat} (hk : k ≠ i) :
    (b.landV cyc land i lanes r).vreg k = b.vreg k := tget_tset_ne _ _ _ _ _ hk

theorem Bed.landV_vreg_self (b : Bed) (cyc land i : Nat) (lanes : W64) (r : VReg) :
    (b.landV cyc land i lanes r).vreg i =
      if (tget (fun _ => []) b.vLand i).any fun e => decide (land < e.1) then
        vregOf (b.vreg i).tag ((List.range 64).map fun j =>
          if (freeLanes (tget (fun _ => []) b.vLand i) land lanes).getLsbD j then r.lane j else (b.vreg i).lane j)
      else r := tget_tset_self _ _ _ _

theorem Bed.landV_vreg_last (b : Bed) (cyc land i : Nat) (lanes : W64) (r : VReg) (h : LandsLast b i land) :
    (b.landV cyc land i lanes r).vreg i = r := by
  rw [Bed.landV_vreg_self, if_neg]
  simpa [LandsLast] using h

/-- Where some write lands later, each lane is the new one's or the old one's. -/
theorem Bed.landV_lane_later (b : Bed) (cyc land i : Nat) (lanes : W64) (r : VReg) {l : Nat} (hl : l < 64)
    (ha : (tget (fun _ => []) b.vLand i).any (fun e => decide (land < e.1)) = true) :
    ((b.landV cyc land i lanes r).vreg i).lane l =
      if (freeLanes (tget (fun _ => []) b.vLand i) land lanes).getLsbD l then r.lane l else (b.vreg i).lane l := by
  rw [Bed.landV_vreg_self, if_pos ha, vregOf_map_lane _ _ hl, Nat.mod_eq_of_lt]
  split <;> exact VReg.lane_lt _ _

/-- A lane that a write landing later has taken keeps that. -/
theorem Bed.landV_lane_taken (b : Bed) (cyc land i : Nat) (lanes : W64) (r : VReg) {l : Nat} (hl : l < 64)
    (h : ∃ e ∈ tget (fun _ => []) b.vLand i, land < e.1 ∧ e.2.getLsbD l = true) :
    ((b.landV cyc land i lanes r).vreg i).lane l = (b.vreg i).lane l := by
  obtain ⟨e, he, hlt, hbit⟩ := h
  rw [Bed.landV_lane_later _ _ _ _ _ _ hl (by simpa using ⟨e.1, ⟨e.2, he⟩, hlt⟩), if_neg]
  rw [freeLanes_getLsbD _ _ _ hl]
  simp only [Bool.and_eq_true, List.all_eq_true, not_and]
  intro _ hall
  simpa [hlt, hbit] using hall e he

/-- Any other lane takes the new value, if the write leaves the lanes that it does not name as they are. -/
theorem Bed.landV_lane_free (b : Bed) (cyc land i : Nat) (lanes : W64) (r : VReg) {l : Nat} (hl : l < 64)
    (hr : lanes.getLsbD l = false → r.lane l = (b.vreg i).lane l)
    (h : ∀ e ∈ tget (fun _ => []) b.vLand i, land < e.1 → e.2.getLsbD l = false) :
    ((b.landV cyc land i lanes r).vreg i).lane l = r.lane l := by
  cases ha : (tget (fun _ => []) b.vLand i).any (fun e => decide (land < e.1)) with
  | false => rw [Bed.landV_vreg_self, if_neg (by simp [ha])]
  | true =>
    have hall : ((tget (fun _ => []) b.vLand i).all fun e => !(decide (land < e.1) && e.2.getLsbD l)) = true := by
      rw [List.all_eq_true]
      intro e he
      by_cases hlt : land < e.1
      · simp [h e he hlt]
      · simp [hlt]
    rw [Bed.landV_lane_later _ _ _ _ _ _ hl ha, freeLanes_getLsbD _ _ _ hl, hall, Bool.and_true]
    cases hb : lanes.getLsbD l with
    | true => rfl
    | false => exact (hr hb).symm

/-! ## VOP -/

/-- What a lane of an elementwise operation takes (Table 9.7): its code and how it was converted. -/
def vopLane (c : Ctx) (b : Bed) (op d s1 s2 s3 : Nat) (fmt : BitVec 4) (k : W64) (maskEn : Bool) (imm8 : BitVec 8)
    (imm32 : BitVec 32) (i : Nat) : Nat × Cnv :=
  let compat := c.prog.compat
  if op = 0x08 ∨ (!maskEn || k.getLsbD i) = true then
    let src := if op = 0x08 then (if k.getLsbD i then b.vreg s1 else b.vreg s2) else b.vreg s1
    if (op = 0x08 ∨ op = 0x0E) ∧ sameCode compat (fmtOf src.tag) 0 (fmtOf fmt) 0 then (src.lane i, Cnv.none)
    else encodeEl compat (fmtOf fmt) 0
      (vopVal op (src.val compat i) ((b.vreg s2).val compat i) ((b.vreg s3).val compat i) imm8
        (decodeEl compat .t32 0 imm32.toNat))
  else ((b.vreg d).lane i, .none)

theorem vopBody_compare (c : Ctx) (op d s1 s2 s3 : Nat) (fmt : BitVec 4) (km : Nat) (maskEn : Bool) (kd : Nat) (imm8 : BitVec 8)
    (imm32 : BitVec 32) (b : Bed) (h : 9 ≤ op ∧ op ≤ 12) :
    vopBody c op d s1 s2 s3 fmt km maskEn kd imm8 imm32 b =
      (b.landK c.cyc (c.cyc + 4) kd (if maskEn then b.kmask km else laneMask 64)
        (maskWord (b.kmask kd) (fun i => !maskEn || (b.kmask km).getLsbD i) fun i =>
          vopCmp op ((b.vreg s1).val c.prog.compat i) ((b.vreg s2).val c.prog.compat i)), []) := by
  unfold vopBody
  simp only []
  rw [if_neg (by omega), if_neg (by omega), if_neg (by omega), if_pos h]

theorem vopBody_elementwise (c : Ctx) (op d s1 s2 s3 : Nat) (fmt : BitVec 4) (km : Nat) (maskEn : Bool) (kd : Nat)
    (imm8 : BitVec 8) (imm32 : BitVec 32) (b : Bed) (h : op < 9 ∨ (12 < op ∧ op < 16)) :
    vopBody c op d s1 s2 s3 fmt km maskEn kd imm8 imm32 b =
      let res := (List.range 64).map (vopLane c b op d s1 s2 s3 fmt (b.kmask km) maskEn imm8 imm32)
      ((b.countAll (res.map (·.2))).landV c.cyc (c.cyc + 4) d (if op = 0x08 ∨ maskEn = false then laneMask 64 else b.kmask km)
        (vregOf fmt (res.map (·.1))), []) := by
  unfold vopBody
  simp only []
  rw [if_neg (by omega), if_neg (by omega), if_neg (by omega), if_neg (by omega)]
  rfl

/-- Settles O5: by the kind of operation; and what a landing write leaves of each lane. -/
theorem vopWritesOneMaskOrOneVectorRegister : Obligations.VopWritesOneMaskOrOneVectorRegister := by
  constructor
  · intro s b h op d s1 s2 s3 fmt km maskEn kd imm8 imm32 p i hI B c compat x k full toMask on r1 r2
    refine ⟨?_, ?_, ?_, ?_, ?_⟩
    · rintro rfl
      exact State.issue_issues hI rfl rfl .nil
    · rintro rfl
      exact State.issue_issues hI rfl rfl .nil
    · rintro rfl
      exact State.issue_issues hI rfl rfl .nil
    · intro h1 h2
      exact ⟨_, State.issue_issues hI rfl (vopBody_compare _ _ _ _ _ _ _ _ _ _ _ _ _ ⟨h1, h2⟩) .nil,
        fun l hl => maskWord_getLsbD _ _ _ hl⟩
    · intro h1
      have h8 : (op.toNat = 8) = (op = 0x08) := propext (BitVec.toNat_inj (y := (8 : BitVec 5)))
      have hE : (op.toNat = 14) = (op = 0x0E) := propext (BitVec.toNat_inj (y := (14 : BitVec 5)))
      have hbody := vopBody_elementwise c op.toNat d.toNat s1.toNat s2.toNat s3.toNat fmt km.toNat maskEn kd.toNat imm8 imm32 B h1
      simp only [h8] at hbody
      refine ⟨_, _, State.issue_issues hI rfl hbody .nil, rfl, by simp, fun l hl => ?_⟩
      intro imm src res
      have hres : vopLane c B op.toNat d.toNat s1.toNat s2.toNat s3.toNat fmt (B.kmask km.toNat) maskEn imm8 imm32 l = res := by
        unfold vopLane
        simp only [h8, hE]
        rfl
      rw [List.map_map, vregOf_map_lane _ _ hl]
      refine ⟨by rw [Function.comp_apply, hres], ?_⟩
      rw [List.map_map, List.getElem?_map, List.getElem?_range hl, Option.map_some, Function.comp_apply, hres]
  · intro b cyc land i lanes r hr
    exact ⟨b.landV_vreg_last cyc land i lanes r, fun k hk => b.landV_vreg_ne cyc land i lanes r hk, fun l hl =>
      ⟨b.landV_lane_taken cyc land i lanes r hl, b.landV_lane_free cyc land i lanes r hl (hr l hl)⟩⟩

end Sys2Proof.Machine
end

section
/-! PROOFS. VLD, VST and MCVT (R217, R218): vector registers loaded and stored, and conversions from memory to memory. -/

namespace Sys2Proof.Machine

/-- A load from a clean bed writes its conversion counters and range records only. -/
theorem Ctx.load_bed (c : Ctx) {d : Bed} (o : Opnd) (n : Nat) (g : Fmt) (z : Int) (hc : Clean d) :
    ∃ r q, (c.load d o n g z).bed = { d with regs := r, ranges := q } := by
  unfold Ctx.load
  rw [Bed.touch_clean d _ _ hc]
  simp only []
  obtain ⟨q, hq⟩ := c.record_ranges d o.ti ((c.vals d o n).map (·.1))
  rw [hq]
  split
  · exact ⟨d.regs, q, rfl⟩
  · exact ⟨_, q, (Bed.countAll_regs { d with ranges := q } _).choose_spec⟩

/-- The bed after the first n registers of a VLD are read, and the codes read. -/
def vldLoads (c : Ctx) (o : Opnd) (f : Fmt) (d : Bed) : Nat → Bed × List (List Nat)
  | 0 => (d, [])
  | n + 1 =>
    let l := c.load (vldLoads c o f d n).1 (o.shift (64 * n) 0) 64 f 0
    (l.bed, (vldLoads c o f d n).2 ++ [l.codes])

theorem vldLoads_bed (c : Ctx) (o : Opnd) (f : Fmt) {d : Bed} (hc : Clean d) (n : Nat) :
    ∃ r q, (vldLoads c o f d n).1 = { d with regs := r, ranges := q } := by
  induction n with
  | zero => exact ⟨d.regs, d.ranges, rfl⟩
  | succ n ih =>
    obtain ⟨r, q, h⟩ := ih
    obtain ⟨r', q', h'⟩ := c.load_bed (d := { d with regs := r, ranges := q }) (o.shift (64 * n) 0) 64 f 0 hc
    refine ⟨r', q', ?_⟩
    rw [← h] at h'
    simp only [vldLoads, h']
    rw [h]

theorem vldLoads_length (c : Ctx) (o : Opnd) (f : Fmt) (d : Bed) (n : Nat) : (vldLoads c o f d n).2.length = n := by
  induction n with
  | zero => rfl
  | succ n ih => simp [vldLoads, ih]

/-- A VLD's registers landing one after the other. -/
def landAll (cyc land first : Nat) (fmt : BitVec 4) (k : Nat) (codes : List (List Nat)) (d : Bed) : Bed :=
  (enumFrom k codes).foldl (fun (b : Bed) e => b.landV cyc land (first + e.1) (laneMask 64) (vregOf fmt e.2)) d

theorem landAll_cons (cyc land first : Nat) (fmt : BitVec 4) (k : Nat) (v : List Nat) (codes : List (List Nat)) (d : Bed) :
    landAll cyc land first fmt k (v :: codes) d =
      landAll cyc land first fmt (k + 1) codes (d.landV cyc land (first + k) (laneMask 64) (vregOf fmt v)) := rfl

theorem landAll_frame (cyc land first : Nat) (fmt : BitVec 4) (k : Nat) (codes : List (List Nat)) (d : Bed) :
    ∃ v l, landAll cyc land first fmt k codes d = { d with vregs := v, vLand := l } := by
  induction codes generalizing k d with
  | nil => exact ⟨d.vregs, d.vLand, rfl⟩
  | cons v codes ih =>
    obtain ⟨x, l, h⟩ := ih (k + 1) (d.landV cyc land (first + k) (laneMask 64) (vregOf fmt v))
    exact ⟨x, l, by rw [landAll_cons, h]; rfl⟩

/-- No other register is written. -/
theorem landAll_vreg_outside (cyc land first : Nat) (fmt : BitVec 4) (k : Nat) (codes : List (List Nat)) (d : Bed) {i : Nat}
    (hi : i < first + k ∨ first + k + codes.length ≤ i) : (landAll cyc land first fmt k codes d).vreg i = d.vreg i := by
  induction codes generalizing k d with
  | nil => rfl
  | cons v codes ih =>
    rw [List.length_cons] at hi
    rw [landAll_cons, ih _ _ (by omega), Bed.landV_vreg_ne _ _ _ _ _ _ (by omega)]

/-- A register that no later write bars has the load's tag. -/
theorem landAll_tag (cyc land first : Nat) (fmt : BitVec 4) (k : Nat) (codes : List (List Nat)) (d : Bed) {i : Nat}
    (hk : k ≤ i) (hi : i < k + codes.length) (hl : LandsLast d (first + i) land) :
    ((landAll cyc land first fmt k codes d).vreg (first + i)).tag = fmt := by
  induction codes generalizing k d with
  | nil => simp at hi; omega
  | cons v codes ih =>
    rw [List.length_cons] at hi
    rw [landAll_cons]
    rcases Nat.eq_or_lt_of_le hk with rfl | hk
    · rw [landAll_vreg_outside _ _ _ _ _ _ _ (by omega), Bed.landV_vreg_last _ _ _ _ _ _ hl]
      rfl
    · refine ih (k + 1) _ hk (by omega) ?_
      unfold LandsLast Bed.landV
      rw [tget_tset_ne _ _ _ _ _ (by omega)]
      exact hl

theorem bedIs_vreg {d x : Bed} (h : BedIs d x) (k : Nat) : d.vreg k = x.vreg k := by
  obtain ⟨f, rfl⟩ := h
  rfl

/-- VLD in a clean bed reads every register's elements and lands them together. -/
theorem vldBody_clean (c : Ctx) (first count : Nat) (src : BitVec 24) (fmt : BitVec 4) (bp : Nat) {d : Bed} (hc : Clean d) :
    vldBody c first count src fmt bp d =
      let o := c.opnd src
      let l := vldLoads c o (fmtOf fmt) d count
      ((landAll c.cyc (c.cyc + o.moveCycles (64 * count) bp + 3) first fmt 0 l.2 l.1).gauge 3 (o.portUses (64 * count)), []) := by
  have hfold : (List.range count).foldl
      (fun (s : Bed × Option Nat × List (List Nat)) i =>
        match s.2.1 with
        | some _ => s
        | none =>
          let l := c.load s.1 ((c.opnd src).shift (64 * i) 0) 64 (fmtOf fmt) 0
          (l.bed, l.bad, s.2.2 ++ [l.codes])) (d, none, []) =
      ((vldLoads c (c.opnd src) (fmtOf fmt) d count).1, none, (vldLoads c (c.opnd src) (fmtOf fmt) d count).2) := by
    induction count with
    | zero => rfl
    | succ n ih =>
      have hcl : Clean (vldLoads c (c.opnd src) (fmtOf fmt) d n).1 := by
        obtain ⟨r, q, h⟩ := vldLoads_bed c (c.opnd src) (fmtOf fmt) hc n
        rw [h]
        exact hc
      rw [List.range_succ, List.foldl_append, ih]
      simp only [List.foldl_cons, List.foldl_nil, (c.load_clean _ ((c.opnd src).shift (64 * n) 0) 64 (fmtOf fmt) 0 hcl).1]
      rfl
  unfold vldBody
  extract_lets o r at_ l
  have hr : r = (l.1, none, l.2) := hfold
  rw [hr]
  rfl

/-- Settles O6: each body in a clean bed; of several registers, what landing them one by one keeps. -/
theorem vectorMovesGoThroughTheGraders : Obligations.VectorMovesGoThroughTheGraders := by
  refine ⟨?_, ?_, ?_, ?_⟩
  · intro s b h first src fmt bp p hI hc c o l
    exact State.issue_issues hI rfl (vldBody_clean c first.toNat _ src fmt bp.toNat (issued_clean hc)) .nil
  · intro s b h first count src fmt bp p hI hc hfit c land
    have hc' : Clean (s.issued h p none) := issued_clean hc
    obtain ⟨t, ht, hb, ho⟩ := State.issue_issues (i := .vld b h first count src fmt bp) hI rfl
      (vldBody_clean c first.toNat (count.toNat + 1) src fmt bp.toNat hc') .nil
    obtain ⟨r, q, hload⟩ := vldLoads_bed c (c.opnd src) (fmtOf fmt) hc' (count.toNat + 1)
    have hlen := vldLoads_length c (c.opnd src) (fmtOf fmt) (s.issued h p none) (count.toNat + 1)
    generalize (vldLoads c (c.opnd src) (fmtOf fmt) (s.issued h p none) (count.toNat + 1)).2 = codes at hb hlen
    simp only [hload] at hb
    have hv : ∀ k, (t.bed p).vreg k =
        (landAll c.cyc land first.toNat fmt 0 codes { s.issued h p none with regs := r, ranges := q }).vreg k :=
      fun k => bedIs_vreg hb k
    refine ⟨t, ht, ho, ?_, fun k hk hl => ?_, fun k hk => ?_⟩
    · obtain ⟨v, l, hl⟩ := landAll_frame c.cyc land first.toNat fmt 0 codes { s.issued h p none with regs := r, ranges := q }
      rw [show c.cyc + (c.opnd src).moveCycles (64 * (count.toNat + 1)) bp.toNat + 3 = land from rfl, hl] at hb
      exact ⟨_, r, q, v, l, hb⟩
    · rw [hv]
      exact landAll_tag _ _ _ _ _ _ _ (Nat.zero_le _) (by omega) hl
    · rw [hv]
      exact landAll_vreg_outside _ _ _ _ _ _ _ (by omega)
  · intro s b h first count dst bp km maskEn p hI hc c o n
    exact State.issue_issues hI rfl (os := []) (Prod.ext rfl (c.store_clean (s.issued h p none) _ _ _ hc).1) .nil
  · intro s b h src dst n bp p hI hc c o q k vs B
    have hc' : Clean (s.issued h p none) := issued_clean hc
    refine State.issue_issues hI rfl (os := []) ?_ .nil
    simp only [mcvtBody, Bed.touch_clean _ _ _ hc']
    refine Prod.ext rfl (c.store_clean _ _ _ _ ?_).1
    exact (c.record_ecc _ _ _).trans hc'

end Sys2Proof.Machine
end

section
/-! PROOFS. The store grader's writes (R24, R158 to R160): the bytes that a store can change. -/

namespace Sys2Proof.Machine

theorem leBytes_length (n v : Nat) : (leBytes n v).length = n := by
  induction n generalizing v with
  | zero => rfl
  | succ n ih => simp [leBytes, ih]

/-! ## Writes that leave a byte as it was -/

/-- A write that cannot change byte a: the byte lies outside of it, or it changes no bit of the one byte that it names. -/
def BW.Spares (a : Nat) (w : BW) : Prop :=
  ¬(w.addr ≤ a ∧ a < w.addr + w.bytes.length) ∨ (w.mask = 0 ∧ w.bytes.length ≤ 1)

theorem applyBW_spares {a : Nat} {w : BW} (h : w.Spares a) (m : Mem) : mget 0 (applyBW m w) a = mget 0 m a := by
  by_cases hin : w.addr ≤ a ∧ a < w.addr + w.bytes.length
  · obtain ⟨hm, hl⟩ := h.resolve_left (not_not_intro hin)
    obtain ⟨v, hv⟩ := List.length_eq_one_iff.mp (show w.bytes.length = 1 by omega)
    have ha : a = w.addr + 0 := by rw [hv] at hin; simp at hin; omega
    unfold applyBW
    rw [hm, if_neg (by decide), hv, List.map_singleton, ha, mget_mwrite_inside _ _ _ _ _ (by simp)]
    simpa using BitVec.and_allOnes (x := mget 0 m w.addr)
  · unfold applyBW
    split
    · exact mget_mwrite_outside _ _ _ _ _ (by omega)
    · exact mget_mwrite_outside _ _ _ _ _ (by rw [List.length_map]; omega)

theorem foldl_applyBW_spares {a : Nat} {ws : List BW} (h : ∀ w ∈ ws, w.Spares a) (m : Mem) :
    mget 0 (ws.foldl applyBW m) a = mget 0 m a := by
  induction ws generalizing m with
  | nil => rfl
  | cons w ws ih =>
    rw [List.foldl_cons, ih (fun v hv => h v (by simp [hv])), applyBW_spares (h w (by simp))]

/-- Writes joined where they meet spare what each of them spares. -/
theorem joinBW_spares {a : Nat} {ws : List BW} (h : ∀ w ∈ ws, w.Spares a) : ∀ w ∈ joinBW ws, w.Spares a := by
  induction ws with
  | nil => exact h
  | cons w ws ih =>
    have hw := h w (by simp)
    have hws := ih fun v hv => h v (by simp [hv])
    unfold joinBW
    generalize joinBW ws = js at hws
    cases js with
    | nil => simpa using hw
    | cons v vs =>
      simp only []
      split
      next hj =>
        obtain ⟨hm, hm', hmeet⟩ := hj
        rw [List.forall_mem_cons] at hws ⊢
        have outside : ∀ x : BW, x.mask = 0xFF → x.Spares a → ¬(x.addr ≤ a ∧ a < x.addr + x.bytes.length) := by
          intro x hx hs
          refine hs.resolve_right ?_
          rw [hx]
          simp
        have := outside w hm hw
        have := outside v hm' hws.1
        refine ⟨.inl ?_, hws.2⟩
        simp only [List.length_append]
        omega
      next => exact List.forall_mem_cons.mpr ⟨hw, hws⟩

/-- A write without its bytes in some granules spares what the whole write spares. -/
theorem bwWithout_spares {a : Nat} {w : BW} (bad : List Nat) (h : w.Spares a) : ∀ v ∈ bwWithout bad w, v.Spares a := by
  intro v hv
  obtain ⟨e, he, rfl⟩ := List.mem_map.mp hv
  have hlt := lt_of_mem_enumFrom (List.mem_filter.mp he).1
  rcases h with h | h
  · left
    simp only [List.length_singleton]
    omega
  · exact .inr ⟨h.1, by simp⟩

theorem Bed.uncorrect_mem (b : Bed) (g : Nat) (byScrub : Bool) (index : Nat) : (b.uncorrect g byScrub index).mem = b.mem := by
  unfold Bed.uncorrect
  extract_lets d
  have hd : d.mem = b.mem := Bed.setReg_mem _ _ _
  clear_value d
  split
  · exact hd
  · rw [Bed.setReg_mem, hd]

theorem Bed.correct_mem (b : Bed) (g position : Nat) : (b.correct g position).mem = b.mem := by
  unfold Bed.correct
  extract_lets d
  have hd : d.mem = b.mem := Bed.setReg_mem _ _ _
  clear_value d
  split
  · exact hd
  · rw [Bed.setReg_mem, hd]

theorem Bed.setEcc_mem (b : Bed) (g k : Nat) : (b.setEcc g k).mem = b.mem := rfl

theorem Bed.mend_mem (ws : List BW) (masked : Bool) (index : Nat) (x : Bed × List BOut) (e : Nat × Nat) :
    (Bed.mend ws masked index x e).1.mem = x.1.mem := by
  unfold Bed.mend
  split
  · exact Bed.setEcc_mem _ _ _
  · split
    · split
      · exact Bed.uncorrect_mem _ _ _ _
      · rfl
    · split
      · rw [Bed.setEcc_mem, Bed.correct_mem]
      · rfl

theorem Bed.put_spares {a : Nat} {ws : List BW} (h : ∀ w ∈ ws, w.Spares a) (b : Bed) (index : Nat) (masked : Bool) :
    mget 0 (b.put index ws masked).1.mem a = mget 0 b.mem a := by
  have hmend : ∀ (hit : List (Nat × Nat)) (x : Bed × List BOut), (hit.foldl (Bed.mend ws masked index) x).1.mem = x.1.mem := by
    intro hit
    induction hit with
    | nil => exact fun _ => rfl
    | cons e hit ih => exact fun x => (ih _).trans (Bed.mend_mem _ _ _ _ _)
  unfold Bed.put
  simp only []
  rw [foldl_applyBW_spares, hmend]
  split
  · exact joinBW_spares h
  · refine joinBW_spares fun v hv => ?_
    obtain ⟨w, hw, hv⟩ := List.mem_flatMap.mp hv
    exact bwWithout_spares _ (h w hw) v hv

theorem Bed.puts_spares {a : Nat} {wss : List (List BW)} (h : ∀ ws ∈ wss, ∀ w ∈ ws, w.Spares a) (b : Bed) (index : Nat)
    (masked : Bool) : mget 0 (b.puts index wss masked).1.mem a = mget 0 b.mem a := by
  have hfold : ∀ x : Bed × List BOut,
      mget 0 (wss.foldl (fun s ws => ((s.1.put index ws masked).1, s.2 ++ (s.1.put index ws masked).2)) x).1.mem a =
        mget 0 x.1.mem a := by
    induction wss with
    | nil => exact fun _ => rfl
    | cons ws wss ih =>
      intro x
      rw [List.foldl_cons, ih fun v hv => h v (by simp [hv])]
      exact Bed.put_spares (h ws (by simp)) x.1 index masked
  exact hfold (b, [])

theorem elemBW_spares {a : Nat} {o : Opnd} (code : Nat)
    (h : ¬(o.addr ≤ a ∧ a < o.addr + max 1 ((fmtOf o.t.fmt).width / 8))) : (elemBW o code).Spares a := by
  left
  unfold elemBW
  simp only []
  split <;> simp only [List.length_singleton, leBytes_length] <;> omega

theorem maskedBW_spares (a : Nat) (items : List SItem) : ∀ w ∈ maskedBW items, w.Spares a := by
  intro w hw
  obtain ⟨i, -, rfl⟩ := List.mem_map.mp hw
  exact .inr ⟨rfl, by simp⟩

/-! ## T8X blocks -/

/-- What holds of the pieces gathered of a T8X store: the writes are of kept elements, the side lists are of elements' blocks
and hold four slots at most. -/
structure T8XAcc.Of (items : List SItem) (a : T8XAcc) : Prop where
  ws : ∀ w ∈ a.ws, ∃ i ∈ items, i.keep = true ∧ ∃ code, w = elemBW i.o code
  side : ∀ e ∈ a.side, e.2.length ≤ 4 ∧ ∃ i ∈ items, e.1 = i.o.elem / 256
  block : ∀ j, a.block = some j → ∃ i ∈ items, j = i.o.elem / 256
  slots : a.slots.length ≤ 4

/-- The side lists with that of the block being gathered. -/
def T8XAcc.lists (a : T8XAcc) : List (Nat × List Nat) :=
  match a.block with
  | some j => a.side ++ [(j, a.slots)]
  | none => a.side

theorem T8XAcc.Of.lists {items : List SItem} {a : T8XAcc} (h : a.Of items) :
    ∀ e ∈ a.lists, e.2.length ≤ 4 ∧ ∃ i ∈ items, e.1 = i.o.elem / 256 := by
  unfold T8XAcc.lists
  split
  next j hj =>
    intro e he
    rcases List.mem_append.mp he with he | he
    · exact h.side e he
    · obtain rfl := List.mem_singleton.mp he
      exact ⟨h.slots, h.block j hj⟩
  next => exact h.side

/-- The block that an element opens. -/
def T8XAcc.open (a : T8XAcc) (k : Nat) : T8XAcc :=
  if a.block = some k then a else { a with block := some k, slots := [], side := a.lists }

theorem T8XAcc.Of.open {items : List SItem} {a : T8XAcc} (h : a.Of items) {i : SItem} (hi : i ∈ items) :
    (a.open (i.o.elem / 256)).Of items := by
  unfold T8XAcc.open
  split
  · exact h
  · exact ⟨h.ws, h.lists, fun j hj => ⟨i, hi, (Option.some.inj hj).symm⟩, Nat.zero_le _⟩

/-- An element's code written, where it is kept. -/
def T8XAcc.emit (a : T8XAcc) (s : SItem) (code : Nat) (cs : List Cnv) (esc : Nat) (v : Val) : T8XAcc :=
  if s.keep then
    { a with ws := a.ws ++ [elemBW s.o code], cnv := a.cnv ++ (if s.pre = Cnv.none then cs else [s.pre]), esc := a.esc + esc, vals := a.vals ++ [v] }
  else a

theorem T8XAcc.Of.emit {items : List SItem} {a : T8XAcc} (h : a.Of items) {i : SItem} (hi : i ∈ items) (code : Nat)
    (cs : List Cnv) (esc : Nat) (v : Val) : (a.emit i code cs esc v).Of items := by
  unfold T8XAcc.emit
  split
  next hk =>
    refine ⟨fun w hw => ?_, h.side, h.block, h.slots⟩
    rcases List.mem_append.mp hw with hw | hw
    · exact h.ws w hw
    · exact ⟨i, hi, hk, code, List.mem_singleton.mp hw⟩
  next => exact h

theorem T8XAcc.Of.slot {items : List SItem} {a : T8XAcc} (h : a.Of items) (k : Nat) (hl : a.slots.length < 4) :
    T8XAcc.Of items { a with slots := a.slots ++ [k] } :=
  ⟨h.ws, h.side, h.block, by simp; omega⟩

theorem T8XAcc.Of.step {items : List SItem} {a : T8XAcc} (h : a.Of items) (q : W64) {i : SItem} (hi : i ∈ items) :
    (t8xStep q a i).Of items := by
  have ho := h.open hi
  unfold t8xStep
  extract_lets k a' emit t32 t8
  change T8XAcc.Of items a' at ho
  clear_value a'
  split
  · exact ho.emit hi _ _ _ _
  · split
    · exact (ho.slot _ ‹_›).emit hi _ _ _ _
    · exact ho.emit hi _ _ _ _

theorem T8XAcc.of_foldl (q : W64) (items : List SItem) : (items.foldl (t8xStep q) {}).Of items :=
  List.foldlRecOn (motive := T8XAcc.Of items) items (t8xStep q) ⟨by simp, by simp, by simp, by simp⟩
    fun _ ha _ hi => ha.step q hi

/-! ## Stores -/

/-- The writes of a T8X store: its elements, then the side list of each block. -/
def t8xWrites (q : W64) (items : List SItem) : List BW :=
  (items.foldl (t8xStep q) {}).ws ++ (items.foldl (t8xStep q) {}).lists.map fun e =>
    { addr := sideAddr q e.1, bytes := (e.2 ++ List.replicate (4 - e.2.length) 0).flatMap (leBytes 4) : BW }

theorem t8xWrites_spares {a : Nat} (q : W64) {items : List SItem}
    (hel : ∀ i ∈ items, i.keep = true → ¬(i.o.addr ≤ a ∧ a < i.o.addr + max 1 ((fmtOf i.o.t.fmt).width / 8)))
    (hside : ∀ i ∈ items, ¬(sideAddr q (i.o.elem / 256) ≤ a ∧ a < sideAddr q (i.o.elem / 256) + 16)) :
    ∀ w ∈ t8xWrites q items, w.Spares a := by
  have hof := T8XAcc.of_foldl q items
  intro w hw
  rcases List.mem_append.mp hw with hw | hw
  · obtain ⟨i, hi, hk, code, rfl⟩ := hof.ws w hw
    exact elemBW_spares code (hel i hi hk)
  · obtain ⟨e, he, rfl⟩ := List.mem_map.mp hw
    obtain ⟨hl, i, hi, hb⟩ := hof.lists e he
    left
    have := hside i hi
    rw [← hb] at this
    have hlen : ((e.2 ++ List.replicate (4 - e.2.length) 0).flatMap (leBytes 4)).length = 16 := by
      simp [List.length_flatMap, leBytes_length]
      omega
    simp only [hlen]
    exact this

/-- A T8X store writes at once what its items and their blocks hold. -/
theorem Ctx.store_t8x_bed (c : Ctx) (b : Bed) (ti : Nat) (items : List SItem) (masked : Bool) (h : fmtOf (c.tensor ti).fmt = .t8x) :
    ∃ d : Bed, d.mem = b.mem ∧ (c.store b ti items masked).bed =
      (d.put c.index (t8xWrites (c.quant b ti) items ++ maskedBW items) masked).1 := by
  unfold Ctx.store
  simp only [h]
  exact ⟨_, by simp, rfl⟩

/-- The codes of the kept items of a store in any other format, each with how it was converted. -/
def storeCodes (c : Ctx) (b : Bed) (ti : Nat) (items : List SItem) : List (SItem × Nat × Cnv) :=
  let kept := items.filter (·.keep)
  kept.zip (kept.map fun (s : SItem) => match s.code with
    | some k => (k, s.pre)
    | none => let e := encodeEl c.prog.compat (fmtOf (c.tensor ti).fmt) (c.zeroOf b ti) s.v; (e.1, if s.pre = Cnv.none then e.2 else s.pre))

/-- The writes of such a store, line by line. -/
def storeLines (c : Ctx) (b : Bed) (ti : Nat) (items : List SItem) : List (List BW) :=
  ((storeCodes c b ti items).splitBy fun p q => p.1.o.at_.drop 1 == q.1.o.at_.drop 1).map fun x =>
    x.map fun p => elemBW p.1.o p.2.1

theorem Ctx.store_other_bed (c : Ctx) (b : Bed) (ti : Nat) (items : List SItem) (masked : Bool)
    (h : fmtOf (c.tensor ti).fmt ≠ .t8x) : ∃ d : Bed, d.mem = b.mem ∧ d.ecc = b.ecc ∧ (c.store b ti items masked).bed =
      (d.puts c.index (if masked then [(storeLines c b ti items).flatten ++ maskedBW items] else storeLines c b ti items) masked).1 := by
  unfold Ctx.store
  simp only []
  exact ⟨_, by simp, by simp, rfl⟩

theorem storeLines_spares {a : Nat} (c : Ctx) (b : Bed) (ti : Nat) {items : List SItem}
    (hel : ∀ i ∈ items, i.keep = true → ¬(i.o.addr ≤ a ∧ a < i.o.addr + max 1 ((fmtOf i.o.t.fmt).width / 8))) :
    ∀ ws ∈ storeLines c b ti items, ∀ w ∈ ws, w.Spares a := by
  intro ws hws w hw
  obtain ⟨x, hx, rfl⟩ := List.mem_map.mp hws
  obtain ⟨p, hp, rfl⟩ := List.mem_map.mp hw
  have hmem : p ∈ storeCodes c b ti items := by
    rw [← List.flatten_splitBy (fun p q : SItem × Nat × Cnv => p.1.o.at_.drop 1 == q.1.o.at_.drop 1) (storeCodes c b ti items)]
    exact List.mem_flatten.mpr ⟨x, hx, hp⟩
  obtain ⟨hi, hk⟩ := List.mem_filter.mp (List.of_mem_zip hmem).1
  exact elemBW_spares _ (hel p.1 hi hk)

theorem Ctx.store_spares {a : Nat} (c : Ctx) (b : Bed) (ti : Nat) (items : List SItem) (masked : Bool)
    (hel : ∀ i ∈ items, i.keep = true → ¬(i.o.addr ≤ a ∧ a < i.o.addr + max 1 ((fmtOf i.o.t.fmt).width / 8)))
    (hside : fmtOf (c.tensor ti).fmt = .t8x → ∀ i ∈ items,
      ¬(sideAddr (c.quant b ti) (i.o.elem / 256) ≤ a ∧ a < sideAddr (c.quant b ti) (i.o.elem / 256) + 16)) :
    mget 0 (c.store b ti items masked).bed.mem a = mget 0 b.mem a := by
  by_cases hf : fmtOf (c.tensor ti).fmt = .t8x
  · obtain ⟨d, hd, hs⟩ := c.store_t8x_bed b ti items masked hf
    rw [hs, Bed.put_spares, hd]
    intro w hw
    rcases List.mem_append.mp hw with hw | hw
    · exact t8xWrites_spares _ hel (hside hf) w hw
    · exact maskedBW_spares a items w hw
  · obtain ⟨d, hd, -, hs⟩ := c.store_other_bed b ti items masked hf
    have hlines := storeLines_spares c b ti hel
    rw [hs, Bed.puts_spares, hd]
    split
    · intro ws hws w hw
      obtain rfl := List.mem_singleton.mp hws
      rcases List.mem_append.mp hw with hw | hw
      · obtain ⟨ws, hws, hw⟩ := List.mem_flatten.mp hw
        exact hlines ws hws w hw
      · exact maskedBW_spares a items w hw
    · exact hlines

/-- A byte element stored alone stands in memory as its code. -/
theorem Ctx.store_byte_mem (c : Ctx) {b : Bed} (ti : Nat) (o : Opnd) (v : Val) (code : Nat) (hc : Clean b)
    (hf : fmtOf (c.tensor ti).fmt ≠ .t8x) (hw : (fmtOf o.t.fmt).width = 8) :
    (c.store b ti [{ o, v, code := some code }] false).bed.mem = mwrite 0 b.mem o.addr (leBytes 1 code) := by
  have hlines : storeLines c b ti [{ o, v, code := some code }] = [[{ addr := o.addr, bytes := leBytes 1 code }]] := by
    simp [storeLines, storeCodes, elemBW, hw, List.splitBy, List.splitBy.loop]
  obtain ⟨d, hd, he, hs⟩ := c.store_other_bed b ti [{ o, v, code := some code }] false hf
  rw [hs, hlines]
  simp only [Bool.false_eq_true, if_false, Bed.puts, List.foldl_cons, List.foldl_nil, Bed.put_clean d _ _ _ (he.trans hc)]
  rw [hd]
  rfl

theorem Bed.codes_byte {b : Bed} {o : Opnd} {m : Mem} {code : Nat} (hm : b.mem = mwrite 0 m o.addr (leBytes 1 code))
    (hw : (fmtOf o.t.fmt).width = 8) (hp : o.bitPos % 8 = 0) (hc : code < 256) : b.codes o 1 = [code] := by
  unfold Bed.codes Bed.bytes Opnd.span
  rw [hm, hw, hp, show ceilDiv (0 + 1 * 8) 8 = (leBytes 1 code).length from rfl, mread_mwrite]
  simp [leBytes, leNat, bits]
  omega

/-- Settles O7: every write of a store is of a kept element, of a block's side list, or changes no bit. -/
theorem storesTouchOnlyTheirElementsPlaces : Obligations.StoresTouchOnlyTheirElementsPlaces :=
  ⟨fun c b ti items masked _ hel hside => c.store_spares b ti items masked hel hside,
    fun c _ ti o v code hc hf hw hp hlt => Bed.codes_byte (c.store_byte_mem ti o v code hc hf hw) hw hp hlt⟩

end Sys2Proof.Machine
end

section
/-! PROOFS. SFN, NAPPLY and the soft maximum (R219, R220, R222): elements read for their values, and their results stored. -/

namespace Sys2Proof.Machine

/-! ## Elements read in a clean bed -/

theorem taken_bed (c : Ctx) (d : Bed) (o : Opnd) (n : Nat) : ∃ r q, Taken c d o n = { d with regs := r, ranges := q } := by
  unfold Taken
  obtain ⟨q, hq⟩ := c.record_ranges d o.ti ((c.vals d o n).map (·.1))
  rw [hq]
  exact ⟨_, q, (Bed.countAll_regs { d with ranges := q } _).choose_spec⟩

theorem taken_clean {c : Ctx} {d : Bed} {o : Opnd} {n : Nat} (hc : Clean d) : Clean (Taken c d o n) := by
  obtain ⟨r, q, h⟩ := taken_bed c d o n
  rw [h]
  exact hc

theorem taken_row (c : Ctx) (d : Bed) (o : Opnd) (n k : Nat) : (Taken c d o n).row k = d.row k := by
  obtain ⟨r, q, h⟩ := taken_bed c d o n
  rw [h]
  rfl

theorem taken_stat (c : Ctx) (d : Bed) (o : Opnd) (n k : Nat) : (Taken c d o n).stat k = d.stat k := by
  obtain ⟨r, q, h⟩ := taken_bed c d o n
  rw [h]
  rfl

theorem taken_sieve (c : Ctx) (d : Bed) (o : Opnd) (n : Nat) : (Taken c d o n).sieve = d.sieve := by
  obtain ⟨r, q, h⟩ := taken_bed c d o n
  rw [h]

theorem taken_codes (c : Ctx) (d : Bed) (o : Opnd) (n : Nat) (q : Opnd) (m : Nat) : (Taken c d o n).codes q m = d.codes q m := by
  obtain ⟨r, q, h⟩ := taken_bed c d o n
  rw [h]
  rfl

theorem taken_zeroOf (c : Ctx) (d : Bed) (o : Opnd) (n i : Nat) : c.zeroOf (Taken c d o n) i = c.zeroOf d i := by
  obtain ⟨r, q, h⟩ := taken_bed c d o n
  rw [h]
  rfl

/-- What reading n elements answers in a clean bed. -/
theorem Ctx.loadVals_taken (c : Ctx) {d : Bed} (o : Opnd) (n : Nat) (hc : Clean d) :
    c.loadVals d o n = (Taken c d o n, none, (c.vals d o n).map (·.1)) := c.loadVals_clean d o n hc

/-! ## Flags -/

theorem Bed.sflag_quiet (d : Bed) (compat : Bool) (cause element index : Nat) : Quiet (d.sflag compat cause element index).2 := by
  unfold Bed.sflag
  split
  · exact .nil
  · exact .one _ _

/-- The first non-finite result flagged, if there is one. -/
def flagFirst (compat : Bool) (index : Nat) (causes : List Nat) (d : Bed) : Bed × List BOut :=
  match firstFlag causes with
  | some e => d.sflag compat e.2 e.1 index
  | none => (d, [])

theorem flagFirst_bed (compat : Bool) (index : Nat) (causes : List Nat) (d : Bed) :
    (flagFirst compat index causes d).1 = match firstFlag causes with
      | some e => (d.sflag compat e.2 e.1 index).1
      | none => d := by
  unfold flagFirst
  split <;> rfl

theorem flagFirst_quiet (compat : Bool) (index : Nat) (causes : List Nat) (d : Bed) : Quiet (flagFirst compat index causes d).2 := by
  unfold flagFirst
  split
  · exact Bed.sflag_quiet _ _ _ _ _
  · exact .nil

/-! ## SFN and NAPPLY -/

/-- SFN's results stored in a clean bed, its operands read before. -/
def sfnStored (c : Ctx) (func : Nat) (two : Bool) (q : Opnd) (n : Nat) (d : Bed) (xs : List (Val × Val)) : Bed × List BOut :=
  let res := sfnItems c d func q xs
  let fl := flagFirst c.prog.compat c.index (res.map (·.2)) (c.store d q.ti (res.map (·.1)) false).bed
  let k := ceilDiv n 8
  let late := sfnLatency func (decide (fmtOf q.t.fmt = .t32))
  ((((fl.1.gauge 6 k).gauge 3 (k * (if two then 3 else 2))).holdSf (c.cyc + k)).finish (c.cyc + k + late), fl.2)

theorem sfnStored_quiet (c : Ctx) (func : Nat) (two : Bool) (q : Opnd) (n : Nat) (d : Bed) (xs : List (Val × Val)) :
    Quiet (sfnStored c func two q n d xs).2 := by
  unfold sfnStored
  extract_lets res fl
  have hq : Quiet fl.2 := flagFirst_quiet _ _ _ _
  exact hq

/-- What SFN stores when its operands read well and leave a clean bed. -/
theorem sfnBody_of_reads (c : Ctx) (func : Nat) (src op2 dst : BitVec 24) (n : Nat) {d b B : Bed} {xs ys : List Val}
    (h1 : c.loadVals d (c.opnd src) n = (b, none, xs))
    (h2 : (if 0x10 ≤ func then c.loadVals b (c.opnd op2) n else (b, none, List.replicate n .nan)) = (B, none, ys)) (hB : Clean B) :
    sfnBody c func src op2 dst n d = sfnStored c func (decide (16 ≤ func)) (c.opnd dst) n B (xs.zip ys) := by
  unfold sfnBody sfnStored
  simp only [h1, h2, (c.store_clean B _ _ false hB).1, List.nil_append, decide_eq_true_eq]
  rfl

theorem sfnBody_clean (c : Ctx) (func : Nat) (src op2 dst : BitVec 24) (n : Nat) {d : Bed} (hc : Clean d) :
    sfnBody c func src op2 dst n d =
      let two := decide (16 ≤ func)
      let b := Taken c d (c.opnd src) n
      sfnStored c func two (c.opnd dst) n (if two then Taken c b (c.opnd op2) n else b)
        (((c.vals d (c.opnd src) n).map (·.1)).zip
          (if two then (c.vals b (c.opnd op2) n).map (·.1) else List.replicate n .nan)) := by
  have hb : Clean (Taken c d (c.opnd src) n) := taken_clean hc
  have hread := c.loadVals_taken (c.opnd src) n hc
  by_cases h : 16 ≤ func
  · simp only [h, decide_true, if_true]
    rw [sfnBody_of_reads c func src op2 dst n hread (by rw [if_pos h, c.loadVals_taken _ _ hb]) (taken_clean hb)]
    simp only [h, decide_true]
  · simp only [h, decide_false, Bool.false_eq_true, if_false]
    rw [sfnBody_of_reads c func src op2 dst n hread (by rw [if_neg h]) hb]
    simp only [h, decide_false]

/-- A vector along the elements of another operand. -/
def Ctx.along (c : Ctx) (o : Opnd) (i : BitVec 12) : Opnd := { ti := i.toNat, t := c.tensor i.toNat, at_ := [o.at_.getD 0 0, 0, 0, 0] }

/-- NAPPLY's results from an entry stored in a clean bed, and a row that is NaN flagged. -/
def napplyStored (c : Ctx) (p : Opnd) (ports : Nat) (st : Stat) (n : Nat) (d : Bed) (xs : List (Val × Val × Val)) : Bed × List BOut :=
  let s := (c.store d p.ti (valItems p (napplyVals c.prog.compat st xs)) false).bed
  let bad := (decodeEl c.prog.compat .t32 0 ((st.prep.getD (0, 0)).2).toNat).isNan
  let fl := if bad then s.sflag c.prog.compat 5 0 c.index else (s, [])
  ((fl.1.gauge 3 (ceilDiv n 64 * ports)).finish (c.cyc + ceilDiv n 64 + 4), fl.2)

theorem napplyStored_quiet (c : Ctx) (p : Opnd) (ports : Nat) (st : Stat) (n : Nat) (d : Bed) (xs : List (Val × Val × Val)) :
    Quiet (napplyStored c p ports st n d xs).2 := by
  unfold napplyStored
  extract_lets s bad fl
  have hq : Quiet fl.2 := by
    simp only [fl]
    split
    · exact Bed.sflag_quiet _ _ _ _ _
    · exact .nil
  exact hq

/-- Port reads and writes of NAPPLY for 64 elements. -/
def napplyPorts (c : Ctx) (o p : Opnd) (gamma : BitVec 12) (beta : Option (BitVec 12)) : Nat :=
  let wide := fun (i : Nat) => ceilDiv (64 * (fmtOf (c.tensor i).fmt).width) 512
  wide o.ti + wide p.ti + wide gamma.toNat + (match beta with | some i => wide i.toNat | none => 0)

/-- An optional vector read in a clean bed. -/
theorem Ctx.loadVals_optional (c : Ctx) {d : Bed} (q : BitVec 12 → Opnd) (on : Bool) (beta : BitVec 12) (n : Nat) (hc : Clean d) :
    (match (if on then some beta else none) with
      | some i => c.loadVals d (q i) n
      | none => (d, none, List.replicate n Val.zero)) =
    (if on then Taken c d (q beta) n else d, none,
      if on then (c.vals d (q beta) n).map (·.1) else List.replicate n Val.zero) := by
  cases on
  · rfl
  · exact c.loadVals_taken (q beta) n hc

/-- What NAPPLY stores when its operands read well and leave a clean bed. -/
theorem napplyBody_of_reads (c : Ctx) (src : BitVec 24) (dst gamma : BitVec 12) (beta : Option (BitVec 12)) (entry n : Nat)
    {d b b' B : Bed} {xs gs bs : List Val} (h1 : c.loadVals d (c.opnd src) n = (b, none, xs))
    (h2 : c.loadVals b (c.along (c.opnd src) gamma) n = (b', none, gs))
    (h3 : (match beta with
      | some i => c.loadVals b' (c.along (c.opnd src) i) n
      | none => (b', none, List.replicate n Val.zero)) = (B, none, bs)) (hB : Clean B) :
    napplyBody c src dst gamma beta entry n d =
      napplyStored c (c.opndLike dst src) (napplyPorts c (c.opnd src) (c.opndLike dst src) gamma beta) (B.stat entry) n B
        (xs.zip (gs.zip bs)) := by
  have along : ∀ i : BitVec 12, ({ ti := i.toNat, t := c.tensor i.toNat, at_ := [(c.opnd src).at_.getD 0 0, 0, 0, 0] } : Opnd) =
    c.along (c.opnd src) i := fun _ => rfl
  unfold napplyBody napplyStored
  cases beta with
  | none =>
    simp only [along, h1, h2]
    simp only [Prod.mk.injEq] at h3
    obtain ⟨rfl, -, rfl⟩ := h3
    simp only [(c.store_clean b' _ _ false hB).1, List.nil_append]
    rfl
  | some i =>
    simp only [along, h1, h2, h3, (c.store_clean B _ _ false hB).1, List.nil_append]
    rfl

/-- Settles O8: reading the operands leaves a clean bed, in which the results are stored and the first bad one flagged. -/
theorem specialFunctionsAndNormalisationStoreEveryElement : Obligations.SpecialFunctionsAndNormalisationStoreEveryElement := by
  constructor
  · intro s b h func src op2 dst n p hI hc c o q d k cost B0 B1 two B ys res st fl
    have hfl : (flagFirst c.prog.compat c.index (res.map (·.2)) st).1 = fl := flagFirst_bed _ _ _ _
    have hbody : sfnBody c func.toNat src op2 dst k B0 =
        sfnStored c func.toNat two d k B (((c.vals B0 o k).map (·.1)).zip ys) := sfnBody_clean _ _ _ _ _ _ (issued_clean hc)
    have hquiet := sfnStored_quiet c func.toNat two d k B (((c.vals B0 o k).map (·.1)).zip ys)
    unfold sfnStored at hbody hquiet
    rw [← hfl]
    exact State.issue_issues hI rfl hbody hquiet
  · intro s b h src dst gamma beta betaEn entry n p hI hc c o d along k B0 B1 B2 B bs e ys st bad wide ports
    have hc0 : Clean B0 := issued_clean hc
    have hc1 : Clean B1 := taken_clean hc0
    have hc2 : Clean B2 := taken_clean hc1
    have hB : Clean B ∧ B.stat entry.toNat = e := by
      have h2 : B2.stat entry.toNat = e := (taken_stat _ _ _ _ _).trans (taken_stat _ _ _ _ _)
      simp only [B]
      split
      · exact ⟨taken_clean hc2, (taken_stat _ _ _ _ _).trans h2⟩
      · exact ⟨hc2, h2⟩
    have hbody := napplyBody_of_reads (B := B) (bs := bs) c src dst gamma (if betaEn then some beta else none) entry.toNat k
      (c.loadVals_taken o k hc0) (c.loadVals_taken (c.along o gamma) k hc1)
      (c.loadVals_optional (c.along o) betaEn beta k hc2) hB.1
    have hquiet := napplyStored_quiet c d (napplyPorts c o d gamma (if betaEn then some beta else none)) (B.stat entry.toNat) k B
      (((c.vals B0 o k).map (·.1)).zip (((c.vals B1 (c.along o gamma) k).map (·.1)).zip bs))
    have hports : napplyPorts c o d gamma (if betaEn then some beta else none) = ports := by cases betaEn <;> rfl
    rw [hB.2, hports] at hbody hquiet
    unfold napplyStored at hbody hquiet
    have hst : (if bad then (st.sflag c.prog.compat 5 0 c.index).1 else st) =
        (if bad then st.sflag c.prog.compat 5 0 c.index else (st, [])).1 := by split <;> rfl
    rw [hst]
    exact State.issue_issues hI rfl hbody hquiet

end Sys2Proof.Machine
end

section
/-! PROOFS. The soft maximum and the sieve (R220, R221). -/

namespace Sys2Proof.Machine

/-! ## Bytes exported -/

theorem zeros_length (n : Nat) : (zeros n).length = n := by simp [zeros]

/-- An instruction that writes bytes into a clean bed: they stand at their place, and no other byte changes. -/
theorem State.issue_exports {s : State} {b : BitVec 7} {h : Head} {i : Instr} {p : Nat} (hI : Issuing s b h i p)
    (hc : Clean (s.bed p)) {body : Ctx → Bed → Bed × List BOut} (he : exec i s = .next (s.issue b h i body))
    {index a g e : Nat} {out : List Byte} (hbody : body (s.ctx p) (s.issued h p none) =
      (((((s.issued h p none).putBytes index a out).1.gauge 3 g).finish e), ((s.issued h p none).putBytes index a out).2)) :
    ∃ t, exec i s = .next t ∧ OnlyBed s t p ∧
      BedIs (t.bed p) (({ s.issued h p none with
        mem := (t.bed p).mem, scrubPending := scrubbed (s.bed p) a out.length }.gauge 3 g).finish e) ∧
      (t.bed p).bytes a out.length = out ∧
      ∀ k, (k < a ∨ a + out.length ≤ k) → mget 0 (t.bed p).mem k = mget 0 (s.bed p).mem k := by
  rw [Bed.putBytes_clean _ _ _ _ (issued_clean hc)] at hbody
  obtain ⟨t, ht, ⟨f, hf⟩, ho⟩ := State.issue_issues hI he hbody .nil
  have hm : (t.bed p).mem = mwrite 0 (s.bed p).mem a out := by rw [hf]; rfl
  refine ⟨t, ht, ho, ⟨f, ?_⟩, ?_, fun k hk => ?_⟩
  · rw [hm, hf]
    rfl
  · unfold Bed.bytes
    rw [hm, mread_mwrite]
  · rw [hm, mget_mwrite_outside _ _ _ _ _ hk]

theorem SRow.toBytes_length (r : SRow) : r.toBytes.length = 64 := by
  simp [SRow.toBytes, leBytes_length, zeros_length]

/-! ## Pass 1 and pass 2 -/

/-- Pass 1 over the elements read. -/
def smax1Fed (c : Ctx) (m : Option Opnd) (on : Bool) (entry : Nat) (clear : Bool) (beta : BitVec 32) (n : Nat) (d : Bed)
    (vs : List Val) : Bed :=
  let r0 : SRow := if clear then {} else d.row entry
  let r1 := { r0 with beta := some (r0.beta.getD beta), q := none }
  let fed := (vs.zip (smaxMask d m n)).filter fun e => !e.2
  let cost := ceilDiv n 8 + 14
  (((((d.setRow entry (fed.foldl (fun r e => r.feed d.tblDigest (betaOf c r1) e.1) r1)).gauge 6 cost).gauge 3
    (ceilDiv n 8 * if on then 2 else 1)).holdSf (c.cyc + cost)).holdSmax (c.cyc + cost))

theorem smax1Body_clean (c : Ctx) (src : BitVec 24) (mask : BitVec 12) (on : Bool) (entry : Nat) (clear : Bool)
    (beta : BitVec 32) (n : Nat) {d : Bed} (hc : Clean d) :
    smax1Body c src (if on then some mask else none) entry clear beta n d =
      (smax1Fed c (if on then some (c.opndLike mask src) else none) on entry clear beta n (Taken c d (c.opnd src) n)
        ((c.vals d (c.opnd src) n).map (·.1)), []) := by
  unfold smax1Body smax1Fed
  cases on with
  | false => simp [c.loadVals_taken _ _ hc, Nat.add_assoc]
  | true => simp [c.loadVals_taken _ _ hc, Bed.touch_clean _ _ _ (taken_clean hc), Nat.add_assoc]

/-- The reciprocal formed if it is asked for, of a row that is not empty. -/
def smax2Row (c : Ctx) (recip : Bool) (d : Bed) (r : SRow) : SRow :=
  if recip ∧ r.empty = false then { r with q := some (smaxQ c d r) } else r

def srowQ (c : Ctx) (r : SRow) : Ex :=
  match decodeEl c.prog.compat .t32 0 (r.q.getD 0).toNat with
  | .fin x => x
  | _ => []

/-- Pass 2's shares stored, of a row whose reciprocal is formed. -/
def smax2Stored (c : Ctx) (p : Opnd) (m : Option Opnd) (on recip : Bool) (entry : Nat) (r : SRow) (n : Nat) (d : Bed)
    (vs : List Val) : Bed × List BOut :=
  let res := (vs.zip (smaxMask d m n)).map fun e => smax2Elem c d r (srowQ c r) e.1 e.2
  let st := (c.store (d.setRow entry r) p.ti (valItems p (res.map (·.1))) false).bed
  let fl := flagFirst c.prog.compat c.index (res.map (·.2)) st
  let cost := ceilDiv n 8 + 14 + if recip then 14 else 0
  (((((fl.1.gauge 6 cost).gauge 3 (ceilDiv n 8 * if on then 3 else 2)).holdSf (c.cyc + cost)).holdSmax (c.cyc + cost)).finish
    (c.cyc + cost), fl.2)

theorem smax2Stored_quiet (c : Ctx) (p : Opnd) (m : Option Opnd) (on recip : Bool) (entry : Nat) (r : SRow) (n : Nat) (d : Bed)
    (vs : List Val) : Quiet (smax2Stored c p m on recip entry r n d vs).2 := by
  unfold smax2Stored
  extract_lets res st fl cost
  have hq : Quiet fl.2 := flagFirst_quiet _ _ _ _
  exact hq

theorem smax2Body_clean (c : Ctx) (src : BitVec 24) (mask : BitVec 12) (on : Bool) (entry : Nat) (recip : Bool)
    (dst : BitVec 12) (n : Nat) {d : Bed} (hc : Clean d) :
    smax2Body c src (if on then some mask else none) entry recip dst n d =
      let b := Taken c d (c.opnd src) n
      smax2Stored c (c.opndLike dst src) (if on then some (c.opndLike mask src) else none) on recip entry
        (smax2Row c recip b (d.row entry)) n b ((c.vals d (c.opnd src) n).map (·.1)) := by
  have hb : Clean (Taken c d (c.opnd src) n) := taken_clean hc
  unfold smax2Body
  cases on with
  | false =>
    simp only [c.loadVals_taken _ _ hc, taken_row, Bool.false_eq_true, if_false, Option.map_none, Option.isSome_none,
      (c.store_clean (Bed.setRow _ _ _) _ _ false hb).1, List.nil_append]
    rfl
  | true =>
    simp only [c.loadVals_taken _ _ hc, taken_row, Bed.touch_clean _ _ _ hb, if_true, Option.map_some, Option.isSome_some,
      (c.store_clean (Bed.setRow _ _ _) _ _ false hb).1, List.nil_append]
    rfl

/-- Settles O9: what each pass, merging and exporting do in a clean bed. -/
theorem softMaximumPassesFeedAndReadARowState : Obligations.SoftMaximumPassesFeedAndReadARowState := by
  refine ⟨?_, ?_, ?_, ?_⟩
  · intro s b h src mask maskEn entry clear beta n p hI hc c o k cost B r0 r1 off fed
    have hrow : B.row entry.toNat = (s.bed p).row entry.toNat := taken_row _ _ _ _ _
    have hbody := smax1Body_clean c src mask maskEn entry.toNat clear beta k (issued_clean (h := h) (o := none) hc)
    unfold smax1Fed at hbody
    simp only [taken_row] at hbody
    exact State.issue_issues hI rfl hbody .nil
  · intro s b h src mask maskEn entry recip dst n p hI hc c o d k cost B r0 r q off res st fl
    have hbody := smax2Body_clean c src mask maskEn entry.toNat recip dst k (issued_clean (h := h) (o := none) hc)
    have hquiet := smax2Stored_quiet c d (if maskEn then some (c.opndLike mask src) else none) maskEn recip entry.toNat r k B
      ((c.vals (s.issued h p none) o k).map (·.1))
    have hfl : (flagFirst c.prog.compat c.index (res.map (·.2)) st).1 = fl := flagFirst_bed _ _ _ _
    rw [← hfl]
    unfold smax2Stored at hbody hquiet
    exact State.issue_issues hI rfl hbody hquiet
  · intro s b h src entry p hI hc
    have hc' : Clean (s.issued h p none) := issued_clean hc
    refine State.issue_issues hI rfl (os := []) ?_ .nil
    simp only [smaxmBody, Bed.touch_clean _ _ _ hc']
    rfl
  · intro s b h entry dst p hI hc at_
    have hx := State.issue_exports (i := .smaxx b h entry dst) hI hc rfl (a := at_) (out := ((s.bed p).row entry.toNat).toBytes) rfl
    rw [SRow.toBytes_length] at hx
    exact hx

end Sys2Proof.Machine
end

section
/-! PROOFS. The sieve, statistics entries and range records (R221 to R224). -/

namespace Sys2Proof.Machine

/-! ## The sieve -/

theorem sieveBody_clean (c : Ctx) (src : BitVec 24) (n k : Nat) (dir clear : Bool) (base : BitVec 32) {d : Bed} (hc : Clean d) :
    sieveBody c src n k dir clear base d =
      let o := c.opnd src
      let v : Sieve := if clear then {} else d.sieve
      let x : Sieve := { v with k, dir, fmt := o.t.fmt, zero := if v.live then v.zero else (c.zeroOf d o.ti).toNat }
      let es := (enumFrom 0 (d.codes o n)).map fun e => (BitVec.ofNat 32 e.2, base + BitVec.ofNat 32 e.1)
      (({ Taken c d o n with sieve := x.feed c.prog.compat es }).gauge 3
        (ceilDiv n 64 * ceilDiv (64 * (fmtOf o.t.fmt).width) 512), []) := by
  unfold sieveBody
  simp only [c.loadVals_taken _ _ hc, taken_sieve, taken_codes, taken_zeroOf]

/-- Settles O10: what feeding, merging and exporting do in a clean bed. -/
theorem theSieveTakesMergesAndWritesItsList : Obligations.TheSieveTakesMergesAndWritesItsList := by
  refine ⟨?_, ?_, ?_⟩
  · intro s b h src n k dir clear base p hI hc c o v B es z0 x
    exact State.issue_issues hI rfl (sieveBody_clean c src _ _ dir clear base (issued_clean (h := h) (o := none) hc)) .nil
  · intro s b h src count k dir clear fmt p hI hc c o v es z0 x
    have hc' : Clean (s.issued h p none) := issued_clean hc
    refine State.issue_issues hI rfl (os := []) ?_ .nil
    simp only [sievemBody, Bed.touch_clean _ _ _ hc']
    rfl
  · intro s b h dst p hI hc v out at_
    exact State.issue_exports (i := .sieveo b h dst) hI hc rfl rfl

/-! ## Statistics -/

theorem Stat.toBytes_length (x : Stat) : x.toBytes.length = 96 := by
  simp [Stat.toBytes, leBytes_length, zeros_length]

theorem nprepBody_empty (c : Ctx) (entry : Nat) (rms : Bool) (eps : BitVec 32) (d : Bed) (h : (d.stat entry).count = 0) :
    nprepBody c entry rms eps d = (((d.gauge 6 15).holdSf (c.cyc + 15)).setStat entry
      { d.stat entry with prep := some (Config.emptyNorm false, Config.emptyNorm true) }, []) := by
  have hs : ((d.gauge 6 15).holdSf (c.cyc + 15)).stat entry = d.stat entry := rfl
  unfold nprepBody
  simp only [hs, if_pos h]

theorem nprepBody_nonfinite (c : Ctx) (entry : Nat) (rms : Bool) (eps : BitVec 32) (d : Bed) (h : (d.stat entry).count ≠ 0)
    (hf : (d.stat entry).s1.cls ≠ .fin ∨ (d.stat entry).s2.cls ≠ .fin) :
    nprepBody c entry rms eps d = (((d.gauge 6 15).holdSf (c.cyc + 15)).setStat entry
      { d.stat entry with prep := some (0x80000000, 0x80000000) }, []) := by
  have hs : ((d.gauge 6 15).holdSf (c.cyc + 15)).stat entry = d.stat entry := rfl
  unfold nprepBody
  simp only [hs, if_neg h, if_pos hf]

/-- Of an entry with finite sums: the T32 codes that they give, each with how it was rounded, and whether the variance has no
reciprocal root. -/
theorem nprepBody_finite (c : Ctx) (entry : Nat) (rms : Bool) (eps : BitVec 32) (d : Bed) (h : (d.stat entry).count ≠ 0)
    (h1 : (d.stat entry).s1.cls = .fin) (h2 : (d.stat entry).s2.cls = .fin) : nprepBody c entry rms eps d =
      let x := d.stat entry
      let enc := fun v => encodeEl c.prog.compat .t32 0 v
      let mu := if rms then (0, Cnv.none) else enc (.fin (quotEx x.s1.n x.count (-128)))
      let v := if rms then enc (.fin (quotEx x.s2.n x.count (-128)))
        else enc (.fin (quotEx ((x.count : Int) * x.s2.n * 2 ^ 128 - x.s1.n * x.s1.n) (x.count * x.count) (-256)))
      let ve := enc (valAdd (decodeEl c.prog.compat .t32 0 v.1) (decodeEl c.prog.compat .t32 0 eps.toNat))
      let vv := decodeEl c.prog.compat .t32 0 ve.1
      let rho := sfEncode d.tblDigest 0x04 vv .zero c.prog.compat .t32 0 (sfApply 0x04 vv)
      let bad := vv.isNan || vv.isZero || vv.isNeg
      ((((d.gauge 6 15).holdSf (c.cyc + 15)).countAll [mu.2, v.2, ve.2, if bad then .none else rho.cnv]).setStat entry
        { x with prep := some (if bad then (0x80000000, 0x80000000) else (BitVec.ofNat 32 mu.1, BitVec.ofNat 32 rho.code)) }, []) := by
  have hs : ((d.gauge 6 15).holdSf (c.cyc + 15)).stat entry = d.stat entry := rfl
  have hf : ¬((d.stat entry).s1.cls ≠ .fin ∨ (d.stat entry).s2.cls ≠ .fin) := by simp [h1, h2]
  unfold nprepBody
  simp only [hs, if_neg h, if_neg hf]
  rfl

/-- The entries after the first n items of a merge. -/
theorem statm_stats (compat : Bool) (entry : Nat) (item : Nat → Stat) (d : Bed) (n : Nat) :
    ∃ t, (List.range n).foldl (fun (b : Bed) i => b.setStat (entry + i) (Stat.merge compat (b.stat (entry + i)) (item i))) d =
        { d with stats := t } ∧
      ∀ k, tget (fun _ => ({} : Stat)) t k =
        if entry ≤ k ∧ k < entry + n then Stat.merge compat (d.stat k) (item (k - entry)) else d.stat k := by
  induction n with
  | zero => exact ⟨d.stats, rfl, fun k => by rw [if_neg (by omega)]; rfl⟩
  | succ n ih =>
    obtain ⟨t, ht, hk⟩ := ih
    rw [List.range_succ, List.foldl_append, ht]
    refine ⟨_, rfl, fun k => ?_⟩
    by_cases he : k = entry + n
    · subst he
      rw [if_pos (by omega)]
      refine (tget_tset_self _ _ _ _).trans ?_
      rw [show entry + n - entry = n by omega]
      congr 1
      exact (hk _).trans (if_neg (by omega))
    · refine (tget_tset_ne _ _ _ _ _ he).trans ((hk k).trans ?_)
      by_cases hin : entry ≤ k ∧ k < entry + n
      · rw [if_pos hin, if_pos (by omega)]
      · rw [if_neg hin, if_neg (by omega)]

/-- Settles O11: by the cases of an entry; the bytes exported; and the entries merged one after the other. -/
theorem statisticsArePreparedExportedAndMerged : Obligations.StatisticsArePreparedExportedAndMerged := by
  refine ⟨?_, ?_, ?_⟩
  · intro s b h entry rms eps p hI c x B enc dec mu v ve vv rho
    have hfinite : x.count ≠ 0 → x.s1.cls = .fin → x.s2.cls = .fin → nprepBody c entry.toNat rms eps (s.issued h p none) =
        ((B.countAll [mu.2, v.2, ve.2, if vv.isNan || vv.isZero || vv.isNeg then .none else rho.cnv]).setStat entry.toNat
          { x with prep := some (if vv.isNan || vv.isZero || vv.isNeg then (0x80000000, 0x80000000)
            else (BitVec.ofNat 32 mu.1, BitVec.ofNat 32 rho.code)) }, []) := nprepBody_finite c entry.toNat rms eps (s.issued h p none)
    refine ⟨fun h0 => ?_, fun h0 hf => ?_, fun h0 h1 h2 hbad => ?_, fun h0 h1 h2 hbad => ?_⟩
    · exact ⟨_, _, State.issue_issues hI rfl (nprepBody_empty c entry.toNat rms eps (s.issued h p none) h0) .nil⟩
    · exact State.issue_issues hI rfl (nprepBody_nonfinite c entry.toNat rms eps (s.issued h p none) h0 hf) .nil
    · simp only [hbad, if_true] at hfinite
      exact State.issue_issues hI rfl (hfinite h0 h1 h2) .nil
    · simp only [hbad, Bool.false_eq_true, if_false] at hfinite
      exact State.issue_issues hI rfl (hfinite h0 h1 h2) .nil
  · intro s b h entry count dst p hI hc at_ out
    have hlen : out.length = 96 * (count.toNat + 1) := by
      simp [out, List.length_flatMap, Stat.toBytes_length, upFrom, Function.comp_def]
      omega
    obtain ⟨t, ht, ho, hb, hbytes, hmem⟩ := State.issue_exports (i := .statx b h entry count dst) hI hc rfl (a := at_) (out := out) rfl
    exact ⟨t, ht, ho, hb, hlen, hbytes, hmem⟩
  · intro s b h entry count src p hI hc from_
    have hc' : Clean (s.issued h p none) := issued_clean hc
    obtain ⟨st, hfold, hst⟩ := statm_stats (s.ctx p).prog.compat entry.toNat
      (fun i => statOfBytes ((s.bed p).bytes (from_ + 96 * i) 96)) (s.issued h p none) (count.toNat + 1)
    have hbody : statmBody (s.ctx p) entry.toNat (count.toNat + 1) src (s.issued h p none) =
        ({ s.issued h p none with stats := st }.gauge 3 (2 * (count.toNat + 1)), []) := by
      simp only [statmBody, Bed.touch_clean _ _ _ hc', ← hfold]
      rfl
    obtain ⟨t, ht, ⟨f, hf⟩, ho⟩ := State.issue_issues (i := .statm b h entry count src) hI rfl hbody .nil
    have hs : (t.bed p).stats = st := by rw [hf]; rfl
    have hstat : ∀ k, (t.bed p).stat k = tget (fun _ => ({} : Stat)) st k := fun k => by rw [← hs]; rfl
    refine ⟨t, ht, ho, ⟨f, by rw [hs, hf]⟩, fun i hi => ?_, fun k hk => ?_⟩
    · rw [hstat, hst, if_pos (by omega), show entry.toNat + i - entry.toNat = i by omega]
      rfl
    · rw [hstat, hst, if_neg (by omega)]
      rfl

end Sys2Proof.Machine
end

section
/-! PROOFS. PICK, RPX and RPM, sprinklers and table banks (R224 to R227, R246). -/

namespace Sys2Proof.Machine

theorem toTwos_lt (w : Nat) (v : Int) : toTwos w v < 2 ^ w := by
  unfold toTwos
  have h := Int.emod_lt_of_pos v (b := ((2 ^ w : Nat) : Int)) (by positivity)
  have h0 := Int.emod_nonneg v (b := ((2 ^ w : Nat) : Int)) (by positivity)
  omega

theorem signed_toTwos_6 {v : Int} (h1 : -32 ≤ v) (h2 : v ≤ 31) : signed 6 (toTwos 6 v) = v := by
  unfold signed toTwos
  norm_num
  split <;> omega

/-! ## Picks on their way -/

/-- Shifts taken into a table one after the other: a tensor has the last one that names it. -/
theorem tget_picked (l : List (Nat × Nat × W64)) (t : Tbl (Option W64)) (k : Nat) :
    tget (fun _ => none) (l.foldl (fun q e => tset (fun _ => none) q e.2.1 (some e.2.2)) t) k =
      match (l.filter fun e => e.2.1 == k).getLast? with
      | some e => some e.2.2
      | none => tget (fun _ => none) t k := by
  induction l using List.reverseRecOn with
  | nil => rfl
  | append_singleton l e ih =>
    rw [List.foldl_append, List.foldl_cons, List.foldl_nil, List.filter_append]
    by_cases hk : e.2.1 = k
    · subst hk
      rw [tget_tset_self]
      simp
    · rw [tget_tset_ne _ _ _ _ _ (Ne.symm hk), ih]
      simp [hk]

/-- Settling picks does not change what holds in their A-cycle; one still on its way does not either. -/
theorem Ctx.quant_settle (c : Ctx) (d : Bed) (till target : Nat) (q : W64) (h : c.cyc < till) (k : Nat) :
    c.quant { d.settle c.cyc with picks := (d.settle c.cyc).picks ++ [(till, target, q)] } k = c.quant d k := by
  have hnone : ((d.picks.filter fun e => decide (c.cyc < e.1)) ++ [(till, target, q)]).filter
      (fun e => decide (e.1 ≤ c.cyc) && e.2.1 == k) = [] := by
    rw [List.filter_eq_nil_iff]
    intro e he
    rcases List.mem_append.mp he with he | he
    · have := of_decide_eq_true (List.mem_filter.mp he).2
      simp
      omega
    · obtain rfl := List.mem_singleton.mp he
      simp
      omega
  unfold Ctx.quant Bed.settle
  simp only [hnone, List.getLast?_nil, tget_picked, List.filter_filter]
  simp only [Bool.and_comm]
  cases (d.picks.filter fun e => e.2.1 == k && decide (e.1 ≤ c.cyc)).getLast? <;> rfl

/-- After its A-cycles the last pick of a tensor holds. -/
theorem Ctx.quant_picked (c : Ctx) (d : Bed) (ps : List (Nat × Nat × W64)) (till target : Nat) (q : W64) (h : till ≤ c.cyc) :
    c.quant { d with picks := ps ++ [(till, target, q)] } target = q := by
  unfold Ctx.quant
  simp [List.filter_append, h]

theorem qDelta_wset (w : W64) {v : Int} (h1 : -32 ≤ v) (h2 : v ≤ 31) : qDelta (wset w 0 6 (toTwos 6 v)) = v := by
  unfold qDelta
  rw [wfld_wset_self _ _ (by decide), Nat.mod_eq_of_lt (toTwos_lt 6 v), signed_toTwos_6 h1 h2]

/-- A bed with a pick of a tensor on its way. -/
def Bed.picked (d : Bed) (cyc target : Nat) (q : W64) : Bed :=
  { d.settle cyc with picks := (d.settle cyc).picks ++ [(cyc + 8, target, q)] }

theorem Bed.picked_picks (d : Bed) (cyc target : Nat) (q : W64) :
    ∀ e ∈ (d.picked cyc target q).picks, e ∈ d.picks ∨ (e.1 = cyc + 8 ∧ e.2.1 = target) := by
  intro e he
  rcases List.mem_append.mp he with he | he
  · exact .inl (List.mem_filter.mp he).1
  · obtain rfl := List.mem_singleton.mp he
    exact .inr ⟨rfl, rfl⟩

theorem Bed.setReg_picks (d : Bed) (o : Nat) (v : W64) : (d.setReg o v).picks = d.picks ∧ (d.setReg o v).quant = d.quant := ⟨rfl, rfl⟩

theorem Bed.countClamp_picks (d : Bed) : d.countClamp.picks = d.picks ∧ d.countClamp.quant = d.quant := Bed.setReg_picks _ _ _

theorem clampDelta_eq (d : Int) : (if d < -32 then -32 else if 31 < d then 31 else d) = max (-32) (min 31 d) := by
  split <;> [omega; split <;> omega]

/-- What PICK does of a record that holds a nonzero value. -/
theorem pickBody_nonzero (c : Ctx) (slot target : Nat) (tSrc : BitVec 8) (room : Nat) (b : Bed) (h : (b.range slot).nonzero ≠ 0) :
    ∃ os, Quiet os ∧ pickBody c slot target tSrc room b =
      let d := (b.range slot).maxExp + signed 8 tSrc.toNat - 3 + room - c.prog.baseShift
      let x := b.picked c.cyc target (wset (c.quant b target) 0 6 (toTwos 6 (max (-32) (min 31 d))))
      (if decide (d < -32) || decide (31 < d) then x.countClamp else x, os) := by
  unfold pickBody
  simp only [if_neg h, clampDelta_eq]
  exact ⟨_, .one _ _, rfl⟩

theorem RangeRec.toBytes_length (r : RangeRec) : r.toBytes.length = 32 := by
  simp [RangeRec.toBytes, leBytes_length, zeros_length]

/-- Settles O12: a pick waits behind those on their way; exporting and merging in a clean bed. -/
theorem rangeRecordsPickShiftsAndTravelAsBytes : Obligations.RangeRecordsPickShiftsAndTravelAsBytes := by
  refine ⟨?_, ?_, ?_⟩
  · intro s b h slot target tSrc room p hI r d out
    refine ⟨fun h0 => ?_, fun h0 => ?_⟩
    · exact State.issue_issues hI rfl (if_pos h0) .nil
    · let w := wset ((s.ctx p).quant (s.bed p) target.toNat) 0 6 (toTwos 6 (max (-32) (min 31 d)))
      let x := (s.issued h p none).picked (s.ctx p).cyc target.toNat w
      obtain ⟨os, hq, hbody⟩ := pickBody_nonzero (s.ctx p) slot.toNat target.toNat tSrc room.toNat (s.issued h p none) h0
      have hclamp : ∀ y : Bed, (if out then y.countClamp else y).picks = y.picks ∧ (if out then y.countClamp else y).quant = y.quant := by
        intro y
        split
        · exact y.countClamp_picks
        · exact ⟨rfl, rfl⟩
      obtain ⟨t, ht, ⟨f, hf⟩, ho⟩ := State.issue_issues (i := .pick b h slot target tSrc room) (x := if out then x.countClamp else x)
        hI rfl hbody hq
      have hpicks : (t.bed p).picks = x.picks := by rw [hf]; exact (hclamp x).1
      have hquant : (t.bed p).quant = x.quant := by rw [hf]; exact (hclamp x).2
      have hread : ∀ (c : Ctx) k, c.quant (t.bed p) k = c.quant x k := by
        intro c k
        unfold Ctx.quant
        rw [hpicks, hquant]
      refine ⟨t, ht, ho, ⟨f, ?_⟩, ?_, fun k => ?_, ?_⟩
      · rw [hpicks, hquant]
        exact hf
      · rw [hread]
        refine (congrArg qDelta (Ctx.quant_picked _ _ _ _ _ _ (le_refl _))).trans ?_
        exact qDelta_wset _ (by omega) (by omega)
      · rw [hread]
        exact Ctx.quant_settle _ _ _ _ _ (by omega) k
      · rw [hpicks]
        exact Bed.picked_picks _ _ _ _
  · intro s b h slot dst p hI hc at_
    have hx := State.issue_exports (i := .rpx b h slot dst) hI hc rfl (a := at_) (out := ((s.bed p).range slot.toNat).toBytes) rfl
    rw [RangeRec.toBytes_length] at hx
    exact hx
  · intro s b h slot clear src p hI hc
    have hc' : Clean (s.issued h p none) := issued_clean hc
    refine State.issue_issues hI rfl (os := []) ?_ .nil
    simp only [rpmBody, Bed.touch_clean _ _ _ hc']
    rfl

end Sys2Proof.Machine
end

section
/-! PROOFS. Sprinklers and table banks (R225 to R227, R246). -/

namespace Sys2Proof.Machine

/-! ## Entropy words at hand -/

/-- With as many words as asked for in the buffer, none is drawn. -/
theorem State.topUp_enough (s : State) (p log n : Nat) (h : n ≤ (s.bed p).entropy.length) : s.topUp p log n = s := by
  unfold State.topUp
  rw [show n - (s.bed p).entropy.length = 0 by omega]
  simp

theorem State.issueFresh_enough {s : State} {b : BitVec 7} {h : Head} {i : Instr} {p : Nat} (hI : Issuing s b h i p) {n : Nat}
    (hn : n ≤ (s.bed p).entropy.length) (body : Ctx → Bed → Bed × List BOut) : s.issueFresh b h i n body = s.issue b h i body := by
  have hlen : n ≤ ((s.before h p none).bed p).entropy.length := by
    rw [State.before_bed, if_pos rfl]
    exact hn
  unfold State.issueFresh State.issue
  rw [State.issueWith_eq hI, State.issueWith_eq hI]
  simp only [show (s.ctx p).phys = p from rfl, State.topUp_enough _ _ _ _ hlen]

/-! ## Draws laid out -/

theorem flatMap_range_length {α : Type} (k : Nat) (g : Nat → Nat → α) (n : Nat) :
    ((List.range n).flatMap fun i => (List.range k).map (g i)).length = k * n := by
  simp [List.length_flatMap, Nat.mul_comm]

/-- n rows of k values each, read by place. -/
theorem flatMap_range_getD {α : Type} (k : Nat) (g : Nat → Nat → α) (n j : Nat) (x : α) (h : j < k * n) :
    ((List.range n).flatMap fun i => (List.range k).map (g i)).getD j x = g (j / k) (j % k) := by
  induction n with
  | zero => omega
  | succ n ih =>
    rw [List.range_succ, List.flatMap_append, List.getD_eq_getElem?_getD]
    by_cases hj : j < k * n
    · rw [List.getElem?_append_left (by rwa [flatMap_range_length]), ← List.getD_eq_getElem?_getD, ih hj]
    · rw [Nat.mul_succ] at h
      have hdiv : j / k = n := Nat.div_eq_of_lt_le (by rw [Nat.mul_comm]; omega) (by rw [Nat.mul_comm, Nat.mul_succ]; omega)
      have hmod : j % k = j - k * n := by rw [Nat.mod_eq_sub_mul_div, hdiv]
      rw [List.getElem?_append_right (by rw [flatMap_range_length]; omega), flatMap_range_length]
      simp [show j - k * n < k by omega, hdiv, hmod]

theorem draws_flatMap {α : Type} (x : Sprinkler) (n k : Nat) (f : BitVec 128 → Nat → α) :
    ((draws x n).flatMap fun d => (List.range k).map (f d)) =
      (List.range n).flatMap fun i => (List.range k).map (f (sprinkle x.seed x.stream (x.ctr + BitVec.ofNat 128 i))) := by
  unfold draws
  rw [List.flatMap_map]

/-- The lanes of a register filled from lane 0. -/
theorem VReg.fill_lane (r : VReg) (tag : BitVec 4) (vs : List Nat) {l : Nat} (hl : l < 64) :
    (r.fill tag vs).lane l = if l < vs.length then vs.getD l 0 % 2 ^ 32 else r.lane l := by
  unfold VReg.fill
  rw [vregOf_lane _ _ hl, List.getD_eq_getElem?_getD]
  split
  next h => rw [List.getElem?_append_left h, ← List.getD_eq_getElem?_getD]
  next h =>
    rw [List.getElem?_append_right (by omega), List.getElem?_drop, show vs.length + (l - vs.length) = l by omega]
    unfold VReg.all
    simp only [List.getElem?_map, List.getElem?_range hl, Option.map_some, Option.getD_some]
    exact Nat.mod_eq_of_lt (VReg.lane_lt _ _)

/-! ## SPRD -/

/-- Word j of a sprinkler's draws: four to a draw. -/
def drawWord (x : Sprinkler) (j : Nat) : Nat :=
  ((sprinkle x.seed x.stream (x.ctr + BitVec.ofNat 128 (j / 4))).extractLsb' (32 * (j % 4)) 32).toNat

def drawWords (x : Sprinkler) (n : Nat) : List Nat :=
  (draws x n).flatMap fun d => (List.range 4).map fun j => (d.extractLsb' (32 * j) 32).toNat

theorem drawWords_length (x : Sprinkler) (n : Nat) : (drawWords x n).length = 4 * n := by
  unfold drawWords
  rw [draws_flatMap, flatMap_range_length]

theorem drawWords_getD (x : Sprinkler) (n j : Nat) (h : j < 4 * n) : (drawWords x n).getD j 0 = drawWord x j := by
  unfold drawWords
  rw [draws_flatMap, flatMap_range_getD _ _ _ _ _ h]
  rfl

/-- A draw as a fraction. -/
def drawFrac (compat : Bool) (f : Fmt) (w : Nat) : Nat × Cnv := encodeEl compat f 0 (.fin (exDy ((w / 2 ^ 8 : Nat) : Int) (-24)))

/-- The register after a draw of a form whose words become lanes by f. -/
theorem fill_map_lane (r : VReg) (tag : BitVec 4) (x : Sprinkler) (n : Nat) (f : Nat → Nat) {l : Nat} (hl : l < 64) :
    (r.fill tag ((drawWords x n).map f)).lane l = if l < 4 * n then f (drawWord x l) % 2 ^ 32 else r.lane l := by
  rw [VReg.fill_lane _ _ _ hl, List.length_map, drawWords_length]
  split
  next h =>
    have hw : l < (drawWords x n).length := by rwa [drawWords_length]
    rw [← drawWords_getD x n l h, List.getD_eq_getElem _ _ (by simpa using hw), List.getD_eq_getElem _ _ hw, List.getElem_map]
  next => rfl

/-- A bed whose sprinkler has stepped. -/
def Bed.stepped (d : Bed) (k n : Nat) : Bed :=
  d.setSprinkler k { d.sprinkler k with ctr := (d.sprinkler k).ctr + BitVec.ofNat 128 n }

theorem sprdBody_words (c : Ctx) (k dst n p : Nat) (d : Bed) : sprdBody c k 0 dst n p d =
    (((d.stepped k n).countAll []).landV c.cyc (c.cyc + n + 2) dst (laneMask (4 * n))
      ((d.vreg dst).fill 11 ((drawWords (d.sprinkler k) n).map id)), []) := by
  rw [List.map_id]
  rfl

theorem sprdBody_t32 (c : Ctx) (k dst n p : Nat) (d : Bed) : sprdBody c k 1 dst n p d =
    (((d.stepped k n).countAll ((drawWords (d.sprinkler k) n).map fun w => (drawFrac c.prog.compat .t32 w).2)).landV c.cyc
      (c.cyc + n + 2) dst (laneMask (4 * n))
      ((((d.stepped k n).countAll ((drawWords (d.sprinkler k) n).map fun w => (drawFrac c.prog.compat .t32 w).2)).vreg dst).fill 2
        ((drawWords (d.sprinkler k) n).map fun w => (drawFrac c.prog.compat .t32 w).1)), []) := by
  unfold sprdBody
  simp only [List.map_map]
  rfl

theorem sprdBody_t16 (c : Ctx) (k dst n p : Nat) (d : Bed) : sprdBody c k 2 dst n p d =
    (((d.stepped k n).countAll ((drawWords (d.sprinkler k) n).map fun w => (drawFrac c.prog.compat .t16 w).2)).landV c.cyc
      (c.cyc + n + 2) dst (laneMask (4 * n))
      ((((d.stepped k n).countAll ((drawWords (d.sprinkler k) n).map fun w => (drawFrac c.prog.compat .t16 w).2)).vreg dst).fill 1
        ((drawWords (d.sprinkler k) n).map fun w => (drawFrac c.prog.compat .t16 w).1)), []) := by
  unfold sprdBody
  simp only [List.map_map]
  rfl

theorem Bed.countAll_vreg (d : Bed) (cs : List Cnv) (i : Nat) : (d.countAll cs).vreg i = d.vreg i := by
  obtain ⟨r, h⟩ := d.countAll_regs cs
  rw [h]
  rfl

/-- The mask word of a draw's comparisons. -/
def drawMask (old : W64) (x : Sprinkler) (n p : Nat) : W64 :=
  maskWord old (fun i => decide (i < 8 * n)) fun i =>
    ((draws x n).flatMap fun d => (List.range 8).map fun j => decide ((d.extractLsb' (16 * j) 16).toNat < p)).getD i false

theorem sprdBody_bits (c : Ctx) (k dst n p : Nat) (d : Bed) : sprdBody c k 3 dst n p d =
    ((d.stepped k n).landK c.cyc (c.cyc + n + 2) (dst % 8) (laneMask (8 * n))
      (drawMask (d.kmask (dst % 8)) (d.sprinkler k) n p), []) := rfl

theorem drawMask_getLsbD (old : W64) (x : Sprinkler) (n p : Nat) {l : Nat} (hl : l < 64) : (drawMask old x n p).getLsbD l =
    if l < 8 * n then
      decide (((sprinkle x.seed x.stream (x.ctr + BitVec.ofNat 128 (l / 8))).extractLsb' (16 * (l % 8)) 16).toNat < p)
    else old.getLsbD l := by
  unfold drawMask
  rw [maskWord_getLsbD _ _ _ hl, draws_flatMap]
  by_cases h : l < 8 * n
  · rw [flatMap_range_getD _ _ _ _ _ h]
    simp [h]
  · simp [h]

theorem drawFrac_eq (compat : Bool) (f : Fmt) (w : Nat) : drawFrac compat f w = encodeEl compat f 0 (.fin (exDy (w / 2 ^ 8) (-24))) := by
  unfold drawFrac
  norm_num

theorem drawForm_cases : ∀ form : BitVec 2, form = 0 ∨ form = 1 ∨ form = 2 ∨ form = 3 := by decide

/-- Settles O13: a binding; the draws by form; a reload and a flip. -/
theorem sprinklersDrawAndTableBanksFlip : Obligations.SprinklersDrawAndTableBanksFlip := by
  refine ⟨⟨?_, ?_⟩, ?_, ?_⟩
  · intro s b h k entropy binding p hI e
    refine ⟨fun he => ?_, fun w ws he hw => ?_⟩
    · subst he
      refine State.issue_issues hI (body := fun c => sprbBody c k.toNat false binding.toNat) ?_ rfl .nil
      exact congrArg _ (State.issueFresh_enough hI (Nat.zero_le _) _)
    · subst he
      refine State.issue_issues hI (body := fun c => sprbBody c k.toNat true binding.toNat) (os := []) ?_ ?_ .nil
      · exact congrArg _ (State.issueFresh_enough hI (by rw [hw]; simp) _)
      · have hw' : (s.issued h p none).entropy = w :: ws := hw
        simp only [sprbBody, if_true, hw']
        rfl
  · intro s b h k form dst count pr p hI x n B draw word value
    refine ⟨fun h3 => ?_, fun h3 hn => ?_⟩
    · rcases drawForm_cases form with rfl | rfl | rfl | rfl
      · refine ⟨_, _, State.issue_issues hI rfl (sprdBody_words (s.ctx p) _ _ n _ _) .nil, rfl, fun l hl => ?_⟩
        exact fill_map_lane _ _ _ _ _ hl
      · refine ⟨_, _, State.issue_issues hI rfl (sprdBody_t32 (s.ctx p) _ _ n _ _) .nil, rfl, fun l hl => ?_⟩
        rw [fill_map_lane _ _ _ _ _ hl, Bed.countAll_vreg]
        simp only [drawFrac_eq]
        rfl
      · refine ⟨_, _, State.issue_issues hI rfl (sprdBody_t16 (s.ctx p) _ _ n _ _) .nil, rfl, fun l hl => ?_⟩
        rw [fill_map_lane _ _ _ _ _ hl, Bed.countAll_vreg]
        simp only [drawFrac_eq]
        rfl
      · exact absurd rfl h3
    · subst h3
      exact ⟨_, State.issue_issues hI rfl (sprdBody_bits (s.ctx p) _ _ n _ _) .nil, fun l hl => drawMask_getLsbD _ _ _ _ hl⟩
  · intro s b h image bp p hI hc bank
    have hc' : Clean (s.issued h p none) := issued_clean hc
    refine State.issue_issues hI rfl (os := []) ?_ .nil
    simp only [vtldBody, Bed.touch_clean _ _ _ hc']
    rfl
  · intro s b h p hI hp
    refine State.issue_issues hI rfl (os := [.event 0x07 (leBytes 32
      (if (s.bed p).tbank then (s.bed p).tbank0 else (s.bed p).tbank1).digest.toNat)]) ?_ (.one _ _)
    unfold tflipBody
    rw [if_neg]
    · rfl
    · exact ne_true_of_eq_false hp

end Sys2Proof.Machine
end

section
/-! PROOFS. NOP, HINT, END and LOOP, and what a disabled instruction does (R170, R172, R177, R178, R231). -/

namespace Sys2Proof.Machine

/-! ## Issue -/

theorem State.before_plot (s : State) (h : Head) (p : Nat) (o : Option (Nat × Nat)) (j : Nat) :
    (s.before h p o).plot j = s.plot j := by
  unfold State.plot
  rw [(s.before_only h p o).plots]

/-- What a command of a bed that changes plots as well leaves. -/
theorem onlyBed_setPlot {s t : State} {p : Nat} (h : OnlyBed s t p) (j : Nat) (x : Plot) :
    OnlyBed { s with plots := (t.setPlot j x).plots } (t.setPlot j x) p :=
  ⟨h.pending, h.freeN, h.clk, h.pwr, h.host, rfl, h.fwClaims, h.grd, h.brw, h.ddr, h.lnk, h.sec, h.pins, h.dbg, h.bed, h.reg⟩

theorem onlyBed_plots {s t : State} {p : Nat} (h : OnlyBed s t p) : OnlyBed { s with plots := t.plots } t p :=
  ⟨h.pending, h.freeN, h.clk, h.pwr, h.host, rfl, h.fwClaims, h.grd, h.brw, h.ddr, h.lnk, h.sec, h.pins, h.dbg, h.bed, h.reg⟩

/-- An instruction without an effect of its own. -/
theorem execNop_eq {s : State} {b : BitVec 7} {h : Head} {p : Nat} (hI : Issuing s b h (.nop b h) p) :
    exec (.nop b h) s = .next (s.before h p none) := congrArg _ (State.issueWith_eq hI _ _)

theorem execHint_eq {s : State} {b : BitVec 7} {h : Head} {entry : BitVec 12} {p : Nat} (hI : Issuing s b h (.hint b h entry) p) :
    exec (.hint b h entry) s = .next ((s.before h p none).setPlot (s.ctx p).plot
      { s.plot (s.ctx p).plot with hint := some entry.toNat }) := by
  rw [← s.before_plot h p none]
  exact congrArg Host.Outcome.next (State.issueWith_eq hI _ _)

theorem execLoop_eq {s : State} {b : BitVec 7} {h : Head} {count : BitVec 16} {body : BitVec 12} {p : Nat}
    (hI : Issuing s b h (.loop b h count body) p) :
    exec (.loop b h count body) s = .next (s.before h p (some (count.toNat + 1, body.toNat + 1))) :=
  congrArg Host.Outcome.next (State.issueWith_eq hI _ _)

/-! ## END -/

/-- The state in which a bed has ended. -/
def State.bedEnded (s : State) (p : Nat) : State := s.setBed p { s.bed p with seq := { (s.bed p).seq with state := 5 } }

theorem State.endBed_eq (s : State) (c : Ctx) : s.endBed c =
    if ∀ q ∈ (s.bedEnded c.phys).bedsOf c.plot, ((s.bedEnded c.phys).bed q).seq.state = 5 then
      (s.bedEnded c.phys).setPlot c.plot { (s.bedEnded c.phys).plot c.plot with state := 4 }
    else s.bedEnded c.phys := by
  unfold State.endBed State.bedEnded
  simp only [List.all_eq_true, beq_iff_eq, State.plot_of_setBed]

theorem execEndList_eq {s : State} {b : BitVec 7} {h : Head} {p : Nat} (hI : Issuing s b h (.endList b h) p) :
    ∃ u, u = (s.before h p none).bedEnded p ∧ exec (.endList b h) s = .next
      (if ∀ q ∈ u.bedsOf (s.ctx p).plot, (u.bed q).seq.state = 5 then
        u.setPlot (s.ctx p).plot { u.plot (s.ctx p).plot with state := 4 }
      else u) :=
  ⟨_, rfl, congrArg Host.Outcome.next ((State.issueWith_eq hI _ _).trans (State.endBed_eq _ _))⟩

/-! ## LOOP -/

theorem issued_loop (s : State) (h : Head) (p count body : Nat) : s.issued h p (some (count, body)) =
    { s.issued h p none with seq := { (s.issued h p none).seq with
        pc := (s.bed p).seq.pc + 1
        loops := (s.bed p).seq.loops ++
          [{ start := (s.bed p).seq.pc + 1, stop := (s.bed p).seq.pc + 1 + body, count, iter := 0 }] } } := rfl

/-! ## The sequencer's place -/

theorem stepLoops_nil (pc : Nat) : stepLoops pc [] = (pc, []) := rfl

theorem stepLoops_inside (pc : Nat) (fs : List LoopFrame) (f : LoopFrame) (h : pc ≠ f.stop) :
    stepLoops pc (fs ++ [f]) = (pc, fs ++ [f]) := by
  simp [stepLoops, popLoops, h]

theorem stepLoops_again (pc : Nat) (fs : List LoopFrame) (f : LoopFrame) (h : pc = f.stop) (hn : f.iter + 1 < f.count) :
    stepLoops pc (fs ++ [f]) = (f.start, fs ++ [{ f with iter := f.iter + 1 }]) := by
  simp [stepLoops, popLoops, h, hn]

theorem stepLoops_left (pc : Nat) (f : LoopFrame) (h : pc = f.stop) (hn : f.count ≤ f.iter + 1) :
    stepLoops pc [f] = (pc, []) := by
  simp [stepLoops, popLoops, h, Nat.not_lt.mpr hn]

theorem issued_pc_loops (s : State) (h : Head) (p : Nat) :
    ((s.issued h p none).seq.pc, (s.issued h p none).seq.loops) = stepLoops ((s.bed p).seq.pc + 1) (s.bed p).seq.loops := rfl

theorem tget_count (t : Tbl Nat) (i k : Nat) :
    tget (fun _ => 0) (tset (fun _ => 0) t i (tget (fun _ => 0) t i + 1)) k = tget (fun _ => 0) t k + if k = i then 1 else 0 := by
  rw [tget_tset]
  split
  next h => rw [h]
  next => rfl

/-- Settles O14: an issue without a further effect; a plot's entry; the last END; a loop opened; and the bookkeeping. -/
theorem controlInstructionsSteerTheSequencer : Obligations.ControlInstructionsSteerTheSequencer := by
  refine ⟨⟨?_, ?_, ?_, ?_⟩, ?_⟩
  · intro s b h p hI
    exact ⟨_, execNop_eq hI, ⟨_, by rw [State.before_bed, if_pos rfl]⟩, s.before_only h p none⟩
  · intro s b h entry p hI
    refine ⟨_, execHint_eq hI, onlyBed_setPlot (s.before_only h p none) _ _, ⟨_, (s.before_bed h p none p).trans (if_pos rfl)⟩, ?_,
      fun q hq => ?_⟩
    · rw [State.plot_setPlot, if_pos rfl]
    · rw [State.plot_setPlot, if_neg hq, State.before_plot]
  · intro s b h p hI
    obtain ⟨u, hu, he⟩ := execEndList_eq hI
    have hbed : u.bed p = { s.issued h p none with seq := { (s.issued h p none).seq with state := 5 } } := by
      simp [hu, State.bedEnded]
    have honly : OnlyBed s u p := by
      rw [hu]
      exact onlyBed_trans (s.before_only h p none) (onlyBed_of_setBed _ _ _)
    have hplot : ∀ j, u.plot j = s.plot j := fun j => by
      rw [hu]
      exact s.before_plot h p none j
    by_cases hall : ∀ q ∈ u.bedsOf (s.ctx p).plot, (u.bed q).seq.state = 5
    · rw [if_pos hall] at he
      refine ⟨_, he, onlyBed_setPlot honly _ _, ⟨_, hbed⟩, fun q hq => ?_, .inr ⟨hall, ?_⟩, fun _ => ?_⟩
      · rw [State.plot_setPlot, if_neg hq, hplot]
      · rw [State.plot_setPlot, if_pos rfl, hplot]
      · rw [State.plot_setPlot, if_pos rfl]
    · rw [if_neg hall] at he
      exact ⟨u, he, onlyBed_plots honly, ⟨_, hbed⟩, fun q _ => hplot q, .inl (hplot _), fun h => absurd h hall⟩
  · intro s b h count body p hI q
    have hbed : (s.before h p (some (count.toNat + 1, body.toNat + 1))).bed p = s.issued h p (some (count.toNat + 1, body.toNat + 1)) := by
      rw [State.before_bed, if_pos rfl]
    refine ⟨_, execLoop_eq hI, s.before_only h p _, ⟨(s.issued h p none).fencePending, ?_⟩, ?_⟩
    · rw [hbed]
      rfl
    · rw [hbed]
      rfl
  · intro s b h p hI
    refine ⟨_, execNop_eq hI, ?_⟩
    rw [State.before_bed, if_pos rfl]
    intro q r
    have hstep : (r.pc, r.loops) = stepLoops (q.pc + 1) q.loops := rfl
    have hvaried : r.varied = (q.varied || h.varies) := congrArg (q.varied || ·) (Bool.true_and _)
    refine ⟨rfl, rfl, rfl, hvaried, tget_count _ _, tget_count _ _, fun hl => ?_, fun fs f hl => ?_⟩
    · rw [hl] at hstep
      exact Prod.mk.injEq _ _ _ _ ▸ hstep
    · rw [hl] at hstep ⊢
      refine ⟨fun hs => ?_, fun hs hn => ?_, fun hs hn hfs => ?_⟩
      · rw [stepLoops_inside _ _ _ hs] at hstep
        exact Prod.mk.inj hstep
      · rw [stepLoops_again _ _ _ hs hn] at hstep
        exact Prod.mk.inj hstep
      · rw [hfs, List.nil_append, stepLoops_left _ _ hs hn] at hstep
        exact Prod.mk.inj hstep

/-! ## Disabled instructions -/

theorem State.issueBoth_skipped {s : State} {b : BitVec 7} {h : Head} {i : Instr} {p : Nat} (hS : Skipping s b h i p)
    (opens : Option (Nat × Nat)) (f : Bool → Ctx → State → State) :
    s.issueBoth b h i opens f = f false (s.ctx p) (s.setBed p ((s.bed p).advance false h.varies none)) := by
  obtain ⟨h1, ha, h2, h3⟩ := hS
  unfold State.issueBoth
  simp only [h1, State.landed_arrived ha, h2, h3, if_true, Bool.false_eq_true, if_false]
  rfl

theorem State.issueWith_skipped {s : State} {b : BitVec 7} {h : Head} {i : Instr} {p : Nat} (hS : Skipping s b h i p)
    (opens : Option (Nat × Nat)) (f : Ctx → State → State) :
    s.issueWith b h i opens f = s.setBed p ((s.bed p).advance false h.varies none) := by
  unfold State.issueWith
  rw [State.issueBoth_skipped hS]
  rfl

/-- Settles O15: every bed instruction but the two issues through the shared operation, which a disabled one leaves at once. -/
theorem disabledInstructionsOnlyMoveTheSequencer : Obligations.DisabledInstructionsOnlyMoveTheSequencer := by
  intro s i b h p hb hS hsend hrecv
  cases i
  all_goals simp only [bedHead, Option.some.injEq, Prod.mk.injEq, reduceCtorEq] at hb
  all_goals obtain ⟨rfl, rfl⟩ := hb
  case rsend => exact absurd rfl (hsend _ _ _)
  case rrecv => exact absurd rfl (hrecv _ _ _)
  all_goals exact congrArg Host.Outcome.next (State.issueWith_skipped hS _ _)

end Sys2Proof.Machine
end

section
/-! PROOFS. What the bodies of the computing instructions leave: in a bed without errors or poison they tell the rest of the
module events only, and the sequencer stays as its issue left it (R169). -/

namespace Sys2Proof.Machine

/-! ## The sequencer stays -/

@[simp] theorem Bed.setReg_seq (d : Bed) (o : Nat) (v : W64) : (d.setReg o v).seq = d.seq := rfl
@[simp] theorem Bed.setRange_seq (d : Bed) (k : Nat) (r : RangeRec) : (d.setRange k r).seq = d.seq := rfl
@[simp] theorem Bed.setStat_seq (d : Bed) (k : Nat) (x : Stat) : (d.setStat k x).seq = d.seq := rfl
@[simp] theorem Bed.setRow_seq (d : Bed) (k : Nat) (x : SRow) : (d.setRow k x).seq = d.seq := rfl
@[simp] theorem Bed.setArray_seq (d : Bed) (k : Nat) (x : MArray) : (d.setArray k x).seq = d.seq := rfl
@[simp] theorem Bed.setSticky_seq (d : Bed) : d.setSticky.seq = d.seq := rfl
@[simp] theorem Bed.gauge_seq (d : Bed) (g n : Nat) : (d.gauge g n).seq = d.seq := rfl
@[simp] theorem Bed.finish_seq (d : Bed) (t : Nat) : (d.finish t).seq = d.seq := rfl
@[simp] theorem Bed.holdSf_seq (d : Bed) (t : Nat) : (d.holdSf t).seq = d.seq := rfl
@[simp] theorem Bed.holdSmax_seq (d : Bed) (t : Nat) : (d.holdSmax t).seq = d.seq := rfl
@[simp] theorem Bed.landV_seq (d : Bed) (c l i : Nat) (m : W64) (r : VReg) : (d.landV c l i m r).seq = d.seq := rfl
@[simp] theorem Bed.landK_seq (d : Bed) (c l i : Nat) (m r : W64) : (d.landK c l i m r).seq = d.seq := rfl
@[simp] theorem Bed.countClamp_seq (d : Bed) : d.countClamp.seq = d.seq := Bed.setReg_seq _ _ _

@[simp] theorem Bed.countAll_seq (d : Bed) (cs : List Cnv) : (d.countAll cs).seq = d.seq := by
  obtain ⟨r, h⟩ := d.countAll_regs cs
  rw [h]

@[simp] theorem Bed.countEsc_seq (d : Bed) (n : Nat) : (d.countEsc n).seq = d.seq := by
  obtain ⟨r, h⟩ := d.countEsc_regs n
  rw [h]

@[simp] theorem Ctx.record_seq (c : Ctx) (d : Bed) (ti : Nat) (vs : List Val) : (c.record d ti vs).seq = d.seq := by
  obtain ⟨r, h⟩ := c.record_ranges d ti vs
  rw [h]

@[simp] theorem taken_seq (c : Ctx) (d : Bed) (o : Opnd) (n : Nat) : (Taken c d o n).seq = d.seq := by simp [Taken]

theorem Bed.puts_seq {d : Bed} (index : Nat) (wss : List (List BW)) (m : Bool) (hc : d.ecc = []) :
    (d.puts index wss m).1.seq = d.seq := by
  have hfold : ∀ x : Bed × List BOut, x.1.ecc = [] → x.1.seq = d.seq →
      (wss.foldl (fun s ws => ((s.1.put index ws m).1, s.2 ++ (s.1.put index ws m).2)) x).1.seq = d.seq := by
    induction wss with
    | nil => exact fun _ _ h => h
    | cons ws wss ih =>
      intro x he hs
      rw [List.foldl_cons]
      apply ih <;> rw [Bed.put_clean _ _ _ _ he] <;> assumption
  exact hfold (d, []) hc rfl

theorem Ctx.store_seq (c : Ctx) {d : Bed} (ti : Nat) (items : List SItem) (m : Bool) (hc : Clean d) :
    (c.store d ti items m).bed.seq = d.seq := by
  have hc' : d.ecc = [] := hc
  unfold Ctx.store
  simp only []
  split
  · rw [Bed.put_clean _ _ _ _ (by simpa using hc')]
    simp
  · rw [Bed.puts_seq _ _ _ (by simpa using hc')]
    simp

theorem Bed.sflag_seq (d : Bed) (compat : Bool) (cause element index : Nat) : (d.sflag compat cause element index).1.seq = d.seq := by
  unfold Bed.sflag
  split
  · exact Bed.setSticky_seq d
  · exact Bed.setReg_seq _ _ _

theorem flagFirst_seq (compat : Bool) (index : Nat) (causes : List Nat) (d : Bed) : (flagFirst compat index causes d).1.seq = d.seq := by
  unfold flagFirst
  split
  · exact Bed.sflag_seq _ _ _ _ _
  · rfl

/-! ## Bodies that settle -/

/-- What a body makes of a bed: the sequencer is the same, and the rest of the module is told events only. -/
structure Settles (d : Bed) (r : Bed × List BOut) : Prop where
  seq : r.1.seq = d.seq
  quiet : Quiet r.2

theorem Settles.of_seq {d x : Bed} (h : x.seq = d.seq) : Settles d (x, []) := ⟨h, .nil⟩

theorem Settles.of_eq {d : Bed} {r : Bed × List BOut} {x : Bed} (h : r = (x, [])) (hs : x.seq = d.seq) : Settles d r := h ▸ .of_seq hs

/-- An instruction that tells its module events only moves its sequencer on and changes no other bed and no plot. -/
theorem State.issue_moves {s : State} {b : BitVec 7} {h : Head} {i : Instr} {p : Nat} (hI : Issuing s b h i p)
    {body : Ctx → Bed → Bed × List BOut} (he : exec i s = .next (s.issue b h i body))
    (hb : Settles (s.issued h p none) (body (s.ctx p) (s.issued h p none))) :
    ∃ t, exec i s = .next t ∧ (t.bed p).seq = (s.issued h p none).seq ∧ t.grd = s.grd ∧ t.plots = s.plots ∧
      ∀ q, q ≠ p → t.bed q = s.bed q := by
  obtain ⟨t, ht, ⟨f, hf⟩, ho⟩ := State.issue_issues hI he rfl hb.quiet
  exact ⟨t, ht, by rw [hf]; exact hb.seq, ho.grd, ho.plots, ho.bed⟩

section
variable {d : Bed} (hc : Clean d) (c : Ctx)
include hc

theorem putBytes_settles (index a g e : Nat) (bs : List Byte) :
    Settles d ((((d.putBytes index a bs).1.gauge 3 g).finish e), (d.putBytes index a bs).2) := by
  rw [Bed.putBytes_clean _ _ _ _ hc]
  exact .of_seq rfl

omit hc in
theorem psetBody_settles (a : Nat) (q : Prec) : Settles d (psetBody a q d) := by
  rw [psetBody_eq]
  refine .of_seq ?_
  split
  · rfl
  · split <;> rfl

theorem fillBody_settles (a : Nat) (src : BitVec 24) (kn nn bs : Nat) : Settles d (fillBody c a src kn nn bs d) :=
  .of_eq (fillBody_clean c a src kn nn bs hc) rfl

theorem cbldBody_settles (a tensor : Nat) : Settles d (cbldBody c a tensor d) := .of_eq (cbldBody_clean c a tensor hc) rfl

theorem Ctx.load_seq (o : Opnd) (n : Nat) (g : Fmt) (z : Int) : (c.load d o n g z).bed.seq = d.seq := by
  obtain ⟨r, q, h⟩ := c.load_bed o n g z hc
  rw [h]

theorem mloadLine_seq (o : Opnd) (kn : Nat) (mov : Fmt) : (mloadLine c d o kn mov).bed.seq = d.seq := by
  unfold mloadLine
  split
  · exact Ctx.load_seq hc c _ _ _ _
  · split <;> exact Ctx.load_seq hc c _ _ _ _

theorem mloadBeds_seq (o : Opnd) (kn : Nat) (mov : Fmt) (n : Nat) : (mloadBeds c o kn mov d n).seq = d.seq := by
  induction n with
  | zero => rfl
  | succ n ih => rw [mloadBeds_succ, mloadLine_seq (mloadBeds_clean c o kn mov hc n).1, ih]

theorem mloadBody_settles (a : Nat) (half : Bool) (m0 count kn : Nat) (src : BitVec 24) :
    Settles d (mloadBody c a half m0 count kn src d) :=
  .of_eq (mloadBody_clean c a half m0 count kn src hc) (mloadBeds_seq hc c _ _ _ _)

omit hc in
theorem swapBody_settles {a : Nat} (hs : (d.array a).shadow.poison = false) (hb : (d.array a).idleBank.poison = false) :
    Settles d (swapBody a d) := .of_eq (swapBody_clean hs hb) rfl

theorem passBody_settles (a : Nat) (half : Bool) (m0 mt : Nat) (tile begins : Bool) (pre corr : Option (BitVec 24))
    (hp : ∀ half m, (tget (fun _ => ({} : MSlot)) ((d.array a).half half).slots m).poison = false) :
    Settles d (passBody c a half m0 mt tile begins pre corr d) := by
  obtain ⟨g, r, h⟩ := passBody_clean c a half m0 mt tile begins pre corr hc fun i _ => hp half (m0 + i)
  exact .of_eq h rfl

omit hc in
theorem setSticky_if_seq (on : Bool) (x : Bed) : (if on then x.setSticky else x).seq = x.seq := by
  split <;> rfl

theorem spillBody_settles (a : Nat) (tile first : Bool) (barrel : BitVec 24) (ports : Nat) :
    Settles d (spillBody c a tile first barrel ports d) := by
  simp only [spillBody, Bed.touch_clean _ _ _ hc, ite_self, Bed.putBytes_clean _ _ _ _ hc]
  refine .of_seq ?_
  rw [Bed.finish_seq, Bed.gauge_seq, setSticky_if_seq]
  rfl

theorem rdrainBody_settles (a : Nat) (barrel : BitVec 24) (slot : Nat) (clear : Bool) :
    Settles d (rdrainBody c a barrel slot clear d) := by
  simp only [rdrainBody, Bed.touch_clean _ _ _ hc]
  exact .of_seq rfl

omit hc in
theorem DOpt.reset_seq (opt : DOpt) (on : Bool) (n : Nat) : (opt.reset on d n).seq = d.seq := by
  unfold DOpt.reset
  split
  · split
    · exact List.foldlRecOn (motive := fun x : Bed => x.seq = d.seq) _ _ rfl fun _ hx _ _ => hx
    · rfl
  · rfl

omit hc in
theorem drainStats_seq (compat : Bool) (f : Fmt) (e0 cols : Nat) (vals : List Val) (x : Bed) :
    (drainStats x compat f e0 cols vals).seq = x.seq :=
  List.foldlRecOn (motive := fun y : Bed => y.seq = x.seq) _ _ rfl fun _ hy _ _ => hy

omit hc in
theorem Bed.tileFlag_seq (compat : Bool) (a : Nat) (w : W64) (x : Bed) : (x.tileFlag compat a w).1.seq = x.seq := by
  unfold Bed.tileFlag
  split
  · exact Bed.setSticky_seq _
  · exact Bed.setReg_seq _ _ _

theorem drainOne_seq (a : Nat) (x : DSrc) (opt : DOpt) (r0 : Nat) : (drainOne c a x opt r0 d).1.seq = d.seq := by
  have hc' : d.ecc = [] := hc
  unfold drainOne
  extract_lets compat tOut s f z nn cols es b' codes b'' b0 r b2 b3 bad fl lines last bx
  have hr : r.bed.seq = d.seq := by
    simp only [r]
    split
    · rw [Ctx.store_seq c _ _ _ (show b'.ecc = [] by simpa [b'] using hc')]
      simp [b']
    · refine List.foldlRecOn (motive := fun y : Bed => y.seq = d.seq) _ _ ?_ fun _ hy _ _ => hy
      simp [b'', b']
  have h2 : b2.seq = d.seq := by
    simp only [b2]
    split
    · exact (drainStats_seq _ _ _ _ _ _).trans hr
    · exact hr
  have h3 : b3.seq = d.seq := by
    simp only [b3]
    split
    · exact h2
    · exact h2
  have hf : fl.1.seq = d.seq := by
    simp only [fl]
    generalize bad = l
    cases l with
    | nil => exact h3
    | cons e l => exact (Bed.tileFlag_seq _ _ _ _).trans h3
  have hx : bx.seq = d.seq := by
    simp only [bx]
    split
    · exact hf
    · exact hf
  exact hx

theorem drainOne_settles (a : Nat) (x : DSrc) (opt : DOpt) (r0 : Nat) : Settles d (drainOne c a x opt r0 d) :=
  ⟨drainOne_seq hc c a x opt r0, (drainOne_quiet c a x opt r0 d hc).1⟩

omit hc in
theorem Settles.trans {d e : Bed} {r : Bed × List BOut} (he : e.seq = d.seq) (h : Settles e r) : Settles d r :=
  ⟨h.seq.trans he, h.quiet⟩

theorem drainTwo_settles (a : Nat) (x y : DSrc) (opt : DOpt) (n : Nat) :
    Settles d ((drainOne c a y opt n (drainOne c a x opt 0 d).1).1,
      (drainOne c a x opt 0 d).2 ++ (drainOne c a y opt n (drainOne c a x opt 0 d).1).2) := by
  obtain ⟨hq, hc1⟩ := drainOne_quiet c a x opt 0 d hc
  have h1 := drainOne_settles hc1 c a y opt n
  exact ⟨h1.seq.trans (drainOne_seq hc c a x opt 0), hq.append h1.quiet⟩

theorem drainBody_settles (a : Nat) (wave source tile both : Bool) (opt : DOpt) (statClear : Bool) (barrel : BitVec 24) :
    Settles d (drainBody c a wave source tile both opt statClear barrel d) := by
  have hgauge : ∀ n g k, Clean ((opt.reset statClear d n).gauge g k) := fun n _ _ => opt.reset_clean statClear n hc
  have harray : ∀ n k x, Clean ((opt.reset statClear d n).setArray k x) := fun n _ _ => opt.reset_clean statClear n hc
  have hseq : ∀ n k x, ((opt.reset statClear d n).setArray k x).seq = d.seq := fun n _ _ => opt.reset_seq statClear n
  unfold drainBody
  simp only [Bed.touch_clean _ _ _ hc]
  split
  · exact Settles.trans ((Bed.gauge_seq _ _ _).trans (opt.reset_seq statClear _)) (drainOne_settles (hgauge _ _ _) c _ _ _ _)
  · split
    · exact Settles.trans (hseq _ _ _) (drainTwo_settles (harray _ _ _) c _ _ _ _ _)
    · exact Settles.trans (hseq _ _ _) (drainOne_settles (harray _ _ _) c _ _ _ _)

end

end Sys2Proof.Machine
end

section
/-! PROOFS. The same for the vector, special-function, record, sprinkler and table instructions. -/

namespace Sys2Proof.Machine

variable {d : Bed} (hc : Clean d) (c : Ctx)

theorem vopBody_settles (op x s1 s2 s3 : Nat) (fmt : BitVec 4) (km : Nat) (maskEn : Bool) (kd : Nat) (imm8 : BitVec 8)
    (imm32 : BitVec 32) : Settles d (vopBody c op x s1 s2 s3 fmt km maskEn kd imm8 imm32 d) := by
  unfold vopBody
  simp only []
  split
  · exact .of_seq rfl
  split
  · exact .of_seq rfl
  split
  · exact .of_seq rfl
  split
  · exact .of_seq rfl
  · exact .of_seq (by simp)

include hc

theorem vldBody_settles (first count : Nat) (src : BitVec 24) (fmt : BitVec 4) (bp : Nat) :
    Settles d (vldBody c first count src fmt bp d) := by
  rw [vldBody_clean c first count src fmt bp hc]
  obtain ⟨r, q, hl⟩ := vldLoads_bed c (c.opnd src) (fmtOf fmt) hc count
  obtain ⟨v, l, h⟩ := landAll_frame c.cyc (c.cyc + (c.opnd src).moveCycles (64 * count) bp + 3) first fmt 0
    (vldLoads c (c.opnd src) (fmtOf fmt) d count).2 (vldLoads c (c.opnd src) (fmtOf fmt) d count).1
  refine .of_seq ?_
  rw [Bed.gauge_seq, h, hl]

theorem vstBody_settles (first count : Nat) (dst : BitVec 24) (bp km : Nat) (maskEn : Bool) :
    Settles d (vstBody c first count dst bp km maskEn d) := by
  refine ⟨?_, ?_⟩
  · simp only [vstBody, Bed.finish_seq, Bed.gauge_seq, c.store_seq _ _ _ hc]
  · simp only [vstBody, (c.store_clean _ _ _ _ hc).1, Quiet.nil]

theorem mcvtBody_settles (src dst : BitVec 24) (n bp : Nat) : Settles d (mcvtBody c src dst n bp d) := by
  unfold mcvtBody
  simp only [Bed.touch_clean _ _ _ hc]
  have hr : Clean (c.record d (c.opnd src).ti ((c.vals d (c.opnd src) n).map (·.1))) := (c.record_ecc _ _ _).trans hc
  refine ⟨?_, ?_⟩
  · simp only [Bed.finish_seq, Bed.gauge_seq, c.store_seq _ _ _ hr, Ctx.record_seq]
  · simp only [(c.store_clean _ _ _ _ hr).1, Quiet.nil]

theorem sfnStored_settles (func : Nat) (two : Bool) (q : Opnd) (n : Nat) (xs : List (Val × Val)) :
    Settles d (sfnStored c func two q n d xs) := by
  refine ⟨?_, sfnStored_quiet _ _ _ _ _ _ _⟩
  unfold sfnStored
  simp only [Bed.finish_seq, Bed.holdSf_seq, Bed.gauge_seq, flagFirst_seq, c.store_seq _ _ _ hc]

theorem sfnBody_settles (func : Nat) (src op2 dst : BitVec 24) (n : Nat) : Settles d (sfnBody c func src op2 dst n d) := by
  rw [sfnBody_clean c func src op2 dst n hc]
  extract_lets two b
  have hb : Clean b ∧ b.seq = d.seq := ⟨taken_clean hc, taken_seq _ _ _ _⟩
  clear_value two b
  cases two with
  | false =>
    simp only [Bool.false_eq_true, if_false]
    exact Settles.trans hb.2 (sfnStored_settles hb.1 c _ _ _ _ _)
  | true =>
    simp only [if_true]
    exact Settles.trans ((taken_seq _ _ _ _).trans hb.2) (sfnStored_settles (taken_clean hb.1) c _ _ _ _ _)

theorem smax1Body_settles (src : BitVec 24) (mask : BitVec 12) (on : Bool) (entry : Nat) (clear : Bool) (beta : BitVec 32) (n : Nat) :
    Settles d (smax1Body c src (if on then some mask else none) entry clear beta n d) :=
  .of_eq (smax1Body_clean c src mask on entry clear beta n hc) (by
    simp only [smax1Fed, Bed.holdSmax_seq, Bed.holdSf_seq, Bed.gauge_seq, Bed.setRow_seq, taken_seq])

theorem smax2Stored_settles (p : Opnd) (m : Option Opnd) (on recip : Bool) (entry : Nat) (r : SRow) (n : Nat) (vs : List Val) :
    Settles d (smax2Stored c p m on recip entry r n d vs) := by
  refine ⟨?_, smax2Stored_quiet _ _ _ _ _ _ _ _ _ _⟩
  unfold smax2Stored
  have hr : Clean (d.setRow entry r) := hc
  simp only [Bed.finish_seq, Bed.holdSf_seq, Bed.holdSmax_seq, Bed.gauge_seq, flagFirst_seq, c.store_seq _ _ _ hr, Bed.setRow_seq]

theorem smax2Body_settles (src : BitVec 24) (mask : BitVec 12) (on : Bool) (entry : Nat) (recip : Bool) (dst : BitVec 12) (n : Nat) :
    Settles d (smax2Body c src (if on then some mask else none) entry recip dst n d) := by
  rw [smax2Body_clean c src mask on entry recip dst n hc]
  extract_lets b
  exact Settles.trans (taken_seq _ _ _ _) (smax2Stored_settles (taken_clean hc) c _ _ _ _ _ _ _ _)

theorem smaxmBody_settles (src : BitVec 24) (entry : Nat) : Settles d (smaxmBody c src entry d) := by
  simp only [smaxmBody, Bed.touch_clean _ _ _ hc]
  exact .of_seq (by simp only [Bed.holdSf_seq, Bed.gauge_seq, Bed.setRow_seq])

theorem sieveBody_settles (src : BitVec 24) (n k : Nat) (dir clear : Bool) (base : BitVec 32) :
    Settles d (sieveBody c src n k dir clear base d) :=
  .of_eq (sieveBody_clean c src n k dir clear base hc) (by
    rw [Bed.gauge_seq]
    exact taken_seq c d _ _)

theorem sievemBody_settles (src : BitVec 24) (count k : Nat) (dir clear : Bool) (fmt : BitVec 4) :
    Settles d (sievemBody c src count k dir clear fmt d) := by
  simp only [sievemBody, Bed.touch_clean _ _ _ hc]
  exact .of_seq rfl

omit hc in
theorem nprepBody_settles (entry : Nat) (rms : Bool) (eps : BitVec 32) : Settles d (nprepBody c entry rms eps d) := by
  by_cases h0 : (d.stat entry).count = 0
  · exact .of_eq (nprepBody_empty c entry rms eps d h0) (by simp only [Bed.setStat_seq, Bed.holdSf_seq, Bed.gauge_seq])
  · by_cases hf : (d.stat entry).s1.cls ≠ .fin ∨ (d.stat entry).s2.cls ≠ .fin
    · exact .of_eq (nprepBody_nonfinite c entry rms eps d h0 hf) (by simp only [Bed.setStat_seq, Bed.holdSf_seq, Bed.gauge_seq])
    · obtain ⟨h1, h2⟩ := not_or.mp hf
      exact .of_eq (nprepBody_finite c entry rms eps d h0 (not_not.mp h1) (not_not.mp h2)) (by
        simp only [Bed.setStat_seq, Bed.countAll_seq, Bed.holdSf_seq, Bed.gauge_seq])

theorem napplyStored_settles (p : Opnd) (ports : Nat) (st : Stat) (n : Nat) (xs : List (Val × Val × Val)) :
    Settles d (napplyStored c p ports st n d xs) := by
  refine ⟨?_, napplyStored_quiet _ _ _ _ _ _ _⟩
  unfold napplyStored
  simp only [Bed.finish_seq, Bed.gauge_seq]
  split
  · rw [Bed.sflag_seq, c.store_seq _ _ _ hc]
  · exact c.store_seq _ _ _ hc

theorem napplyBody_settles (src : BitVec 24) (dst gamma beta : BitVec 12) (on : Bool) (entry n : Nat) :
    Settles d (napplyBody c src dst gamma (if on then some beta else none) entry n d) := by
  have hc1 := taken_clean (c := c) (o := c.opnd src) (n := n) hc
  have hc2 := taken_clean (c := c) (o := c.along (c.opnd src) gamma) (n := n) hc1
  have hB : Clean (if on then Taken c (Taken c (Taken c d (c.opnd src) n) (c.along (c.opnd src) gamma) n) (c.along (c.opnd src) beta) n
      else Taken c (Taken c d (c.opnd src) n) (c.along (c.opnd src) gamma) n) := by
    split
    · exact taken_clean hc2
    · exact hc2
  rw [napplyBody_of_reads c src dst gamma _ entry n (c.loadVals_taken _ n hc) (c.loadVals_taken _ n hc1)
    (c.loadVals_optional (c.along (c.opnd src)) on beta n hc2) hB]
  refine Settles.trans ?_ (napplyStored_settles hB c _ _ _ _ _)
  split <;> simp

theorem statmBody_settles (entry count : Nat) (src : BitVec 24) : Settles d (statmBody c entry count src d) := by
  simp only [statmBody, Bed.touch_clean _ _ _ hc]
  obtain ⟨t, h, -⟩ := statm_stats c.prog.compat entry (fun i => statOfBytes (d.bytes ((c.opnd src).addr + 96 * i) 96)) d count
  rw [h]
  exact .of_seq rfl

omit hc in
theorem pickBody_settles (slot target : Nat) (tSrc : BitVec 8) (room : Nat) : Settles d (pickBody c slot target tSrc room d) := by
  by_cases h0 : (d.range slot).nonzero = 0
  · exact .of_eq (if_pos h0) rfl
  · obtain ⟨os, hq, h⟩ := pickBody_nonzero c slot target tSrc room d h0
    rw [h]
    refine ⟨?_, hq⟩
    simp only []
    split
    · exact Bed.countClamp_seq _
    · rfl

theorem rpmBody_settles (slot : Nat) (clear : Bool) (src : BitVec 24) : Settles d (rpmBody c slot clear src d) := by
  simp only [rpmBody, Bed.touch_clean _ _ _ hc]
  exact .of_seq (by simp only [Bed.gauge_seq, Bed.setRange_seq])

omit hc in
theorem Bed.stepped_seq (k n : Nat) : (d.stepped k n).seq = d.seq := rfl

omit hc in
theorem sprdBody_settles (k form x n p : Nat) : Settles d (sprdBody c k form x n p d) := by
  match form with
  | 0 => exact .of_eq (sprdBody_words c k x n p d) (by simp only [Bed.landV_seq, Bed.countAll_seq, Bed.stepped_seq])
  | 1 => exact .of_eq (sprdBody_t32 c k x n p d) (by simp only [Bed.landV_seq, Bed.countAll_seq, Bed.stepped_seq])
  | 2 => exact .of_eq (sprdBody_t16 c k x n p d) (by simp only [Bed.landV_seq, Bed.countAll_seq, Bed.stepped_seq])
  | m + 3 => exact .of_seq rfl

theorem vtldBody_settles (image ports : Nat) : Settles d (vtldBody c image ports d) := by
  simp only [vtldBody, Bed.touch_clean _ _ _ hc]
  refine .of_seq ?_
  rw [Bed.gauge_seq]
  split <;> rfl

omit hc in
theorem tflipBody_settles (h0 : d.tbank0.poison = false) (h1 : d.tbank1.poison = false) : Settles d (tflipBody d) := by
  unfold tflipBody
  simp only []
  rw [if_neg (by split <;> simp [h0, h1])]
  exact ⟨rfl, .one _ _⟩

omit hc in
theorem sprbBody_settles (k : Nat) (entropy : Bool) (binding : Nat) (h : entropy = true → d.entropy ≠ []) :
    Settles d (sprbBody c k entropy binding d) := by
  unfold sprbBody
  cases entropy with
  | false => exact .of_seq rfl
  | true =>
    cases he : d.entropy with
    | nil => exact absurd he (h rfl)
    | cons w ws =>
      exact .of_seq rfl

omit hc in
theorem entrBody_settles (x words : Nat) (h : words ≤ d.entropy.length) : Settles d (entrBody c x words d) := by
  unfold entrBody
  rw [if_neg (by omega)]
  exact .of_seq rfl

end Sys2Proof.Machine
end

section
/-! PROOFS. What the instructions that reach beyond their bed leave of every bed's place and of every plot (R169, R174, R238 to
R245), and O16. -/

namespace Sys2Proof.Machine

/-! ## Operations that change no bed and no plot -/

/-- Two states with the same beds and the same plots. -/
structure SameBeds (s t : State) : Prop where
  beds : t.beds = s.beds
  plots : t.plots = s.plots

theorem SameBeds.refl (s : State) : SameBeds s s := ⟨rfl, rfl⟩

theorem SameBeds.trans {s t u : State} (a : SameBeds s t) (b : SameBeds t u) : SameBeds s u :=
  ⟨b.beds.trans a.beds, b.plots.trans a.plots⟩

section
variable {s₀ s : State}

theorem SameBeds.setReg {o : Nat} {v : W64} (h : SameBeds s₀ s) : SameBeds s₀ (s.setReg o v) :=
  h.trans ⟨State.setReg_beds _ _ _, State.setReg_plots _ _ _⟩

theorem SameBeds.setDoor {k : Nat} (h : SameBeds s₀ s) : SameBeds s₀ (s.setDoor k) := by
  obtain ⟨x, he⟩ := s.setDoor_frame k
  rw [he]
  exact ⟨h.beds, h.plots⟩

theorem SameBeds.report {unit reporter cause detail : Nat} (h : SameBeds s₀ s) : SameBeds s₀ (s.report unit reporter cause detail) := by
  unfold State.report
  simp only []
  split
  · exact ⟨h.beds, h.plots⟩
  · split
    · exact ⟨h.beds, h.plots⟩
    · exact .setDoor ⟨h.beds, h.plots⟩

theorem SameBeds.flood {but : Option Nat} {code : Nat} {payload : List Byte} (h : SameBeds s₀ s) :
    SameBeds s₀ (s.flood but code payload) :=
  List.foldlRecOn (motive := SameBeds s₀) _ _ h fun _ ht _ _ => ⟨ht.beds, ht.plots⟩

theorem SameBeds.mismatch {kind : Nat} {r : List Byte} (h : SameBeds s₀ s) : SameBeds s₀ (s.mismatch kind r) := by
  unfold State.mismatch
  extract_lets bed index exec l s1 s2 s3 t
  have h1 : SameBeds s₀ s1 := by
    simp only [s1]
    split
    · exact h
    · exact h.setReg
  have h3 : SameBeds s₀ s3 := h1.report.setDoor
  clear_value s3
  split
  · exact .flood ⟨h3.beds, h3.plots⟩
  · exact h3

theorem SameBeds.setLnk {k : Lnk} (h : SameBeds s₀ s) : SameBeds s₀ { s with lnk := k } := ⟨h.beds, h.plots⟩

theorem SameBeds.settle (h : SameBeds s₀ s) : SameBeds s₀ s.settle := by
  unfold State.settle
  simp only []
  split
  · split
    · exact h
    · exact h.setLnk.mismatch
  · split
    · exact h.setLnk
    · exact h.setLnk.mismatch

theorem SameBeds.compare {kind bed index exec sow value : Nat} (h : SameBeds s₀ s) :
    SameBeds s₀ (s.compare kind bed index exec sow value) := by
  unfold State.compare
  simp only []
  split
  · exact h.setLnk.settle
  · exact h

theorem SameBeds.setChan {ch : Nat} {x : Chan} (h : SameBeds s₀ s) : SameBeds s₀ (s.setChan ch x) := ⟨h.beds, h.plots⟩

theorem SameBeds.give {ch : Nat} {x : Xfer} (h : SameBeds s₀ s) : SameBeds s₀ (s.give ch x) := by
  unfold State.give
  simp only []
  split
  · exact h.setChan
  · exact h.setChan
  · exact h

end

/-! ## Operations that leave a bed's place and every plot's state -/

/-- Between two states no plot's state has changed, nor the place at which a bed's sequencer issued last. -/
structure Steady (p : Nat) (s t : State) : Prop where
  plot : ∀ j, (t.plot j).state = (s.plot j).state
  index : (t.bed p).seq.index = (s.bed p).seq.index
  last : (t.bed p).seq.last = (s.bed p).seq.last
  execs : (t.bed p).seq.execs = (s.bed p).seq.execs

theorem Steady.refl (p : Nat) (s : State) : Steady p s s := ⟨fun _ => rfl, rfl, rfl, rfl⟩

theorem Steady.trans {p : Nat} {s t u : State} (a : Steady p s t) (b : Steady p t u) : Steady p s u :=
  ⟨fun j => (b.plot j).trans (a.plot j), b.index.trans a.index, b.last.trans a.last, b.execs.trans a.execs⟩

section
variable {s₀ s : State} {p : Nat}

theorem Steady.same {t : State} (h : Steady p s₀ s) (ht : SameBeds s t) : Steady p s₀ t := by
  refine h.trans ?_
  have hb : t.bed p = s.bed p := State.bed_congr ht.beds p
  refine ⟨fun j => ?_, by rw [hb], by rw [hb], by rw [hb]⟩
  unfold State.plot
  rw [ht.plots]

theorem Steady.setPlot {j : Nat} {x : Plot} (h : Steady p s₀ s) (hx : x.state = (s.plot j).state) : Steady p s₀ (s.setPlot j x) := by
  refine h.trans ⟨fun k => ?_, rfl, rfl, rfl⟩
  rw [State.plot_setPlot]
  split
  next hk => rw [hx, hk]
  next => rfl

theorem Steady.setBed {x : Bed} (h : Steady p s₀ s) (hi : x.seq.index = (s.bed p).seq.index) (hl : x.seq.last = (s.bed p).seq.last)
    (he : x.seq.execs = (s.bed p).seq.execs) : Steady p s₀ (s.setBed p x) := by
  refine h.trans ⟨fun _ => rfl, ?_, ?_, ?_⟩ <;> rw [State.bed_setBed, if_pos rfl] <;> assumption

/-- A bed with the same sequencer put back. -/
theorem Steady.setBed_seq {x : Bed} (h : Steady p s₀ s) (hx : x.seq = (s.bed p).seq) : Steady p s₀ (s.setBed p x) :=
  h.setBed (by rw [hx]) (by rw [hx]) (by rw [hx])

theorem Steady.watchEcc (h : Steady p s₀ s) : Steady p s₀ (s.watchEcc p) := by
  obtain ⟨f, hf⟩ := (s.watchEcc_bed p).1
  refine h.trans ⟨fun j => ?_, by rw [hf], by rw [hf], by rw [hf]⟩
  unfold State.plot
  rw [(s.watchEcc_only p).plots]

theorem Steady.addWords {j : Nat} {ws : List Word} (h : Steady p s₀ s) : Steady p s₀ (s.addWords j ws) := h.setPlot rfl

theorem Steady.sendHub {c : Ctx} {segment : Nat} {bytes : List Byte} {what : Nat → Option Cargo} (h : Steady p s₀ s) :
    Steady p s₀ (s.sendHub c segment bytes what) := h.addWords

theorem Steady.sendWords {j : Nat} {e : Runner} {addr : Nat} (h : Steady p s₀ s) : Steady p s₀ (s.sendWords j e addr) := h.addWords

theorem Steady.pair {j : Nat} {e : Runner} (h : Steady p s₀ s) : Steady p s₀ (s.pair j e) := by
  unfold State.pair
  simp only []
  split
  · exact h.setPlot rfl
  · have h' : ∀ (x : Plot) (on : Bool) (r : Runner) (a : Nat), x.state = (s.plot j).state →
        Steady p s₀ (if on then (s.setPlot j x).sendWords j r a else s.setPlot j x) := by
      intro x on r a hx
      split
      · exact (h.setPlot hx).sendWords
      · exact h.setPlot hx
    refine h' _ _ _ _ ?_
    rfl

theorem Steady.send {c : Ctx} {segment : Nat} {bytes : List Byte} {on : Bool} (h : Steady p s₀ s) :
    Steady p s₀ (s.send c segment bytes on) := by
  unfold State.send
  extract_lets x k s1 dues
  have h1 : Steady p s₀ s1 := h.setPlot rfl
  exact List.foldlRecOn (motive := Steady p s₀) _ _ h1 fun _ ht _ _ => ht.pair

end

/-- Reading for a send in a clean bed. -/
theorem Bed.sendRead_clean {d : Bed} (hc : Clean d) (index addr len : Nat) : d.sendRead true index addr len =
    ((d.gauge 4 (ceilDiv len 256)).gauge 3 (4 * ceilDiv len 256), .ok (d.bytes addr len)) := by
  unfold Bed.sendRead
  rw [Bed.touch_clean _ _ _ hc]
  rfl

theorem Steady.sendFrom {s₀ s : State} {c : Ctx} (h : Steady c.phys s₀ s) (hc : Clean (s.bed c.phys)) {segment addr len : Nat}
    {f : List Byte → State → State} (hf : ∀ bytes t, Steady c.phys s₀ t → Steady c.phys s₀ (f bytes t)) :
    Steady c.phys s₀ (s.sendFrom c segment addr len f) := by
  unfold State.sendFrom
  simp only [Bed.sendRead_clean hc]
  refine (hf _ _ (h.setBed_seq ?_)).watchEcc
  simp only [Bed.finish_seq, Bed.gauge_seq]

theorem Steady.startWait {s₀ s : State} {c : Ctx} {w : Wait} (h : Steady c.phys s₀ s) : Steady c.phys s₀ (s.startWait c w) :=
  h.setBed rfl rfl rfl

/-! ## What an issue leaves -/

/-- The plot of a bed that issues is sown. -/
theorem Issuing.sown {s : State} {b : BitVec 7} {h : Head} {i : Instr} {p : Nat} (hI : Issuing s b h i p) :
    (s.plot (s.ctx p).plot).state = 3 := by
  obtain ⟨-, -, hi, -⟩ := hI
  unfold State.issues at hi
  simp only [Bool.and_eq_true] at hi
  obtain ⟨⟨⟨-, hj⟩, -⟩, -⟩ := hi
  show (s.plot ((s.bed p).job.getD {}).plot).state = 3
  cases hb : (s.bed p).job with
  | none => rw [hb] at hj; exact absurd hj (by simp)
  | some j => rw [hb] at hj; simpa using hj

/-- An instruction whose effect leaves its bed's place and the plots' states moves its sequencer on, its plot still sown. -/
theorem goes_of_steady {s : State} {b : BitVec 7} {h : Head} {i : Instr} {p : Nat} {t : State} (hI : Issuing s b h i p)
    (he : exec i s = .next t) (ht : Steady p (s.before h p none) t) : ∃ t, exec i s = .next t ∧
      (t.bed p).seq.index = (s.bed p).seq.pc ∧ (t.bed p).seq.last = (s.bed p).due ∧
      tget (fun _ => 0) (t.bed p).seq.execs (s.bed p).seq.pc = tget (fun _ => 0) (s.bed p).seq.execs (s.bed p).seq.pc + 1 ∧
      (t.plot (s.ctx p).plot).state = 3 := by
  have hb : (s.before h p none).bed p = s.issued h p none := by rw [State.before_bed, if_pos rfl]
  refine ⟨t, he, ?_, ?_, ?_, ?_⟩
  · rw [ht.index, hb]
    rfl
  · rw [ht.last, hb]
    rfl
  · rw [ht.execs, hb]
    exact (tget_count _ _ _).trans (by rw [if_pos rfl])
  · rw [ht.plot, State.before_plot, Issuing.sown hI]

end Sys2Proof.Machine
end

section
/-! PROOFS. Every bed instruction completes in a sound bed (R169, R178): O16. -/

namespace Sys2Proof.Machine

/-! ## Fresh entropy words -/

/-- Between two states at most a bed's entropy buffer has grown, with the words drawn for it. -/
structure Topped (p : Nat) (s t : State) : Prop where
  grd : t.grd = s.grd
  plots : t.plots = s.plots
  others : ∀ q, q ≠ p → t.bed q = s.bed q
  bed : ∃ e, t.bed p = { s.bed p with entropy := e }

/-- A working source delivers what is missing. -/
theorem State.topUp_working (s : State) (p log n : Nat) (h : s.sec.entropyFail.getLsbD (log / 32) = false) :
    Topped p s (s.topUp p log n) ∧ n ≤ ((s.topUp p log n).bed p).entropy.length := by
  have hfold : ∀ m, let t := (List.range m).foldl (fun (s : State) _ =>
        let w := s.draw 64
        w.2.setBed p { w.2.bed p with entropy := (w.2.bed p).entropy ++ [w.1] }) s
      Topped p s t ∧ (t.bed p).entropy.length = (s.bed p).entropy.length + m := by
    intro m
    induction m with
    | zero => exact ⟨⟨rfl, rfl, fun _ _ => rfl, ⟨_, rfl⟩⟩, rfl⟩
    | succ m ih =>
      rw [List.range_succ, List.foldl_append]
      revert ih
      generalize (List.range m).foldl _ s = t
      rintro ⟨⟨hg, hp, ho, e, he⟩, hl⟩
      refine ⟨⟨hg, hp, fun q hq => ?_, ⟨e ++ [(t.draw 64).1], ?_⟩⟩, ?_⟩
      · rw [← ho q hq]
        exact (State.bed_setBed _ _ _ _).trans (if_neg hq)
      · refine ((State.bed_setBed _ _ _ _).trans (if_pos rfl)).trans ?_
        rw [show (t.draw 64).2.bed p = t.bed p from rfl, he]
      · refine (congrArg (fun b : Bed => b.entropy.length) ((State.bed_setBed _ _ _ _).trans (if_pos rfl))).trans ?_
        rw [show (t.draw 64).2.bed p = t.bed p from rfl, List.length_append, hl]
        rfl
  unfold State.topUp
  simp only [h, Bool.false_eq_true, if_false]
  obtain ⟨h1, h2⟩ := hfold (n - (s.bed p).entropy.length)
  exact ⟨h1, by rw [h2]; omega⟩

/-- An instruction that takes entropy words, where the source works. -/
theorem State.issueFresh_moves {s : State} {b : BitVec 7} {h : Head} {i : Instr} {p n : Nat} (hI : Issuing s b h i p)
    (hw : s.sec.entropyFail.getLsbD ((s.bed p).logical / 32) = false) {body : Ctx → Bed → Bed × List BOut}
    (he : exec i s = .next (s.issueFresh b h i n body))
    (hb : ∀ e : List W64, n ≤ e.length → Settles { s.issued h p none with entropy := e }
      (body (s.ctx p) { s.issued h p none with entropy := e })) :
    ∃ t, exec i s = .next t ∧ (t.bed p).seq = (s.issued h p none).seq ∧ t.grd = s.grd ∧ t.plots = s.plots ∧
      ∀ q, q ≠ p → t.bed q = s.bed q := by
  have ho := s.before_only h p none
  have hw' : (s.before h p none).sec.entropyFail.getLsbD ((s.ctx p).log / 32) = false := by
    rw [ho.sec]
    exact hw
  obtain ⟨⟨hg, hpl, hq, e, hbed⟩, hlen⟩ := (s.before h p none).topUp_working p (s.ctx p).log n hw'
  rw [State.before_bed, if_pos rfl] at hbed
  have hset := hb e (by rw [hbed] at hlen; exact hlen)
  rw [← hbed] at hset
  generalize hu : (s.before h p none).topUp p (s.ctx p).log n = u at hg hpl hq hbed hlen hset
  have hout := State.outs_aside (u.setBed p (body (s.ctx p) (u.bed p)).1) (s.ctx p) _ hset.quiet
  have hwatch := State.watchEcc_only ((u.setBed p (body (s.ctx p) (u.bed p)).1).outs (s.ctx p) (body (s.ctx p) (u.bed p)).2) p
  obtain ⟨f, hf⟩ := (State.watchEcc_bed ((u.setBed p (body (s.ctx p) (u.bed p)).1).outs (s.ctx p) (body (s.ctx p) (u.bed p)).2) p).1
  have heq : s.issueFresh b h i n body =
      ((u.setBed p (body (s.ctx p) (u.bed p)).1).outs (s.ctx p) (body (s.ctx p) (u.bed p)).2).watchEcc p := by
    unfold State.issueFresh
    rw [State.issueWith_eq hI]
    simp only [show (s.ctx p).phys = p from rfl, hu]
  rw [heq] at he
  refine ⟨_, he, ?_, ?_, ?_, fun q hne => ?_⟩
  · rw [hf, State.bed_congr hout.beds, State.bed_setBed, if_pos rfl]
    exact hset.seq.trans (by rw [hbed])
  · exact hwatch.grd.trans (hout.grd.trans (hg.trans ho.grd))
  · exact hwatch.plots.trans (hout.plots.trans (hpl.trans ho.plots))
  · rw [hwatch.bed q hne, State.bed_congr hout.beds, State.bed_setBed, if_neg hne, hq q hne, ho.bed q hne]

/-! ## The instructions that reach beyond their bed -/

section
variable {s : State} {b : BitVec 7} {h : Head} {p : Nat}

theorem before_clean (hc : Clean (s.bed p)) : Clean ((s.before h p none).bed (s.ctx p).phys) := by
  show Clean ((s.before h p none).bed p)
  rw [State.before_bed, if_pos rfl]
  exact hc

theorem execTag_steady {tensor : BitVec 12} {engine : BitVec 2} {route : BitVec 12} (hI : Issuing s b h (.tag b h tensor engine route) p)
    (hc : Clean (s.bed p)) : ∃ t, exec (.tag b h tensor engine route) s = .next t ∧ Steady p (s.before h p none) t := by
  have hc' := before_clean (h := h) hc
  refine ⟨_, congrArg Host.Outcome.next (State.issueWith_eq hI _ _), ?_⟩
  simp only [Bed.touch_clean _ _ _ hc']
  refine Steady.watchEcc (.addWords (.sendHub (Steady.setBed_seq (.refl _ _) ?_)))
  simp only [Bed.finish_seq, Bed.gauge_seq]
  rfl

/-- A landing noted, and a transfer given to a channel that takes one. -/
theorem Steady.given {s₀ s : State} {j : Nat} {x : Plot} (h : Steady p s₀ s) (hx : x.state = (s.plot j).state) (ch : Nat) (t : Xfer) :
    let s1 := s.setPlot j x
    let s2 := if (s1.chan ch).state = 3 then s1 else s1.give ch t
    Steady p s₀ (s2.setChan ch { s2.chan ch with rng := {} }) := by
  intro s1 s2
  have h1 : Steady p s₀ s1 := h.setPlot hx
  refine h1.same (SameBeds.setChan ?_)
  simp only [s2]
  split
  · exact .refl _
  · exact .give (.refl _)

theorem execBrw_steady {channel : BitVec 6} {desc : BitVec 10} {bed : BitVec 24} {level : BitVec 2} {stepEn : Bool}
    {ext : BitVec 32} {route : BitVec 12} (hI : Issuing s b h (.brw b h channel desc bed level stepEn ext route) p) :
    ∃ t, exec (.brw b h channel desc bed level stepEn ext route) s = .next t ∧ Steady p (s.before h p none) t := by
  refine ⟨_, congrArg Host.Outcome.next (State.issueWith_eq hI _ _), ?_⟩
  refine Steady.given (.refl _ _) ?_ _ _
  rfl

theorem execRsend_steady {route : BitVec 12} {src : BitVec 24} {len : BitVec 15} (hI : Issuing s b h (.rsend b h route src len) p)
    (hc : Clean (s.bed p)) : ∃ t, exec (.rsend b h route src len) s = .next t ∧ Steady p (s.before h p none) t :=
  ⟨_, congrArg Host.Outcome.next (State.issueBoth_eq hI _ _), Steady.sendFrom (.refl _ _) (before_clean hc) fun _ _ ht => ht.send⟩

theorem execRrecv_steady {route : BitVec 12} {dst : BitVec 24} {len : BitVec 15} (hI : Issuing s b h (.rrecv b h route dst len) p) :
    ∃ t, exec (.rrecv b h route dst len) s = .next t ∧ Steady p (s.before h p none) t :=
  ⟨_, congrArg Host.Outcome.next (State.issueBoth_eq hI _ _), Steady.pair (.setPlot (.refl _ _) rfl)⟩

theorem execLsend_steady {link : BitVec 5} {flow : BitVec 4} {len : BitVec 15} {src : BitVec 24} {route : BitVec 12}
    (hI : Issuing s b h (.lsend b h link flow len src route) p) (hc : Clean (s.bed p)) :
    ∃ t, exec (.lsend b h link flow len src route) s = .next t ∧ Steady p (s.before h p none) t :=
  ⟨_, congrArg Host.Outcome.next (State.issueWith_eq hI _ _), Steady.sendFrom (.refl _ _) (before_clean hc) fun _ _ ht =>
    ht.sendHub.same (.compare (.refl _))⟩

theorem execLcoll_steady {coll : BitVec 8} {op : BitVec 3} {count : BitVec 16} {src dst : BitVec 24} {route : BitVec 12}
    (hI : Issuing s b h (.lcoll b h coll op count src dst route) p) (hc : Clean (s.bed p)) :
    ∃ t, exec (.lcoll b h coll op count src dst route) s = .next t ∧ Steady p (s.before h p none) t :=
  ⟨_, congrArg Host.Outcome.next (State.issueWith_eq hI _ _), Steady.sendFrom (.refl _ _) (before_clean hc) fun _ _ ht =>
    .sendHub (ht.setBed rfl rfl rfl)⟩

end

theorem startWait_steady (s : State) (h : Head) (p : Nat) (w : Wait) :
    Steady p (s.before h p none) ((s.before h p none).startWait (s.ctx p) w) :=
  Steady.startWait (c := s.ctx p) (.refl _ _)

/-- Settles O16: each body settles in a sound bed; each instruction that reaches beyond its bed leaves the plots' states and its
bed's place. -/
theorem everyBedInstructionCompletesInASoundBed : Obligations.EveryBedInstructionCompletesInASoundBed := by
  intro s b h p hsound moves goes
  obtain ⟨hc, hentropy, hbank0, hbank1, harray⟩ := hsound
  have hc' : Clean (s.issued h p none) := hc
  refine ⟨?_, ?_, ?_, ?_, ?_, ?_, ?_, ?_, ?_, ?_, ?_, ?_, ?_, ?_, ?_, ?_, ?_, ?_, ?_, ?_, ?_, ?_, ?_, ?_, ?_, ?_, ?_, ?_, ?_, ?_, ?_, ?_, ?_, ?_, ?_, ?_, ?_, ?_, ?_, ?_, ?_, ?_, ?_, ?_, ?_, ?_, ?_, ?_⟩
  · exact fun a path mov sta q sem paired hI => State.issue_moves hI rfl (psetBody_settles _ _)
  · exact fun a src kn nn bs hI => State.issue_moves hI rfl (fillBody_settles hc' _ _ _ _ _ _)
  · exact fun a tensor hI => State.issue_moves hI rfl (cbldBody_settles hc' _ _ _)
  · exact fun a half m0 count kn src bm hI => State.issue_moves hI rfl (mloadBody_settles hc' _ _ _ _ _ _ _)
  · exact fun a hI => State.issue_moves hI rfl (swapBody_settles (harray _).1 (harray _).2.1)
  · exact fun a half m0 mt tile begins preEn corrEn pre corr hI =>
      State.issue_moves hI rfl (passBody_settles hc' _ _ _ _ _ _ _ _ _ (harray _).2.2)
  · exact fun a tile first barrel bp hI => State.issue_moves hI rfl (spillBody_settles hc' _ _ _ _ _ _)
  · exact fun a barrel slot clear bp hI => State.issue_moves hI rfl (rdrainBody_settles hc' _ _ _ _ _)
  · exact fun a mode source tile both toReg dst regFmt func fuse e0 statEn statClear barrel bp hI =>
      State.issue_moves hI rfl (drainBody_settles hc' _ _ _ _ _ _ _ _ _)
  · exact fun op d s1 s2 s3 fmt km maskEn kd imm8 imm32 hI => State.issue_moves hI rfl (vopBody_settles _ _ _ _ _ _ _ _ _ _ _ _)
  · exact fun first count src fmt bp hI => State.issue_moves hI rfl (vldBody_settles hc' _ _ _ _ _ _)
  · exact fun first count dst bp km maskEn hI => State.issue_moves hI rfl (vstBody_settles hc' _ _ _ _ _ _ _)
  · exact fun src dst n bp hI => State.issue_moves hI rfl (mcvtBody_settles hc' _ _ _ _ _)
  · exact fun func src op2 dst n hI => State.issue_moves hI rfl (sfnBody_settles hc' _ _ _ _ _ _)
  · exact fun src mask maskEn entry clear beta n hI => State.issue_moves hI rfl (smax1Body_settles hc' _ _ _ _ _ _ _ _)
  · exact fun src mask maskEn entry recip dst n hI => State.issue_moves hI rfl (smax2Body_settles hc' _ _ _ _ _ _ _ _)
  · exact fun src entry hI => State.issue_moves hI rfl (smaxmBody_settles hc' _ _ _)
  · exact fun entry dst hI => State.issue_moves hI rfl (putBytes_settles hc' _ _ _ _ _)
  · exact fun src n k dir clear base hI => State.issue_moves hI rfl (sieveBody_settles hc' _ _ _ _ _ _ _)
  · exact fun src count k dir clear fmt hI => State.issue_moves hI rfl (sievemBody_settles hc' _ _ _ _ _ _ _)
  · exact fun dst hI => State.issue_moves hI rfl (putBytes_settles hc' _ _ _ _ _)
  · exact fun entry rms eps hI => State.issue_moves hI rfl (nprepBody_settles _ _ _ _)
  · exact fun src dst gamma beta betaEn entry n hI => State.issue_moves hI rfl (napplyBody_settles hc' _ _ _ _ _ _ _ _)
  · exact fun entry count dst hI => State.issue_moves hI rfl (putBytes_settles hc' _ _ _ _ _)
  · exact fun entry count src hI => State.issue_moves hI rfl (statmBody_settles hc' _ _ _ _)
  · exact fun slot target tSrc room hI => State.issue_moves hI rfl (pickBody_settles _ _ _ _ _)
  · exact fun slot dst hI => State.issue_moves hI rfl (putBytes_settles hc' _ _ _ _ _)
  · exact fun slot clear src hI => State.issue_moves hI rfl (rpmBody_settles hc' _ _ _ _)
  · exact fun k entropy binding hI => State.issueFresh_moves hI hentropy rfl fun e he =>
      sprbBody_settles _ _ _ _ fun hn => by
        rw [hn] at he
        exact List.ne_nil_of_length_pos he
  · exact fun k form dst count q hI => State.issue_moves hI rfl (sprdBody_settles _ _ _ _ _ _)
  · exact fun image bp hI => State.issue_moves hI rfl (vtldBody_settles hc' _ _ _)
  · exact fun hI => ⟨_, execNop_eq hI, by rw [State.before_bed, if_pos rfl], (s.before_only h p none).grd,
      (s.before_only h p none).plots, (s.before_only h p none).bed⟩
  · exact fun hI => State.issue_moves hI rfl (tflipBody_settles hbank0 hbank1)
  · exact fun d words hI => State.issueFresh_moves hI hentropy rfl fun e he => entrBody_settles _ _ _ he
  · exact fun d lane hI => State.issue_moves hI rfl (.of_seq rfl)
  · exact fun d lane sel hI => State.issue_moves hI rfl (.of_seq rfl)
  · exact fun count body hI => ⟨_, execLoop_eq hI, by rw [State.before_bed, if_pos rfl], (s.before_only h p _).grd,
      (s.before_only h p _).plots, (s.before_only h p _).bed⟩
  · exact fun target d hI => goes_of_steady hI (congrArg Host.Outcome.next (State.issueWith_eq hI _ _)) (startWait_steady s h p _)
  · exact fun link flow len dst d hI =>
      goes_of_steady hI (congrArg Host.Outcome.next (State.issueWith_eq hI _ _)) (startWait_steady s h p _)
  · exact fun coll d hI => goes_of_steady hI (congrArg Host.Outcome.next (State.issueWith_eq hI _ _)) (startWait_steady s h p _)
  · exact fun link flows d hI => goes_of_steady hI (congrArg Host.Outcome.next (State.issueWith_eq hI _ _)) (startWait_steady s h p _)
  · exact fun entry hI => goes_of_steady hI (execHint_eq hI) (.setPlot (.refl _ _) (by rw [State.before_plot]))
  · intro tensor engine route hI
    obtain ⟨t, he, ht⟩ := execTag_steady hI hc
    exact goes_of_steady hI he ht
  · intro channel desc bed level stepEn extStep route hI
    obtain ⟨t, he, ht⟩ := execBrw_steady hI
    exact goes_of_steady hI he ht
  · intro route src len hI
    obtain ⟨t, he, ht⟩ := execRsend_steady hI hc
    exact goes_of_steady hI he ht
  · intro route dst len hI
    obtain ⟨t, he, ht⟩ := execRrecv_steady hI
    exact goes_of_steady hI he ht
  · intro link flow len src route hI
    obtain ⟨t, he, ht⟩ := execLsend_steady hI hc
    exact goes_of_steady hI he ht
  · intro coll op count src dst route hI
    obtain ⟨t, he, ht⟩ := execLcoll_steady hI hc
    exact goes_of_steady hI he ht

end Sys2Proof.Machine
end

section
/-! PROOFS. What stopping a plot changes (R376): the plot's own fields, its beds' sequencers and registers, and the module's
reporting; nothing else. -/

namespace Sys2Proof.Machine

/-- An event touches only the run records. -/
theorem State.event_recs (s : State) (j kind bed index exec : Nat) (payload : List Byte) :
    ∃ x, s.event j kind bed index exec payload = { s with recs := x } := by
  unfold State.event
  simp only []
  split
  · exact ⟨_, rfl⟩
  · split <;> exact ⟨_, rfl⟩

theorem State.eventAt_recs (s : State) (tick : W64) (j kind bed index exec : Nat) (payload : List Byte) :
    ∃ x, s.eventAt tick j kind bed index exec payload = { s with recs := x } := by
  obtain ⟨x, he⟩ := ({ s with clk := { s.clk with sundial := tick } } : State).event_recs j kind bed index exec payload
  exact ⟨x, by unfold State.eventAt; rw [he]⟩

/-! ## What surrounds a plot -/

/-- Between two states at most beds' sequencers and registers, one plot, the next operating point, and what reports use have
changed. -/
structure Frame (p : Nat) (s t : State) : Prop where
  bed : ∀ q, ∃ r x, t.bed q = { s.bed q with regs := r, seq := x }
  others : ∀ q, q ≠ p → t.plot q = s.plot q
  clk : ∃ g d, t.clk = { s.clk with target := g, pending := d }
  dbg : ∃ f, t.dbg = { s.dbg with frostAt := f }
  pwr : t.pwr = s.pwr
  ddr : t.ddr = s.ddr
  sec : t.sec = s.sec
  pins : t.pins = s.pins
  fwClaims : t.fwClaims = s.fwClaims
  reg : ∀ off, off ≠ 0xB1808 → t.reg off = s.reg off

theorem Frame.refl (p : Nat) (s : State) : Frame p s s :=
  ⟨fun _ => ⟨_, _, rfl⟩, fun _ _ => rfl, ⟨_, _, rfl⟩, ⟨_, rfl⟩, rfl, rfl, rfl, rfl, rfl, fun _ _ => rfl⟩

theorem Frame.trans {p : Nat} {s t u : State} (a : Frame p s t) (b : Frame p t u) : Frame p s u where
  bed q := by
    obtain ⟨r, x, h⟩ := a.bed q
    obtain ⟨r', x', h'⟩ := b.bed q
    exact ⟨r', x', by rw [h', h]⟩
  others q hq := (b.others q hq).trans (a.others q hq)
  clk := by
    obtain ⟨g, d, h⟩ := a.clk
    obtain ⟨g', d', h'⟩ := b.clk
    exact ⟨g', d', by rw [h', h]⟩
  dbg := by
    obtain ⟨f, h⟩ := a.dbg
    obtain ⟨f', h'⟩ := b.dbg
    exact ⟨f', by rw [h', h]⟩
  pwr := b.pwr.trans a.pwr
  ddr := b.ddr.trans a.ddr
  sec := b.sec.trans a.sec
  pins := b.pins.trans a.pins
  fwClaims := b.fwClaims.trans a.fwClaims
  reg off h := (b.reg off h).trans (a.reg off h)

/-- The same, where the plot itself has at most ended its stretching episode. -/
structure Fringe (p : Nat) (s t : State) : Prop extends Frame p s t where
  own : ∃ e, t.plot p = { s.plot p with episode := e }

theorem Fringe.refl (p : Nat) (s : State) : Fringe p s s := ⟨.refl p s, ⟨_, rfl⟩⟩

theorem Fringe.trans {p : Nat} {s t u : State} (a : Fringe p s t) (b : Fringe p t u) : Fringe p s u :=
  ⟨a.toFrame.trans b.toFrame, by
    obtain ⟨e, h⟩ := a.own
    obtain ⟨e', h'⟩ := b.own
    exact ⟨e', by rw [h', h]⟩⟩

section
variable {p : Nat} {s₀ s : State}

theorem Fringe.setHost {x : HostIf} (h : Fringe p s₀ s) : Fringe p s₀ { s with host := x } :=
  h.trans ⟨⟨fun _ => ⟨_, _, rfl⟩, fun _ _ => rfl, ⟨_, _, rfl⟩, ⟨_, rfl⟩, rfl, rfl, rfl, rfl, rfl, fun _ _ => rfl⟩, ⟨_, rfl⟩⟩

theorem Fringe.setGrd {x : Grd} (h : Fringe p s₀ s) : Fringe p s₀ { s with grd := x } :=
  h.trans ⟨⟨fun _ => ⟨_, _, rfl⟩, fun _ _ => rfl, ⟨_, _, rfl⟩, ⟨_, rfl⟩, rfl, rfl, rfl, rfl, rfl, fun _ _ => rfl⟩, ⟨_, rfl⟩⟩

theorem Fringe.setLnk {x : Lnk} (h : Fringe p s₀ s) : Fringe p s₀ { s with lnk := x } :=
  h.trans ⟨⟨fun _ => ⟨_, _, rfl⟩, fun _ _ => rfl, ⟨_, _, rfl⟩, ⟨_, rfl⟩, rfl, rfl, rfl, rfl, rfl, fun _ _ => rfl⟩, ⟨_, rfl⟩⟩

theorem Fringe.setBrw {x : Brw} (h : Fringe p s₀ s) : Fringe p s₀ { s with brw := x } :=
  h.trans ⟨⟨fun _ => ⟨_, _, rfl⟩, fun _ _ => rfl, ⟨_, _, rfl⟩, ⟨_, rfl⟩, rfl, rfl, rfl, rfl, rfl, fun _ _ => rfl⟩, ⟨_, rfl⟩⟩

theorem Fringe.setFrostAt {x : Option (W64 × Bool)} (h : Fringe p s₀ s) : Fringe p s₀ { s with dbg := { s.dbg with frostAt := x } } :=
  h.trans ⟨⟨fun _ => ⟨_, _, rfl⟩, fun _ _ => rfl, ⟨_, _, rfl⟩, ⟨_, rfl⟩, rfl, rfl, rfl, rfl, rfl, fun _ _ => rfl⟩, ⟨_, rfl⟩⟩

theorem Fringe.setEpisode {x : Option Episode} (h : Fringe p s₀ s) : Fringe p s₀ (s.setPlot p { s.plot p with episode := x }) :=
  h.trans ⟨⟨fun _ => ⟨_, _, rfl⟩, fun q hq => by rw [State.plot_setPlot, if_neg hq], ⟨_, _, rfl⟩, ⟨_, rfl⟩, rfl, rfl, rfl, rfl, rfl,
    fun _ _ => rfl⟩, ⟨x, by rw [State.plot_setPlot, if_pos rfl]⟩⟩

theorem Fringe.setBed {q : Nat} {b : Bed} (h : Fringe p s₀ s) (hb : ∃ r x, b = { s.bed q with regs := r, seq := x }) :
    Fringe p s₀ (s.setBed q b) := by
  refine h.trans ⟨⟨fun j => ?_, fun _ _ => rfl, ⟨_, _, rfl⟩, ⟨_, rfl⟩, rfl, rfl, rfl, rfl, rfl, fun _ _ => rfl⟩, ⟨_, rfl⟩⟩
  rw [State.bed_setBed]
  split
  next hj => rw [hj]; exact hb
  next => exact ⟨_, _, rfl⟩

theorem Fringe.setStops {v : W64} (h : Fringe p s₀ s) : Fringe p s₀ (s.setReg 0xB1808 v) := by
  refine h.trans ⟨⟨fun _ => ⟨_, _, rfl⟩, fun _ _ => rfl, ⟨_, _, rfl⟩, ⟨_, rfl⟩, rfl, rfl, rfl, rfl, rfl, fun off ho => ?_⟩, ⟨_, rfl⟩⟩
  rw [State.reg_setReg, if_neg ho]

theorem Fringe.setDoor {k : Nat} (h : Fringe p s₀ s) : Fringe p s₀ (s.setDoor k) := by
  obtain ⟨x, he⟩ := s.setDoor_frame k
  rw [he]
  exact h.setHost

theorem Fringe.report {unit reporter cause detail : Nat} (h : Fringe p s₀ s) : Fringe p s₀ (s.report unit reporter cause detail) := by
  unfold State.report
  simp only []
  split
  · exact h.setGrd
  · split
    · exact h.setGrd
    · exact .setDoor h.setGrd

theorem Fringe.flood {but : Option Nat} {code : Nat} {payload : List Byte} (h : Fringe p s₀ s) :
    Fringe p s₀ (s.flood but code payload) :=
  List.foldlRecOn (motive := Fringe p s₀) _ _ h fun _ ht _ _ => ht.setLnk

theorem Fringe.mismatch {kind : Nat} {r : List Byte} (h : Fringe p s₀ s) : Fringe p s₀ (s.mismatch kind r) := by
  unfold State.mismatch
  extract_lets bed index exec l s1 s2 s3 t
  have h1 : Fringe p s₀ s1 := by
    simp only [s1]
    split
    · exact h
    · exact h.setStops
  have h3 : Fringe p s₀ s3 := h1.report.setDoor
  clear_value s3
  split
  · exact .flood h3.setFrostAt
  · exact h3

theorem Fringe.settle (h : Fringe p s₀ s) : Fringe p s₀ s.settle := by
  unfold State.settle
  simp only []
  split
  · split
    · exact h
    · exact h.setLnk.mismatch
  · split
    · exact h.setLnk
    · exact h.setLnk.mismatch

theorem Fringe.compare {kind bed index exec sow value : Nat} (h : Fringe p s₀ s) :
    Fringe p s₀ (s.compare kind bed index exec sow value) := by
  unfold State.compare
  simp only []
  split
  · exact h.setLnk.settle
  · exact h

theorem Fringe.setRecs {x : Tbl Rec} (h : Fringe p s₀ s) : Fringe p s₀ { s with recs := x } :=
  h.trans ⟨⟨fun _ => ⟨_, _, rfl⟩, fun _ _ => rfl, ⟨_, _, rfl⟩, ⟨_, rfl⟩, rfl, rfl, rfl, rfl, rfl, fun _ _ => rfl⟩, ⟨_, rfl⟩⟩

theorem Fringe.event {j kind bed index exec : Nat} {payload : List Byte} (h : Fringe p s₀ s) :
    Fringe p s₀ (s.event j kind bed index exec payload) := by
  obtain ⟨x, he⟩ := s.event_recs j kind bed index exec payload
  rw [he]
  exact h.setRecs

theorem Fringe.endEpisode (h : Fringe p s₀ s) : Fringe p s₀ (s.endEpisode p) := by
  unfold State.endEpisode
  split
  · exact h
  next e _ =>
    obtain ⟨x, he⟩ := s.eventAt_recs e.tick p 0x09 0xFF 0 0 (leBytes 4 e.runs ++ leBytes 1 e.source)
    rw [he]
    exact (h.setRecs (x := x)).setEpisode (x := none)

theorem Fringe.closeRec {outcome code : Nat} (h : Fringe p s₀ s) : Fringe p s₀ (s.closeRec p outcome code) := by
  unfold State.closeRec
  exact .setRecs (List.foldlRecOn (motive := Fringe p s₀) _ _
    (List.foldlRecOn (motive := Fringe p s₀) _ _ h.endEpisode fun _ ht _ _ => ht.event)
    fun _ ht _ _ => List.foldlRecOn (motive := Fringe p s₀) _ _ ht fun _ hu _ _ => hu.event)

theorem Fringe.dropTransfers {j : Nat} (h : Fringe p s₀ s) : Fringe p s₀ (s.dropTransfers j) := by
  unfold State.dropTransfers
  extract_lets mine out s1 keep
  have h1 : Fringe p s₀ s1 := List.foldlRecOn (motive := Fringe p s₀) _ _ h fun _ ht _ _ => by
    split
    · exact ht.setBrw
    · exact ht
  split
  · exact h1
  · exact List.foldlRecOn (motive := Fringe p s₀) _ _ h1 fun _ ht _ _ => ht.setBrw

theorem Fringe.mapBeds {j : Nat} {f : Bed → Bed} (hf : ∀ b, ∃ r x, f b = { b with regs := r, seq := x }) (h : Fringe p s₀ s) :
    Fringe p s₀ (s.mapBeds j f) :=
  List.foldlRecOn (motive := Fringe p s₀) _ _ h fun _ ht _ _ => ht.setBed (hf _)

theorem Fringe.complete {src : Src} {status code result : Nat} (h : Fringe p s₀ s) : Fringe p s₀ (s.complete src status code result) := by
  obtain ⟨x, he, -⟩ := s.complete_host src status code result
  rw [he]
  exact h.setHost

theorem Fringe.boundary (h : Fringe p s₀ s) : Fringe p s₀ s.boundary := by
  unfold State.boundary
  simp only []
  split
  · exact h.trans ⟨⟨fun _ => ⟨_, _, rfl⟩, fun _ _ => rfl, ⟨_, _, rfl⟩, ⟨_, rfl⟩, rfl, rfl, rfl, rfl, rfl, fun _ _ => rfl⟩, ⟨_, rfl⟩⟩
  · exact h

end

/-! ## A stop -/

/-- A plot has been stopped with a code between two states. -/
structure Stopped (p code : Nat) (s t : State) : Prop extends Frame p s t where
  plot : ∃ e, t.plot p = { s.plot p with
    episode := e, state := 5, stopCode := code, landings := [], runner := [], sowAt := none, sowSrc := none }

theorem Stopped.state {p code : Nat} {s t : State} (h : Stopped p code s t) : (t.plot p).state = 5 := by
  obtain ⟨e, he⟩ := h.plot
  rw [he]

theorem Stopped.stopCode {p code : Nat} {s t : State} (h : Stopped p code s t) : (t.plot p).stopCode = code := by
  obtain ⟨e, he⟩ := h.plot
  rw [he]

/-- A plot's own fields replaced. -/
theorem Frame.setPlot {p : Nat} {s : State} (x : Plot) : Frame p s (s.setPlot p x) :=
  ⟨fun _ => ⟨_, _, rfl⟩, fun q hq => by rw [State.plot_setPlot, if_neg hq], ⟨_, _, rfl⟩, ⟨_, rfl⟩, rfl, rfl, rfl, rfl, rfl, fun _ _ => rfl⟩

theorem State.stopPlot_stopped (s : State) {p : Nat} (code : Nat) (at_ : Option (Nat × Nat × Nat × Nat))
    (h : (s.plot p).state = 2 ∨ (s.plot p).state = 3 ∨ (s.plot p).state = 4) : Stopped p code s (s.stopPlot p code at_) := by
  unfold State.stopPlot
  extract_lets x sown s1 lead word bed index s2 s3 s4 s5 own s6 exec s7 last s8
  rw [if_pos h]
  have h1 : Fringe p s s1 := by
    unfold s1
    split
    · exact (Fringe.refl p s).setBed ⟨_, _, rfl⟩
    · exact .mapBeds (fun _ => ⟨_, _, rfl⟩) (.refl p s)
  clear_value s1
  have h2 : Fringe p s s2 := by
    unfold s2
    split
    · exact h1.event
    · exact h1
  clear_value s2
  have h3 : Fringe p s s3 := .mapBeds (fun _ => ⟨_, _, rfl⟩) h2
  clear_value s3
  have h4 : Fringe p s s4 := by
    unfold s4
    split
    · exact h3.closeRec
    · exact h3
  clear_value s4
  have h5 : Fringe p s s5 := h4.dropTransfers
  clear_value s5
  have h6 : (s6.plot p) = { s5.plot p with state := 5, stopCode := code, landings := [], runner := [], sowAt := none } := by
    unfold s6
    rw [State.plot_setPlot, if_pos rfl]
  have f6 : Frame p s s6 := h5.toFrame.trans (.setPlot _)
  clear_value s6
  have h7 : Fringe p s6 s7 := by
    unfold s7
    split
    · exact (Fringe.refl p s6).compare
    · exact .refl _ _
  clear_value s7
  obtain ⟨e5, o5⟩ := h5.own
  obtain ⟨e7, o7⟩ := h7.own
  rw [h6, o5] at o7
  have h8 : Frame p s7 s8 ∧ s8.plot p = { s7.plot p with sowSrc := none } := by
    unfold s8
    split
    next a _ => exact ⟨((Fringe.complete (.refl p s7)).setLnk (x := _)).toFrame.trans (.setPlot _),
      by rw [State.plot_setPlot, if_pos rfl]⟩
    next hn => exact ⟨.refl _ _, by rw [o7, ← show x.sowSrc = none from hn]⟩
  obtain ⟨f8, o8⟩ := h8
  have h9 : Fringe p s8 s8.boundary := (Fringe.refl p s8).boundary
  obtain ⟨e9, o9⟩ := h9.own
  exact ⟨((f6.trans h7.toFrame).trans f8).trans h9.toFrame, e9, by rw [o9, o8, o7]⟩

end Sys2Proof.Machine
end

section
/-! PROOFS. Synchronisation waits (R174, R175, R231 to R237): O17. -/

namespace Sys2Proof.Machine

/-! ## The beds of a plot -/

theorem State.mem_bedsOf {s : State} {p q : Nat} (h : q ∈ s.bedsOf p) : ∃ e ∈ s.beds, e.1 = q := by
  obtain ⟨e, he, rfl⟩ := List.mem_map.mp h
  exact ⟨e, (List.mem_filter.mp he).1, rfl⟩

theorem State.bedsOf_nodup {s : State} (h : Rising s.beds) (p : Nat) : (s.bedsOf p).Nodup := by
  have hp : (s.beds.map (·.1)).Pairwise (· ≠ ·) := h.imp fun h => Nat.ne_of_lt h
  exact hp.sublist (List.filter_sublist.map _)

/-- An operation on each bed of a list without repetition. -/
theorem foldl_setBed_bed (f : Bed → Bed) (qs : List Nat) (hn : qs.Nodup) (s : State) (q : Nat) :
    (qs.foldl (fun (s : State) b => s.setBed b (f (s.bed b))) s).bed q = if q ∈ qs then f (s.bed q) else s.bed q := by
  induction qs generalizing s with
  | nil => exact (if_neg List.not_mem_nil).symm
  | cons j qs ih =>
    obtain ⟨hj, hn⟩ := List.nodup_cons.mp hn
    rw [List.foldl_cons, ih hn, State.bed_setBed]
    by_cases hq : q = j
    · subst hq
      rw [if_neg hj, if_pos rfl, if_pos List.mem_cons_self]
    · simp only [List.mem_cons, hq, false_or, if_false]

theorem State.mapBeds_bed {s : State} (h : Rising s.beds) (p : Nat) (f : Bed → Bed) (q : Nat) :
    (s.mapBeds p f).bed q = if q ∈ s.bedsOf p then f (s.bed q) else s.bed q :=
  foldl_setBed_bed f _ (State.bedsOf_nodup h p) s q

theorem State.mapBeds_eq (s : State) (p : Nat) (f : Bed → Bed) : ∃ x, s.mapBeds p f = { s with beds := x } :=
  List.foldlRecOn (motive := fun t => ∃ x, t = { s with beds := x }) _ _ ⟨_, rfl⟩ fun _ ht _ _ => by
    obtain ⟨x, rfl⟩ := ht
    exact ⟨_, rfl⟩

/-! ## The end of a wait -/

theorem foldl_max_le {l : List Nat} {m a : Nat} (hm : m ≤ a) (h : ∀ x ∈ l, x ≤ a) : l.foldl max m ≤ a := by
  induction l generalizing m with
  | nil => exact hm
  | cons x l ih =>
    exact ih (Nat.max_le.mpr ⟨hm, h x List.mem_cons_self⟩) fun y hy => h y (List.mem_cons_of_mem _ hy)

theorem le_foldl_max (l : List Nat) (m : Nat) : m ≤ l.foldl max m ∧ ∀ x ∈ l, x ≤ l.foldl max m := by
  induction l generalizing m with
  | nil => exact ⟨Nat.le_refl _, fun _ h => nomatch h⟩
  | cons y l ih =>
    obtain ⟨h0, h1⟩ := ih (max m y)
    refine ⟨(Nat.le_max_left _ _).trans h0, fun x hx => ?_⟩
    rcases List.mem_cons.mp hx with rfl | hx
    · exact (Nat.le_max_right _ _).trans h0
    · exact h1 x hx

/-- The last of the observations, where every bed has made one. -/
theorem State.lastObserved_eq {s : State} {p a : Nat} (hne : s.bedsOf p ≠ []) (hall : ∀ q ∈ s.bedsOf p, ∃ o, s.observedAt q = some o ∧ o ≤ a)
    (hlast : ∃ q ∈ s.bedsOf p, s.observedAt q = some a) : s.lastObserved p = some a := by
  have hobs : (s.bedsOf p).all (fun b => s.observed b) = true := List.all_eq_true.mpr fun q hq => by
    obtain ⟨o, ho, -⟩ := hall q hq
    unfold State.observed
    rw [ho]
    rfl
  have hmax : ((s.bedsOf p).map fun b => (s.observedAt b).getD 0).foldl max 0 = a := by
    refine Nat.le_antisymm (foldl_max_le (Nat.zero_le _) fun x hx => ?_) ?_
    · obtain ⟨q, hq, rfl⟩ := List.mem_map.mp hx
      obtain ⟨o, ho, hle⟩ := hall q hq
      rw [ho]
      exact hle
    · obtain ⟨q, hq, ho⟩ := hlast
      exact (le_foldl_max _ 0).2 a (List.mem_map.mpr ⟨q, hq, by rw [ho]; rfl⟩)
  unfold State.lastObserved
  have hemp : (s.bedsOf p).isEmpty = false := List.isEmpty_eq_false_iff.mpr hne
  simp only [hemp, hobs, hmax, Bool.not_false, Bool.and_self, if_true]

theorem Bed.endWait_of {b : Bed} {w : Wait} (hw : b.seq.wait = some w) (a : Nat) :
    (b.endWait a).seq.state = 3 ∧ (b.endWait a).seq.wait = none ∧ (b.endWait a).seq.pc = b.seq.pc ∧ (b.endWait a).mem = b.mem ∧
      (b.endWait a).seq.waits = b.seq.waits + 1 ∧ (b.endWait a).seq.last = a + 4 ∧
      (b.endWait a).seq.waitCycles = b.seq.waitCycles + BitVec.ofNat 32 (a + 4 - w.start) := by
  unfold Bed.endWait
  simp only [hw]
  split_ifs <;> exact ⟨rfl, rfl, rfl, rfl, rfl, rfl, rfl⟩

theorem State.waiting_of_observedAt {s : State} {q o : Nat} (h : s.observedAt q = some o) : ∃ w, (s.bed q).seq.wait = some w := by
  cases hw : (s.bed q).seq.wait with
  | none =>
    unfold State.observedAt at h
    rw [hw] at h
    cases h
  | some w => exact ⟨w, rfl⟩

theorem exec_syncWaitEnd_of_early {s : State} {p : BitVec 4} {a : Nat} (h : s.lastObserved p.toNat = some a) (ha : s.clk.next ≤ a + 4) :
    exec (.syncWaitEnd p) s = .next s := by
  show execSyncWaitEnd p s = _
  unfold execSyncWaitEnd
  simp only [h, decide_eq_false (Nat.not_lt.mpr ha), Bool.and_false, Bool.false_eq_true, if_false]

theorem exec_syncWaitEnd {s : State} {p : BitVec 4} {a : Nat} (h : s.lastObserved p.toNat = some a) (hr : s.running = true)
    (hp : (s.plot p.toNat).state = 3) (ha : a + 4 < s.clk.next) :
    exec (.syncWaitEnd p) s = .next (s.mapBeds p.toNat fun (b : Bed) => b.endWait a) := by
  show execSyncWaitEnd p s = _
  unfold execSyncWaitEnd
  simp only [h, hr, hp, decide_eq_true ha, Bool.and_self, BEq.rfl, if_true]

/-! ## A condition that is missing -/

/-- The report of a timeout, and the stop. -/
theorem exec_syncTimeout {s : State} {p : BitVec 4} {q : Nat} {w : Wait} (hr : s.running = true) (hp : (s.plot p.toNat).state = 3)
    (hq : q ∈ s.bedsOf p.toNat) (hw : (s.bed q).seq.wait = some w) (ho : s.observed q = false) (hd : w.deadline < s.plotTime p.toNat) :
    ∃ d, exec (.syncTimeout p) s =
      .next ((s.report (unitId 0xC p.toNat) (unitId 0xE 0) 0x58 d).stopPlot p.toNat 0x58 none) := by
  have hm : ((s.bedsOf p.toNat).filter fun b => match (s.bed b).seq.wait with
      | some w => !s.observed b && decide (w.deadline < s.plotTime p.toNat)
      | none => false) ≠ [] := List.ne_nil_of_mem (List.mem_filter.mpr ⟨hq, by rw [hw]; simp [ho, hd]⟩)
  refine ⟨_, if_pos ?_⟩
  simp only [hr, hp, Bool.true_and, BEq.rfl, Bool.not_eq_true', List.isEmpty_eq_false_iff]
  exact fun h => hm (List.map_eq_nil_iff.mp h)

/-! ## A bed put into a wait -/

section
variable {s : State} {b : BitVec 7} {h : Head} {p : Nat}

theorem Issuing.waits {i : Instr} (hI : Issuing s b h i p) (w : Wait)
    (he : exec i s = .next (s.issueWith b h i none fun c s => s.startWait c w)) :
    Issues i s p { s.issued h p none with seq := { (s.issued h p none).seq with
      state := 4
      wait := some { w with index := (s.bed p).seq.pc, iters := (s.bed p).seq.loops.map (·.iter), start := (s.ctx p).cyc } } } := by
  refine ⟨_, he.trans (congrArg Host.Outcome.next (State.issueWith_eq hI _ _)), ?_, ?_⟩
  · unfold State.startWait
    rw [show (s.ctx p).phys = p from rfl, State.bed_setBed, if_pos rfl, State.before_bed, if_pos rfl]
    exact ⟨_, rfl⟩
  · exact onlyBed_trans (s.before_only h p none) (onlyBed_of_setBed _ _ _)

end

/-- Settles O17: the waits from `Issuing.waits`, their common end from `State.lastObserved_eq`, a timeout from
`State.stopPlot_stopped`. -/
theorem waitsBeginEndAtOnceAndTimeOut : Obligations.WaitsBeginEndAtOnceAndTimeOut := by
  refine ⟨fun s b h p => ⟨?_, ?_, ?_, ?_⟩, ?_, ?_⟩
  · exact fun target d hI => Issuing.waits hI _ rfl
  · exact fun link flow len dst d hI => Issuing.waits hI _ rfl
  · exact fun coll d hI => Issuing.waits hI _ rfl
  · exact fun link flows d hI => Issuing.waits hI _ rfl
  · intro s p hr hp hne hT a hall hlast
    have ho := State.lastObserved_eq hne hall hlast
    refine ⟨exec_syncWaitEnd_of_early ho, fun ha => ⟨_, exec_syncWaitEnd ho hr hp ha, ?_, fun q hq => ?_, fun q hq => ?_⟩⟩
    · obtain ⟨x, hx⟩ := s.mapBeds_eq p.toNat fun (b : Bed) => b.endWait a
      rw [hx]
    · rw [State.mapBeds_bed hT.beds, if_neg hq]
    · rw [State.mapBeds_bed hT.beds, if_pos hq]
      obtain ⟨o, ho, -⟩ := hall q hq
      obtain ⟨w, hw⟩ := State.waiting_of_observedAt ho
      exact ⟨w, hw, Bed.endWait_of hw a⟩
  · intro s p q w hr hp hq hw ho hd
    obtain ⟨d, he⟩ := exec_syncTimeout hr hp hq hw ho hd
    have hplot : (s.report (unitId 0xC p.toNat) (unitId 0xE 0) 0x58 d).plot p.toNat = s.plot p.toNat := by
      unfold State.plot
      rw [(SameBeds.report (.refl s)).plots]
    have hst := State.stopPlot_stopped (s.report (unitId 0xC p.toNat) (unitId 0xE 0) 0x58 d) (p := p.toNat) 0x58 none (by rw [hplot]; exact .inr (.inl hp))
    obtain ⟨e, h⟩ := hst.plot
    rw [hplot] at h
    exact ⟨_, he, by rw [h], by rw [h], by rw [h], by rw [h], by rw [h]⟩

end Sys2Proof.Machine
end

section
/-! PROOFS. Words on their way over the runner network (R238, R264), and a bed table whose keys do not rise. -/

namespace Sys2Proof.Machine

/-! ## What is on its way -/

theorem mem_putWord (w v : Word) (l : List Word) : v ∈ putWord w l ↔ v = w ∨ v ∈ l := by
  induction l with
  | nil => exact List.mem_singleton.trans (or_iff_left List.not_mem_nil).symm
  | cons x l ih =>
    unfold putWord
    split
    · exact List.mem_cons
    · rw [List.mem_cons, ih, List.mem_cons]
      exact or_left_comm

theorem mem_foldl_putWord (ws : List Word) (l : List Word) (v : Word) :
    v ∈ ws.foldl (fun (l : List Word) w => putWord w l) l ↔ v ∈ l ∨ v ∈ ws := by
  induction ws generalizing l with
  | nil => exact (or_iff_left List.not_mem_nil).symm
  | cons w ws ih =>
    rw [List.foldl_cons, ih, mem_putWord, List.mem_cons]
    exact ⟨fun h => by rcases h with (h | h) | h <;> simp [h], fun h => by rcases h with h | h | h <;> simp [h]⟩

theorem State.addWords_plot (s : State) (p : Nat) (ws : List Word) : (s.addWords p ws).plot p =
    { s.plot p with words := ws.foldl (fun (l : List Word) w => putWord w l) (s.plot p).words } := by
  unfold State.addWords
  rw [State.plot_setPlot, if_pos rfl]

theorem State.mem_addWords (s : State) (p : Nat) (ws : List Word) (v : Word) :
    v ∈ ((s.addWords p ws).plot p).words ↔ v ∈ (s.plot p).words ∨ v ∈ ws := by
  rw [State.addWords_plot]
  exact mem_foldl_putWord _ _ _

theorem State.watchEcc_plot (s : State) (p j : Nat) : (s.watchEcc p).plot j = s.plot j := by
  unfold State.plot
  rw [(s.watchEcc_only p).plots]

theorem chunks_getElem? (n k : Nat) (bs : List Byte) (i : Nat) :
    (chunks n k bs)[i]? = if i < k then some ((bs.drop (n * i)).take n) else none := by
  induction k generalizing bs i with
  | zero => rfl
  | succ k ih =>
    cases i with
    | zero => simp [chunks]
    | succ i =>
      rw [chunks, List.getElem?_cons_succ, ih, List.drop_drop]
      simp only [Nat.succ_lt_succ_iff, Nat.mul_succ, Nat.add_comm n]

/-- The numbered pieces of a string. -/
theorem mem_enumFrom_chunks (n k : Nat) (bs : List Byte) (e : Nat × List Byte) :
    e ∈ enumFrom 0 (chunks n k bs) ↔ e.1 < k ∧ e.2 = (bs.drop (n * e.1)).take n := by
  obtain ⟨i, x⟩ := e
  rw [mem_enumFrom, Nat.sub_zero, chunks_getElem?]
  split
  next h => simp [h, eq_comm]
  next h => simp [h]

/-- The words of a send to a hub. -/
theorem State.mem_sendHub (s : State) (c : Ctx) (segment : Nat) (bytes : List Byte) (what : Nat → Option Cargo) (v : Word) :
    v ∈ ((s.sendHub c segment bytes what).plot c.plot).words ↔
      v ∈ (s.plot c.plot).words ∨ ∃ k, k < ceilDiv bytes.length 256 ∧ v = s.hubWord c segment bytes k (what k) := by
  unfold State.sendHub
  rw [State.mem_addWords]
  refine or_congr Iff.rfl ?_
  rw [List.mem_map]
  constructor
  · rintro ⟨e, he, rfl⟩
    obtain ⟨hk, hb⟩ := (mem_enumFrom_chunks _ _ _ _).mp he
    exact ⟨e.1, hk, by rw [hb]; rfl⟩
  · rintro ⟨k, hk, rfl⟩
    exact ⟨(k, _), (mem_enumFrom_chunks _ _ _ _).mpr ⟨hk, rfl⟩, rfl⟩

end Sys2Proof.Machine
end

section
/-! PROOFS. A state whose bed table does not list its keys in rising order, and what becomes of a word's die crossings in it: O18,
O19 and O20 state a word's crossings by the state before the instruction, without asking for rising keys. -/

namespace Sys2Proof.Machine

/-! ## The state -/

/-- A bed's place in the table taken by a second bed of the same logical number. -/
def strayBed : Bed := { mapped := true, logical := 5 }

/-- A route from bed 5 to a hub's unit, and one back. -/
def strayRoutes : List Route :=
  [{ segment := 1, source := 5, slots := 1, dest := 1 <<< 0x9D }, { segment := 2, source := 0x9D, slots := 1, dest := 1 <<< 5 }]

/-- Physical bed 70 issues an instruction as logical bed 5; the table lists physical bed 0, of the same number, behind it. A bed
written goes to its place among the keys, and bed 0 then comes first. -/
def straying (i : Instr) (runner : List Runner) : State where
  clk := { locked := true }
  beds := [(70, { mapped := true, logical := 5, job := some {}, seq := { state := 3 }, store := [(0, (encodeIns i).getD 0)] }),
    (0, strayBed)]
  plots := [(0, { state := 3, prog := { routes := strayRoutes }, runner })]

/-- The head of the instructions that bed issues. -/
def strayHead : Head := { varies := false, cond := 0, level := 0, gap := 1 }

/-- Physical bed 0 comes first in the bed table. -/
def Strayed (s : State) : Prop := ∃ r, s.beds = (0, strayBed) :: r

theorem tset_cons_of_lt {α : Type} [DecidableEq α] (d : Nat → α) {j k : Nat} (h : j < k) (w : α) (r : Tbl α) (v : α) :
    ∃ r', tset d ((j, w) :: r) k v = (j, w) :: r' := by
  have hd : tdel ((j, w) :: r) k = (j, w) :: tdel r k := List.filter_cons_of_pos (by simpa using Nat.ne_of_lt h)
  unfold tset
  rw [hd]
  split
  · exact ⟨_, rfl⟩
  · exact ⟨_, if_neg (Nat.not_lt.mpr h.le)⟩

theorem Strayed.setBed {s : State} (h : Strayed s) (b : Bed) : Strayed (s.setBed 70 b) := by
  obtain ⟨r, hr⟩ := h
  obtain ⟨r', h'⟩ := tset_cons_of_lt (fun _ => ({} : Bed)) (show 0 < 70 by decide) strayBed r b
  exact ⟨r', (congrArg (fun t => tset _ t 70 b) hr).trans h'⟩

theorem straying_setBed (i : Instr) (runner : List Runner) (b : Bed) : Strayed ((straying i runner).setBed 70 b) := by
  obtain ⟨r', h'⟩ := tset_cons_of_lt (fun _ => ({} : Bed)) (show 0 < 70 by decide) strayBed [] b
  refine ⟨r', Eq.trans ?_ h'⟩
  rfl

theorem straying_before (i : Instr) (runner : List Runner) (h : Head) : Strayed ((straying i runner).before h 70 none) := by
  obtain ⟨r, hr⟩ := straying_setBed i runner ((straying i runner).issued h 70 none)
  exact ⟨r, (State.before_beds _ _ _ _).trans hr⟩

theorem Strayed.physOf {s : State} (h : Strayed s) : s.physOf 5 = some 0 := by
  obtain ⟨r, hr⟩ := h
  unfold State.physOf
  rw [hr]
  rfl

/-- From bed 0 a word crosses between dies once to that unit. -/
theorem Strayed.crossings_out {s : State} (h : Strayed s) {r : Route} (hr : r.source = 5) (slot : Nat) :
    (s.crossings r 0x9D slot).length = 1 := by
  unfold State.crossings State.router
  rw [hr, if_pos (by decide), h.physOf]
  rfl

theorem Strayed.crossings_in {s : State} (h : Strayed s) {r : Route} (hr : r.source = 0x9D) (slot : Nat) :
    (s.crossings r 5 slot).length = 1 := by
  unfold State.crossings State.router
  rw [hr, if_pos (show 5 < 128 by decide), h.physOf]
  rfl

theorem straying_crossings_out (i : Instr) (runner : List Runner) {r : Route} (hr : r.source = 5) (slot : Nat) :
    ((straying i runner).crossings r 0x9D slot).length = 2 := by
  unfold State.crossings State.router
  rw [hr, if_pos (by decide), show (straying i runner).physOf 5 = some 70 from rfl]
  rfl

theorem straying_crossings_in (i : Instr) (runner : List Runner) {r : Route} (hr : r.source = 0x9D) (slot : Nat) :
    ((straying i runner).crossings r 5 slot).length = 2 := by
  unfold State.crossings State.router
  rw [hr, if_pos (show 5 < 128 by decide), show (straying i runner).physOf 5 = some 70 from rfl]
  rfl

/-- Where the bed has come after the first entry, no word of a send of it is the one that the state before gives. -/
theorem Strayed.hubWord_ne {s : State} (h : Strayed s) (i : Instr) (runner : List Runner) (bytes bytes' : List Byte) (k m : Nat)
    (x y : Option Cargo) (c : Ctx) (hc : c.prog.routes = strayRoutes) :
    (straying i runner).hubWord c 1 bytes k x ≠ s.hubWord c 1 bytes' m y := by
  intro he
  have hr : c.prog.route 1 = { segment := 1, source := 5, slots := 1, dest := 1 <<< 0x9D } := by
    unfold Program.route
    rw [hc]
    rfl
  have hd : (c.prog.route 1).dests.headD 0 = 0x9D := by
    rw [hr]
    decide
  have h' := congrArg (fun w : Word => w.cross.length) he
  unfold State.hubWord at h'
  simp only [hd, straying_crossings_out i runner (r := c.prog.route 1) (by rw [hr]), h.crossings_out (r := c.prog.route 1) (by rw [hr])] at h'
  exact absurd h' (by decide)

/-- The bed issues what its word is. -/
theorem straying_issuing {i : Instr} {runner : List Runner} (h : (straying i runner).issues 70 i = true) :
    Issuing (straying i runner) 5 strayHead i 70 :=
  ⟨rfl, fun _ hw => (List.not_mem_nil hw).elim, h, rfl⟩

end Sys2Proof.Machine
end

section
/-! PROOFS. Varying reads and tags (R244, R247, R396): O18. -/

namespace Sys2Proof.Machine

theorem exists_tag_words {s : State} {c : Ctx} {x : Plot} (hx : s.plot c.plot = x) (segment : Nat) (bytes : List Byte) {done : Word} (p : Nat) (hd : done.bytes = []) :
    ∃ d, (∀ w, w ∈ (((((s.sendHub c segment bytes fun _ => none).addWords c.plot [done]).watchEcc p).plot c.plot).words) ↔
      (w ∈ x.words ∨ ∃ k, k < ceilDiv bytes.length 256 ∧ w = s.hubWord c segment bytes k none) ∨ w = d) ∧
      d.bytes = [] :=
  ⟨done, fun w => by rw [State.watchEcc_plot, State.mem_addWords, List.mem_singleton, State.mem_sendHub, hx], hd⟩

/-- Where a tag's words go: behind those of the plot, from the state in which its bed has read them. -/
theorem execTag_words {s : State} {b : BitVec 7} {h : Head} {tensor : BitVec 12} {engine : BitVec 2} {route : BitVec 12} {p : Nat}
    (hI : Issuing s b h (.tag b h tensor engine route) p) (hc : Clean (s.bed p)) {t : State}
    (ht : exec (.tag b h tensor engine route) s = .next t) :
    ∃ x done, (∀ w, w ∈ (t.plot (s.ctx p).plot).words ↔ (w ∈ (s.plot (s.ctx p).plot).words ∨
      ∃ k, k < ceilDiv (tensorBytes (s.issued h p none) ((s.ctx p).tensor tensor.toNat)).length 256 ∧
        w = ((s.before h p none).setBed p x).hubWord (s.ctx p) route.toNat
          (tensorBytes (s.issued h p none) ((s.ctx p).tensor tensor.toNat)) k none) ∨ w = done) ∧ done.bytes = [] := by
  have he : exec (.tag b h tensor engine route) s = _ := congrArg Host.Outcome.next (State.issueWith_eq hI _ _)
  have hb : (s.before h p none).bed (s.ctx p).phys = s.issued h p none := by
    rw [show (s.ctx p).phys = p from rfl, State.before_bed, if_pos rfl]
  simp only [hb, Bed.touch_clean _ _ _ (show Clean (s.issued h p none) from hc)] at he
  cases ht.symm.trans he
  refine ⟨_, exists_tag_words (x := s.plot (s.ctx p).plot) ?_ _ _ _ rfl⟩
  exact State.before_plot s h p none _

/-- A TAG of the bed that strays. -/
def strayTag : Instr := .tag 5 strayHead 0 0 1

/-- Refutes O18: the clause on TAG gives a word's die crossings by the state before the instruction and asks for no rising keys. In
`straying` the bed that issues stands first in its table; written back it stands behind another bed of its logical number, which
its route then starts from: the word crosses once between dies, where the clause says twice. -/
theorem not_varyingReadsFillLanesAndTagsAreRecorded : ¬ Obligations.VaryingReadsFillLanesAndTagsAreRecorded := by
  rintro ⟨-, htag, -⟩
  have hI : Issuing (straying strayTag []) 5 strayHead strayTag 70 := straying_issuing (by decide +kernel)
  obtain ⟨t, ht, -, -, -, -, hw⟩ := htag (straying strayTag []) 5 strayHead 0 0 1 70 hI rfl
  obtain ⟨x, done, hw', hdone⟩ := execTag_words hI rfl ht
  have hmem := (hw _).mpr (.inr (.inl ⟨0, by decide, rfl⟩))
  rcases (hw' _).mp hmem with (hold | ⟨k, -, hk⟩) | heq
  · cases hold
  · exact Strayed.hubWord_ne ((straying_before _ _ _).setBed x) _ _ _ _ _ _ _ _ _ rfl hk
  · have hb := (congrArg (fun w : Word => w.bytes) heq).trans hdone
    revert hb
    decide

end Sys2Proof.Machine
end

section
/-! PROOFS. Runner transfers (R238, R239): O19. -/

namespace Sys2Proof.Machine

/-- A word of a send to one bed crosses dies as the route from the segment's source to that bed does. -/
theorem State.cross_of_mem_sendWords {s : State} {p : Nat} {e : Runner} {addr : Nat} {v : Word}
    (h : v ∈ ((s.sendWords p e addr).plot p).words) : v ∈ (s.plot p).words ∨
      ∃ slot, v.cross = s.crossings ((s.plot p).prog.route e.segment) (s.bed e.bed).logical slot := by
  unfold State.sendWords at h
  rcases (State.mem_addWords _ _ _ _).mp h with h | h
  · exact .inl h
  · obtain ⟨x, -, rfl⟩ := List.mem_map.mp h
    exact .inr ⟨_, rfl⟩

/-- A region that finds its send. -/
theorem State.pair_region {s : State} {p : Nat} {e o : Runner} (he : e.send = false)
    (hf : (s.plot p).runner.find? (fun o => o.segment == e.segment && o.exec == e.exec && o.bed == e.bed && o.send != e.send) = some o)
    (ho : o.enabled = true) :
    s.pair p e = (s.setPlot p { s.plot p with runner := (s.plot p).runner.erase o }).sendWords p o e.addr := by
  unfold State.pair
  simp only [hf]
  simp only [he, Bool.false_eq_true, if_false, ho, if_true]

/-- The send that waits in the bed that strays: one byte. -/
def strayRunner : Runner := { segment := 2, exec := 1, bed := 70, send := true, addr := 0, bytes := [0], enabled := true }

def strayRrecv : Instr := .rrecv 5 strayHead 2 0 0

/-- The word that the state before gives for it. -/
def strayWord : Word :=
  let s := straying strayRrecv [strayRunner]
  { segment := 2, bed := 70, addr := ((s.ctx 70).opnd 0).addr + 256 * 0, due := 0, bytes := ([0].drop (256 * 0)).take 256
    cross := s.crossings ((s.ctx 70).prog.route 2) (s.bed 70).logical (0 - ((s.ctx 70).prog.route 2).lambda) }

theorem strayWord_cross : strayWord.cross.length = 2 := by decide +kernel

/-- What is sent from the hub's unit to bed 70 where another bed of its number comes first. -/
theorem Strayed.sent_once {s : State} (hs : Strayed s) (hb : (s.bed 70).logical = 5) {p : Nat}
    (hr : ((s.plot p).prog.route 2).source = 0x9D) {e : Runner} (hseg : e.segment = 2) (hbed : e.bed = 70) {addr : Nat} {v : Word}
    (hv : v ∈ ((s.sendWords p e addr).plot p).words) : v ∈ (s.plot p).words ∨ v.cross.length = 1 := by
  rcases State.cross_of_mem_sendWords hv with hold | ⟨slot, hcross⟩
  · exact .inl hold
  · rw [hseg, hbed, hb] at hcross
    exact .inr ((congrArg List.length hcross).trans (hs.crossings_in hr slot))

/-- The plot whose send waits. -/
def strayPlot : Plot := { state := 3, prog := { routes := strayRoutes }, runner := [strayRunner] }

/-- The region declared in such a state: every word then on its way crosses between dies once. -/
theorem Strayed.region_once {s : State} (hs : Strayed s) (hb : (s.bed 70).logical = 5) (hp : s.plot 0 = strayPlot) (counts : Tbl Nat)
    (addr : Nat) {v : Word} (hv : v ∈ (((s.setPlot 0 { s.plot 0 with recvCount := counts }).pair 0
      { segment := 2, exec := 1, bed := 70, send := false, addr, bytes := [], enabled := true }).plot 0).words) : v.cross.length = 1 := by
  have h1 : (s.setPlot 0 { s.plot 0 with recvCount := counts }).plot 0 = { strayPlot with recvCount := counts } := by
    rw [State.plot_setPlot, if_pos rfl, hp]
  generalize hu : s.setPlot 0 { s.plot 0 with recvCount := counts } = u at *
  have hus : Strayed u := hu ▸ hs
  have hub : (u.bed 70).logical = 5 := hu ▸ hb
  rw [State.pair_region (o := strayRunner) rfl (by rw [h1]; rfl) rfl, h1] at hv
  have h2 : (u.setPlot 0 { strayPlot with recvCount := counts, runner := [] }).plot 0 = { strayPlot with recvCount := counts, runner := [] } := by
    rw [State.plot_setPlot, if_pos rfl]
  rcases Strayed.sent_once (s := u.setPlot 0 { strayPlot with recvCount := counts, runner := [] }) hus hub (by rw [h2]; rfl) rfl rfl hv with
    hold | hone
  · rw [h2] at hold
    cases hold
  · exact hone

theorem strayRrecv_words {t : State} (ht : exec strayRrecv (straying strayRrecv [strayRunner]) = .next t) {v : Word}
    (hv : v ∈ (t.plot 0).words) : v.cross.length = 1 := by
  have hI : Issuing (straying strayRrecv [strayRunner]) 5 strayHead strayRrecv 70 := straying_issuing (by decide +kernel)
  cases ht.symm.trans (congrArg Host.Outcome.next (State.issueBoth_eq hI _ _))
  have hp : ((straying strayRrecv [strayRunner]).before strayHead 70 none).plot 0 = strayPlot := State.before_plot _ _ _ _ _
  have hs := straying_before strayRrecv [strayRunner] strayHead
  have hb : (((straying strayRrecv [strayRunner]).before strayHead 70 none).bed 70).logical = 5 :=
    congrArg Bed.logical (State.before_bed (straying strayRrecv [strayRunner]) strayHead 70 none 70)
  generalize (straying strayRrecv [strayRunner]).before strayHead 70 none = u at *
  have hk : tget (fun _ => 0) (u.plot ((straying strayRrecv [strayRunner]).ctx 70).plot).recvCount
      (256 * BitVec.toNat (2 : BitVec 12) + ((straying strayRrecv [strayRunner]).ctx 70).phys) + 1 = 1 := by
    rw [show ((straying strayRrecv [strayRunner]).ctx 70).plot = 0 from rfl, hp]
    rfl
  simp only [hk] at hv
  exact hs.region_once hb hp _ _ hv

/-- Refutes O19: the clause on RRECV gives a word's die crossings by the state before the instruction and asks for no rising keys. In
`straying` the bed that issues stands first in its table; written back it stands behind another bed of its logical number, which
the route then leads to: the word crosses once between dies, where the clause says twice. -/
theorem not_runnerTransfersMeetInPairs : ¬ Obligations.RunnerTransfersMeetInPairs := by
  rintro ⟨-, hrecv, -⟩
  have hI : Issuing (straying strayRrecv [strayRunner]) 5 strayHead strayRrecv 70 := straying_issuing (by decide +kernel)
  obtain ⟨t, ht, -, -, -, -, hw⟩ := (hrecv _ 5 strayHead 2 0 0 70 hI).2 strayRunner rfl rfl
  have hmem := (hw strayWord).mpr (.inr ⟨0, by decide, rfl⟩)
  have hcross := strayRrecv_words ht hmem
  rw [strayWord_cross] at hcross
  cases hcross

end Sys2Proof.Machine
end

section
/-! PROOFS. Sends to links (R240): O20. -/

namespace Sys2Proof.Machine

/-- Without a companion nothing is compared. -/
theorem State.compare_off {s : State} (h : s.lnk.comp.enable = false) (kind bed index exec sow value : Nat) :
    s.compare kind bed index exec sow value = s := by
  unfold State.compare
  simp only [h, Bool.false_eq_true, if_false]

/-- Where an LSEND's words go: behind those of the plot, from the state in which its bed has read them. -/
theorem execLsend_words {s : State} {b : BitVec 7} {h : Head} {link : BitVec 5} {flow : BitVec 4} {len : BitVec 15} {src : BitVec 24}
    {route : BitVec 12} {p : Nat} (hI : Issuing s b h (.lsend b h link flow len src route) p) (hc : Clean (s.bed p))
    (hoff : s.lnk.comp.enable = false) {t : State} (ht : exec (.lsend b h link flow len src route) s = .next t) {w : Word}
    (hw : w ∈ (t.plot (s.ctx p).plot).words) : w ∈ (s.plot (s.ctx p).plot).words ∨ ∃ x bytes k y,
      w = ((s.before h p none).setBed p x).hubWord (s.ctx p) route.toNat bytes k y := by
  have he : exec (.lsend b h link flow len src route) s = _ := congrArg Host.Outcome.next (State.issueWith_eq hI _ _)
  unfold State.sendFrom at he
  rw [Bed.sendRead_clean (before_clean hc)] at he
  cases ht.symm.trans he
  have hlnk : ∀ (b : Bed) (r : List Byte) (what : Nat → Option Cargo),
      (((s.before h p none).setBed (s.ctx p).phys b).sendHub (s.ctx p) route.toNat r what).lnk.comp.enable = false := fun _ _ _ =>
    (congrArg (fun k : Lnk => k.comp.enable) (s.before_only h p none).lnk).trans hoff
  rw [State.watchEcc_plot] at hw
  dsimp only at hw
  rw [State.compare_off (hlnk _ _ _), State.mem_sendHub] at hw
  rcases hw with hw | ⟨k, -, rfl⟩
  · rw [show ((s.before h p none).setBed _ _).plot _ = _ from State.before_plot s h p none _] at hw
    exact .inl hw
  · exact .inr ⟨_, _, _, _, rfl⟩

def strayLsend : Instr := .lsend 5 strayHead 1 0 0 0 1

/-- Refutes O20: the clause on LSEND gives a word's die crossings by the state before the instruction and asks for no rising keys. In
`straying` the bed that issues stands first in its table; written back it stands behind another bed of its logical number, which
its route then starts from: the word crosses once between dies, where the clause says twice. -/
theorem not_linkSendsQueueFlitsAndCollectivesGatherParts : ¬ Obligations.LinkSendsQueueFlitsAndCollectivesGatherParts := by
  rintro ⟨hsend, -⟩
  have hI : Issuing (straying strayLsend []) 5 strayHead strayLsend 70 := straying_issuing (by decide +kernel)
  obtain ⟨-, t, ht, -, -, -, -, hw⟩ := hsend (straying strayLsend []) 5 strayHead 1 0 0 0 1 70 hI rfl rfl
  have hmem := (hw _).mpr (.inr ⟨0, by decide, rfl⟩)
  rcases execLsend_words hI rfl rfl ht hmem with hold | ⟨x, bytes, k, y, hk⟩
  · cases hold
  · exact Strayed.hubWord_ne ((straying_before _ _ _).setBed x) _ _ _ _ _ _ _ _ _ rfl hk

end Sys2Proof.Machine
end

section
/-! PROOFS. Barrow channels (R242, R275 to R284): what giving, beginning, carrying on and completing a transfer change. -/

namespace Sys2Proof.Machine

/-! ## Operations that leave channels and engines -/

theorem State.setDoor_brw (s : State) (b : Nat) : (s.setDoor b).brw = s.brw := by
  obtain ⟨x, he⟩ := s.setDoor_frame b
  rw [he]

theorem State.report_brw (s : State) (unit reporter cause detail : Nat) : (s.report unit reporter cause detail).brw = s.brw := by
  unfold State.report
  simp only []
  split
  · rfl
  · split
    · rfl
    · exact State.setDoor_brw _ _

/-- What a fold does not change at any step it does not change. -/
theorem foldl_same {α ι σ : Type} (view : σ → α) {f : σ → ι → σ} {l : List ι} {s : σ} (h : ∀ t x, view (f t x) = view t) :
    view (l.foldl f s) = view s :=
  List.foldlRecOn (motive := fun t => view t = view s) l f rfl fun t ht x _ => (h t x).trans ht

theorem State.landBytes_brw (s : State) (counted : Bool) (bed addr : Nat) (bytes : List Byte) (at_ : Nat) :
    (s.landBytes counted bed addr bytes at_).brw = s.brw := by
  unfold State.landBytes
  simp only []
  split
  · rfl
  · rw [(State.watchEcc_only _ _).brw]
    refine (foldl_same State.brw fun t o => ?_).trans rfl
    split
    · exact State.report_brw _ _ _ _ _
    · rfl

theorem State.ddrWrite_brw (s : State) (a : Nat) (bytes : List Byte) : (s.ddrWrite a bytes).brw = s.brw := by
  unfold State.ddrWrite
  refine (foldl_same State.brw fun t c => ?_).trans rfl
  split <;> rfl

theorem State.placeBytes_brw (s : State) (counted : Bool) (space addr : Nat) (bytes : List Byte) :
    (s.placeBytes counted space addr bytes).brw = s.brw := by
  unfold State.placeBytes
  split
  · exact State.ddrWrite_brw _ _ _
  · split
    · exact State.landBytes_brw _ _ _ _ _ _
    · rfl
  · rfl

theorem State.placeStream_brw (s : State) (counted : Bool) (x : Side) (off : Nat) (bytes : List Byte) :
    (s.placeStream counted x off bytes).brw = s.brw :=
  foldl_same State.brw fun _ _ => State.placeBytes_brw _ _ _ _ _

theorem State.readLines_brw (s : State) (x : Side) (from_ n : Nat) : (s.readLines x from_ n).2.brw = s.brw := by
  unfold State.readLines
  split <;> rfl

theorem State.chan_congr {s t : State} (h : t.brw = s.brw) (j : Nat) : t.chan j = s.chan j := by
  unfold State.chan
  rw [h]

theorem State.engine_congr {s t : State} (h : t.brw = s.brw) (j : Nat) : t.engine j = s.engine j := by
  unfold State.engine
  rw [h]

/-! ## One channel -/

/-- Between two states one channel has become k, and no other channel and no engine has changed. -/
structure OnChan (ch : Nat) (k : Chan) (s t : State) : Prop where
  self : t.chan ch = k
  others : ∀ j, j ≠ ch → t.chan j = s.chan j
  engines : ∀ h, t.engine h = s.engine h

section
variable {s t u : State} {ch : Nat} {k : Chan}

theorem OnChan.refl (s : State) (ch : Nat) : OnChan ch (s.chan ch) s s := ⟨rfl, fun _ _ => rfl, fun _ => rfl⟩

theorem OnChan.setChan (s : State) (ch : Nat) (k : Chan) : OnChan ch k s (s.setChan ch k) :=
  ⟨by rw [State.chan_setChan, if_pos rfl], fun j hj => by rw [State.chan_setChan, if_neg hj], fun _ => rfl⟩

theorem OnChan.trans {k' : Chan} (a : OnChan ch k s t) (b : OnChan ch k' t u) : OnChan ch k' s u :=
  ⟨b.self, fun j hj => (b.others j hj).trans (a.others j hj), fun h => (b.engines h).trans (a.engines h)⟩

/-- The channels and engines stay from here on. -/
theorem OnChan.keep (a : OnChan ch k s t) (h : u.brw = t.brw) : OnChan ch k s u :=
  ⟨(State.chan_congr h ch).trans a.self, fun j hj => (State.chan_congr h j).trans (a.others j hj),
    fun e => (State.engine_congr h e).trans (a.engines e)⟩

theorem OnChan.of_keep (h : t.brw = s.brw) (a : OnChan ch k t u) : OnChan ch k s u :=
  ⟨a.self, fun j hj => (a.others j hj).trans (State.chan_congr h j), fun e => (a.engines e).trans (State.engine_congr h e)⟩

end

/-- Counting a channel's elements changes its range record at most. -/
theorem State.gradeCount_onChan (s : State) (ch : Nat) (d : List Byte) (es : List (Nat × Cnv × Val)) (n : Nat) :
    ∃ r, OnChan ch { s.chan ch with rng := r } s (s.gradeCount ch d es n) := by
  unfold State.gradeCount
  extract_lets src n off s1 s2 k
  have h2 : s2.brw = s.brw := (State.setReg_brw _ _ _).trans
    ((State.bump_brw _ _ _ _ _).trans ((State.bump_brw _ _ _ _ _).trans (State.bump_brw _ _ _ _ _)))
  have hk : k = s2.chan ch := rfl
  clear_value k s2
  split
  · rw [hk, State.chan_congr h2 ch]
    exact ⟨_, .of_keep h2 (.setChan _ _ _)⟩
  · exact ⟨(s.chan ch).rng, .keep (.refl s ch) h2⟩

/-! ## A firmware transfer carried on -/

theorem Xfer.held_le {t : Xfer} {n : Nat} (h : (sideA t.desc).lines - n ≤ (sideA t.desc).lines - t.pos) (ps : List Byte) :
    ({ t with pos := n, passed := ps } : Xfer).held ≤ t.held := by
  have hm : (sideA t.desc).len * ((sideA t.desc).lines - n) ≤ (sideA t.desc).len * ((sideA t.desc).lines - t.pos) :=
    Nat.mul_le_mul_left _ h
  have hc : ceilDiv ((sideA t.desc).len * ((sideA t.desc).lines - n)) 512 ≤ ceilDiv ((sideA t.desc).len * ((sideA t.desc).lines - t.pos)) 512 := by
    unfold ceilDiv
    omega
  unfold Xfer.held
  dsimp only
  omega

/-- The first line from a place on that does not answer lies at that place or behind it. -/
theorem remaining_le {lines pos : Nat} (ok : Nat → Bool) :
    lines - ((upFrom pos (lines - pos)).find? fun i => !ok i).getD lines ≤ lines - pos := by
  cases h : (upFrom pos (lines - pos)).find? fun i => !ok i with
  | none => simp
  | some i =>
    obtain ⟨j, -, rfl⟩ := List.mem_map.mp (List.mem_of_find?_eq_some h)
    simp only [Option.getD_some]
    omega

/-- Elements counted and placed behind a channel's change leave its range record open. -/
theorem graded_onChan {s u : State} (h : u.brw = s.brw) (ch : Nat) (k : Chan) (d : List Byte) (es : List (Nat × Cnv × Val)) (n : Nat)
    (counted : Bool) (x : Side) (off : Nat) (bytes : List Byte) :
    ∃ r, OnChan ch { k with rng := r } s ((((u.setChan ch k).gradeCount ch d es n).placeStream counted x off bytes)) := by
  obtain ⟨r, hr⟩ := (u.setChan ch k).gradeCount_onChan ch d es n
  rw [show (u.setChan ch k).chan ch = k by rw [State.chan_setChan, if_pos rfl]] at hr
  exact ⟨r, ((OnChan.setChan u ch k).trans hr).keep (State.placeStream_brw _ _ _ _ _) |>.of_keep h⟩

theorem State.carry_onChan {s : State} {ch : Nat} {t : Xfer} (ht : (s.chan ch).cur = some t) (good : Nat) :
    ∃ n ps k, OnChan ch k s (s.carry ch good) ∧ k.state = (s.chan ch).state ∧ k.next = (s.chan ch).next ∧
      k.cur = some { t with pos := n, passed := ps } ∧ (sideA t.desc).lines - n ≤ (sideA t.desc).lines - t.pos ∧
      (t.probe = false → (s.chan ch).buffers = t.held → k.buffers = ({ t with pos := n, passed := ps } : Xfer).held) := by
  unfold State.carry
  simp only [ht]
  have hrem := remaining_le (lines := (sideA t.desc).lines) (pos := t.pos) fun i => s.lineOk (sideA t.desc) good i
  generalize hn : ((upFrom t.pos ((sideA t.desc).lines - t.pos)).find? fun i => !s.lineOk (sideA t.desc) good i).getD
    (sideA t.desc).lines = n at hrem
  split
  · exact ⟨t.pos, t.passed, _, .refl s ch, rfl, rfl, ht, Nat.le_refl _, fun _ h => h⟩
  · split
    next hp => exact ⟨n, t.passed, _, .setChan _ _ _, rfl, rfl, rfl, hrem, fun h => absurd hp (by rw [h]; decide)⟩
    next =>
      have hl : (s.readLines (sideA t.desc) t.pos (n - t.pos)).2.brw = s.brw := State.readLines_brw _ _ _ _
      generalize (s.readLines (sideA t.desc) t.pos (n - t.pos)) = l at hl
      obtain ⟨r, hr⟩ := graded_onChan hl ch _ t.desc _ _ false (sideB t.desc) _ _
      exact ⟨n, _, _, hr, rfl, rfl, rfl, hrem, fun _ _ => rfl⟩

/-- The replay log of a hub is brought up to date, and nothing else changes. -/
theorem State.logged_eq (s : State) (ch : Nat) :
    s.logged ch = s ∨ ∃ log, s.logged ch = s.setEngine (hubOf ch) { s.engine (hubOf ch) with log } := by
  unfold State.logged
  extract_lets e rest log
  split
  · exact .inl rfl
  · exact .inr ⟨_, rfl⟩

theorem State.logged_chan (s : State) (ch j : Nat) : (s.logged ch).chan j = s.chan j := by
  rcases s.logged_eq ch with h | ⟨log, h⟩
  · rw [h]
  · rw [h]
    rfl

/-- A channel whose transfer has begun. -/
def Chan.begun (k : Chan) (t : Xfer) (buffers : Nat) : Chan := { k with state := 1, cur := some t, buffers }

theorem State.begin_firmware_eq {s : State} {ch : Nat} {t : Xfer} (ht : (s.chan ch).cur = some t) (hp : t.plot = none) (good : Nat) :
    s.begin ch good = ((s.setChan ch ((s.chan ch).begun { t with started := true } ({ t with started := true } : Xfer).held)).carry
      ch good).logged ch := by
  unfold State.begin Chan.begun
  simp only [ht, hp]

/-- A firmware transfer begun: carried on from its start. -/
theorem State.begin_firmware {s : State} {ch : Nat} {t : Xfer} (ht : (s.chan ch).cur = some t) (hp : t.plot = none) (good : Nat) :
    ∃ n ps k, (s.begin ch good).chan ch = k ∧ (∀ j, j ≠ ch → (s.begin ch good).chan j = s.chan j) ∧ k.state = 1 ∧
      k.next = (s.chan ch).next ∧ k.cur = some { t with started := true, pos := n, passed := ps } ∧
      (t.probe = false → k.buffers = ({ t with started := true, pos := n, passed := ps } : Xfer).held ∧
        ({ t with started := true, pos := n, passed := ps } : Xfer).held ≤ t.held) := by
  rw [State.begin_firmware_eq ht hp]
  have h0 := OnChan.setChan s ch ((s.chan ch).begun { t with started := true } ({ t with started := true } : Xfer).held)
  generalize s.setChan ch _ = s1 at h0 ⊢
  obtain ⟨n, ps, k, hk, hst, hnext, hcur, hle, hbuf⟩ := s1.carry_onChan (ch := ch) (t := { t with started := true }) (by rw [h0.self]; rfl) good
  have hk := h0.trans hk
  refine ⟨n, ps, k, (State.logged_chan _ _ _).trans hk.self, fun j hj => (State.logged_chan _ _ _).trans (hk.others j hj), ?_, ?_, hcur,
    fun h => ⟨hbuf h (by rw [h0.self]; rfl), ?_⟩⟩
  · rw [hst, h0.self]
    rfl
  · rw [hnext, h0.self]
    rfl
  · exact Xfer.held_le (t := { t with started := true }) hle ps

/-! ## A plot's transfer in a data slot -/

/-- Units issued in a slot: the transfer's count of them and its place among the slots, and the replay log. -/
theorem State.issueIn_chan (p : Path) (ch j a n : Nat) (s : State) (t : Xfer) (k : Spot) :
    ∃ m x, t.issued ≤ m ∧ (s.issueIn p ch j a n t k).chan ch = { s.chan ch with cur := some { t with issued := m, spot := x } } ∧
      ∀ i, i ≠ ch → (s.issueIn p ch j a n t k).chan i = s.chan i := by
  induction n generalizing s t k with
  | zero =>
    have h := OnChan.setChan s ch { s.chan ch with cur := some { t with spot := k } }
    exact ⟨t.issued, k, Nat.le_refl _, h.self, h.others⟩
  | succ n ih =>
    unfold State.issueIn
    extract_lets e u room
    split
    · obtain ⟨m, x, hm, hs, ho⟩ := ih (s.setEngine (hubOf ch) { e with log := e.log ++ [{ chan := ch, index := t.issued, slot := j }] })
        { t with issued := t.issued + 1 } (p.take k u)
      exact ⟨m, x, Nat.le_of_succ_le hm, hs, ho⟩
    · have h := OnChan.setChan s ch { s.chan ch with cur := some { t with spot := k } }
      exact ⟨t.issued, k, Nat.le_refl _, h.self, h.others⟩

theorem State.slotFor_chan {s : State} {ch : Nat} {t : Xfer} (ht : (s.chan ch).cur = some t) (j a : Nat) :
    ∃ m x, t.issued ≤ m ∧ (s.slotFor j a ch).chan ch = { s.chan ch with cur := some { t with issued := m, spot := x } } ∧
      ∀ i, i ≠ ch → (s.slotFor j a ch).chan i = s.chan i := by
  unfold State.slotFor
  split
  · simp only [ht, Option.getD_some]
    exact State.issueIn_chan _ _ _ _ _ _ _ _
  · exact ⟨t.issued, t.spot, Nat.le_refl _, by rw [← ht], fun _ _ => rfl⟩

theorem State.countBuffers_onChan {s : State} {ch : Nat} {t : Xfer} (ht : (s.chan ch).cur = some t) (hp : t.plot.isSome = true)
    (hs : t.started = true) (a : Nat) : OnChan ch { s.chan ch with buffers := t.inUse a } s (s.countBuffers a ch) := by
  unfold State.countBuffers
  simp only [ht, hp, hs, Bool.and_self, if_true]
  exact .setChan _ _ _

/-- A plot's transfer as it begins. -/
def Xfer.begun (t : Xfer) (good : Nat) (x : Spot) : Xfer := { t with started := true, good, spot := x }

theorem State.begin_plot_eq {s : State} {ch : Nat} {t : Xfer} {o : Nat × Nat × Nat} (ht : (s.chan ch).cur = some t) (hp : t.plot = some o)
    (good : Nat) : ∃ y, let u := s.setChan ch ((s.chan ch).begun (t.begun good y) ((t.begun good y).inUse s.clk.cycles))
      s.begin ch good = match slotIn s.now with
        | none => u
        | some j => (u.slotFor j (s.slotCycle j) ch).countBuffers s.clk.cycles ch := by
  refine ⟨((s.plot o.1).prog.path t.desc t.route).before, ?_⟩
  unfold State.begin Chan.begun Xfer.begun
  simp only [ht, hp]
  rfl

/-- A plot's transfer begun: it takes its first slot, be it of this tick. -/
theorem State.begin_plot {s : State} {ch : Nat} {t : Xfer} {o : Nat × Nat × Nat} (ht : (s.chan ch).cur = some t) (hp : t.plot = some o)
    (good : Nat) : ∃ m x k, (s.begin ch good).chan ch = k ∧ (∀ j, j ≠ ch → (s.begin ch good).chan j = s.chan j) ∧ k.state = 1 ∧
      k.next = (s.chan ch).next ∧ t.issued ≤ m ∧ k.cur = some { t.begun good x with issued := m } ∧
      k.buffers = ({ t.begun good x with issued := m } : Xfer).inUse s.clk.cycles := by
  obtain ⟨y, he⟩ := State.begin_plot_eq ht hp good
  rw [he]
  have h0 := OnChan.setChan s ch ((s.chan ch).begun (t.begun good y) ((t.begun good y).inUse s.clk.cycles))
  generalize s.setChan ch _ = s1 at h0 ⊢
  split
  · exact ⟨t.issued, y, _, h0.self, h0.others, rfl, rfl, Nat.le_refl _, rfl, rfl⟩
  next j _ =>
    obtain ⟨m, x, hm, hself, hothers⟩ := s1.slotFor_chan (ch := ch) (t := t.begun good y) (by rw [h0.self]; rfl) j (s.slotCycle j)
    generalize s1.slotFor j (s.slotCycle j) ch = s2 at hself hothers ⊢
    have h2 := State.countBuffers_onChan (s := s2) (ch := ch) (t := { t.begun good x with issued := m }) (by rw [hself]; rfl)
      (show t.plot.isSome = true by rw [hp]; rfl) rfl s.clk.cycles
    refine ⟨m, x, _, h2.self, fun i hi => (h2.others i hi).trans ((hothers i hi).trans (h0.others i hi)), ?_, ?_, hm, ?_, rfl⟩
    · rw [hself, h0.self]
      rfl
    · rw [hself, h0.self]
      rfl
    · rw [hself]
      rfl

end Sys2Proof.Machine
end

section
/-! PROOFS. Transfers given, begun and completed (R242, R279 to R284): O21. -/

namespace Sys2Proof.Machine

/-! ## BRW -/

/-- A channel with one more transfer, where it has room. -/
def Chan.given (k : Chan) (t : Xfer) : Chan :=
  match k.cur, k.next with
  | none, _ => { k with cur := some t }
  | some _, none => { k with next := some t }
  | some _, some _ => k

theorem Chan.given_free {k : Chan} (h : k.cur = none) (t : Xfer) : k.given t = { k with cur := some t } := by
  unfold Chan.given
  rw [h]

theorem Chan.given_queued {k : Chan} (h : k.cur.isSome = true) (hn : k.next = none) (t : Xfer) :
    k.given t = { k with next := some t } := by
  obtain ⟨y, hy⟩ := Option.isSome_iff_exists.mp h
  unfold Chan.given
  rw [hy, hn]

theorem Chan.given_full {k : Chan} (h : k.cur.isSome = true) (hn : k.next.isSome = true) (t : Xfer) : k.given t = k := by
  obtain ⟨y, hy⟩ := Option.isSome_iff_exists.mp h
  obtain ⟨z, hz⟩ := Option.isSome_iff_exists.mp hn
  unfold Chan.given
  rw [hy, hz]

theorem State.give_onChan (s : State) (ch : Nat) (t : Xfer) : OnChan ch ((s.chan ch).given t) s (s.give ch t) := by
  unfold State.give
  simp only []
  split
  next h => exact Chan.given_free h t ▸ .setChan _ _ _
  next y h hn => exact Chan.given_queued (by rw [h]; rfl) hn t ▸ .setChan _ _ _
  next y z h hn =>
    rw [Chan.given_full (by rw [h]; rfl) (by rw [hn]; rfl)]
    exact .refl s ch

theorem State.give_brw (s : State) (ch : Nat) (t : Xfer) : ∃ x, s.give ch t = { s with brw := x } := by
  unfold State.give
  simp only []
  split <;> exact ⟨_, rfl⟩

/-- The channel of a BRW: halted it takes nothing. -/
def Chan.taken (k : Chan) (t : Xfer) : Chan := { (if k.state = 3 then k else k.given t) with rng := {} }

/-- What a BRW does to its channel. -/
def State.barrow (s : State) (ch : Nat) (t : Xfer) : State :=
  let u := if (s.chan ch).state = 3 then s else s.give ch t
  u.setChan ch { u.chan ch with rng := {} }

theorem State.barrow_onChan (s : State) (ch : Nat) (t : Xfer) : OnChan ch ((s.chan ch).taken t) s (s.barrow ch t) := by
  unfold State.barrow Chan.taken
  simp only []
  split
  · exact .setChan _ _ _
  · have h := s.give_onChan ch t
    rw [h.self]
    exact h.trans (.setChan _ _ _)

theorem State.barrow_brw (s : State) (ch : Nat) (t : Xfer) : ∃ x, s.barrow ch t = { s with brw := x } := by
  unfold State.barrow
  simp only []
  split
  · exact ⟨_, rfl⟩
  · obtain ⟨x, hx⟩ := s.give_brw ch t
    rw [hx]
    exact ⟨_, rfl⟩

theorem execBrw_eq {s : State} {b : BitVec 7} {h : Head} {channel : BitVec 6} {desc : BitVec 10} {bed : BitVec 24} {level : BitVec 2}
    {stepEn : Bool} {ext : BitVec 32} {route : BitVec 12} {p : Nat} (hI : Issuing s b h (.brw b h channel desc bed level stepEn ext route) p) :
    let c := s.ctx p
    let d := brwDesc c (c.list.barrows.getD desc.toNat []) bed level.toNat stepEn ext
    exec (.brw b h channel desc bed level stepEn ext route) s = .next (((s.before h p none).setPlot c.plot { s.plot c.plot with
      landings := (s.plot c.plot).landings ++
        [{ channel := channel.toNat, bed := p, index := c.index, due := s.landingAt c channel.toNat route.toNat d }] }).barrow channel.toNat
      { desc := d, plot := some (c.plot, p, c.index), tensor := (c.opnd bed).ti, route := route.toNat, due := c.cyc }) := by
  have hl : ∀ ch r d, (s.before h p none).landingAt (s.ctx p) ch r d = s.landingAt (s.ctx p) ch r d := fun ch r d => by
    unfold State.landingAt
    rw [State.before_plot, show (s.ctx p).phys = p from rfl, State.before_bed, if_pos rfl]
    rfl
  refine congrArg Host.Outcome.next ((State.issueWith_eq hI _ _).trans ?_)
  simp only [hl, State.before_plot]
  rfl

/-! ## A transfer's end -/

/-- An arrival is noted in its plot and in the run records. -/
structure Noted (s t : State) : Prop where
  eq : ∃ x y, t = { s with recs := x, plots := y }
  plot : ∀ j, ∃ e i, t.plot j = { s.plot j with early := e, inputs := i }

theorem Noted.refl (s : State) : Noted s s := ⟨⟨_, _, rfl⟩, fun _ => ⟨_, _, rfl⟩⟩

theorem Noted.trans {s t u : State} (a : Noted s t) (b : Noted t u) : Noted s u where
  eq := by
    obtain ⟨x, y, rfl⟩ := a.eq
    obtain ⟨x', y', rfl⟩ := b.eq
    exact ⟨_, _, rfl⟩
  plot j := by
    obtain ⟨e, i, h⟩ := a.plot j
    obtain ⟨e', i', h'⟩ := b.plot j
    exact ⟨e', i', by rw [h', h]⟩

theorem Noted.setPlot (s : State) (j : Nat) {x : Plot} (h : ∃ e i, x = { s.plot j with early := e, inputs := i }) :
    Noted s (s.setPlot j x) where
  eq := ⟨s.recs, _, rfl⟩
  plot k := by
    rw [State.plot_setPlot]
    split
    next hk => exact hk ▸ h
    next => exact ⟨_, _, rfl⟩

theorem State.noteInput_noted (s : State) (p idx bed index : Nat) (d : BitVec 256) : Noted s (s.noteInput p idx bed index d) := by
  unfold State.noteInput
  extract_lets bytes e own s1
  have h1 : Noted s s1 := by
    unfold s1
    split
    · obtain ⟨x, he⟩ := s.event_recs p 0x03 bed index 0 bytes
      rw [he]
      exact ⟨⟨_, _, rfl⟩, fun _ => ⟨_, _, rfl⟩⟩
    · exact .setPlot s p ⟨_, _, rfl⟩
  exact h1.trans (.setPlot s1 p ⟨_, _, rfl⟩)

theorem State.arrive_noted (s : State) (p tensor bed index : Nat) (bytes : List Byte) : Noted s (s.arrive p tensor bed index bytes) := by
  unfold State.arrive
  simp only []
  split
  · exact State.noteInput_noted _ _ _ _ _ _
  · exact .refl s

/-- The channel that a transfer leaves. -/
def Chan.finished (k : Chan) (till : Nat) : Chan :=
  { k with
    state := 0, cur := k.next.map fun n => { n with due := max n.due (till + 1) }, next := none, buffers := 0, cutRead := false
    caught := [] }

/-- What the landing of a plot's finished transfer becomes. -/
def State.landingsDone (s : State) (ch : Nat) (t : Xfer) (p : Nat) : List Landing :=
  markDone ch t.till (if dRange t.desc then some (dSlot t.desc) else none) (s.chan ch).rng (s.plot p).landings

theorem State.finish_plot {s : State} {ch : Nat} {t : Xfer} {o : Nat × Nat × Nat} (ht : (s.chan ch).cur = some t) (hp : t.plot = some o) :
    Noted ((s.setChan ch ((s.chan ch).finished t.till)).setPlot o.1 { s.plot o.1 with landings := s.landingsDone ch t o.1 }) (s.finish ch) := by
  unfold State.finish Chan.finished State.landingsDone
  simp only [ht, hp]
  exact State.arrive_noted _ _ _ _ _ _

theorem exec_barrowTransferComplete {s : State} {ch : BitVec 6} {t : Xfer} (ht : (s.chan ch.toNat).cur = some t) (hr : s.running = true)
    (he : (s.engine (hubOf ch.toNat)).state = 0) (hs : t.started = true) (hpos : t.pos = t.count) (htill : t.till < s.clk.next) :
    exec (.barrowTransferComplete ch) s = .next (s.finish ch.toNat) := by
  have ho : t.over (s.clk.next - 1) = true := by
    unfold Xfer.over
    simp only [hs, hpos, BEq.rfl, Bool.true_and, decide_eq_true_eq]
    omega
  show execBarrowTransferComplete ch s = _
  unfold execBarrowTransferComplete
  simp only [ht, hr, ho, he, Bool.and_self, BEq.rfl, if_true]

theorem exec_barrowTransferStart {s : State} {ch : BitVec 6} {t : Xfer} (ht : (s.chan ch.toNat).cur = some t) (hr : s.running = true)
    (hk : (s.chan ch.toNat).state = 0) (he : (s.engine (hubOf ch.toNat)).state = 0) (hs : t.started = false) (hd : t.due < s.clk.next)
    (good : Nat) : exec (.barrowTransferStart ch good) s = .next (s.begin ch.toNat good) := by
  show execBarrowTransferStart ch good s = _
  unfold execBarrowTransferStart
  simp only [ht, hr, hk, he, hs, decide_eq_true hd, Bool.not_false, Bool.and_self, BEq.rfl, if_true]

theorem onlyBed_barrow {s t : State} {p : Nat} (h : OnlyBed s t p) (x : Tbl Plot) (y : Brw) :
    OnlyBed { s with plots := x, brw := y } { t with plots := x, brw := y } p :=
  ⟨h.pending, h.freeN, h.clk, h.pwr, h.host, rfl, h.fwClaims, h.grd, rfl, h.ddr, h.lnk, h.sec, h.pins, h.dbg, h.bed, h.reg⟩

/-- Settles O21: a BRW from `execBrw_eq`, a start from `State.begin_firmware` and `State.begin_plot`, an end from
`State.finish_plot`. -/
theorem barrowsAreGivenBegunAndCompleted : Obligations.BarrowsAreGivenBegunAndCompleted := by
  refine ⟨?_, ?_, ?_⟩
  · intro s b h channel desc bed level stepEn ext route p i hI c ch k x
    refine ⟨_, execBrw_eq hI, ?_⟩
    have hb := s.before_only h p none
    obtain ⟨f, hf⟩ : BedIs ((s.before h p none).bed p) (s.issued h p none) := by
      rw [State.before_bed, if_pos rfl]
      exact ⟨_, rfl⟩
    generalize hu : (s.before h p none).setPlot c.plot _ = u
    have hbrw : u.brw = s.brw := by
      rw [← hu]
      exact hb.brw
    have hon := (u.barrow_onChan ch x).of_keep hbrw
    rw [State.chan_congr hbrw] at hon
    obtain ⟨y, hy⟩ := u.barrow_brw ch x
    have hself := hon.self
    unfold Chan.taken at hself
    refine ⟨?_, ?_, ?_, ?_, hon.others, hon.engines, ?_, ?_, ?_, ?_⟩
    · rw [show u.barrow channel.toNat _ = _ from hy, ← hu]
      exact onlyBed_barrow hb _ _
    · rw [show u.barrow channel.toNat _ = _ from hy, ← hu]
      exact ⟨f, hf⟩
    · rw [show u.barrow channel.toNat _ = _ from hy, ← hu]
      exact (State.plot_setPlot _ _ _ _).trans (if_pos rfl)
    · intro q hq
      rw [show u.barrow channel.toNat _ = _ from hy, ← hu]
      exact (State.plot_setPlot _ _ _ _).trans ((if_neg hq).trans (State.before_plot _ _ _ _ _))
    · intro hk
      exact hself.trans (by rw [if_pos hk])
    · intro hk hn
      exact hself.trans (by rw [if_neg hk, Chan.given_free hn])
    · intro hk hc hn
      exact hself.trans (by rw [if_neg hk, Chan.given_queued hc hn])
    · intro hk hc hn
      exact hself.trans (by rw [if_neg hk, Chan.given_full hc hn])
  · intro s ch good x hr hk he hcur hs hd
    refine ⟨_, exec_barrowTransferStart hcur hr hk he hs hd good, ?_⟩
    cases hp : x.plot with
    | none =>
      obtain ⟨n, ps, k, hself, hothers, hst, hnext, hcur', hbuf⟩ := State.begin_firmware hcur hp good
      rw [hself]
      exact ⟨hst, hnext, hothers, _, hcur', rfl, rfl, hp, fun _ hpr => hbuf hpr, fun h => absurd rfl h⟩
    | some o =>
      obtain ⟨m, y, k, hself, hothers, hst, hnext, hm, hcur', hbuf⟩ := State.begin_plot hcur hp good
      rw [hself]
      exact ⟨hst, hnext, hothers, _, hcur', rfl, rfl, hp, (nomatch ·), fun _ => ⟨rfl, rfl, hm, hbuf⟩⟩
  · intro s ch x o hr he hcur hs hpos htill hp
    refine ⟨_, exec_barrowTransferComplete hcur hr he hs hpos htill, ?_⟩
    have hn := State.finish_plot hcur hp
    obtain ⟨a, b, heq⟩ := hn.eq
    obtain ⟨e, i, hplot⟩ := hn.plot o.1
    have hon := OnChan.setChan s ch.toNat ((s.chan ch.toNat).finished x.till)
    have hbrw : (s.finish ch.toNat).brw = (s.setChan ch.toNat ((s.chan ch.toNat).finished x.till)).brw := by
      rw [heq]
      rfl
    have hon := hon.keep hbrw
    refine ⟨hon.self, hon.others, ?_, ?_⟩
    · rw [heq]
      rfl
    · rw [hplot, State.plot_setPlot, if_pos rfl]
      rfl

end Sys2Proof.Machine
end

section
/-! PROOFS. A state whose plot table lists a plot twice, and the deadline of a landing in it (R243, R279): O22. -/

namespace Sys2Proof.Machine

/-- A transfer of plot 0 whose last write has been made, with a range record. -/
def strayXfer : Xfer := { desc := descBytes [0, 0, 0, 0, 0, 0, 2 ^ 37, 0], plot := some (0, 0, 0), started := true }

/-- Plot 0 stands twice in the table, its landing in the second place: the first is the one read. -/
def twicePlotted : State where
  clk := { locked := true }
  plots := [(0, { state := 3 }), (0, { state := 3, landings := [{ channel := 0, bed := 0, index := 0, due := 0 }] })]
  brw := { chans := [(0, { state := 1, cur := some strayXfer, rng := { nonzero := 1 } })] }

/-- Its transfer ends, and no landing of the plot that is read is found to merge. -/
theorem twicePlotted_range {t : State} (h : exec (.brwLandingDeadline 0) twicePlotted = .next t) : (t.bed 0).range 0 = {} := by
  have hc : (match exec (.brwLandingDeadline 0) twicePlotted with
    | .next t => (t.bed 0).range 0 == {}
    | _ => false) = true := by decide +kernel
  rw [h] at hc
  exact beq_iff_eq.mp hc

/-- Refutes O22: the clause on a transfer whose end nothing has told asks for no rising keys. `twicePlotted` lists plot 0 twice. The
landing found first in the table is that of the second entry; a plot's number reads the first, in which the transfer's end finds no
landing of the channel, so its range record is not merged. -/
theorem not_landingDeadlinesMergeOrStop : ¬ Obligations.LandingDeadlinesMergeOrStop := by
  intro h
  obtain ⟨-, -, htold, -⟩ := h twicePlotted 0 0 { channel := 0, bed := 0, index := 0, due := 0 } rfl rfl
  obtain ⟨t, ht, -, -, -, -, -, hbed⟩ := htold strayXfer (0, 0) rfl (by decide) rfl rfl (by decide +kernel)
  have hr := congrArg (fun b : Bed => b.range 0) hbed
  rw [twicePlotted_range ht] at hr
  revert hr
  decide +kernel

end Sys2Proof.Machine
end

section
/-! PROOFS. Bus errors and recovery (R285 to R289): O23. -/

namespace Sys2Proof.Machine

/-! ## Transfers carried on under an engine -/

/-- Between two states no engine has stopped or started, none has counted a retry, and the channels kept, which have no transfer,
are as they were. -/
structure Drives (keep : Nat → Prop) (s t : State) : Prop where
  state : ∀ h, (t.engine h).state = (s.engine h).state
  retries : ∀ h, (t.engine h).retries = (s.engine h).retries
  chans : ∀ j, keep j → t.chan j = s.chan j

section
variable {keep : Nat → Prop} {s t u : State} {ch : Nat}

theorem Drives.refl (s : State) : Drives keep s s := ⟨fun _ => rfl, fun _ => rfl, fun _ _ => rfl⟩

theorem Drives.trans (a : Drives keep s t) (b : Drives keep t u) : Drives keep s u :=
  ⟨fun h => (b.state h).trans (a.state h), fun h => (b.retries h).trans (a.retries h), fun j hj => (b.chans j hj).trans (a.chans j hj)⟩

theorem Drives.of_onChan {k : Chan} (h : OnChan ch k s t) (hch : ¬keep ch) : Drives keep s t :=
  ⟨fun e => by rw [h.engines], fun e => by rw [h.engines], fun j hj => h.others j fun he => hch (he ▸ hj)⟩

theorem Drives.of_brw (h : t.brw = s.brw) : Drives keep s t :=
  ⟨fun e => by rw [State.engine_congr h], fun e => by rw [State.engine_congr h], fun j _ => State.chan_congr h j⟩

theorem Drives.setLog (s : State) (h : Nat) (log : List Access) : Drives keep s (s.setEngine h { s.engine h with log }) := by
  refine ⟨fun e => ?_, fun e => ?_, fun _ _ => rfl⟩ <;> rw [State.engine_setEngine] <;> split
  next he => rw [he]
  next => rfl
  next he => rw [he]
  next => rfl

theorem Drives.logged (s : State) (ch : Nat) : Drives keep s (s.logged ch) := by
  rcases s.logged_eq ch with h | ⟨log, h⟩
  · rw [h]
    exact .refl s
  · rw [h]
    exact .setLog _ _ _

theorem Drives.carry {t : Xfer} (ht : (s.chan ch).cur = some t) (hch : ¬keep ch) (good : Nat) : Drives keep s (s.carry ch good) := by
  obtain ⟨n, ps, k, hk, -⟩ := State.carry_onChan ht good
  exact .of_onChan hk hch

theorem Drives.dropProbe (hch : ¬keep ch) : Drives keep s (s.dropProbe ch) := by
  unfold State.dropProbe
  simp only []
  split
  · split
    · exact .of_onChan (.setChan _ _ _) hch
    · exact .refl s
  · exact .refl s

/-- The log of a hub without the accesses of a channel that have completed. -/
def State.answered (s : State) (ch pos : Nat) : State :=
  s.setEngine (hubOf ch) { s.engine (hubOf ch) with
    log := (s.engine (hubOf ch)).log.filter fun y => y.chan != ch || decide (pos ≤ y.index) }

/-- Behind a channel's change, elements counted leave its range record open. -/
theorem departed_onChan {u v : State} (h : v.brw = u.brw) (k : Chan) {y : Xfer} {pos : Nat} (hy : y.pos = pos)
    (d : List Byte) (es : List (Nat × Cnv × Val)) (n : Nat) :
    ∃ k' y', OnChan ch k' u ((v.setChan ch { k with cur := some y }).gradeCount ch d es n) ∧ k'.cur = some y' ∧ y'.pos = pos := by
  obtain ⟨r, hr⟩ := (v.setChan ch { k with cur := some y }).gradeCount_onChan ch d es n
  have h0 := OnChan.setChan v ch { k with cur := some y }
  rw [h0.self] at hr
  exact ⟨_, y, (h0.trans hr).of_keep h, rfl, hy⟩

theorem State.depart_brw (s : State) (p : Nat) (t : Xfer) (off : Nat) (out : List Byte) (a : Nat) : (s.depart p t off out a).1.brw = s.brw := rfl

/-- The next access of a plot's transfer completes: it leaves the log, and the transfer is one access further. -/
theorem State.dataCome_onChan {t : Xfer} {o : Nat × Nat × Nat} (ht : (s.chan ch).cur = some t) (hp : t.plot = some o) (a : Nat) :
    ∃ k y, OnChan ch k (s.answered ch (t.pos + 1)) (s.dataCome ch a) ∧ k.cur = some y ∧ y.pos = t.pos + 1 := by
  unfold State.dataCome
  simp only [ht, hp]
  split
  · exact ⟨_, _, .setChan _ _ _, rfl, rfl⟩
  · exact departed_onChan (State.depart_brw _ _ _ _ _ _) _ rfl _ _ _

theorem Drives.dataCome (hch : ¬keep ch) (a : Nat) : Drives keep s (s.dataCome ch a) := by
  cases ht : (s.chan ch).cur with
  | none =>
    unfold State.dataCome
    simp only [ht]
    exact .refl s
  | some t =>
    cases hp : t.plot with
    | none =>
      unfold State.dataCome
      simp only [ht, hp]
      exact .refl s
    | some o =>
      obtain ⟨k, y, hk, -⟩ := State.dataCome_onChan ht hp a
      exact (Drives.setLog _ _ _).trans (.of_onChan hk hch)

theorem Drives.unlog (s : State) (ch : Nat) : Drives keep s (s.unlog ch) := .setLog _ _ _

/-- An access that completes drives its channel alone. -/
theorem Drives.settleAccess (hN : ∀ j, keep j → (s.chan j).cur = none) (x : Access) : Drives keep s (s.settleAccess x) := by
  unfold State.settleAccess
  cases ht : (s.chan x.chan).cur with
  | none => exact .unlog _ _
  | some t =>
    have hk : ¬keep x.chan := fun h => by
      rw [hN _ h] at ht
      cases ht
    simp only []
    split
    · exact .dataCome hk _
    · exact ((Drives.carry ht hk _).trans (.unlog _ _)).trans (.dropProbe hk)

theorem Drives.idle (h : Drives keep s t) (hN : ∀ j, keep j → (s.chan j).cur = none) : ∀ j, keep j → (t.chan j).cur = none :=
  fun j hj => by rw [h.chans j hj, hN j hj]

theorem Drives.settleAll (xs : List Access) (hN : ∀ j, keep j → (s.chan j).cur = none) : Drives keep s (xs.foldl State.settleAccess s) := by
  induction xs generalizing s with
  | nil => exact .refl s
  | cons x xs ih =>
    have h := Drives.settleAccess hN x
    exact h.trans (ih (h.idle hN))

theorem Drives.goOn (chs : List Nat) (good : Nat) (hN : ∀ j, keep j → (s.chan j).cur = none) : Drives keep s (s.goOn chs good) := by
  induction chs generalizing s good with
  | nil => exact .refl s
  | cons ch chs ih =>
    unfold State.goOn
    cases ht : (s.chan ch).cur with
    | none => exact ih _ hN
    | some t =>
      have hk : ¬keep ch := fun h => by
        rw [hN _ h] at ht
        cases ht
      simp only []
      split
      · have h : Drives keep s (s.setChan ch { s.chan ch with cur := some { t with good := t.pos + min good (t.count - t.pos) } }) :=
          .of_onChan (.setChan _ _ _) hk
        exact h.trans (ih _ (h.idle hN))
      · have h := ((Drives.carry ht hk (t.pos + good)).trans (.logged _ ch)).trans (.dropProbe hk)
        exact h.trans (ih _ (h.idle hN))

end

/-! ## Channels held and let go -/

theorem State.holdChans_engine (s : State) (h : Nat) (held : Bool) (j : Nat) : (s.holdChans h held).engine j = s.engine j :=
  foldl_same (fun t : State => t.engine j) fun t e => by
    dsimp only
    split <;> rfl

/-- A channel that has not begun is neither held nor let go. -/
theorem State.holdChans_idle {s : State} {ch : Nat} (hst : ∀ e ∈ s.brw.chans, e.1 = ch → e.2.state ≠ 1 ∧ e.2.state ≠ 2) (h : Nat)
    (held : Bool) : (s.holdChans h held).chan ch = s.chan ch := by
  unfold State.holdChans
  refine List.foldlRecOn (motive := fun t : State => t.chan ch = s.chan ch) _ _ rfl fun t ht e he => ?_
  split
  next hc =>
    refine ((OnChan.setChan t e.1 _).others ch fun hne => ?_).trans ht
    exact hc.2.elim (hst e he hne.symm).1 (hst e he hne.symm).2
  next => exact ht

/-- A channel of the hub held, if it has begun. -/
def heldOf (h : Nat) (e : Nat × Chan) : Option Chan :=
  if hubOf e.1 = h ∧ (e.2.state = 1 ∨ e.2.state = 2) then some { e.2 with state := 2 } else none

theorem State.holdChans_held (s : State) (h : Nat) :
    s.holdChans h true = { s with brw := { s.brw with chans := updateAll (fun _ => {}) (heldOf h) s.brw.chans s.brw.chans } } := by
  refine foldl_eq_updateAll (fun _ => ({} : Chan)) (heldOf h) (fun c => { s with brw := { s.brw with chans := c } }) (fun b e => ?_) _ _
  unfold updateOne heldOf
  dsimp only
  split <;> rfl

theorem State.holdChans_chan {s : State} (hr : Rising s.brw.chans) (h j : Nat) :
    (s.holdChans h true).chan j = (heldOf h (j, s.chan j)).getD (s.chan j) := by
  rw [State.holdChans_held]
  exact tget_updateAll _ _ hr j (if_neg fun hc => by rcases hc.2 with h | h <;> cases h)

/-! ## The end of an incident -/

/-- A channel without a transfer that no table entry shows as begun. -/
def Idle (s : State) (ch : Nat) : Prop := (s.chan ch).cur = none ∧ ∀ e ∈ s.brw.chans, e.1 = ch → e.2.state ≠ 1 ∧ e.2.state ≠ 2

theorem State.endIncident_engine (s : State) (h : Nat) (transient : Bool) (replayed : List Access) (good : Nat) :
    ((s.endIncident h transient replayed good).engine h).state = 0 ∧ ((s.endIncident h transient replayed good).engine h).retries = 0 ∧
      ∀ ch, Idle s ch → (s.endIncident h transient replayed good).chan ch = s.chan ch := by
  unfold State.endIncident
  extract_lets e s1 s2 log s3
  have h1 : (s1.engine h).state = 0 ∧ (s1.engine h).retries = 0 := by
    unfold s1
    rw [State.engine_setEngine, if_pos rfl]
    exact ⟨rfl, rfl⟩
  have h2 : s2.brw = s1.brw := by
    unfold s2
    split
    · exact State.setFld_brw _ _ _ _ _
    · rfl
  have hc : s2.brw.chans = s.brw.chans := by rw [h2]; rfl
  clear_value s2 s1
  have hkeep : ∀ keep : Nat → Prop, (∀ j, keep j → Idle s j) → Drives keep (s2.holdChans h false) (s3.goOn
      (log ++ (s3.busyOn h).filter fun c => !log.contains c) good) ∧ ∀ j, keep j → (s2.holdChans h false).chan j = s.chan j := by
    intro keep hk
    have hchan : ∀ j, s2.chan j = s.chan j := fun j => by
      unfold State.chan
      rw [hc]
    have hhold : ∀ j, keep j → (s2.holdChans h false).chan j = s.chan j := fun j hj =>
      (State.holdChans_idle (by rw [hc]; exact (hk j hj).2) h false).trans (hchan j)
    have hN : ∀ j, keep j → ((s2.holdChans h false).chan j).cur = none := fun j hj => by rw [hhold j hj, (hk j hj).1]
    have h3 : Drives keep (s2.holdChans h false) s3 := .settleAll _ hN
    exact ⟨h3.trans (.goOn _ _ (h3.idle hN)), hhold⟩
  have h0 := (hkeep (fun _ => False) fun _ => False.elim).1
  refine ⟨?_, ?_, fun ch hch => ?_⟩
  · rw [h0.state, State.holdChans_engine, State.engine_congr h2, h1.1]
  · rw [h0.retries, State.holdChans_engine, State.engine_congr h2, h1.2]
  · obtain ⟨hd, hh⟩ := hkeep (· = ch) fun j hj => hj ▸ hch
    rw [hd.chans ch rfl, hh ch rfl]

/-! ## A channel halted -/

theorem eq_of_mem_tset {α : Type} [DecidableEq α] {d : Nat → α} {t : Tbl α} {k : Nat} {v : α} {e : Nat × α} (h : e ∈ tset d t k v)
    (hk : e.1 = k) : e = (k, v) := by
  unfold tset at h
  split at h
  · exact absurd hk (tdel_ne t k e h)
  · exact (mem_tput _ k v e h).elim id fun hd => absurd hk (tdel_ne t k e hd)

/-- The channel that halts. -/
def Chan.halted (k : Chan) : Chan := { k with state := 3, cur := none, next := none, buffers := 0, cutRead := false, caught := [] }

theorem State.complete_brw (s : State) (src : Src) (status code result : Nat) : (s.complete src status code result).brw = s.brw := by
  obtain ⟨h, he, -⟩ := s.complete_host src status code result
  rw [he]

theorem State.unreadRing_brw (s : State) (r : Nat) : (s.unreadRing r).brw = s.brw := by
  unfold State.unreadRing
  simp only []
  split <;> rfl

theorem State.dropEngine_brw (s : State) (t : Xfer) : (s.dropEngine t).brw = s.brw := by
  unfold State.dropEngine
  split <;> rfl

theorem State.haltChan_chans (s : State) (ch cause addr : Nat) :
    (s.haltChan ch cause addr).brw.chans = (s.setChan ch (s.chan ch).halted).brw.chans := by
  unfold State.haltChan
  extract_lets k s1 s2 s3 s4 fail
  have h4 : s4.brw.chans = s1.brw.chans := (congrArg Brw.chans (State.report_brw _ _ _ _ _)).trans rfl
  have hf : ∀ t x, (fail t x).brw = t.brw := by
    intro t x
    cases x with
    | none => rfl
    | some y =>
      have hring : (match y.ring with | some r => t.unreadRing r | none => t).brw = t.brw := by
        cases y.ring with
        | none => rfl
        | some r => exact State.unreadRing_brw _ _
      unfold fail
      dsimp only
      cases y.src with
      | none => exact hring
      | some src => exact (State.complete_brw _ _ _ _ _).trans ((State.dropEngine_brw _ _).trans hring)
  rw [hf, hf]
  exact h4

/-- A halted channel stays so through the end of its incident. -/
theorem State.haltChan_self (s : State) (ch cause addr : Nat) :
    (s.haltChan ch cause addr).chan ch = (s.chan ch).halted ∧ Idle (s.haltChan ch cause addr) ch := by
  have hself : (s.haltChan ch cause addr).chan ch = (s.chan ch).halted := by
    unfold State.chan
    rw [State.haltChan_chans]
    exact tget_tset_self (fun _ => ({} : Chan)) s.brw.chans ch (s.chan ch).halted
  refine ⟨hself, by rw [hself]; rfl, fun e he hk => ?_⟩
  rw [State.haltChan_chans] at he
  have he : e ∈ tset (fun _ => ({} : Chan)) s.brw.chans ch (s.chan ch).halted := he
  rw [eq_of_mem_tset he hk]
  exact ⟨Nat.succ_ne_succ_iff.mpr (by decide), Nat.succ_ne_succ_iff.mpr (by decide)⟩

/-! ## A stop -/

/-- A register that keeps its first value: neither the Barrows nor the clock change. -/
theorem State.latchReg_brw (s : State) (off : Nat) (v : W64) :
    (if s.fld off 0 1 = 1 then s else s.setReg off v).brw = s.brw ∧ (if s.fld off 0 1 = 1 then s else s.setReg off v).clk = s.clk := by
  split
  · exact ⟨rfl, rfl⟩
  · exact ⟨State.setReg_brw _ _ _, State.setReg_clk _ _ _⟩

theorem State.report_clk (s : State) (unit reporter cause detail : Nat) : (s.report unit reporter cause detail).clk = s.clk := by
  unfold State.report
  simp only []
  split
  · rfl
  · split
    · rfl
    · obtain ⟨x, he⟩ := State.setDoor_frame _ 2
      rw [he]

theorem State.ddrFail_brw (s : State) (u : Nat) : (s.ddrFail u).brw = s.brw ∧ (s.ddrFail u).clk = s.clk := by
  unfold State.ddrFail
  dsimp only
  split
  · exact ⟨rfl, rfl⟩
  generalize hs1 : ({ s with freeN := s.freeN + 1 } : State) = s1
  have h1 : s1.brw = s.brw ∧ s1.clk = s.clk := by
    rw [← hs1]
    exact ⟨rfl, rfl⟩
  generalize hs2 : s1.bump (0x90008 + 0x40 * ctlOf u) 32 16 1 = s2
  have h2 : s2.brw = s1.brw ∧ s2.clk = s1.clk := by
    rw [← hs2]
    exact ⟨State.bump_brw _ _ _ _ _, State.bump_clk _ _ _ _ _⟩
  have h3 := s2.latchReg_brw (0x90010 + 0x40 * ctlOf u) (BitVec.ofNat 64 (1 + s.readCause u * 2 + u * 2 ^ 3))
  exact ⟨(State.report_brw _ _ _ _ _).trans (h3.1.trans (h2.1.trans h1.1)),
    (State.report_clk _ _ _ _ _).trans (h3.2.trans (h2.2.trans h1.2))⟩

/-- An incident is counted at its engine; channels and the other engine stay. -/
theorem State.incident_frame (s : State) (h cause : Nat) : (s.incident h cause).clk = s.clk ∧
    (s.incident h cause).brw = (s.setEngine h { s.engine h with incidents := satAdd 32 (s.engine h).incidents 1 }).brw := by
  unfold State.incident
  extract_lets e s1 s2
  have h2 : s2.brw = s1.brw ∧ s2.clk = s.clk := by
    unfold s2
    split
    · exact ⟨rfl, rfl⟩
    · exact ⟨State.setReg_brw _ _ _, State.setReg_clk _ _ _⟩
  exact ⟨(State.report_clk _ _ _ _ _).trans h2.2, (State.report_brw _ _ _ _ _).trans h2.1⟩

/-- An engine that stops: its log stays, its begun channels are held. -/
theorem State.busError_effect {s : State} {ch : Nat} {t : Xfer} (ht : (s.chan ch).cur = some t) (hr : Rising s.brw.chans) (cause : Nat) :
    ((s.busError ch cause).engine (hubOf ch)).state = 1 ∧ ((s.busError ch cause).engine (hubOf ch)).stopAt = s.clk.cycles ∧
      ((s.busError ch cause).engine (hubOf ch)).log = (s.engine (hubOf ch)).log ∧
      (∀ j, j ≠ hubOf ch → (s.busError ch cause).engine j = s.engine j) ∧
      ∀ j, (s.busError ch cause).chan j = (heldOf (hubOf ch) (j, s.chan j)).getD (s.chan j) := by
  unfold State.busError
  simp only [ht]
  generalize hs1 : (if cause = 0 then s.ddrFail ((s.ddrBad t.next.1 t.next.2).getD (t.next.1 / 512)) else s) = s1
  have hb1 : s1.brw = s.brw ∧ s1.clk = s.clk := by
    rw [← hs1]
    split
    · exact State.ddrFail_brw _ _
    · exact ⟨rfl, rfl⟩
  generalize hs2 : (if (s1.engine (hubOf ch)).state = 0 then s1.incident (hubOf ch) cause else s1) = s2
  have hb2 : s2.brw.chans = s1.brw.chans ∧ (∃ n, s2.engine (hubOf ch) = { s1.engine (hubOf ch) with incidents := n }) ∧
      (∀ j, j ≠ hubOf ch → s2.engine j = s1.engine j) ∧ s2.clk = s1.clk := by
    rw [← hs2]
    split
    · obtain ⟨hc, hb⟩ := s1.incident_frame (hubOf ch) cause
      refine ⟨by rw [hb]; rfl, ⟨satAdd 32 (s1.engine (hubOf ch)).incidents 1, ?_⟩, fun j hj => ?_, hc⟩
      · rw [State.engine_congr hb, State.engine_setEngine, if_pos rfl]
      · rw [State.engine_congr hb, State.engine_setEngine, if_neg hj]
    · exact ⟨rfl, ⟨_, rfl⟩, fun _ _ => rfl, rfl⟩
  obtain ⟨hchans, ⟨n, hn⟩, hother, hclk⟩ := hb2
  refine ⟨?_, ?_, ?_, fun j hj => ?_, fun j => ?_⟩
  · rw [State.holdChans_engine, State.engine_setEngine, if_pos rfl]
  · rw [State.holdChans_engine, State.engine_setEngine, if_pos rfl, hclk, hb1.2]
  · rw [State.holdChans_engine, State.engine_setEngine, if_pos rfl, hn, State.engine_congr hb1.1]
  · rw [State.holdChans_engine, State.engine_setEngine, if_neg hj, hother j hj, State.engine_congr hb1.1]
  · have hcs : s2.brw.chans = s.brw.chans := hchans.trans (congrArg Brw.chans hb1.1)
    have hj : (s2.setEngine (hubOf ch) { s2.engine (hubOf ch) with state := 1, stopAt := s2.clk.cycles, cause }).chan j = s.chan j := by
      unfold State.chan
      rw [← hcs]
      rfl
    rw [State.holdChans_chan (show Rising _ from hcs ▸ hr), hj]

/-! ## The commands -/

theorem exec_busError {s : State} {ch : BitVec 6} {cause : BitVec 3} (h : s.mayFail ch.toNat cause.toNat = true) :
    exec (if cause = 5 then .hostCompletionTimeout ch else .busError ch cause) s = .next (s.busError ch.toNat cause.toNat) := by
  split
  next hc =>
    subst hc
    show execHostCompletionTimeout ch s = _
    unfold execHostCompletionTimeout
    exact if_pos h
  next hc =>
    show execBusError ch cause s = _
    unfold execBusError
    exact if_pos ⟨hc, h⟩

theorem State.cur_of_mayFail {s : State} {ch cause : Nat} (h : s.mayFail ch cause = true) : ∃ t, (s.chan ch).cur = some t := by
  unfold State.mayFail at h
  cases hc : (s.chan ch).cur with
  | none => simp [hc] at h
  | some t => exact ⟨t, rfl⟩

/-- An engine that replays its log, of which n accesses have answered. -/
def replaying (e : Engine) (n : Nat) : Engine := { e with state := 2, retries := e.retries + 1, replayed := n }

/-- What ENGINE_RESTART does with a stopped engine. -/
def State.retried (s : State) (h good : Nat) : State :=
  let e := s.engine h
  if e.retries < s.fld 0x80010 0 3 then
    let s' := s.setEngine h (replaying e (s.replay e.log good))
    if s.replay e.log good = e.log.length then s'.endIncident h true e.log (good - s.replay e.log good) else s'
  else s.setEngine h { e with state := 3 }

theorem State.retried_whole {s : State} {h good : Nat} (hm : (s.engine h).retries < s.fld 0x80010 0 3)
    (hf : s.replay (s.engine h).log good = (s.engine h).log.length) : s.retried h good =
      (s.setEngine h (replaying (s.engine h) (s.replay (s.engine h).log good))).endIncident h true (s.engine h).log
        (good - s.replay (s.engine h).log good) := by
  unfold State.retried
  simp only [if_pos hm, if_pos hf]

theorem execEngineRestart_eq (hub : Bool) (good : Nat) {s : State} (hr : s.running = true) : exec (.engineRestart hub good) s =
    .next (if (s.engine (b2n hub)).state = 2 ∧ (s.engine (b2n hub)).log.length ≤ (s.engine (b2n hub)).replayed
      then s.endIncident (b2n hub) true (s.engine (b2n hub)).log good
      else if s.restarts (s.engine (b2n hub)) = true then s.retried (b2n hub) good else s) := by
  show execEngineRestart hub good s = _
  unfold execEngineRestart
  rw [show (if hub = true then 1 else 0) = b2n hub from rfl]
  simp only [hr, Bool.true_and, Bool.and_eq_true, beq_iff_eq, decide_eq_true_eq]
  split
  · rfl
  · split
    · unfold State.retried
      simp only []
      split <;> rfl
    · rfl

theorem execEngineRestart_stopped {s : State} {hub : Bool} (hr : s.running = true) (hs : (s.engine (b2n hub)).state = 1) (good : Nat) :
    exec (.engineRestart hub good) s =
      .next (if (s.engine (b2n hub)).stopAt + 1024 < s.clk.next then s.retried (b2n hub) good else s) := by
  rw [execEngineRestart_eq hub good hr, if_neg fun h => by rw [hs] at h; exact absurd h.1 (by decide)]
  unfold State.restarts
  simp only [hs, BEq.rfl, Bool.true_and, decide_eq_true_eq]

theorem execEngineRestart_replaying {s : State} {hub : Bool} (hr : s.running = true) (hs : (s.engine (b2n hub)).state = 2) (good : Nat) :
    exec (.engineRestart hub good) s = .next (if (s.engine (b2n hub)).log.length ≤ (s.engine (b2n hub)).replayed
      then s.endIncident (b2n hub) true (s.engine (b2n hub)).log good else s) := by
  rw [execEngineRestart_eq hub good hr]
  unfold State.restarts
  simp [hs]

theorem execIsolationAccess_eq {s : State} {ch : BitVec 6} {x : Access} {rest : List Access} (hr : s.running = true)
    (hs : (s.engine (hubOf ch.toNat)).state = 3) (hl : (s.engine (hubOf ch.toNat)).log = x :: rest) (hx : x.chan = ch.toNat)
    {good : Nat} (hg : s.replay [x] good = 1) (hn : rest ≠ []) : exec (.isolationAccess ch good) s = .next (s.settleAccess x) := by
  show execIsolationAccess ch good s = _
  unfold execIsolationAccess
  simp only [hr, hs, hl, hx, hg, hn, BEq.rfl, Bool.and_self, if_true, if_false]

/-- The first access of an isolated engine's log fails. -/
theorem execIsolationAccess_fails {s : State} {ch : BitVec 6} {x : Access} {rest : List Access} (hr : s.running = true)
    (hs : (s.engine (hubOf ch.toNat)).state = 3) (hl : (s.engine (hubOf ch.toNat)).log = x :: rest) (hx : x.chan = ch.toNat) :
    ∃ (u : State) (cause addr : Nat) (replayed : List Access) (good : Nat), exec (.isolationAccess ch 0) s =
      .next ((u.haltChan ch.toNat cause addr).endIncident (hubOf ch.toNat) false replayed good) := by
  have hg : ¬s.replay [x] 0 = 1 := by
    unfold State.replay
    exact Nat.zero_ne_one
  show ∃ (u : State) (cause addr : Nat) (replayed : List Access) (good : Nat), execIsolationAccess ch 0 s = _
  unfold execIsolationAccess
  simp only [hr, hs, hl, hx, hg, BEq.rfl, Bool.and_self, if_true, if_false]
  exact ⟨_, _, _, _, _, rfl⟩

theorem State.replay_one {s : State} {x : Access} (h : s.replays x = true) {good : Nat} (hg : 0 < good) : s.replay [x] good = 1 := by
  unfold State.replay
  rw [List.take_of_length_le (show [x].length ≤ good from hg), List.takeWhile_cons, if_pos h]
  rfl

theorem State.dropProbe_engine (s : State) (ch h : Nat) : (s.dropProbe ch).engine h = s.engine h := by
  unfold State.dropProbe
  simp only []
  split
  · split <;> rfl
  · rfl

/-- Behind an access that completes, its firmware channel has no other in the log. -/
theorem State.settleAccess_firmware {s : State} {x : Access} {y : Xfer} (hy : (s.chan x.chan).cur = some y) (hp : y.plot = none) :
    ((s.settleAccess x).engine (hubOf x.chan)).log = (s.engine (hubOf x.chan)).log.filter fun a => a.chan != x.chan := by
  obtain ⟨n, ps, k, hk, -⟩ := State.carry_onChan hy (x.index + 1)
  unfold State.settleAccess
  simp only [hy, hp, Option.isSome_none, Bool.false_eq_true, if_false]
  rw [State.dropProbe_engine]
  unfold State.unlog
  rw [State.engine_setEngine, if_pos rfl, hk.engines]

theorem State.settleAccess_plot {s : State} {x : Access} {y : Xfer} (hy : (s.chan x.chan).cur = some y) (hp : y.plot ≠ none) :
    ((s.settleAccess x).engine (hubOf x.chan)).log =
        (s.engine (hubOf x.chan)).log.filter (fun a => a.chan != x.chan || decide (y.pos + 1 ≤ a.index)) ∧
      ∃ z, ((s.settleAccess x).chan x.chan).cur = some z ∧ z.pos = y.pos + 1 := by
  obtain ⟨o, ho⟩ := Option.ne_none_iff_exists'.mp hp
  have hsettle : s.settleAccess x = s.dataCome x.chan s.clk.cycles := by
    unfold State.settleAccess
    simp only [hy, ho, Option.isSome_some, if_true]
  obtain ⟨k, z, hk, hz, hpos⟩ := State.dataCome_onChan hy ho s.clk.cycles
  rw [hsettle, hk.self, hk.engines]
  refine ⟨?_, z, hz, hpos⟩
  unfold State.answered
  rw [State.engine_setEngine, if_pos rfl]

theorem exec_clearHalt {s : State} {rid : BitVec 16} {ch : BitVec 6} (h : Served s rid) (hs : (s.chan ch.toNat).state = 3)
    (hc : 28 ≤ ch.toNat % 32) : exec (.clearHalt rid ch) s = .next (s.setChan ch.toNat { s.chan ch.toNat with state := 0 }) := by
  obtain ⟨halive, -, hmine⟩ := h
  show execClearHalt rid ch s = _
  unfold execClearHalt State.bar0 State.clearHalt
  simp only [halive, hmine, hs, hc, Bool.not_true, Bool.false_eq_true, if_false, and_self, if_true]

/-- Settles O23: the stop from `State.busError_effect`, the end of an incident from `State.endIncident_engine`. -/
theorem busErrorsStopOneHubAndTheManagerHaltsOneChannel : Obligations.BusErrorsStopOneHubAndTheManagerHaltsOneChannel := by
  unfold Obligations.BusErrorsStopOneHubAndTheManagerHaltsOneChannel
  refine ⟨fun s ch cause hm hT => ?_, fun s hub good hr => ⟨fun hs hw => ?_, fun hs hw => ?_, fun hs hw => ?_, fun hs hw => ?_⟩,
    fun s ch good x rest hr hs hl hx hn hx1 hg => ?_, fun s ch x rest hr hs hl hx => ?_, fun s rid ch hS hs hc => ?_⟩
  · obtain ⟨t, ht⟩ := State.cur_of_mayFail hm
    obtain ⟨hst, hat, hlog, hothers, hchans⟩ := State.busError_effect ht hT.chans cause.toNat
    refine ⟨_, exec_busError hm, hst, hat, hlog, hothers, fun e _ he hb => ?_, fun j hj => ?_⟩
    · rw [hchans]
      unfold heldOf
      rw [if_pos ⟨he, hb⟩]
      rfl
    · rw [hchans]
      unfold heldOf
      rw [if_neg fun h => hj h.1]
      rfl
  · rw [execEngineRestart_stopped hr hs, if_neg (Nat.not_lt.mpr hw)]
  · refine ⟨_, (execEngineRestart_stopped hr hs good).trans (congrArg _ (if_pos hw)), fun hm => ?_, fun hm => ⟨fun hf => ?_, fun hf => ?_⟩⟩
    · unfold State.retried
      exact if_neg (Nat.not_lt.mpr hm)
    · unfold State.retried
      simp only [if_pos hm, if_neg hf]
      rfl
    · rw [State.retried_whole hm hf]
      obtain ⟨hz, hret, -⟩ := State.endIncident_engine _ (b2n hub) true (s.engine (b2n hub)).log _
      exact ⟨hz, hret⟩
  · rw [execEngineRestart_replaying hr hs, if_neg (Nat.not_le.mpr hw)]
  · obtain ⟨hz, hret, -⟩ := s.endIncident_engine (b2n hub) true (s.engine (b2n hub)).log good
    exact ⟨_, (execEngineRestart_replaying hr hs good).trans (congrArg _ (if_pos hw)), hz, hret⟩
  · refine ⟨_, execIsolationAccess_eq hr hs hl hx (State.replay_one hx1 hg) hn, ?_, fun y hy => ?_⟩
    · rw [(Drives.settleAccess (keep := fun _ => False) (fun _ => False.elim) x).state, hs]
    · rw [← hx] at hy hl ⊢
      refine ⟨fun hp => ?_, fun hp => ?_⟩
      · rw [State.settleAccess_firmware hy hp, hl, List.filter_cons, if_neg (by simp)]
      · rw [← hl]
        exact State.settleAccess_plot hy hp
  · obtain ⟨u, cause, addr, replayed, good, he⟩ := execIsolationAccess_fails hr hs hl hx
    obtain ⟨hk, hidle⟩ := u.haltChan_self ch.toNat cause addr
    obtain ⟨hz, -, hkeep⟩ := (u.haltChan ch.toNat cause addr).endIncident_engine (hubOf ch.toNat) false replayed good
    refine ⟨_, he, hz, ?_⟩
    rw [hkeep _ hidle, hk]
    exact ⟨rfl, rfl, rfl, rfl⟩
  · have hk := OnChan.setChan s ch.toNat { s.chan ch.toNat with state := 0 }
    refine ⟨_, exec_clearHalt hS hs hc, ?_, hk.others⟩
    rw [hk.self]

end Sys2Proof.Machine
end

section
/-! PROOFS. The frames of LPDDR5 and the scrubber (R255, R257, R294, R300): O24. -/

namespace Sys2Proof.Machine

/-- A report changes the fault entries and the host's doorbell, and nothing else. -/
theorem State.report_frame (s : State) (unit reporter cause detail : Nat) :
    ∃ g h, s.report unit reporter cause detail = { s with grd := g, host := h } := by
  unfold State.report
  simp only []
  split
  · exact ⟨_, s.host, rfl⟩
  · split
    · exact ⟨_, s.host, rfl⟩
    · obtain ⟨h, he⟩ := State.setDoor_frame _ 2
      exact ⟨_, h, he⟩

theorem State.reports_frame {ι : Type} (xs : List ι) (unit reporter cause : Nat) (detail : ι → Nat) (s : State) :
    ∃ g h, xs.foldl (fun (s : State) e => s.report unit reporter cause (detail e)) s = { s with grd := g, host := h } := by
  induction xs generalizing s with
  | nil => exact ⟨s.grd, s.host, rfl⟩
  | cons x xs ih =>
    obtain ⟨g, h, he⟩ := s.report_frame unit reporter cause (detail x)
    obtain ⟨g', h', he'⟩ := ih { s with grd := g, host := h }
    exact ⟨g', h', by rw [List.foldl_cons, he, he']⟩

/-! ## Error logs -/

theorem execLpddr5Frame_again {s : State} {c : BitVec 5} (h : (s.ctl c.toNat).logRead = some s.frame) (logged : Bool) :
    exec (.lpddr5Frame c logged) s = .next s := by
  show execLpddr5Frame c logged s = _
  unfold execLpddr5Frame
  exact if_pos (.inr (.inr h))

theorem execLpddr5Frame_clean {s : State} {c : BitVec 5} (hc : c.toNat < 24) (hs : (s.ctl c.toNat).state = 2)
    (h : (s.ctl c.toNat).logRead ≠ some s.frame) :
    exec (.lpddr5Frame c false) s = .next (s.setCtl c.toNat ((s.ctl c.toNat).logged s.frame)) := by
  show execLpddr5Frame c false s = _
  unfold execLpddr5Frame
  exact if_neg fun hn => hn.elim (by omega) fun hn => hn.elim (· hs) h

/-- A logged error: the list of the controller, the error counted, and up to two reports. -/
theorem execLpddr5Frame_logged {s : State} {c : BitVec 5} (hc : c.toNat < 24) (hs : (s.ctl c.toNat).state = 2)
    (h : (s.ctl c.toNat).logRead ≠ some s.frame) : ∃ g x, exec (.lpddr5Frame c true) s =
      .next { (s.setCtl c.toNat ((s.ctl c.toNat).poisonAll s.frame).1).bump (0x90008 + 0x40 * c.toNat) 48 16 1 with grd := g, host := x } := by
  show ∃ g x, execLpddr5Frame c true s = _
  unfold execLpddr5Frame
  simp only [if_neg (show ¬(24 ≤ c.toNat ∨ (s.ctl c.toNat).state ≠ 2 ∨ (s.ctl c.toNat).logRead = some s.frame) from
    fun hn => hn.elim (by omega) fun hn => hn.elim (· hs) h), if_true]
  generalize (s.setCtl c.toNat ((s.ctl c.toNat).poisonAll s.frame).1).bump (0x90008 + 0x40 * c.toNat) 48 16 1 = t
  obtain ⟨g, x, he⟩ := t.report_frame (unitId 4 c.toNat) (unitId 4 c.toNat) 0x81 ((s.ctl c.toNat).poisonAll s.frame).2.1
  rw [he]
  split
  · obtain ⟨g', x', he'⟩ := State.report_frame { t with grd := g, host := x } (unitId 4 c.toNat) (unitId 4 c.toNat) 0x82 0
    exact ⟨g', x', congrArg _ he'⟩
  · exact ⟨g, x, rfl⟩

theorem Ctl.poisonAll_fits {k : Ctl} {f : Nat} (h : (k.poison ++ k.suspects f).length ≤ 256) :
    (k.poisonAll f).1 = { k.logged f with poison := k.poison ++ k.suspects f } := by
  unfold Ctl.poisonAll
  simp only [if_neg (Nat.not_lt.mpr h)]

theorem Ctl.poisonAll_over {k : Ctl} {f : Nat} (h : 256 < (k.poison ++ k.suspects f).length) :
    (k.poisonAll f).1 = { k.logged f with state := 3, poison := (k.poison ++ k.suspects f).take 256 } := by
  unfold Ctl.poisonAll
  simp only [if_pos h]

theorem State.bump_ctl (s : State) (off lo n k c : Nat) : (s.bump off lo n k).ctl c = s.ctl c :=
  congrArg (fun d : Ddr => tget (fun _ => ({} : Ctl)) d.ctls c) (State.bump_ddr s off lo n k)

/-! ## The scrubber -/

/-- What the scrubber does with the errors of a line that it reads. -/
def Bed.scrubErrs (b : Bed) (errs : List (Nat × Nat)) : Bed :=
  errs.foldl (fun (b : Bed) e => if e.2 < 138 then b.correct e.1 (e.2 - 1) else b.uncorrect e.1 true 0) b

/-- A register written, and perhaps another. -/
theorem Bed.latched_regs (b : Bed) (off off' : Nat) (v v' : W64) (c : Bed → Prop) [DecidablePred c] :
    ∃ r, (if c (b.setReg off v) then b.setReg off v else (b.setReg off v).setReg off' v') = { b with regs := r } := by
  split <;> exact ⟨_, rfl⟩

theorem Bed.correct_regs (b : Bed) (granule position : Nat) : ∃ r, b.correct granule position = { b with regs := r } :=
  b.latched_regs _ _ _ _ fun b => wfld (b.reg 0x808) 0 1 = 1

theorem Bed.uncorrect_regs (b : Bed) (granule : Nat) (byScrub : Bool) (index : Nat) :
    ∃ r, b.uncorrect granule byScrub index = { b with regs := r } :=
  b.latched_regs _ _ _ _ fun b => wfld (b.reg 0x810) 0 1 = 1

/-- Counting the errors of a line changes registers alone. -/
theorem Bed.scrubErrs_regs (b : Bed) (errs : List (Nat × Nat)) : ∃ r, b.scrubErrs errs = { b with regs := r } := by
  refine List.foldlRecOn (motive := fun x : Bed => ∃ r, x = { b with regs := r }) errs _ ⟨b.regs, rfl⟩ ?_
  rintro _ ⟨r, rfl⟩ e -
  split
  · obtain ⟨r', he⟩ := Bed.correct_regs { b with regs := r } e.1 (e.2 - 1)
    exact ⟨r', he⟩
  · obtain ⟨r', he⟩ := Bed.uncorrect_regs { b with regs := r } e.1 true 0
    exact ⟨r', he⟩

/-- The bed whose scrubber has read its line. -/
def Bed.scrubbedLine (b : Bed) : Bed :=
  let b' : Bed := { b.scrubErrs (b.lineErrs b.scrubLine) with
    scrubPending := if (b.lineErrs b.scrubLine).any fun e => decide (e.2 < 138) then some b.scrubLine else none
    scrubLine := (b.scrubLine + 1) % 524288 }
  if b.scrubLine + 1 = 524288 then b'.setReg 0x818 (wset (b'.reg 0x818) 15 32 (wfld (b'.reg 0x818) 15 32 + 1)) else b'

theorem Bed.scrubbedLine_regs (b : Bed) : ∃ r, b.scrubbedLine =
    { b with
      regs := r
      scrubPending := if (b.lineErrs b.scrubLine).any fun e => decide (e.2 < 138) then some b.scrubLine else none
      scrubLine := (b.scrubLine + 1) % 524288 } := by
  obtain ⟨r, hr⟩ := b.scrubErrs_regs (b.lineErrs b.scrubLine)
  unfold Bed.scrubbedLine
  simp only [hr]
  split <;> exact ⟨_, rfl⟩

/-- A line without errors. -/
theorem Bed.scrubbedLine_clean {b : Bed} (he : b.lineErrs b.scrubLine = []) (hl : b.scrubLine + 1 < 524288) (hp : b.scrubPending = none) :
    b.scrubbedLine = { b with scrubLine := b.scrubLine + 1 } := by
  unfold Bed.scrubbedLine
  simp only [he, if_neg (Nat.ne_of_lt hl), Nat.mod_eq_of_lt hl, List.any_nil, Bool.false_eq_true, if_false]
  rw [← hp]
  rfl

theorem execScrubRead_eq {s : State} {p : BitVec 8} (hp : p.toNat < 132) (hr : s.running = true)
    (hon : wfld ((s.bed p.toNat).reg 0x818) 0 1 = 1) (hn : (s.bed p.toNat).scrubPending = none) (ha : (s.bed p.toNat).admin < 2)
    (hi : s.scrubIdle p.toNat ((s.bed p.toNat).scrubLine % 32) = true) : ∃ t f, exec (.scrubRead p) s = .next t ∧
      t.bed p.toNat = { (s.bed p.toNat).scrubbedLine with fencePending := f } ∧ ∀ q, q ≠ p.toNat → t.bed q = s.bed q := by
  obtain ⟨g, x, he⟩ := State.reports_frame (((s.bed p.toNat).lineErrs (s.bed p.toNat).scrubLine).filter fun e => decide (138 ≤ e.2))
    (unitId 1 p.toNat) (unitId 1 p.toNat) 0x88 (fun e => 16 * e.1) (s.setBed p.toNat (s.bed p.toNat).scrubbedLine)
  obtain ⟨⟨f, hf⟩, hothers⟩ := State.watchEcc_bed { s.setBed p.toNat (s.bed p.toNat).scrubbedLine with grd := g, host := x } p.toNat
  refine ⟨_, f, ?_, hf.trans ?_, fun q hq => (hothers q hq).trans ?_⟩
  · show execScrubRead p s = _
    unfold execScrubRead
    simp only [if_pos (⟨hp, hr, hon, hn, ha, hi⟩ : _ ∧ _ ∧ _ ∧ _ ∧ _ ∧ _)]
    rw [← he]
    rfl
  · rw [show State.bed { s.setBed p.toNat (s.bed p.toNat).scrubbedLine with grd := g, host := x } p.toNat = _ from
      (State.bed_setBed s p.toNat p.toNat _).trans (if_pos rfl)]
  · exact (State.bed_setBed s p.toNat q _).trans (if_neg hq)

/-- A line written back. -/
def Bed.mendLine (b : Bed) (errs : List (Nat × Nat)) : Bed := errs.foldl (fun (b : Bed) e => if e.2 < 138 then b.setEcc e.1 0 else b) b

theorem Bed.mendLine_ecc (b : Bed) (errs : List (Nat × Nat)) : b.mendLine errs = { b with ecc := (b.mendLine errs).ecc } := by
  refine List.foldlRecOn (motive := fun x : Bed => x = { b with ecc := x.ecc }) errs _ rfl fun x hx e _ => ?_
  split
  · rw [hx]
    rfl
  · exact hx

theorem Bed.mendLine_eccAt (b : Bed) (errs : List (Nat × Nat)) (g : Nat) :
    (b.mendLine errs).eccAt g = if ∃ e ∈ errs, e.1 = g ∧ e.2 < 138 then 0 else b.eccAt g := by
  induction errs generalizing b with
  | nil => simp [Bed.mendLine]
  | cons e errs ih =>
    have hset : (b.setEcc e.1 0).eccAt g = if g = e.1 then 0 else b.eccAt g := tget_tset (fun _ => 0) b.ecc e.1 0 g
    unfold Bed.mendLine at ih ⊢
    rw [List.foldl_cons, ih]
    simp only [List.exists_mem_cons_iff]
    by_cases hlt : e.2 < 138
    · rw [if_pos hlt, hset]
      by_cases hg : g = e.1
      · simp [hg, hlt]
      · rw [if_neg hg]
        exact if_congr (by simp [Ne.symm hg]) rfl rfl
    · rw [if_neg hlt]
      exact if_congr (by simp [hlt]) rfl rfl

theorem execScrubWriteback_eq {s : State} {p : BitVec 8} {line : Nat} (hr : s.running = true)
    (hp : (s.bed p.toNat).scrubPending = some line) (hi : s.scrubIdle p.toNat (line % 32) = true) : exec (.scrubWriteback p) s =
      .next (s.setBed p.toNat (Bed.mendLine { s.bed p.toNat with scrubPending := none } ((s.bed p.toNat).lineErrs line))) := by
  show execScrubWriteback p s = _
  unfold execScrubWriteback
  simp only [hp, hr, hi, and_self, if_true]
  rfl

/-- The granules that a write-back clears, where each has one entry. -/
theorem exists_correctable_iff {b : Bed} {line g : Nat} (h : ∀ e ∈ b.ecc, e.1 = g → e.2 = b.eccAt g) (h0 : b.eccAt g ≠ 0) :
    (∃ e ∈ b.lineErrs line, e.1 = g ∧ e.2 < 138) ↔ g / 4 = line ∧ b.eccAt g < 138 := by
  constructor
  · rintro ⟨e, he, rfl, hlt⟩
    obtain ⟨hmem, hline⟩ := List.mem_filter.mp he
    rw [← h e hmem rfl]
    exact ⟨of_decide_eq_true hline, hlt⟩
  · rintro ⟨hline, hlt⟩
    have hex : ∃ e ∈ b.ecc, e.1 = g := by
      by_contra hno
      push Not at hno
      exact h0 (tget_of_notMem _ hno)
    obtain ⟨e, hmem, heg⟩ := hex
    exact ⟨e, List.mem_filter.mpr ⟨hmem, decide_eq_true (by rw [heg, hline])⟩, heg, by rw [h e hmem heg]; exact hlt⟩

/-- Settles O24: the logs from `execLpddr5Frame_logged` and `Ctl.poisonAll`, a read from `Bed.scrubbedLine_regs`, a write-back from
`Bed.mendLine_eccAt`. -/
theorem memoryErrorsArePoisonedAndScrubbed : Obligations.MemoryErrorsArePoisonedAndScrubbed := by
  unfold Obligations.MemoryErrorsArePoisonedAndScrubbed
  refine ⟨fun s c logged hc hs => ⟨fun hl => execLpddr5Frame_again hl logged, fun hl => ?_⟩, fun s p hp hr hon hn ha hi => ?_,
    fun s p line hr hp hi => ?_⟩
  · cases logged with
    | false =>
      refine ⟨_, execLpddr5Frame_clean hc hs hl, rfl, fun j hj => ?_, fun _ => ⟨?_, rfl⟩, nofun, nofun, nofun⟩
      · rw [State.ctl_setCtl, if_neg hj]
      · rw [State.ctl_setCtl, if_pos rfl]
        rfl
    | true =>
      obtain ⟨g, x, he⟩ := execLpddr5Frame_logged hc hs hl
      have hctl := fun j => (State.bump_ctl (s.setCtl c.toNat ((s.ctl c.toNat).poisonAll s.frame).1) (0x90008 + 0x40 * c.toNat) 48 16 1 j).trans
        (State.ctl_setCtl s c.toNat j ((s.ctl c.toNat).poisonAll s.frame).1)
      have hmem := congrArg Ddr.mem
        (State.bump_ddr (s.setCtl c.toNat ((s.ctl c.toNat).poisonAll s.frame).1) (0x90008 + 0x40 * c.toNat) 48 16 1)
      refine ⟨_, he, hmem, fun j hj => (hctl j).trans (if_neg hj), nofun, fun _ hfit => ?_,
        fun _ hover => ?_, fun _ => State.fld_bump_self _ _ _ (by decide)⟩
      · exact ((hctl _).trans (if_pos rfl)).trans (Ctl.poisonAll_fits hfit)
      · exact ((hctl _).trans (if_pos rfl)).trans (Ctl.poisonAll_over hover)
  · obtain ⟨t, f, he, hbed, hothers⟩ := execScrubRead_eq hp hr hon hn ha hi
    obtain ⟨r, hx⟩ := (s.bed p.toNat).scrubbedLine_regs
    refine ⟨t, he, hothers, ?_, ?_, ?_, ?_, fun hclean hlt => ⟨f, ?_⟩⟩
    · rw [hbed, hx]
    · rw [hbed, hx]
    · rw [hbed, hx]
    · rw [hbed, hx]
      simp
    · rw [hbed, Bed.scrubbedLine_clean hclean hlt hn]
  · have hbed := (State.bed_setBed s p.toNat p.toNat
      (Bed.mendLine { s.bed p.toNat with scrubPending := none } ((s.bed p.toNat).lineErrs line))).trans (if_pos rfl)
    refine ⟨_, execScrubWriteback_eq hr hp hi, fun q hq => (State.bed_setBed s p.toNat q _).trans (if_neg hq), ?_, fun g hg => ?_⟩
    · rw [hbed]
      exact Bed.mendLine_ecc _ _
    · rw [hbed, Bed.mendLine_eccAt]
      show (if _ then 0 else (s.bed p.toNat).eccAt g) = _
      by_cases h0 : (s.bed p.toNat).eccAt g = 0
      · rw [h0, ite_self, ite_self]
      · simp only [exists_correctable_iff hg h0]

end Sys2Proof.Machine
end

section
/-! PROOFS. Session entries and nursery orders (R303, R308, R309): O25. -/

namespace Sys2Proof.Machine

/-! ## Writes of module memory -/

theorem State.ddrWrite_ctls (s : State) (a : Nat) (bytes : List Byte) : ∃ mem ctls,
    s.ddrWrite a bytes = { s with ddr := { s.ddr with mem, ctls } } ∧
      ((unitsOf a bytes.length).all (fun u => decide (u < ddrSize / 512) && (s.ctl (ctlOf u)).state == 2) = true →
        mem = mwrite 0 s.ddr.mem a bytes) := by
  unfold State.ddrWrite
  extract_lets n us live mem d s'
  have hfold : ∃ ctls, (List.range 24).foldl (fun (s : State) c => match us.filter fun u => ctlOf u == c && live u with
      | [] => s
      | mine => s.setCtl c ((s.ctl c).written s.frame a n mine)) s' = { s' with ddr := { s'.ddr with ctls } } := by
    refine List.foldlRecOn (motive := fun t : State => ∃ ctls, t = { s' with ddr := { s'.ddr with ctls } }) _ _ ⟨s'.ddr.ctls, rfl⟩ ?_
    rintro _ ⟨ctls, rfl⟩ i -
    split
    · exact ⟨ctls, rfl⟩
    · exact ⟨_, rfl⟩
  obtain ⟨ctls, hc⟩ := hfold
  refine ⟨mem, ctls, hc, fun hall => if_pos hall⟩

theorem unitsOf_line {a : Nat} (h : a % 64 = 0) : unitsOf a 64 = [a / 512] := by
  have hn : (a + 64 - 1) / 512 + 1 - a / 512 = 1 := by omega
  unfold unitsOf
  rw [if_neg (by decide), hn]
  rfl

/-- A line of 64 bytes written in a controller in service. -/
theorem State.ddrWrite_live {s : State} {a : Nat} {bytes : List Byte} (h : Live s a) (hb : bytes.length = 64) :
    ∃ ctls, s.ddrWrite a bytes = { s with ddr := { s.ddr with mem := mwrite 0 s.ddr.mem a bytes, ctls } } := by
  obtain ⟨hin, halign, hlive⟩ := h
  obtain ⟨mem, ctls, he, hmem⟩ := s.ddrWrite_ctls a bytes
  have hunit : a / 512 < ddrSize / 512 := by
    unfold ddrSize at hin ⊢
    omega
  refine ⟨ctls, ?_⟩
  rw [he, hmem]
  rw [hb, unitsOf_line halign]
  simp [hunit, hlive]

/-! ## What a lost entry and a failed read leave -/

theorem State.setDoor_rings (s : State) (b : Nat) :
    (s.setDoor b).host.rings = s.host.rings ∧ (s.setDoor b).host.mbReq = s.host.mbReq := by
  by_cases hr : s.ready = true
  · obtain ⟨p, q, h⟩ := s.setDoor_eq b hr
    rw [h]
    exact ⟨rfl, rfl⟩
  · rw [show s.setDoor b = s from if_pos (by simp [hr])]
    exact ⟨rfl, rfl⟩

theorem State.report_rings (s : State) (unit reporter cause detail : Nat) :
    (s.report unit reporter cause detail).host.rings = s.host.rings ∧
      (s.report unit reporter cause detail).host.mbReq = s.host.mbReq := by
  unfold State.report
  simp only []
  split
  · exact ⟨rfl, rfl⟩
  · split
    · exact ⟨rfl, rfl⟩
    · exact State.setDoor_rings _ 2

/-- A register that keeps its first value leaves what requests are read from. -/
theorem State.latchReg_host (s : State) (off : Nat) (v : W64) : (if s.fld off 0 1 = 1 then s else s.setReg off v).host = s.host := by
  split
  · rfl
  · exact State.setReg_host _ _ _

theorem State.ddrFail_rings (s : State) (u : Nat) : (s.ddrFail u).host.rings = s.host.rings ∧
    (s.ddrFail u).host.mbReq = s.host.mbReq := by
  unfold State.ddrFail
  dsimp only
  split
  · exact ⟨rfl, rfl⟩
  generalize hs1 : ({ s with freeN := s.freeN + 1 } : State) = s1
  have h1 : s1.host = s.host := by rw [← hs1]
  generalize hs2 : s1.bump (0x90008 + 0x40 * ctlOf u) 32 16 1 = s2
  have h2 : s2.host = s1.host := by
    rw [← hs2]
    exact State.bump_host _ _ _ _ _
  have h3 := s2.latchReg_host (0x90010 + 0x40 * ctlOf u) (BitVec.ofNat 64 (1 + s.readCause u * 2 + u * 2 ^ 3))
  generalize (if s2.fld (0x90010 + 0x40 * ctlOf u) 0 1 = 1 then s2
    else s2.setReg (0x90010 + 0x40 * ctlOf u) (BitVec.ofNat 64 (1 + s.readCause u * 2 + u * 2 ^ 3))) = s3 at h3 ⊢
  obtain ⟨hr, hm⟩ := s3.report_rings (unitId 4 (ctlOf u)) (unitId 4 (ctlOf u)) 0x80 (512 * u)
  rw [hr, hm, h3, h2, h1]
  exact ⟨rfl, rfl⟩

theorem State.orderAsked_asked {s : State} {src : Src} {op : Nat} (h : s.orderAsked src op = true) : s.asked src = true := by
  simp only [State.orderAsked, State.descriptor, Bool.and_eq_true] at h
  exact h.1.1.1.2

theorem State.orderDone_zero (s : State) (src : Src) : s.orderDone src 0 = s.complete src 0 0 0 := if_pos rfl

theorem State.orderDone_error (s : State) (src : Src) {code : Nat} (h : code ≠ 0) :
    s.orderDone src code = s.complete src 1 0x07 code := if_neg h

theorem State.orderDone_refused (s t : State) (src : Src) {code : Nat} (h : code ≠ 0) :
    (if code = 0 then t else s).orderDone src code = s.complete src 1 0x07 code := by
  rw [if_neg h, s.orderDone_error src h]

theorem State.orderDone_host (s : State) (src : Src) (code : Nat) : ∃ h, s.orderDone src code = { s with host := h } := by
  unfold State.orderDone
  split
  · obtain ⟨h, he, -⟩ := s.complete_host src 0 0 0
    exact ⟨h, he⟩
  · obtain ⟨h, he, -⟩ := s.complete_host src 1 0x07 code
    exact ⟨h, he⟩

/-- An order on an entry that cannot be read completes with code 0x6A. -/
theorem State.entryLost_done {s : State} {src : Src} (h : s.asked src = true) (e : Nat × Nat) :
    Done s (s.entryLost src e) src 1 0x07 0x6A := by
  unfold State.entryLost
  rw [State.orderDone_error _ _ (by decide)]
  obtain ⟨mem, ctls, hw, -⟩ := (s.ddrFail e.2).ddrWrite_ctls ((s.ddrFail e.2).sessAddr e.1 + 39) (leBytes 1 4 ++ leBytes 1 15)
  obtain ⟨hr, hm⟩ := s.ddrFail_rings e.2
  have hset : (s.ddrFail e.2).setSessState e.1 4 15 = { s.ddrFail e.2 with ddr := { (s.ddrFail e.2).ddr with mem, ctls } } := hw
  rw [hset]
  have ha : State.asked { s.ddrFail e.2 with ddr := { (s.ddrFail e.2).ddr with mem, ctls } } src = true :=
    (State.asked_congr (s := s) hr hm src).trans h
  exact done_congr hr hm (State.ddrFail_brw s e.2).2 (State.complete_done ha 1 0x07 0x6A)

/-- An entry written, and the order on it completed. -/
theorem State.setSess_done {s : State} {src : Src} {i : Nat} {bytes : List Byte} (ha : s.asked src = true)
    (hl : Live s (s.sessAddr i)) (hb : bytes.length = 64) :
    Done s ((s.setSess i bytes).orderDone src 0) src 0 0 0 ∧ ((s.setSess i bytes).orderDone src 0).sess i = bytes ∧
      ((s.setSess i bytes).orderDone src 0).beds = s.beds ∧
      ∀ a, (a < s.sessAddr i ∨ s.sessAddr i + 64 ≤ a) →
        mget 0 ((s.setSess i bytes).orderDone src 0).ddr.mem a = mget 0 s.ddr.mem a := by
  obtain ⟨ctls, hw⟩ := State.ddrWrite_live hl hb
  obtain ⟨h, he⟩ := (s.setSess i bytes).orderDone_host src 0
  refine ⟨?_, ?_, ?_, fun a hout => ?_⟩
  · unfold State.setSess
    rw [hw, State.orderDone_zero]
    generalize ({ s.ddr with mem := mwrite 0 s.ddr.mem (s.sessAddr i) bytes, ctls } : Ddr) = d
    have ha' : State.asked { s with ddr := d } src = true := (State.asked_congr (s := s) rfl rfl src).trans ha
    exact done_congr (s := s) (s' := { s with ddr := d }) rfl rfl rfl (State.complete_done ha' 0 0 0)
  · rw [he, State.setSess, hw]
    have hread := mread_mwrite 0 s.ddr.mem (s.sessAddr i) bytes
    rw [hb] at hread
    exact hread
  · rw [he, State.setSess, hw]
  · rw [he, State.setSess, hw]
    exact mget_mwrite_outside 0 _ _ _ _ (by rwa [hb])

/-! ## The orders -/

theorem sessBytes_length (dig : Option (BitVec 256)) (dir pages st plot gen key : Nat) :
    (sessBytes dig dir pages st plot gen key).length = 64 := by
  cases dig <;> simp [sessBytes, zeros, digestBytes, leBytes]

theorem execNurseryOpen_entry {s : State} {src : Src} (h : s.orderAsked src 1 = true)
    (hd : bits (fieldAt (s.request src) 24 8) 0 40 % pageSize = 0) (hp : bits (fieldAt (s.request src) 24 8) 40 13 ≤ 4096)
    (hn : nurSpace (bits (fieldAt (s.request src) 24 8) 0 40) 32768 = true) : exec (.nurseryOpen src) s =
      match s.badEntry (orderOf (s.request src) src s.clk.sundial) with
      | some e => .next (s.entryLost src e)
      | none => .next ((if s.orderCode (orderOf (s.request src) src s.clk.sundial) = 0 then
          s.setSess (orderOf (s.request src) src s.clk.sundial).session (sessBytes none (bits (fieldAt (s.request src) 24 8) 0 40)
            (bits (fieldAt (s.request src) 24 8) 40 13) 1 15 (sessGen (s.sess (orderOf (s.request src) src s.clk.sundial).session))
            (orderOf (s.request src) src s.clk.sundial).key.toNat)
        else s).orderDone src (s.orderCode (orderOf (s.request src) src s.clk.sundial))) := by
  show execNurseryOpen src s = _
  unfold execNurseryOpen
  simp only [h, hn, if_true, Bool.not_true, Bool.false_eq_true, if_false]
  exact if_neg (by omega)

theorem execNurseryClose_entry {s : State} {src : Src} (h : s.orderAsked src 5 = true) : exec (.nurseryClose src) s =
      match s.badEntry (orderOf (s.request src) src s.clk.sundial) with
      | some e => .next (s.entryLost src e)
      | none => .next ((if s.orderCode (orderOf (s.request src) src s.clk.sundial) = 0 then
          s.setSess (orderOf (s.request src) src s.clk.sundial).session (zeros 64)
        else s).orderDone src (s.orderCode (orderOf (s.request src) src s.clk.sundial))) := by
  show execNurseryClose src s = _
  unfold execNurseryClose
  exact if_pos h

/-- An order that passes its checks is queued, and its request waits. -/
theorem State.acceptOrder_queued {s : State} {src : Src} (hl : (orderOf (s.request src) src s.clk.sundial).limit ≠ 0)
    (hl' : (orderOf (s.request src) src s.clk.sundial).limit ≤ 4096) (hb : s.badEntry (orderOf (s.request src) src s.clk.sundial) = none)
    (hc : s.orderCode (orderOf (s.request src) src s.clk.sundial) = 0) : s.acceptOrder src =
      (s.setWalker (bits (fieldAt (s.request src) 16 8) 3 2) { s.walker (bits (fieldAt (s.request src) 16 8) 3 2) with
        queue := (s.walker (bits (fieldAt (s.request src) 16 8) 3 2)).queue ++ [orderOf (s.request src) src s.clk.sundial] }).await 6
        (bits (fieldAt (s.request src) 16 8) 3 2) src 0 := by
  unfold State.acceptOrder
  simp only []
  rw [if_neg (by omega), hb]
  simp only [hc, ne_eq, not_true, if_false]

theorem exec_orderAccepted {s : State} {src : Src} {op : Nat} (hop : op = 2 ∨ op = 3 ∨ op = 4) (h : s.orderAsked src op = true)
    (hplan : op = 4 → (orderOf (s.request src) src s.clk.sundial).plan % 64 = 0 ∧
      nurSpace (orderOf (s.request src) src s.clk.sundial).plan (16 * (orderOf (s.request src) src s.clk.sundial).entries) = true) :
    exec (if op = 2 then .nurseryPlant src else if op = 3 then .nurseryLift src else .nurseryTransplant src) s =
      .next (s.acceptOrder src) := by
  rcases hop with rfl | rfl | rfl
  · show execNurseryPlant src s = _
    unfold execNurseryPlant
    exact if_pos h
  · show execNurseryLift src s = _
    unfold execNurseryLift
    exact if_pos h
  · obtain ⟨halign, hspace⟩ := hplan rfl
    show execNurseryTransplant src s = _
    unfold execNurseryTransplant
    simp only [h, halign, hspace, if_true, ne_eq, not_true, if_false, Bool.not_true, Bool.false_eq_true]

/-- Settles O25: an entry written from `State.setSess_done`, a lost one from `State.entryLost_done`, a queued order from
`State.acceptOrder_queued`. -/
theorem sessionsOpenCloseAndOrdersQueue : Obligations.SessionsOpenCloseAndOrdersQueue := by
  unfold Obligations.SessionsOpenCloseAndOrdersQueue
  refine ⟨⟨fun s src h => ?_, fun s src h => ?_⟩, fun s src op hop h => ?_⟩
  · intro d o dir pages hd hp hn
    have ha := State.orderAsked_asked h
    have hexec := execNurseryOpen_entry h hd hp hn
    refine ⟨fun e he => ?_, fun hb hc hl => ?_, fun hb hc => ?_⟩
    · rw [show s.badEntry _ = some e from he] at hexec
      exact ⟨_, hexec, State.entryLost_done ha e⟩
    · rw [show s.badEntry _ = none from hb, show s.orderCode _ = 0 from hc] at hexec
      exact ⟨_, hexec, State.setSess_done ha hl (sessBytes_length _ _ _ _ _ _ _)⟩
    · rw [show s.badEntry _ = none from hb] at hexec
      obtain ⟨x, hx, -⟩ := s.complete_host src 1 0x07 (s.orderCode o)
      exact ⟨_, hexec.trans (congrArg _ (State.orderDone_refused s _ src hc)), State.complete_done ha _ _ _, by rw [hx]⟩
  · intro o
    have ha := State.orderAsked_asked h
    have hexec := execNurseryClose_entry h
    refine ⟨fun e he => ?_, fun hb hc hl => ?_, fun hb hc => ?_⟩
    · rw [show s.badEntry _ = some e from he] at hexec
      exact ⟨_, hexec, State.entryLost_done ha e⟩
    · rw [show s.badEntry _ = none from hb, show s.orderCode _ = 0 from hc] at hexec
      obtain ⟨hdone, hsess, -, hmem⟩ := State.setSess_done ha hl (List.length_replicate (n := 64) (a := (0 : Byte)))
      exact ⟨_, hexec, hdone, hsess, hmem⟩
    · rw [show s.badEntry _ = none from hb] at hexec
      obtain ⟨x, hx, -⟩ := s.complete_host src 1 0x07 (s.orderCode o)
      exact ⟨_, hexec.trans (congrArg _ (State.orderDone_refused s _ src hc)), State.complete_done ha _ _ _, by rw [hx]⟩
  · intro i o w hl hl' hb hc hplan
    have hexec := (exec_orderAccepted hop h hplan).trans (congrArg _ (State.acceptOrder_queued hl hl' hb hc))
    refine ⟨_, hexec, ?_, fun j hj => ?_, rfl, rfl, rfl⟩
    · exact (State.walker_setWalker s w w _).trans (if_pos rfl)
    · exact (State.walker_setWalker s w j _).trans (if_neg hj)

end Sys2Proof.Machine
end

section
/-! PROOFS. Walkers: orders begun, words moved, orders completed (R303 to R310): O26. -/

namespace Sys2Proof.Machine

/-! ## The start of an order -/

theorem sessWith_length {e : List Byte} (h : e.length = 64) (st plot : Nat) : (sessWith e st plot).length = 64 := by
  simp [sessWith, leBytes, h]

/-- The digest of an entry stays where its state is written. -/
theorem fieldAt_sessWith {e : List Byte} (h : e.length = 64) (st plot : Nat) : fieldAt (sessWith e st plot) 0 32 = fieldAt e 0 32 := by
  unfold fieldAt sessWith
  rw [List.drop_zero, List.drop_zero, List.append_assoc, List.append_assoc, List.take_append_of_le_length (by simp [h]), List.take_take]
  rfl

theorem State.sess_length (s : State) (i : Nat) : (s.sess i).length = 64 := mread_length _ _ _ _

/-- An entry made moving. -/
theorem State.makeMoving_effect {s : State} {o : Order} (ho : o.op ≠ 4) (hl : Live s (s.sessAddr o.session)) :
    ∃ mem ctls, s.makeMoving o = { s with ddr := { s.ddr with mem, ctls } } ∧
      mread 0 mem (s.sessAddr o.session) 64 = sessWith (s.sess o.session) 3 (fieldAt (s.sess o.session) 40 1) ∧
      ∀ a, (a < s.sessAddr o.session ∨ s.sessAddr o.session + 64 ≤ a) → mget 0 mem a = mget 0 s.ddr.mem a := by
  have hlen := sessWith_length (s.sess_length o.session) 3 (fieldAt (s.sess o.session) 40 1)
  unfold State.makeMoving
  simp only [if_neg ho]
  obtain ⟨ctls, he⟩ := State.ddrWrite_live hl hlen
  refine ⟨_, ctls, he, ?_, fun a ha => mget_mwrite_outside 0 _ _ _ _ (by rwa [hlen])⟩
  have hread := mread_mwrite 0 s.ddr.mem (s.sessAddr o.session) (sessWith (s.sess o.session) 3 (fieldAt (s.sess o.session) 40 1))
  rwa [hlen] at hread

/-- What a walker works on at the start of a plant or a lift. -/
def State.begunWork (s : State) (o : Order) (w : Nat) (mine : List Claim) : Work :=
  { order := o, frame := s.now / 80, claims := mine, dir := s.dirOf (s.sess o.session)
    rate := if o.plot = 15 then 1 else walkRate (s.walkMask o.plot w) }

/-- The claims that firmware takes for a plant or a lift. -/
def State.orderClaims (s : State) (o : Order) (w : Nat) : List Claim :=
  (if o.digest then [engineClaim o.engine] else []) ++
    if o.plot = 15 then s.freeGroup w ((s.dirOf (s.sess o.session)).map (·.bed)) else []

/-- A plant or lift that passes its checks begins. -/
def State.startWork (q : State) (o : Order) (w : Nat) : State :=
  (({ q with fwClaims := q.fwClaims ++ q.orderClaims o w } : State).setWalker w
    { q.walker w with work := some (q.begunWork o w (q.orderClaims o w)) }).makeMoving o

theorem execNurseryOrderStart_eq {s q : State} {w : BitVec 2} {o : Order} {rest : List Order} (hk : s.walker w.toNat = { queue := o :: rest })
    (hs : q = s.setWalker w.toNat { queue := rest }) (ho : o.op ≠ 4) (hf : s.dbg.frozen = false) (h80 : s.now % 80 = 0)
    (h8 : o.accepted.toNat + 8 ≤ s.now) (hb : q.badEntry o = none) (hc : q.orderCode o = 0)
    (hl : o.plot ≠ 15 → q.orderLacks w.toNat o (q.dirOf (q.sess o.session)) = none)
    (hn : q.clash (q.orderClaims o w.toNat) = none) (hd : q.badDir o = none)
    (hg : o.op = 2 → o.digest = true → q.dirOf (q.sess o.session) = [] →
      fieldAt ((q.startWork o w.toNat).sess o.session) 0 32 = (digest []).toNat) :
    exec (.nurseryOrderStart w) s = .next (q.startWork o w.toNat) := by
  have hlacks : (if o.plot = 15 then none else q.orderLacks w.toNat o (q.dirOf (q.sess o.session))) = none := by
    split
    · rfl
    · exact hl ‹_›
  have hclaims : (if o.digest = true then [engineClaim o.engine] else []) ++
      (if o.plot = 15 then q.freeGroup w.toNat ((q.dirOf (q.sess o.session)).map (·.bed)) else []) = q.orderClaims o w.toNat := rfl
  have hd' : State.badDir { q with fwClaims := q.fwClaims ++ q.orderClaims o w.toNat } o = none := hd
  show execNurseryOrderStart w s = _
  unfold execNurseryOrderStart
  simp only [hk, hf, h80, decide_eq_true h8, Bool.not_false, BEq.rfl, Bool.and_self, if_true, ← hs, hb, hc, ho, not_false_iff,
    and_true, hlacks, hclaims, hn, hd', ne_eq, not_true, if_false]
  exact congrArg _ (if_neg fun h => h.2.2.2 (hg h.1 h.2.1 h.2.2.1))

/-- The state in which a plant or lift has begun. -/
theorem State.startWork_effect {q : State} {o : Order} (w : Nat) (ho : o.op ≠ 4) (hl : Live q (q.sessAddr o.session)) :
    (q.startWork o w).fwClaims = q.fwClaims ++ q.orderClaims o w ∧ (q.startWork o w).beds = q.beds ∧
      (q.startWork o w).walker w = { q.walker w with work := some (q.begunWork o w (q.orderClaims o w)) } ∧
      (q.startWork o w).sess o.session = sessWith (q.sess o.session) 3 (fieldAt (q.sess o.session) 40 1) ∧
      ∀ a, (a < q.sessAddr o.session ∨ q.sessAddr o.session + 64 ≤ a) → mget 0 (q.startWork o w).ddr.mem a = mget 0 q.ddr.mem a := by
  have hl' : Live (({ q with fwClaims := q.fwClaims ++ q.orderClaims o w } : State).setWalker w
    { q.walker w with work := some (q.begunWork o w (q.orderClaims o w)) }) (q.sessAddr o.session) := hl
  obtain ⟨mem, ctls, he, hread, hout⟩ := State.makeMoving_effect ho hl'
  unfold State.startWork
  rw [he]
  exact ⟨rfl, rfl, (State.walker_setWalker q w w _).trans (if_pos rfl), hread, hout⟩

/-! ## A word moved -/

/-- Entries rest on module memory and the register of their base. -/
theorem State.sess_congr {s t : State} (hm : t.ddr.mem = s.ddr.mem) (hr : t.reg 0xA0000 = s.reg 0xA0000) (i : Nat) :
    t.sess i = s.sess i := by
  unfold State.sess State.sessAddr State.fld State.ddrBytes
  rw [hm, hr]

/-- A word of a plant has landed: in one bed, and in the work of its walker. -/
structure Landed (s t : State) (w p a page : Nat) (bytes : List Byte) (k : Work) (stage : List Staged) : Prop where
  mem : t.ddr.mem = s.ddr.mem
  others : ∀ q, q ≠ p → t.bed q = s.bed q
  bedMem : (t.bed p).mem = mwrite 0 (s.bed p).mem a bytes
  arrays : (t.bed p).arrays = (s.bed p).arrays
  seq : (t.bed p).seq = (s.bed p).seq
  stage : (t.bed p).stage = stage
  walker : t.walker w = { s.walker w with work := some (k.wordDone page) }
  sess : ∀ i, t.sess i = s.sess i

theorem State.landWords_clean {s : State} {p : Nat} (hc : Clean (s.bed p)) (ha : (s.bed p).admin < 2) (a : Nat) (bytes : List Byte) :
    s.landWords false p a bytes =
      (s.setBed p { s.bed p with mem := mwrite 0 (s.bed p).mem a bytes, scrubPending := scrubbed (s.bed p) a bytes.length }).watchEcc p := by
  unfold State.landWords State.landBytes
  simp only [if_neg (Nat.not_le.mpr ha), Bed.putBytes_clean _ _ _ _ hc, Bool.false_eq_true, if_false, List.foldl_nil]

theorem State.plantLands_landed {s : State} {p : Nat} (hc : Clean (s.bed p)) (ha : (s.bed p).admin < 2) (w : Nat) (k : Work)
    (page a : Nat) (bytes : List Byte) : Landed s (s.plantLands w k p page a bytes) w p a page bytes k (s.bed p).stage := by
  unfold State.plantLands State.setWork
  rw [State.landWords_clean hc ha]
  generalize hx : ({ s.bed p with mem := mwrite 0 (s.bed p).mem a bytes, scrubPending := scrubbed (s.bed p) a bytes.length } : Bed) = x
  have hwatch := (s.setBed p x).watchEcc_only p
  obtain ⟨f, hf⟩ := ((s.setBed p x).watchEcc_bed p).1
  rw [State.bed_setBed, if_pos rfl] at hf
  have hothers : ∀ q, q ≠ p → ((s.setBed p x).watchEcc p).bed q = s.bed q := fun q hq =>
    (hwatch.bed q hq).trans ((State.bed_setBed s p q x).trans (if_neg hq))
  have hddr : ((s.setBed p x).watchEcc p).ddr = s.ddr := hwatch.ddr
  have hwalk : ((s.setBed p x).watchEcc p).walker w = s.walker w := by
    unfold State.walker
    rw [hddr]
  have hreg : ((s.setBed p x).watchEcc p).reg 0xA0000 = s.reg 0xA0000 := hwatch.reg 0xA0000 (by decide)
  generalize (s.setBed p x).watchEcc p = u at *
  have hbed : ∀ q, (u.setWalker w { u.walker w with work := some (k.wordDone page) }).bed q = u.bed q := fun _ => rfl
  have hmem : (u.setWalker w { u.walker w with work := some (k.wordDone page) }).ddr.mem = s.ddr.mem := by
    rw [← hddr]
    rfl
  refine ⟨hmem, hothers, ?_, ?_, ?_, ?_, ?_, State.sess_congr hmem hreg⟩
  · rw [hbed, hf, ← hx]
  · rw [hbed, hf, ← hx]
  · rw [hbed, hf, ← hx]
  · rw [hbed, hf, ← hx]
  · rw [State.walker_setWalker, if_pos rfl, hwalk]

theorem execWalkerWordTransfer_eq {s : State} {w : BitVec 2} {k : Work} (hw : (s.walker w.toNat).work = some k) (hr : s.running = true)
    (he : k.err = 0) (ho : k.order.op ≠ 4) (hk : k.words < k.total) : exec (.walkerWordTransfer w) s =
      match s.readyStage w.toNat with
      | some e => .next (s.unstageWord w.toNat k e.1 e.2)
      | none =>
        match s.nextPage k with
        | some page => .next (s.takeWord w.toNat k page)
        | none => .next s := by
  show execWalkerWordTransfer w s = _
  unfold execWalkerWordTransfer
  simp only [hw, hr, he, ho, Nat.not_le.mpr hk, decide_false, Bool.not_true, bne_self_eq_false, Bool.or_self, Bool.false_eq_true,
    if_false] <;> rfl

theorem State.unstageWord_landed {s : State} {k : Work} (ho : k.order.op = 2) {p : Nat} (hc : Clean (s.bed p))
    (ha : (s.bed p).admin < 2) (w : Nat) (x : Staged) :
    Landed s (s.unstageWord w k p x) w p x.off x.page x.bytes k ((s.bed p).stage.erase x) := by
  unfold State.unstageWord
  simp only []
  rw [if_neg (by omega)]
  have hbed : (s.setBed p { s.bed p with stage := (s.bed p).stage.erase x }).bed p = { s.bed p with stage := (s.bed p).stage.erase x } :=
    (State.bed_setBed _ _ _ _).trans (if_pos rfl)
  have h := State.plantLands_landed (s := s.setBed p { s.bed p with stage := (s.bed p).stage.erase x }) (p := p)
    (by rw [hbed]; exact hc) (by rw [hbed]; exact ha) w k x.page x.off x.bytes
  rw [hbed] at h
  refine ⟨h.mem, fun q hq => (h.others q hq).trans ((State.bed_setBed _ _ _ _).trans (if_neg hq)), ?_, ?_, ?_, ?_, h.walker, h.sess⟩
  · rw [h.bedMem, hbed]
  · rw [h.arrays, hbed]
  · rw [h.seq, hbed]
  · rw [h.stage]

/-- The word of a plant that is taken up. -/
def State.takenUp (s : State) (k : Work) (page : Nat) (bytes : List Byte) : Work := (k.takeUp s.frame page).hash page bytes

/-- What a plant's word that is taken up does, but for the digest's check. -/
def State.putWord (s : State) (w : Nat) (k : Work) (p page off : Nat) (bytes : List Byte) : State :=
  if s.wordIdle p off && !((s.bed p).stage.any fun x => x.walker == w) then s.plantLands w k p page off bytes
  else (s.setBed p { s.bed p with stage := (s.bed p).stage ++ [{ walker := w, page, off, bytes }] }).setWork w k

/-- The digest of a plant, once all its words have been read, is the entry's. -/
def DigestFits (s : State) (x : Work) : Prop :=
  x.order.digest = true → (∀ i, i < x.dir.length → tget (fun _ => 0) x.reads i = 768) →
    fieldAt (s.sess x.order.session) 0 32 = x.sum.toNat

/-- The digest of a plant checked with its last word. -/
def State.checkDigest (t : State) (w : Nat) (x : Work) : State :=
  let k := (t.walker w).work.getD x
  if k.order.digest && (List.range k.dir.length).all (fun i => tget (fun _ => 0) k.reads i == 768) &&
      fieldAt (t.sess k.order.session) 0 32 != k.sum.toNat then
    t.walkFail w k 0x66 (k.dir.length - 1) false
  else t

theorem State.takeWord_eq {s : State} {k : Work} {page p : Nat} {w : Nat} (ho : k.order.op = 2)
    (hp : s.physOf (k.dir.getD page ⟨0, 0, 0⟩).bed = some p)
    (hb : s.ddrBad ((k.dir.getD page ⟨0, 0, 0⟩).page + 256 * tget (fun _ => 0) k.reads page) 256 = none) {u : State} {y : Work}
    (hu : u = s.putWord w (s.takenUp k page (s.ddrBytes ((k.dir.getD page ⟨0, 0, 0⟩).page + 256 * tget (fun _ => 0) k.reads page) 256)) p page
      ((k.dir.getD page ⟨0, 0, 0⟩).place + 256 * tget (fun _ => 0) k.reads page)
      (s.ddrBytes ((k.dir.getD page ⟨0, 0, 0⟩).page + 256 * tget (fun _ => 0) k.reads page) 256))
    (hy : (u.walker w).work = some y) (hfit : DigestFits u y) : s.takeWord w k page = u := by
  unfold State.takeWord
  simp only [hp, hb]
  have hop : ¬(k.takeUp s.frame page).order.op = 3 := by
    show ¬k.order.op = 3
    omega
  rw [if_neg hop]
  change State.checkDigest (s.putWord w (s.takenUp k page _) p page _ _) w (s.takenUp k page _) = u
  rw [← hu]
  unfold State.checkDigest
  simp only [hy]
  refine if_neg fun h => ?_
  simp only [Option.getD_some, Bool.and_eq_true, List.all_eq_true, List.mem_range, beq_iff_eq, bne_iff_ne] at h
  exact h.2 (hfit h.1.1 h.1.2)

theorem Work.hash_order (k : Work) (page : Nat) (bytes : List Byte) :
    (k.hash page bytes).order = k.order ∧ (k.hash page bytes).dir = k.dir := by
  unfold Work.hash
  split <;> exact ⟨rfl, rfl⟩

/-- A word taken up lands at once. -/
theorem State.putWord_landed {s : State} {p off : Nat} {w : Nat} (hi : s.wordIdle p off = true)
    (hn : ((s.bed p).stage.any fun x => x.walker == w) = false) (x : Work) (page : Nat) (bytes : List Byte) :
    s.putWord w x p page off bytes = s.plantLands w x p page off bytes := by
  unfold State.putWord
  rw [if_pos (by rw [hi, hn]; rfl)]

/-- A word taken up waits in the landing stage. -/
theorem State.putWord_staged {s : State} {p off : Nat} {w : Nat}
    (h : s.wordIdle p off = false ∨ ((s.bed p).stage.any fun x => x.walker == w) = true) (x : Work) (page : Nat) (bytes : List Byte) :
    s.putWord w x p page off bytes =
      (s.setBed p { s.bed p with stage := (s.bed p).stage ++ [{ walker := w, page, off, bytes }] }).setWork w x := by
  unfold State.putWord
  rw [if_neg fun hc => ?_]
  obtain ⟨hi, hn⟩ := Bool.and_eq_true_iff.mp hc
  rcases h with h | h
  · rw [h] at hi
    cases hi
  · rw [h] at hn
    cases hn

/-! ## The end of an order -/

/-- Module memory written. -/
def Rewritten (s t : State) : Prop := ∃ mem ctls, t = { s with ddr := { s.ddr with mem, ctls } }

theorem Rewritten.refl (s : State) : Rewritten s s := ⟨s.ddr.mem, s.ddr.ctls, rfl⟩

theorem Rewritten.ddrWrite {s₀ s : State} (h : Rewritten s₀ s) (a : Nat) (bytes : List Byte) : Rewritten s₀ (s.ddrWrite a bytes) := by
  obtain ⟨mem, ctls, rfl⟩ := h
  obtain ⟨mem', ctls', he, -⟩ := State.ddrWrite_ctls { s₀ with ddr := { s₀.ddr with mem, ctls } } a bytes
  exact ⟨mem', ctls', he⟩

theorem Rewritten.setSess {s₀ s : State} (h : Rewritten s₀ s) (i : Nat) (e : List Byte) : Rewritten s₀ (s.setSess i e) := h.ddrWrite _ _

theorem Rewritten.setSessState {s₀ s : State} (h : Rewritten s₀ s) (i st plot : Nat) : Rewritten s₀ (s.setSessState i st plot) :=
  h.ddrWrite _ _

theorem State.orderEntries_rewritten (s : State) (k : Work) (code : Nat) : Rewritten s (s.orderEntries k code) := by
  have h := Rewritten.refl s
  unfold State.orderEntries
  simp only []
  split
  · split
    · exact h.setSess _ _
    · split
      · exact h.setSessState _ _ _
      · exact h.setSess _ _
  · split
    · exact h.setSess _ _
    · exact h.setSessState _ _ _
  · split
    · exact (h.setSess _ _).setSess _ _
    · split
      · exact (h.setSess _ _).setSessState _ _ _
      · exact ((h.setSess _ _).setSess _ _).setSessState _ _ _

/-- Between two states only module memory, one walker, plots and run records differ. -/
structure Ended (w : Nat) (s t : State) : Prop where
  beds : t.beds = s.beds
  clk : t.clk = s.clk
  host : t.host = s.host
  fwClaims : t.fwClaims = s.fwClaims
  queue : (t.walker w).queue = (s.walker w).queue
  walkers : ∀ j, j ≠ w → t.walker j = s.walker j

theorem State.enterOrder_ended (s : State) (w : Nat) (k : Work) : Ended w s (s.enterOrder w k) := by
  unfold State.enterOrder
  split
  · exact ⟨rfl, rfl, rfl, rfl, rfl, fun _ _ => rfl⟩
  · obtain ⟨mem, ctls, he⟩ := s.orderEntries_rewritten k k.err
    rw [he]
    exact ⟨rfl, rfl, rfl, rfl, by rw [State.setWork, State.walker_setWalker, if_pos rfl]; rfl,
      fun j hj => (State.walker_setWalker _ w j _).trans (if_neg hj)⟩

theorem State.noteInput_ended (s : State) (w p idx bed index : Nat) (d : BitVec 256) : Ended w s (s.noteInput p idx bed index d) := by
  unfold State.noteInput
  simp only []
  split
  · obtain ⟨x, he⟩ := s.event_recs p 0x03 bed index 0 (digestBytes d ++ leBytes 2 idx)
    rw [he]
    exact ⟨rfl, rfl, rfl, rfl, rfl, fun _ _ => rfl⟩
  · exact ⟨rfl, rfl, rfl, rfl, rfl, fun _ _ => rfl⟩

theorem Ended.refl (w : Nat) (s : State) : Ended w s s := ⟨rfl, rfl, rfl, rfl, rfl, fun _ _ => rfl⟩

theorem Ended.trans {w : Nat} {s t u : State} (a : Ended w s t) (b : Ended w t u) : Ended w s u :=
  ⟨b.beds.trans a.beds, b.clk.trans a.clk, b.host.trans a.host, b.fwClaims.trans a.fwClaims, b.queue.trans a.queue,
   fun j hj => (b.walkers j hj).trans (a.walkers j hj)⟩

theorem State.plantArrives_ended (s : State) (w : Nat) (k : Work) (dig : BitVec 256) : Ended w s (s.plantArrives k dig) := by
  unfold State.plantArrives
  exact List.foldlRecOn (motive := fun t => Ended w s t) _ _ (.refl w s) fun t h i _ => h.trans (t.noteInput_ended w _ _ _ _ _)

/-- The state in which an order's entries have been written and its inputs noted. -/
def State.orderEnded (s : State) (w : Nat) (k : Work) : State :=
  let s := s.enterOrder w k
  if k.order.op = 2 ∧ k.err = 0 ∧ k.order.digest ∧ k.order.plot ≠ 15 then s.plantArrives k k.sum else s

theorem State.orderEnded_ended (s : State) (w : Nat) (k : Work) : Ended w s (s.orderEnded w k) := by
  unfold State.orderEnded
  simp only []
  split
  · exact (s.enterOrder_ended w k).trans (State.plantArrives_ended _ w k _)
  · exact s.enterOrder_ended w k

/-- The walker freed, and firmware's claims released. -/
def State.freeWalker (s : State) (w : Nat) (k : Work) : State :=
  { s.setWalker w { s.walker w with work := none } with fwClaims := k.claims.foldl (fun cs c => cs.erase c) s.fwClaims }

theorem execNurseryOrderComplete_eq {s : State} {w : BitVec 2} {k : Work} (hw : (s.walker w.toNat).work = some k)
    (hf : s.dbg.frozen = false) (hk : k.err ≠ 0 ∨ k.words = k.total) (he : k.orderEnd ≤ s.now) :
    exec (.nurseryOrderComplete w) s = .next (((s.orderEnded w.toNat k).freeWalker w.toNat k).orderDone k.order.src k.err) := by
  have hcond : (!s.dbg.frozen && (k.err != 0 || k.words == k.total) && decide (k.orderEnd ≤ s.now)) = true := by
    simpa [hf, he] using hk
  show execNurseryOrderComplete w s = _
  unfold execNurseryOrderComplete
  simp only [hw, if_pos hcond]
  rfl

/-- Settles O26: an order's start from `State.startWork_effect`, a word from `Landed` and `State.takeWord_eq`, an order's end from
`State.orderEnded_ended`. -/
theorem walkersStartMoveAndCompleteOrders : Obligations.WalkersStartMoveAndCompleteOrders := by
  unfold Obligations.WalkersStartMoveAndCompleteOrders
  refine ⟨fun s w o rest hw hq ho hf h80 h8 => ?_, fun s w k hw hr he ho hlt => ?_, fun s w k hw hf hk he => ?_⟩
  · intro q dir mine hb hc hl hn hd hlive hg
    have hk : s.walker w.toNat = { queue := o :: rest } := by
      rw [← hq, ← hw]
    have hs : q = s.setWalker w.toNat { queue := rest } := by
      show s.setWalker w.toNat { s.walker w.toNat with queue := rest } = _
      rw [hk]
    have hqw : q.walker w.toNat = { queue := rest } := by
      rw [hs, State.walker_setWalker, if_pos rfl]
    obtain ⟨hclaims, hbeds, hwalk, hsess, hmem⟩ := State.startWork_effect (q := q) (o := o) w.toNat ho hlive
    refine ⟨_, execNurseryOrderStart_eq hk hs ho hf h80 h8 hb hc hl hn hd fun h2 hdig hdir => ?_, hclaims, hbeds, ?_, hsess, hmem⟩
    · rw [hsess, fieldAt_sessWith (q.sess_length _)]
      exact hg h2 hdig hdir
    · rw [hwalk, hqw, hk]
      rfl
  · intro lands
    have hexec := execWalkerWordTransfer_eq hw hr he (by omega) hlt
    refine ⟨fun p x hx hc ha => ?_, fun hx hn => ?_, fun page p hx hn => ?_⟩
    · rw [hx] at hexec
      have h := State.unstageWord_landed ho hc ha w.toNat x
      exact ⟨_, hexec, h.mem, h.others, h.bedMem, h.arrays, h.seq, h.stage, h.walker⟩
    · rw [hx, hn] at hexec
      exact hexec
    · intro d n bytes x waits hp hb hdig
      rw [hx, hn] at hexec
      obtain ⟨hxo, -⟩ := (k.takeUp s.frame page).hash_order page bytes
      refine ⟨fun hi hwaits hc ha => ?_, fun hw => ?_⟩
      · have hput := State.putWord_landed hi hwaits x page bytes
        have h := State.plantLands_landed hc ha w.toNat x page (d.place + n) bytes
        have htake := State.takeWord_eq ho hp hb hput.symm (y := x.wordDone page) (by rw [h.walker]) fun h1 h2 => (congrArg (fieldAt · 0 32) (h.sess _)).trans
          ((congrArg (fun o : Order => fieldAt (s.sess o.session) 0 32) hxo).trans (hdig h1 h2))
        exact ⟨_, hexec.trans (congrArg _ htake), h.mem, h.others, h.bedMem, h.arrays, h.seq, h.stage, h.walker⟩
      · have hput := State.putWord_staged hw x page bytes
        have htake := State.takeWord_eq ho hp hb hput.symm (y := x) (by rw [State.setWork, State.walker_setWalker, if_pos rfl])
          fun h1 h2 => (congrArg (fun o : Order => fieldAt (s.sess o.session) 0 32) hxo).trans (hdig h1 h2)
        exact hexec.trans (congrArg _ htake)
  · have hend := s.orderEnded_ended w.toNat k
    have hexec := execNurseryOrderComplete_eq hw hf hk he
    have hself : ((s.orderEnded w.toNat k).freeWalker w.toNat k).walker w.toNat = { s.walker w.toNat with work := none } := by
      refine (State.walker_setWalker _ w.toNat w.toNat _).trans ((if_pos rfl).trans ?_)
      exact congrArg (fun q => ({ queue := q } : Walker)) hend.queue
    have hothers : ∀ j, j ≠ w.toNat → ((s.orderEnded w.toNat k).freeWalker w.toNat k).walker j = s.walker j := fun j hj =>
      ((State.walker_setWalker _ w.toNat j _).trans (if_neg hj)).trans (hend.walkers j hj)
    have hclaims : ((s.orderEnded w.toNat k).freeWalker w.toNat k).fwClaims = k.claims.foldl (fun cs c => cs.erase c) s.fwClaims :=
      congrArg (fun x : List Claim => k.claims.foldl (fun (cs : List Claim) (c : Claim) => cs.erase c) x) hend.fwClaims
    have hbeds : ((s.orderEnded w.toNat k).freeWalker w.toNat k).beds = s.beds := hend.beds
    have hhost : ((s.orderEnded w.toNat k).freeWalker w.toNat k).host = s.host := hend.host
    have hclk : ((s.orderEnded w.toNat k).freeWalker w.toNat k).clk = s.clk := hend.clk
    generalize (s.orderEnded w.toNat k).freeWalker w.toNat k = u at *
    obtain ⟨x, hx⟩ := u.orderDone_host k.order.src k.err
    refine ⟨_, hexec, by rw [hx]; exact hself, fun j hj => by rw [hx]; exact hothers j hj, by rw [hx]; exact hbeds,
      by rw [hx]; exact hclaims, fun ha => ?_⟩
    have ha' : u.asked k.order.src = true :=
      (State.asked_congr (congrArg HostIf.rings hhost) (congrArg HostIf.mbReq hhost) _).trans ha
    have hdone := fun status code result => done_congr (congrArg HostIf.rings hhost) (congrArg HostIf.mbReq hhost) hclk
      (State.complete_done ha' status code result)
    split
    next h0 =>
      rw [h0, State.orderDone_zero]
      exact hdone 0 0 0
    next h0 =>
      rw [State.orderDone_error _ _ h0]
      exact hdone 1 0x07 k.err

end Sys2Proof.Machine
end

section
/-! PROOFS. Flits sent (R317, R319, R320, R322): O27. -/

namespace Sys2Proof.Machine

/-! ## The length of a flit on the wire -/

theorem rsParity_length (d : List Nat) : (rsParity d).length = 9 := by
  unfold rsParity
  exact List.foldlRecOn (motive := fun r : List Nat => r.length = 9) d _ rfl fun r _ x _ => by simp

theorem fecEncode_length (bs : List Byte) : (fecEncode bs).length = bs.length + 36 := by
  unfold fecEncode
  simp [rsParity_length]

theorem scramble_length (st : List (BitVec 31)) (bs : List Byte) : (scramble st bs).2.length = bs.length := by
  have hfold : ∀ (f : List (BitVec 31) × Nat × List Byte → Byte → List (BitVec 31) × Nat × List Byte),
      (∀ s b, (f s b).2.2.length = s.2.2.length + 1) → ∀ s, (bs.foldl f s).2.2.length = s.2.2.length + bs.length := by
    intro f hf
    induction bs with
    | nil => exact fun _ => rfl
    | cons b bs ih =>
      intro s
      rw [List.foldl_cons, ih, hf, List.length_cons]
      omega
  unfold scramble
  rw [List.length_reverse, hfold _ fun _ _ => rfl]
  exact Nat.zero_add _

/-- The 568 bytes that a flit of 524 puts on the wire. -/
def wireBytes (st : List (BitVec 31)) (bytes : List Byte) : List Byte := (scramble st (fecEncode (bytes ++ leBytes 8 (crc64 bytes).toNat))).2

theorem wireBytes_length (st : List (BitVec 31)) {bytes : List Byte} (h : bytes.length = 524) : (wireBytes st bytes).length = 568 := by
  unfold wireBytes
  rw [scramble_length, fecEncode_length, List.length_append, leBytes_length, h]

theorem Hdr.bytes_length (h : Hdr) : h.bytes.length = 12 := by
  unfold Hdr.bytes
  rw [List.length_append, leBytes_length, leBytes_length]

theorem fitBytes_length (n : Nat) (bs : List Byte) : (fitBytes n bs).length = n := by
  unfold fitBytes zeros
  rw [List.length_append, List.length_take, List.length_replicate]
  omega

/-! ## What sending changes -/

/-- Link l has become k, and no other link, no bed and no plot has changed. -/
structure Sends (l : Nat) (k : Link) (s t : State) : Prop where
  self : t.link l = k
  others : ∀ j, j ≠ l → t.link j = s.link j
  beds : t.beds = s.beds
  plots : t.plots = s.plots

section
variable {l : Nat} {k k' : Link} {s t u : State}

theorem Sends.setLink (s : State) (l : Nat) (k : Link) : Sends l k s (s.setLink l k) :=
  ⟨(State.link_setLink s l l k).trans (if_pos rfl), fun j hj => (State.link_setLink s l j k).trans (if_neg hj), rfl, rfl⟩

theorem Sends.trans (a : Sends l k s t) (b : Sends l k' t u) : Sends l k' s u :=
  ⟨b.self, fun j hj => (b.others j hj).trans (a.others j hj), b.beds.trans a.beds, b.plots.trans a.plots⟩

/-- A step that leaves links, beds and plots. -/
theorem Sends.of_links (hl : t.lnk.links = s.lnk.links) (hb : t.beds = s.beds) (hp : t.plots = s.plots) : Sends l (s.link l) s t := by
  have h : ∀ j, t.link j = s.link j := fun j => by
    unfold State.link
    rw [hl]
  exact ⟨h l, fun j _ => h j, hb, hp⟩

theorem State.setReg_frame (s : State) (off : Nat) (v : W64) : ∃ r, s.setReg off v = { s with regs := r } := ⟨_, rfl⟩

theorem State.trace_frame (s : State) (bytes : List Byte) : 
    ∃ m r, s.trace bytes = { s with dbg := { s.dbg with trace := m }, regs := r } := by
  unfold State.trace
  simp only []
  split
  · exact ⟨s.dbg.trace, _, rfl⟩
  · generalize mwrite 0 s.dbg.trace (16 * wfld (s.reg 0x100208) 0 18) (fitBytes 16 bytes) = m
    generalize s.reg 0x100208 = st
    split
    · obtain ⟨r, he⟩ := State.setReg_frame { s with dbg := { s.dbg with trace := m } } 0x100208 (wset st 0 18 (wfld st 0 18 + 1))
      exact ⟨m, r, he⟩
    · split
      · obtain ⟨r, he⟩ := State.setReg_frame { s with dbg := { s.dbg with trace := m } } 0x100208 (wset (wset st 0 18 0) 18 1 1)
        exact ⟨m, r, he⟩
      · obtain ⟨r, he⟩ := State.setReg_frame { s with dbg := { s.dbg with trace := m } } 0x100208 (wset st 19 1 1)
        exact ⟨m, r, he⟩

theorem State.traceLink_frame (s : State) (l : Nat) (kind : Byte) (h : Hdr) (sender : Nat) :
    ∃ n m r, s.traceLink l kind h sender = { s with freeN := n, dbg := { s.dbg with trace := m }, regs := r } := by
  unfold State.traceLink
  split
  · obtain ⟨d, r, he⟩ := State.trace_frame (s.draw 6).2 (leBytes 6 s.now ++ [kind] ++ leBytes 1 l ++ h.bytes.take 4 ++ zeros 1 ++
      leBytes 2 (s.draw 6).1.toNat ++ leBytes 1 sender)
    exact ⟨_, d, r, he⟩
  · exact ⟨s.freeN, s.dbg.trace, s.regs, rfl⟩

theorem Sends.traceLink (s : State) (l : Nat) (kind : Byte) (h : Hdr) (sender : Nat) : Sends l (s.link l) s (s.traceLink l kind h sender) := by
  obtain ⟨n, d, r, he⟩ := s.traceLink_frame l kind h sender
  rw [he]
  exact .of_links rfl rfl rfl

theorem Sends.sideband (s : State) (l : Nat) : Sends l (s.link l) s (s.sideband l).2 := by
  unfold State.sideband
  simp only []
  split
  · exact .of_links rfl rfl rfl
  · split <;> exact .of_links rfl rfl rfl

/-- A link with a flit put on the wire. -/
def Link.wired (k : Link) (bytes : List Byte) : Link :=
  { k with
    txScramble := (scramble k.txScramble (fecEncode (bytes ++ leBytes 8 (crc64 bytes).toNat))).1
    wireOut := wireBytes k.txScramble bytes :: k.wireOut }

theorem Sends.wire (s : State) (l : Nat) (bytes : List Byte) : Sends l ((s.link l).wired bytes) s (s.wire l bytes) := .setLink _ _ _

/-- A flit sent: credits owed are returned with it, and it goes on the wire. -/
theorem State.launch_sends (s : State) (l : Nat) (h : Hdr) (payload : List Byte) : ∃ owed bytes, bytes.length = 524 ∧
    Sends l (({ s.link l with owed } : Link).wired bytes) s (s.launch l h payload).1 := by
  unfold State.launch
  extract_lets k c r h' s1 k1 s2 bytes
  have hs1 : Sends l (s.link l) s s1 := .sideband s l
  have hs2 := hs1.trans (.setLink s1 l { k1 with owed := tset (fun _ => 0) k1.owed c.1 (tget (fun _ => 0) k1.owed c.1 - c.2) })
  have hk : k1 = s.link l := hs1.self
  have htrace := hs2.trans (Sends.traceLink s2 l 2 h' 0)
  have hwire := htrace.trans (.wire _ l bytes)
  rw [htrace.self, hs2.self, hk] at hwire
  refine ⟨_, bytes, ?_, hwire⟩
  show (h'.bytes ++ fitBytes 512 payload).length = 524
  rw [List.length_append, Hdr.bytes_length, fitBytes_length]

end

/-- The link whose new flit takes the next sequence number, and a credit of its flow. -/
def Link.taking (k : Link) (i : TxItem) : Link :=
  { k with
    txSeq := (k.txSeq + 1) % 4096
    queue := k.queue.erase i
    turn := if i.kind = 3 then k.turn else i.flow
    credits := if i.kind = 3 then k.credits else tset (fun _ => 64) k.credits i.flow (tget (fun _ => 64) k.credits i.flow - 1) }

theorem State.stamped_frame (s : State) (i : TxItem) : ∃ n, (s.stamped i).2 = { s with freeN := n } := by
  unfold State.stamped
  split
  · exact ⟨_, rfl⟩
  · exact ⟨s.freeN, rfl⟩

/-- A new flit sent and held. -/
theorem State.sendItem_sends (s : State) (l : Nat) (i : TxItem) : ∃ owed bytes b, bytes.length = 524 ∧
    Sends l { ({ (s.link l).taking i with owed } : Link).wired bytes with
      held := (s.link l).held ++ [{ seq := (s.link l).txSeq, item := i, bytes := b, since := s.clk.sundial }] } s (s.sendItem l i) := by
  unfold State.sendItem
  extract_lets _ k seq h k2 y r k3
  obtain ⟨n, hy⟩ : ∃ n, y.2 = { s with freeN := n } := s.stamped_frame i
  have h1 : Sends l (s.link l) s y.2 := by
    rw [hy]
    exact .of_links rfl rfl rfl
  have h2 := h1.trans (.setLink y.2 l k2)
  obtain ⟨owed, bytes, hlen, hl⟩ := (y.2.setLink l k2).launch_sends l h y.1
  have h3 := h2.trans hl
  rw [h2.self] at h3
  have h4 := h3.trans (.setLink r.1 l { k3 with held := k3.held ++ [{ seq, item := i, bytes := r.2, since := s.clk.sundial }] })
  have hk3 : k3 = ({ k2 with owed } : Link).wired bytes := h3.self
  rw [hk3] at h4 ⊢
  exact ⟨owed, bytes, r.2, hlen, h4⟩

/-! ## What FLIT_SEND sends -/

section
variable {s : State} {l : BitVec 5}

theorem exec_flitSend_idle (h : (s.link l.toNat).state ≠ 2 ∨ s.clk.locked = false) : exec (.flitSend l) s = .next s := by
  show execFlitSend l s = _
  unfold execFlitSend
  refine if_pos (h.imp_right fun h => ?_)
  rw [h]
  rfl

variable (hs : (s.link l.toNat).state = 2) (hk : s.clk.locked = true)
include hs hk

theorem exec_flitSend_frozen (hf : s.linkFrozen = true) {i : TxItem}
    (hi : ((s.link l.toNat).queue.find? fun x => x.kind == 3 && x.tag == 5) = some i) :
    exec (.flitSend l) s = .next (if s.dbg.conservation then s else s.sendItem l.toNat i) := by
  show execFlitSend l s = _
  unfold execFlitSend
  simp only [hs, hk, hf, hi, ne_eq, not_true, Bool.not_true, Bool.false_eq_true, or_self, if_false, if_true]

variable (hf : s.linkFrozen = false)
include hf

theorem exec_flitSend_nak {n : Nat} (hn : (s.link l.toNat).nak = some n) : exec (.flitSend l) s =
    .next ((s.setLink l.toNat { s.link l.toNat with nak := none }).launch l.toNat { kind := 4, tag := n } []).1 := by
  show execFlitSend l s = _
  unfold execFlitSend
  simp only [hs, hk, hf, hn, ne_eq, not_true, Bool.not_true, Bool.false_eq_true, or_self, if_false]

variable (hn : (s.link l.toNat).nak = none)
include hn

theorem exec_flitSend_replay {q : Nat} {qs : List Nat} {x : TxHeld} (hr : (s.link l.toNat).replay = q :: qs)
    (hx : ((s.link l.toNat).held.find? fun y => y.seq == q) = some x) : exec (.flitSend l) s =
    .next (((s.setLink l.toNat { s.link l.toNat with replay := qs }).traceLink l.toNat 2 (hdrOf x.bytes) 0).wire l.toNat x.bytes) := by
  show execFlitSend l s = _
  unfold execFlitSend
  simp only [hs, hk, hf, hn, hr, hx, ne_eq, not_true, Bool.not_true, Bool.false_eq_true, or_self, if_false]

variable (hr : (s.link l.toNat).replay = [])
include hr

theorem exec_flitSend_nothing (h : s.dbg.frozen = true ∨
    ((s.link l.toNat).queue.find? fun x => x.kind == 3) = none ∧ (s.link l.toNat).nextFlow = none) :
    exec (.flitSend l) s = .next (s.launch l.toNat {} []).1 := by
  show execFlitSend l s = _
  unfold execFlitSend
  simp only [hs, hk, hf, hn, hr, ne_eq, not_true, Bool.not_true, Bool.false_eq_true, or_self, if_false]
  rcases h with h | ⟨hq, hflow⟩
  · rw [if_pos h]
  · rw [hq, hflow]
    exact ite_self _

variable (hz : s.dbg.frozen = false)
include hz

theorem exec_flitSend_control {i : TxItem} (hi : ((s.link l.toNat).queue.find? fun x => x.kind == 3) = some i) :
    exec (.flitSend l) s = .next (s.sendItem l.toNat i) := by
  show execFlitSend l s = _
  unfold execFlitSend
  simp only [hs, hk, hf, hn, hr, hz, hi, ne_eq, not_true, Bool.not_true, Bool.false_eq_true, or_self, if_false]

theorem exec_flitSend_flow {f : Nat} {i : TxItem} (hq : ((s.link l.toNat).queue.find? fun x => x.kind == 3) = none)
    (hflow : (s.link l.toNat).nextFlow = some f)
    (hi : ((s.link l.toNat).queue.find? fun x => x.kind != 3 && x.flow == f) = some i) :
    exec (.flitSend l) s = .next (s.sendItem l.toNat i) := by
  show execFlitSend l s = _
  unfold execFlitSend
  simp only [hs, hk, hf, hn, hr, hz, hq, hflow, hi, ne_eq, not_true, Bool.not_true, Bool.false_eq_true, or_self, if_false]

end

/-- The flow in turn has a flit that waits, and a credit. -/
theorem Link.nextFlow_some {k : Link} {f : Nat} (h : k.nextFlow = some f) :
    (∃ i, (k.queue.find? fun x => x.kind != 3 && x.flow == f) = some i) ∧ 0 < tget (fun _ => 64) k.credits f := by
  have hp := List.find?_some h
  obtain ⟨hany, hc⟩ := Bool.and_eq_true_iff.mp hp
  obtain ⟨x, hx, hxp⟩ := List.any_eq_true.mp hany
  exact ⟨Option.isSome_iff_exists.mp (List.find?_isSome.mpr ⟨x, hx, hxp⟩), Nat.pos_of_ne_zero (by simpa using hc)⟩

/-- A flit is on the wire, the link still trained. -/
def OnWire (s : State) (l : Nat) (t : State) : Prop :=
  ∃ k bytes, Sends l k s t ∧ k.state = 2 ∧ k.wireOut = wireBytes (s.link l).txScramble bytes :: (s.link l).wireOut ∧
    ((∀ y ∈ (s.link l).held, y.bytes.length = 524) → bytes.length = 524)

theorem OnWire.sendItem {s : State} {l : Nat} (hs : (s.link l).state = 2) (i : TxItem) : OnWire s l (s.sendItem l i) := by
  obtain ⟨owed, bytes, b, hlen, h⟩ := s.sendItem_sends l i
  exact ⟨_, bytes, h, hs, rfl, fun _ => hlen⟩

/-- A trained link always sends a flit. -/
theorem exec_flitSend_onWire {s : State} {l : BitVec 5} (hs : (s.link l.toNat).state = 2) (hk : s.clk.locked = true)
    (hf : s.linkFrozen = false) (hrep : ∀ q ∈ (s.link l.toNat).replay, ∃ x ∈ (s.link l.toNat).held, x.seq = q) :
    ∃ t, exec (.flitSend l) s = .next t ∧ OnWire s l.toNat t := by
  cases hn : (s.link l.toNat).nak with
  | some n =>
    obtain ⟨owed, bytes, hlen, h⟩ := (s.setLink l.toNat { s.link l.toNat with nak := none }).launch_sends l.toNat { kind := 4, tag := n } []
    have h0 := Sends.setLink s l.toNat { s.link l.toNat with nak := none }
    rw [h0.self] at h
    exact ⟨_, exec_flitSend_nak hs hk hf hn, _, bytes, h0.trans h, hs, rfl, fun _ => hlen⟩
  | none =>
    cases hr : (s.link l.toNat).replay with
    | cons q qs =>
      obtain ⟨y, hy, hyq⟩ := hrep q (by rw [hr]; exact List.mem_cons_self)
      obtain ⟨x, hx⟩ := Option.isSome_iff_exists.mp (List.find?_isSome (p := fun y => y.seq == q).mpr ⟨y, hy, beq_iff_eq.mpr hyq⟩)
      have h0 := Sends.setLink s l.toNat { s.link l.toNat with replay := qs }
      have h1 := h0.trans (.traceLink _ l.toNat 2 (hdrOf x.bytes) 0)
      have h2 := h1.trans (.wire _ l.toNat x.bytes)
      rw [h1.self, h0.self] at h2
      exact ⟨_, exec_flitSend_replay hs hk hf hn hr hx, _, x.bytes, h2, hs, rfl, fun hheld => hheld x (List.mem_of_find?_eq_some hx)⟩
    | nil =>
      by_cases hidle : s.dbg.frozen = true ∨
          ((s.link l.toNat).queue.find? fun x => x.kind == 3) = none ∧ (s.link l.toNat).nextFlow = none
      · obtain ⟨owed, bytes, hlen, h⟩ := s.launch_sends l.toNat {} []
        exact ⟨_, exec_flitSend_nothing hs hk hf hn hr hidle, _, bytes, h, hs, rfl, fun _ => hlen⟩
      · obtain ⟨hz, hidle⟩ := not_or.mp hidle
        cases hq : (s.link l.toNat).queue.find? fun x => x.kind == 3 with
        | some i => exact ⟨_, exec_flitSend_control hs hk hf hn hr (eq_false_of_ne_true hz) hq, .sendItem hs i⟩
        | none =>
          obtain ⟨f, hflow⟩ := Option.ne_none_iff_exists'.mp fun h => hidle ⟨hq, h⟩
          obtain ⟨⟨i, hi⟩, -⟩ := Link.nextFlow_some hflow
          exact ⟨_, exec_flitSend_flow hs hk hf hn hr (eq_false_of_ne_true hz) hq hflow hi, .sendItem hs i⟩

/-- Settles O27: what is sent from the equations of `exec_flitSend`, what it changes from `State.launch_sends` and
`State.sendItem_sends`. -/
theorem flitSendTakesTheNakThenTheFlowInTurn : Obligations.FlitSendTakesTheNakThenTheFlowInTurn := by
  unfold Obligations.FlitSendTakesTheNakThenTheFlowInTurn
  refine ⟨fun s l hs hk hf hrep => ?_, fun s l h => exec_flitSend_idle h, fun s l i hs hk hf hi => exec_flitSend_frozen hs hk hf hi,
    fun s l q qs x hs hk hf hn hr hx => ?_, fun s l i hs hk hf hz hn hr hi => ?_, fun s l hs hk hf hn hr h => ?_,
    fun s l n hs hk hf hn => ?_, fun s l f i hs hk hf hz hn hr hq hflow hi => ?_⟩
  · obtain ⟨t, he, k, bytes, h, hstate, hwire, hlen⟩ := exec_flitSend_onWire hs hk hf hrep
    refine ⟨t, _, he, by rw [h.self, hwire], fun hheld => wireBytes_length _ (hlen hheld), by rw [h.self, hstate], h.beds, h.plots, h.others⟩
  · have h0 := Sends.setLink s l.toNat { s.link l.toNat with replay := qs }
    have h1 := h0.trans (.traceLink _ l.toNat 2 (hdrOf x.bytes) 0)
    have h2 := (h1.trans (.wire _ l.toNat x.bytes)).self
    rw [h1.self, h0.self] at h2
    exact ⟨_, _, exec_flitSend_replay hs hk hf hn hr hx, by rw [h2]; rfl, by rw [h2]; rfl, by rw [h2]; rfl, by rw [h2]; rfl, rfl⟩
  · obtain ⟨owed, bytes, b, -, h⟩ := s.sendItem_sends l.toNat i
    have hkind : i.kind = 3 := by simpa using List.find?_some hi
    refine ⟨_, b, exec_flitSend_control hs hk hf hn hr hz hi, by rw [h.self]; rfl, by rw [h.self]; rfl, ?_, by rw [h.self]⟩
    rw [h.self]
    exact if_pos hkind
  · obtain ⟨owed, bytes, -, hl⟩ := s.launch_sends l.toNat {} []
    exact ⟨_, exec_flitSend_nothing hs hk hf hn hr h, by rw [hl.self]; rfl, by rw [hl.self]; rfl, by rw [hl.self]; rfl⟩
  · obtain ⟨owed, bytes, -, h⟩ := (s.setLink l.toNat { s.link l.toNat with nak := none }).launch_sends l.toNat { kind := 4, tag := n } []
    have h0 := Sends.setLink s l.toNat { s.link l.toNat with nak := none }
    rw [h0.self] at h
    have h2 := (h0.trans h).self
    exact ⟨_, _, exec_flitSend_nak hs hk hf hn, by rw [h2]; rfl, by rw [h2]; rfl, by rw [h2]; rfl, by rw [h2]; rfl, by rw [h2]; rfl,
      (h0.trans h).others⟩
  · intro k
    obtain ⟨owed, bytes, b, -, h⟩ := s.sendItem_sends l.toNat i
    have hp := List.find?_some hi
    obtain ⟨hkind, hfl⟩ : i.kind ≠ 3 ∧ i.flow = f := by simpa using hp
    obtain ⟨-, hcredit⟩ := Link.nextFlow_some hflow
    have hcredits : ((s.sendItem l.toNat i).link l.toNat).credits =
        tset (fun _ => 64) k.credits f (tget (fun _ => 64) k.credits f - 1) := by
      rw [h.self, ← hfl]
      exact if_neg hkind
    refine ⟨_, _, b, exec_flitSend_flow hs hk hf hn hr hz hq hflow hi, by rw [h.self]; rfl, by rw [h.self]; rfl, ?_, by rw [h.self], ?_,
      hcredit, fun g hg => ?_, by rw [h.self]; rfl, h.others⟩
    · rw [h.self, ← hfl]
      exact if_neg hkind
    · rw [hcredits, tget_tset_self]
    · rw [hcredits, tget_tset_ne _ _ _ _ _ hg]

end Sys2Proof.Machine
end

section
/-! PROOFS. Flits received (R317, R318, R322, R336): the rules for a flit that is accepted, and O28. -/

namespace Sys2Proof.Machine

/-! ## Flits taken off the account of their plots -/

/-- The plots with the flits handed to a link taken off their account. -/
def unsent (ps : Tbl Plot) (ts : List TxItem) : Tbl Plot :=
  ts.foldl (fun (ps : Tbl Plot) t => if t.plot < 16
    then tset (fun _ => {}) ps t.plot { tget (fun _ => {}) ps t.plot with sends := (tget (fun _ => {}) ps t.plot).sends - 1 } else ps) ps

theorem State.unsend_eq (s : State) (ts : List TxItem) : s.unsend ts = { s with plots := unsent s.plots ts } := by
  induction ts generalizing s with
  | nil => rfl
  | cons t ts ih =>
    unfold State.unsend unsent at ih ⊢
    rw [List.foldl_cons, List.foldl_cons, ih]
    split <;> rfl

theorem tget_default_or_mem {α : Type} (d : Nat → α) (t : Tbl α) (k : Nat) : tget d t k = d k ∨ (k, tget d t k) ∈ t := by
  induction t with
  | nil => exact .inl rfl
  | cons e t ih =>
    obtain ⟨j, v⟩ := e
    rw [tget_cons]
    split
    next h => exact .inr (h ▸ List.mem_cons_self)
    next => exact ih.imp_right (List.mem_cons_of_mem _)

/-- What holds of every plot of the table whatever flits it counts holds when some have left its account. -/
theorem unsent_forall {P : Plot → Prop} (h0 : P {}) (hP : ∀ x n, P x → P { x with sends := n }) (ts : List TxItem) {ps : Tbl Plot}
    (h : ∀ e ∈ ps, P e.2) : ∀ e ∈ unsent ps ts, P e.2 := by
  refine List.foldlRecOn (motive := fun qs : Tbl Plot => ∀ e ∈ qs, P e.2) ts _ h fun qs hq t _ => ?_
  split
  · intro e he
    rcases mem_tset he with rfl | he
    · refine hP _ _ ?_
      rcases tget_default_or_mem (fun _ => ({} : Plot)) qs t.plot with hd | hm
      · rw [hd]
        exact h0
      · exact hq _ hm
    · exact hq e he
  · exact hq

/-! ## A flit accepted -/

/-- Link l has become k; no other link, no bed, no cut and no clock has changed, and companion mode is as it was. -/
structure Hears (l : Nat) (k : Link) (s t : State) : Prop where
  self : t.link l = k
  others : ∀ j, j ≠ l → t.link j = s.link j
  beds : t.beds = s.beds
  frozen : t.dbg.frozen = s.dbg.frozen
  clk : t.clk = s.clk
  comp : t.lnk.comp = s.lnk.comp

section
variable {l : Nat} {k k' : Link} {s t u : State}

theorem Hears.trans (a : Hears l k s t) (b : Hears l k' t u) : Hears l k' s u :=
  ⟨b.self, fun j hj => (b.others j hj).trans (a.others j hj), b.beds.trans a.beds, b.frozen.trans a.frozen, b.clk.trans a.clk,
   b.comp.trans a.comp⟩

theorem Hears.setLink (s : State) (l : Nat) (k : Link) : Hears l k s (s.setLink l k) :=
  ⟨(State.link_setLink s l l k).trans (if_pos rfl), fun j hj => (State.link_setLink s l j k).trans (if_neg hj), rfl, rfl, rfl, rfl⟩

/-- The link changed further. -/
theorem Hears.update (h : Hears l k s t) (g : Link → Link) : Hears l (g k) s (t.setLink l (g (t.link l))) := by
  rw [h.self]
  exact h.trans (.setLink t l (g k))

/-- A step that leaves the links, the beds and the clocks. -/
theorem Hears.of_lnk (hl : t.lnk = s.lnk) (hb : t.beds = s.beds) (hf : t.dbg.frozen = s.dbg.frozen) (hc : t.clk = s.clk) :
    Hears l (s.link l) s t := by
  have h : ∀ j, t.link j = s.link j := fun j => by
    unfold State.link
    rw [hl]
  exact ⟨h l, fun j _ => h j, hb, hf, hc, by rw [hl]⟩

theorem Hears.bump (s : State) (l off lo n k : Nat) : Hears l (s.link l) s (s.bump off lo n k) :=
  .of_lnk (State.bump_lnk _ _ _ _ _) (State.bump_beds _ _ _ _ _) (congrArg Dbg.frozen (State.bump_dbg _ _ _ _ _)) (State.bump_clk _ _ _ _ _)

/-- A link that has accepted a flit. -/
def Link.heard (k : Link) (kind : Nat) (h : Hdr) (st : List (BitVec 31)) (now : W64) : Link :=
  if kind = 1 ∨ kind = 2 ∨ kind = 3 then { k with rxScramble := st, lastValid := now, rxSeq := h.seq, nakSent := none }
  else { k with rxScramble := st, lastValid := now }

/-- A flit that is accepted does what its type does, after its header. -/
theorem State.receive_accepted {kind : Nat} {wire : List Byte} {h : Hdr} {payload : List Byte} (ha : Accepts s l kind wire h payload)
    (hk : kind ≤ 4) (f : Hdr → List Byte → State → State) : ∃ st u, s.receive l kind wire f = f h payload (u.headerIn l h) ∧
      Hears l ((s.link l).heard kind h st s.clk.sundial) s u ∧ u.plots = s.plots := by
  obtain ⟨d, hd, hcrc, hhdr, hpay⟩ := ha.decoded
  have hbody : (d.1.take 524).drop 12 = payload := hpay
  have hseq : ((kind == 1 || kind == 2 || kind == 3) && h.seq != ((s.link l).rxSeq + 1) % 4096) = false := by
    by_cases hs : kind = 1 ∨ kind = 2 ∨ kind = 3
    · simp [ha.order hs]
    · simp only [not_or] at hs
      simp [hs]
  unfold State.receive
  extract_lets k r s1 err seqd
  rw [if_neg (show ¬(k.state ≠ 2 ∨ wire.length ≠ 568 ∨ (!s.clk.locked) = true) by simp [k, ha.trained, ha.size, ha.clock]),
    if_neg (by simp [ha.awake])]
  rw [show fecDecode r.2 = some d from hd]
  have h1 : Hears l { k with rxScramble := r.1 } s s1 := .setLink _ _ _
  dsimp only
  rw [if_neg (not_not.mpr hcrc), hhdr, if_neg (by rw [ha.typed]; omega), if_neg (not_not.mpr ha.typed)]
  generalize hs2 : s1.bump err 0 32 d.2 = s2
  have h2 : Hears l { k with rxScramble := r.1 } s s2 := by
    have hb := h1.trans (Hears.bump s1 l err 0 32 d.2)
    rwa [h1.self, hs2] at hb
  have hp2 : s2.plots = s.plots := hs2 ▸ State.bump_plots _ _ _ _ _
  generalize hs3 : s2.setLink l { s2.link l with lastValid := s.clk.sundial } = s3
  have h3 : Hears l { k with rxScramble := r.1, lastValid := s.clk.sundial } s s3 := by
    rw [← hs3]
    exact h2.update fun k => { k with lastValid := s.clk.sundial }
  have hp3 : s3.plots = s.plots := hs3 ▸ hp2
  rw [if_neg (by rw [hseq]; exact Bool.false_ne_true), hbody]
  refine ⟨r.1, _, rfl, ?_, ?_⟩
  · unfold Link.heard
    by_cases hs : kind = 1 ∨ kind = 2 ∨ kind = 3
    · rw [if_pos hs, if_pos (by simpa [seqd, or_assoc] using hs)]
      exact h3.update fun k => { k with rxSeq := h.seq, nakSent := none }
    · rw [if_neg hs, if_neg (by simpa [seqd, or_assoc] using hs)]
      exact h3
  · exact (apply_ite State.plots _ _ _).trans ((ite_congr rfl (fun _ => State.setLink_plots s3 l _) fun _ => rfl).trans ((ite_self _).trans hp3))

/-! ## A header -/

theorem Hears.traceLink (s : State) (l : Nat) (kind : Byte) (h : Hdr) (sender : Nat) :
    Hears l (s.link l) s (s.traceLink l kind h sender) ∧ (s.traceLink l kind h sender).plots = s.plots := by
  obtain ⟨n, m, r, he⟩ := s.traceLink_frame l kind h sender
  rw [he]
  exact ⟨.of_lnk rfl rfl rfl rfl, rfl⟩

/-- The flits that an ack names: every held one up to it. -/
def Link.done (k : Link) (n : Nat) : List TxItem :=
  (k.held.takeWhile (fun x => x.seq != n) ++ (k.held.find? fun x => x.seq == n).toList).map (·.item)

/-- A link to which flit n has been acknowledged, in A-cycle a. -/
def Link.acked (k : Link) (n a : Nat) : Link :=
  let held := (k.held.dropWhile fun x => x.seq != n).drop 1
  let done := k.held.takeWhile (fun x => x.seq != n) ++ (k.held.find? fun x => x.seq == n).toList
  { k with
    held, replay := k.replay.filter fun q => held.any fun x => x.seq == q
    creditAt := done.foldl (fun t x => if x.item.kind = 3 then t else tset (fun _ => 0) t x.item.flow a) k.creditAt }

theorem State.ackTo_hears (s : State) (l n : Nat) : ∃ held replay creditAt,
    Hears l { s.link l with held, replay, creditAt } s (s.ackTo l n) := by
  unfold State.ackTo
  simp only []
  split
  · rw [State.unsend_eq]
    generalize unsent s.plots _ = ps
    have h0 : Hears l (s.link l) s { s with plots := ps } := .of_lnk rfl rfl rfl rfl
    have h1 := h0.trans (.setLink { s with plots := ps } l ((s.link l).acked n s.clk.cycles))
    exact ⟨((s.link l).acked n s.clk.cycles).held, ((s.link l).acked n s.clk.cycles).replay, ((s.link l).acked n s.clk.cycles).creditAt, h1⟩
  · exact ⟨(s.link l).held, (s.link l).replay, (s.link l).creditAt, .of_lnk rfl rfl rfl rfl⟩

theorem State.ackTo_plots (s : State) (l n : Nat) :
    (s.ackTo l n).plots = if (s.link l).held.any (fun x => x.seq == n) then unsent s.plots ((s.link l).done n) else s.plots := by
  unfold State.ackTo
  simp only []
  split
  · rw [State.unsend_eq]
    rfl
  · rfl

theorem State.ackTo_unheld {s : State} {l n : Nat} (h : ∀ y ∈ (s.link l).held, y.seq ≠ n) : s.ackTo l n = s := by
  unfold State.ackTo
  simp only []
  rw [if_neg]
  simpa using h

theorem Hears.credit (s : State) (l flow n : Nat) : ∃ credits creditAt, Hears l { s.link l with credits, creditAt } s (s.credit l flow n) :=
  ⟨_, _, .setLink _ _ _⟩

theorem State.sidebandIn_alone {s : State} (h : Alone s l) (w : BitVec 32) : s.sidebandIn l w = s := by
  unfold State.sidebandIn
  simp only []
  refine if_neg fun hc => ?_
  rcases h with h | h
  · rw [h] at hc
    cases hc.1
  · exact h hc.2.1

/-- What a header changes of its link, where companion mode does not use it. -/
theorem State.headerIn_hears (s : State) (h : Hdr) (ha : Alone s l) : ∃ held replay credits creditAt,
    Hears l { s.link l with held, replay, credits, creditAt } s (s.headerIn l h) ∧
      (s.headerIn l h).plots =
        if (s.link l).held.any (fun x => x.seq == h.ack) then unsent s.plots ((s.link l).done h.ack) else s.plots := by
  unfold State.headerIn
  obtain ⟨h1, hp1⟩ := Hears.traceLink s l 3 h (bits h.sideband.toNat 16 8)
  generalize s.traceLink l 3 h (bits h.sideband.toNat 16 8) = s1 at *
  obtain ⟨held, replay, creditAt, h2⟩ := s1.ackTo_hears l h.ack
  have hp2 := s1.ackTo_plots l h.ack
  rw [h1.self] at h2 hp2
  generalize s1.ackTo l h.ack = s2 at *
  have h3 := (h1.trans h2).update fun k => { k with
    credits := tset (fun _ => 64) k.credits h.creditFlow (tget (fun _ => 64) k.credits h.creditFlow + h.creditCount)
    creditAt := if h.creditCount = 0 then k.creditAt else tset (fun _ => 0) k.creditAt h.creditFlow s2.clk.cycles }
  have hal : Alone (s2.credit l h.creditFlow h.creditCount) l := by
    unfold Alone
    rw [show (s2.credit l h.creditFlow h.creditCount).lnk.comp = s.lnk.comp from h3.comp]
    exact ha
  rw [State.sidebandIn_alone hal]
  refine ⟨held, replay, _, _, h3, hp2.trans ?_⟩
  rw [hp1]

theorem State.headerIn_unheld (s : State) (h : Hdr) (ha : Alone s l) (hn : ∀ y ∈ (s.link l).held, y.seq ≠ h.ack) :
    ∃ credits creditAt, Hears l { s.link l with credits, creditAt } s (s.headerIn l h) := by
  unfold State.headerIn
  obtain ⟨h1, -⟩ := Hears.traceLink s l 3 h (bits h.sideband.toNat 16 8)
  generalize s.traceLink l 3 h (bits h.sideband.toNat 16 8) = s1 at *
  rw [State.ackTo_unheld (by rw [h1.self]; exact hn)]
  have h3 := h1.update fun k => { k with
    credits := tset (fun _ => 64) k.credits h.creditFlow (tget (fun _ => 64) k.credits h.creditFlow + h.creditCount)
    creditAt := if h.creditCount = 0 then k.creditAt else tset (fun _ => 0) k.creditAt h.creditFlow s1.clk.cycles }
  have hal : Alone (s1.credit l h.creditFlow h.creditCount) l := by
    unfold Alone
    rw [show (s1.credit l h.creditFlow h.creditCount).lnk.comp = s.lnk.comp from h3.comp]
    exact ha
  rw [State.sidebandIn_alone hal]
  exact ⟨_, _, h3⟩

end

/-! ## A flit as the wire carries it -/

/-- A collective flit of zeros on flow 3 that brings the ack of flit 4095. -/
def ackHdr : Hdr := { kind := 2, flow := 3, ack := 4095, first := true, lines := 8 }
def ackData : List Byte := ackHdr.bytes ++ zeros 512 ++ leBytes 8 14926105873648362215
def ackWire : List Byte := ackData ++
  [130, 203, 7, 232, 158, 44, 50, 122, 188, 164, 228, 238, 147, 241, 242, 86, 153, 96, 71, 238, 119, 5, 137, 183, 172, 224, 211,
   101, 50, 59, 200, 236, 25, 144, 211, 236]

theorem fecDecode_ackWire : fecDecode ackWire = some (ackData, 0) := by decide +kernel

theorem scramble_nil (bs : List Byte) : (scramble [] bs).2 = bs := by
  have hfold : ∀ (f : List (BitVec 31) × Nat × List Byte → Byte → List (BitVec 31) × Nat × List Byte),
      (∀ n r b, f ([], n, r) b = ([], n + 1, b :: r)) → ∀ n r, (bs.foldl f ([], n, r)).2.2 = bs.reverse ++ r := by
    intro f hf
    induction bs with
    | nil => exact fun _ _ => rfl
    | cons b bs ih =>
      intro n r
      rw [List.foldl_cons, hf, ih, List.reverse_cons, List.append_assoc]
      rfl
  have hzero : (scrambleByte 0).2 = 0 := by decide
  unfold scramble
  refine (congrArg List.reverse (hfold _ (fun n r b => ?_) 0 [])).trans (by rw [List.append_nil, List.reverse_reverse])
  show (([] : List (BitVec 31)), n + 1, (b ^^^ (scrambleByte 0).2) :: r) = _
  rw [hzero, show b ^^^ (0 : Byte) = b from BitVec.xor_zero]

/-- A fold over zeros in steps of n, whose values on the way are given. -/
theorem foldl_zeros {α : Type} {f : α → Byte → α} {n : Nat} (v : Nat → α) (k : Nat) (h : ∀ i < k, (zeros n).foldl f (v i) = v (i + 1)) :
    (zeros (n * k)).foldl f (v 0) = v k := by
  induction k with
  | zero => rfl
  | succ k ih =>
    have hsplit : zeros (n * (k + 1)) = zeros (n * k) ++ zeros n := by
      unfold zeros
      rw [List.replicate_append_replicate, Nat.mul_succ]
    rw [hsplit, List.foldl_append, ih fun i hi => h i (by omega), h k (Nat.lt_succ_self k)]

/-- The CRC's register after the header, and after each 32 zeros. -/
def ackCrcs (i : Nat) : W64 :=
  BitVec.ofNat 64 ([12881385008905223773, 15180597097386965491, 2220406250923246677, 15209558593393824874, 18372652519926025822,
    8218518771055469809, 13306186986902383219, 13382420401342848332, 9346931066542767006, 11663222822998920687, 17805589198950005484,
    5883949929702757476, 13140449634998350372, 4643180753107963550, 2849990107237697394, 3623458642222709663,
    3520638200061189400].getD i 0)

theorem crc64_ackBody : crc64 (ackHdr.bytes ++ zeros 512) = 14926105873648362215 := by
  have hhdr : ackHdr.bytes.foldl crcByte (BitVec.allOnes 64) = ackCrcs 0 := by decide +kernel
  have hzeros : (zeros 512).foldl crcByte (ackCrcs 0) = ackCrcs 16 := foldl_zeros (n := 32) ackCrcs 16 (by decide +kernel)
  unfold crc64
  rw [List.foldl_append, hhdr, hzeros]
  decide +kernel

theorem ackBody_length : (ackHdr.bytes ++ zeros 512).length = 524 := by
  rw [List.length_append, Hdr.bytes_length, zeros, List.length_replicate]

theorem ackData_body : ackData.take 524 = ackHdr.bytes ++ zeros 512 := List.take_left' ackBody_length

/-! ## A collective flit whose ack makes a flow lose its plot -/

/-- The plot of the table's first entry takes part in a collective and has no claim; that of a later entry of the same number
holds the flow. -/
def sharingPlot : Plot := { state := 3, prog := { colls := [{ coll := 0, beds := 1, parent := 31 }] } }
def claimingPlot : Plot := { state := 3, prog := { claims := [{ kind := 6, first := 23, count := 1, slots := 1 <<< 3 }] } }
def heldFlit : TxHeld :=
  { seq := 4095, item := { kind := 1, flow := 15, first := true, last := true, lines := 8, tag := 0, payload := [], plot := 0 }, bytes := []
    since := 0 }

/-- Flit 4095 of plot 0 is held when a collective flit brings its ack. -/
def twiceHeld : State :=
  { State.reset with
    clk := { locked := true }
    lnk := { links := [(23, { state := 2, inDomain := true, held := [heldFlit] })] }
    plots := [(0, sharingPlot), (0, claimingPlot)] }

theorem twiceHeld_accepts : Accepts twiceHeld 23 2 ackWire ackHdr (zeros 512) := by
  refine ⟨rfl, by decide +kernel, rfl, rfl, ⟨(ackData, 0), ?_, ?_, ?_, ?_⟩, rfl, fun _ => rfl⟩
  · rw [show (twiceHeld.link 23).rxScramble = [] from rfl, scramble_nil, fecDecode_ackWire]
  · rw [ackData_body, crc64_ackBody]
    decide +kernel
  · rw [ackData_body]
    decide +kernel
  · rw [ackData_body, List.drop_append_of_le_length (by rw [Hdr.bytes_length]), List.drop_of_length_le (by rw [Hdr.bytes_length])]
    rfl

/-- The flow is held by no plot once the flit has left the account of plot 0. -/
theorem twiceHeld_loses (u : State) (h : u.plots = unsent twiceHeld.plots ((twiceHeld.link 23).done 4095)) : u.flowPlot 23 3 = none := by
  unfold State.flowPlot
  rw [h]
  decide +kernel

theorem State.takeRun_unowned {s : State} {l flow : Nat} (h : s.flowPlot l flow = none) (c : Nat) : s.takeRun l flow c = s := by
  unfold State.takeRun
  rw [h]

/-- A collective flit of a flow that no plot holds waits. -/
theorem collIn_unowned {s : State} {l : Nat} {h : Hdr} (hin : (s.link l).inDomain = true) (hf : s.dbg.frozen = false)
    (hn : s.flowPlot l h.flow = none) (payload : List Byte) :
    collIn l h payload s = s.setLink l { s.link l with rx := (s.link l).rx ++ [s.rxOf h payload] } := by
  unfold collIn
  simp only []
  rw [if_neg (by simp [hin]), if_neg (by simp [hf])]
  exact State.takeRun_unowned (s := s.setLink l { s.link l with rx := (s.link l).rx ++ [s.rxOf h payload] }) hn _

/-- Refutes O28: where a plot's number has two entries, the flit whose ack a collective flit brings leaves one of them, which does
not hold the flow; the collective flit waits and is not read. -/
theorem not_acceptedFlitsAreKeptByTheirKind : ¬Obligations.AcceptedFlitsAreKeptByTheirKind := by
  unfold Obligations.AcceptedFlitsAreKeptByTheirKind
  intro hO
  have hal : Alone twiceHeld 23 := .inl rfl
  have hparts : (twiceHeld.plot 0).parts = [] := by decide +kernel
  obtain ⟨t, he, -, hrx, -⟩ := ((hO.2 twiceHeld 23 ackWire _ _ hal).1 twiceHeld_accepts).2.2 0 rfl rfl (by decide +kernel) rfl
    (by decide +kernel) rfl ⟨0, by decide, by decide +kernel, fun o ho => absurd ho (hparts ▸ List.not_mem_nil)⟩
  obtain ⟨st, u, hrec, hu, hup⟩ := State.receive_accepted twiceHeld_accepts (by decide) fun h p s => collIn 23 h p s
  have hal' : Alone u 23 := by
    unfold Alone
    rw [hu.comp]
    exact hal
  obtain ⟨held, replay, credits, creditAt, hh, hp⟩ := u.headerIn_hears ackHdr hal'
  have hcoll : t = collIn 23 ackHdr (zeros 512) (u.headerIn 23 ackHdr) := by
    injection he.symm.trans (congrArg Host.Outcome.next hrec)
  have hlink : (u.headerIn 23 ackHdr).link 23 = { (twiceHeld.link 23).heard 2 ackHdr st twiceHeld.clk.sundial with
      held, replay, credits, creditAt } := by
    rw [hh.self, hu.self]
  have hno : (u.headerIn 23 ackHdr).flowPlot 23 3 = none := by
    refine twiceHeld_loses _ ?_
    rw [hp, hu.self, hup]
    rfl
  rw [hcoll, collIn_unowned (by rw [hlink]; rfl) (by rw [hh.frozen, hu.frozen]; rfl) hno, State.link_setLink,
    if_pos (show (23 : BitVec 5).toNat = 23 from rfl), hlink] at hrx
  have htaken := congrArg (List.map RxItem.taken) hrx
  cases htaken

end Sys2Proof.Machine
end

section
/-! PROOFS. Replays, and links that go down (R322 to R324): O29. -/

namespace Sys2Proof.Machine

/-! ## A replay -/

theorem foldl_recs {ι : Type} {f : State → ι → State} (hf : ∀ t i, ∃ x, f t i = { t with recs := x }) (xs : List ι) (s : State) :
    ∃ x, xs.foldl f s = { s with recs := x } := by
  refine List.foldlRecOn (motive := fun t : State => ∃ x, t = { s with recs := x }) xs f ⟨s.recs, rfl⟩ ?_
  rintro _ ⟨x, rfl⟩ i -
  obtain ⟨y, hy⟩ := hf { s with recs := x } i
  exact ⟨y, hy⟩

theorem State.replayEvent_recs (s : State) (l : Nat) (x : TxHeld) : ∃ r, s.replayEvent l x = { s with recs := r } :=
  foldl_recs (fun t p => t.event_recs p 0x08 0xFF 0 0 (leBytes 1 l ++ leBytes 2 x.seq ++ leBytes 1 x.item.flow)) _ s

/-- The first replay of a flit noted in the run records. -/
def State.noteReplay (s : State) (l : Nat) (again : List TxHeld) : State :=
  (again.filter fun x => x.replays == 0).foldl (fun (s : State) x => s.replayEvent l x)
    ((s.linkPlots l).foldl
      (fun (s : State) p =>
        let r := s.runRec p
        if r.isOpen then s.setRunRec p { r with retried := true, replays := satAdd 32 r.replays 1 } else s) s)

theorem State.noteReplay_recs (s : State) (l : Nat) (again : List TxHeld) : ∃ r, s.noteReplay l again = { s with recs := r } := by
  unfold State.noteReplay
  obtain ⟨r, hr⟩ := foldl_recs (f := fun (s : State) p =>
    let r := s.runRec p
    if r.isOpen then s.setRunRec p { r with retried := true, replays := satAdd 32 r.replays 1 } else s) (fun t p => by
      dsimp only
      split
      · exact ⟨_, rfl⟩
      · exact ⟨t.recs, rfl⟩) (s.linkPlots l) s
  obtain ⟨r', hr'⟩ := foldl_recs (fun t x => t.replayEvent_recs l x) (again.filter fun x => x.replays == 0) { s with recs := r }
  exact ⟨r', by rw [hr, hr']⟩

/-- A link whose held flits from the oldest on are put up for replay. -/
def Link.replaying (k : Link) (now : W64) : Link :=
  { k with
    held := k.held.map fun x => { x with replays := x.replays + 1, since := now }
    replay := k.held.map (·.seq) }

/-- A replay from the oldest held flit on, of which none has been replayed seven times. -/
theorem State.startReplay_oldest {s : State} {l : Nat} {x : TxHeld} {xs : List TxHeld} (hh : (s.link l).held = x :: xs)
    (hn : ∀ y ∈ x :: xs, y.replays < 7) {u : State} (hu : u = (s.bump (0xB0018 + 0x100 * l) 0 32 1).noteReplay l (x :: xs)) :
    s.startReplay l x.seq = u.setLink l { u.link l with
      held := (x :: xs).map fun y => { y with replays := y.replays + 1, since := u.clk.sundial }, replay := (x :: xs).map (·.seq) } := by
  have hagain : (s.link l).held.dropWhile (fun y => y.seq != x.seq) = x :: xs := by
    rw [hh, List.dropWhile_cons_of_neg (by simp)]
  have hkeep : (s.link l).held.takeWhile (fun y => y.seq != x.seq) = [] := by
    rw [hh, List.takeWhile_cons_of_neg (by simp)]
  unfold State.startReplay
  simp only [hagain, hkeep, List.nil_append]
  rw [if_neg (by simp), if_neg ?_, hu]
  · rfl
  · simp only [List.any_map, List.any_eq_true, not_exists, not_and]
    intro y hy
    simpa using hn y hy

theorem State.startReplay_hears {s : State} {l : Nat} {x : TxHeld} {xs : List TxHeld} (hh : (s.link l).held = x :: xs)
    (hn : ∀ y ∈ x :: xs, y.replays < 7) : Hears l ((s.link l).replaying s.clk.sundial) s (s.startReplay l x.seq) := by
  obtain ⟨r, hr⟩ := (s.bump (0xB0018 + 0x100 * l) 0 32 1).noteReplay_recs l (x :: xs)
  have h1 := Hears.bump s l (0xB0018 + 0x100 * l) 0 32 1
  rw [State.startReplay_oldest hh hn hr.symm]
  generalize s.bump (0xB0018 + 0x100 * l) 0 32 1 = u at *
  have h2 : Hears l (u.link l) u { u with recs := r } := .of_lnk rfl rfl rfl rfl
  have h3 := h1.trans h2
  rw [h1.self] at h3
  have h4 := h3.update fun k => { k with
    held := (x :: xs).map fun y => { y with replays := y.replays + 1, since := u.clk.sundial }, replay := (x :: xs).map (·.seq) }
  rw [show u.clk = s.clk from h1.clk] at h4 ⊢
  unfold Link.replaying
  rw [hh]
  exact h4

/-! ## A link declared down -/

/-- A link without anything that a link holds. -/
def Link.down (k : Link) : Link :=
  { k with
    state := 0, queue := [], held := [], replay := [], nak := none, credits := [], rx := [], arrived := [], owed := [],
    nakSent := none, ctlIn := [], captured := [], partnerFormed := false, fresh := false }

/-- Trees chosen anew change which links are tree links and links to children. -/
theorem State.retree_frame (s : State) (kids : List Nat) : ∃ x, s.retree kids = { s with lnk := { s.lnk with links := x } } ∧
    ∀ j, ∃ a b, (s.retree kids).link j = { s.link j with tree := a, child := b } := by
  unfold State.retree
  simp only []
  refine List.foldlRecOn (motive := fun t : State => ∃ x, t = { s with lnk := { s.lnk with links := x } } ∧
    ∀ j, ∃ a b, t.link j = { s.link j with tree := a, child := b }) _ _ ⟨s.lnk.links, rfl, fun j => ⟨_, _, rfl⟩⟩ ?_
  rintro t ⟨x, rfl, hj⟩ e -
  refine ⟨_, rfl, fun j => ?_⟩
  obtain ⟨a, b, hab⟩ := hj j
  rw [State.link_setLink]
  split
  next he =>
    subst he
    rw [hab]
    exact ⟨_, _, rfl⟩
  next => exact ⟨a, b, hab⟩

/-- No plot that a table counts flits of holds flows of a link, if none did before flits left its account. -/
theorem State.linkPlots_unsent {s t : State} {l : Nat} (h : s.linkPlots l = []) {ts : List TxItem} (ht : t.plots = unsent s.plots ts) :
    t.linkPlots l = [] := by
  unfold State.linkPlots at h ⊢
  rw [List.map_eq_nil_iff, List.filter_eq_nil_iff] at h ⊢
  rw [ht]
  exact unsent_forall (P := fun p => ¬(p.state != 0 && p.prog.claims.any fun c =>
    c.kind == 6 && decide (c.first ≤ l) && decide (l < c.first + c.count) && c.slots != 0) = true) (by simp) (fun _ _ h => h) ts h

/-- The first cause of a link's going down is latched. -/
theorem State.latchDown (s : State) (off cause v : Nat) (hc : cause < 8) :
    (if s.fld off 0 1 = 1 then s else s.setReg off (BitVec.ofNat 64 (1 + cause * 2 + v * 2 ^ 4))).fld off 0 1 = 1 ∧
      (s.fld off 0 1 = 0 →
        (if s.fld off 0 1 = 1 then s else s.setReg off (BitVec.ofNat 64 (1 + cause * 2 + v * 2 ^ 4))).fld off 1 3 = cause) := by
  have hset : ∀ lo n, (s.setReg off (BitVec.ofNat 64 (1 + cause * 2 + v * 2 ^ 4))).fld off lo n =
      (1 + cause * 2 + v * 2 ^ 4) % 2 ^ 64 / 2 ^ lo % 2 ^ n := fun lo n => by
    unfold State.fld
    rw [State.reg_setReg, if_pos rfl]
    rfl
  constructor
  · split
    · assumption
    · rw [hset]
      omega
  · intro h0
    rw [if_neg (by omega), hset]
    omega

/-- What is latched leaves plots, links and beds. -/
theorem State.latchReg_regs (s : State) (off : Nat) (v : W64) :
    ∃ r, (if s.fld off 0 1 = 1 then s else s.setReg off v) = { s with regs := r } := by
  split
  · exact ⟨s.regs, rfl⟩
  · exact ⟨_, rfl⟩

theorem State.linkDown_effect {s : State} {l : Nat} (hp : s.linkPlots l = []) {cause : Nat} (hc : cause < 8) :
    (∃ a b, (s.linkDown l cause).link l = { (s.link l).down with tree := a, child := b }) ∧
      (∀ j, j ≠ l → ∃ a b, (s.linkDown l cause).link j = { s.link j with tree := a, child := b }) ∧
      (s.linkDown l cause).beds = s.beds ∧ (s.linkDown l cause).fld (0xB0020 + 0x100 * l) 0 1 = 1 ∧
      (s.fld (0xB0020 + 0x100 * l) 0 1 = 0 → (s.linkDown l cause).fld (0xB0020 + 0x100 * l) 1 3 = cause) := by
  unfold State.linkDown
  extract_lets k kids off s1 s2 s3 s4 s5
  obtain ⟨hlatch, hcause⟩ := s.latchDown off cause (s.now % 2 ^ 48) hc
  obtain ⟨r, hr⟩ : ∃ r, s1 = { s with regs := r } := s.latchReg_regs off _
  have hf1 : s1.fld off 0 1 = 1 := hlatch
  have hc1 : s.fld off 0 1 = 0 → s1.fld off 1 3 = cause := hcause
  clear_value s1
  have h2 : s2 = { s1 with plots := unsent s1.plots (k.queue ++ k.held.map (·.item)) } := s1.unsend_eq _
  clear_value s2
  obtain ⟨x, hx, hlinks⟩ : ∃ x, s4 = { s3 with lnk := { s3.lnk with links := x } } ∧
    ∀ j, ∃ a b, s4.link j = { s3.link j with tree := a, child := b } := s3.retree_frame kids
  have h3 : ∀ j, s3.link j = if j = l then k.down else s.link j := fun j => by
    refine (State.link_setLink s2 l j _).trans ?_
    rw [h2, hr]
    rfl
  have hs3 : s3.plots = unsent s.plots (k.queue ++ k.held.map (·.item)) ∧ s3.beds = s.beds ∧ s3.regs = s1.regs := by
    refine ⟨?_, ?_, ?_⟩
    · show s2.plots = _
      rw [h2, hr]
    · show s2.beds = _
      rw [h2, hr]
    · show s2.regs = _
      rw [h2]
  clear_value s3 s4
  obtain ⟨g, h, h5⟩ : ∃ g h, s5 = { s4 with grd := g, host := h } := s4.report_frame _ _ _ _
  clear_value s5
  have hnone : s5.linkPlots l = [] := by
    refine State.linkPlots_unsent hp (ts := k.queue ++ k.held.map (·.item)) ?_
    rw [h5, hx]
    exact hs3.1
  have hfld : ∀ lo n, s5.fld off lo n = s1.fld off lo n := fun lo n => by
    unfold State.fld State.reg
    rw [h5, hx]
    show wfld (tget regReset s3.regs off) lo n = _
    rw [hs3.2.2]
  have hl5 : ∀ j, s5.link j = s4.link j := fun j => by rw [h5]; rfl
  rw [hnone, List.foldl_nil]
  refine ⟨?_, fun j hj => ?_, ?_, ?_, fun h0 => ?_⟩
  · obtain ⟨a, b, hab⟩ := hlinks l
    exact ⟨a, b, by rw [hl5, hab, h3, if_pos rfl]⟩
  · obtain ⟨a, b, hab⟩ := hlinks j
    exact ⟨a, b, by rw [hl5, hab, h3, if_neg hj]⟩
  · rw [h5, hx]
    exact hs3.2.1
  · rw [hfld]
    exact hf1
  · rw [hfld]
    exact hc1 h0

/-! ## The commands -/

theorem exec_replayTimeout {s : State} {l : BitVec 5} {x : TxHeld} {xs : List TxHeld} (hh : (s.link l.toNat).held = x :: xs)
    (hs : (s.link l.toNat).state = 2) (hf : s.linkFrozen = false) (hd : x.since.toNat + 200 < s.now) : exec (.replayTimeout l) s =
      .next ((s.bump (0xB0018 + 0x100 * l.toNat) 32 16 1).startReplay l.toNat x.seq) := by
  show execReplayTimeout l s = _
  unfold execReplayTimeout
  simp only [hh, hs, hf, hd, Bool.not_false, and_self, if_true]

theorem exec_linkLost {s : State} {l : BitVec 5} (hs : (s.link l.toNat).state = 2) {silent : Bool}
    (hf : silent = true → s.linkFrozen = false ∧ (s.link l.toNat).lastValid.toNat + 1000 < s.now) :
    exec (if silent then .linkSilenceTimeout l else .flitAlignmentLost l) s =
      .next (s.linkDown l.toNat (if silent then 2 else 1)) := by
  cases silent with
  | true =>
    obtain ⟨hz, hd⟩ := hf rfl
    show execLinkSilenceTimeout l s = _
    unfold execLinkSilenceTimeout
    simp only [hs, hz, hd, Bool.not_false, and_self, if_true]
  | false =>
    show execFlitAlignmentLost l s = _
    unfold execFlitAlignmentLost
    exact if_pos hs

/-- Settles O29: a replay from `State.startReplay_hears`, a link lost from `State.linkDown_effect`. -/
theorem replaysRepeatFlitsAndLostLinksGoDownEmpty : Obligations.ReplaysRepeatFlitsAndLostLinksGoDownEmpty := by
  unfold Obligations.ReplaysRepeatFlitsAndLostLinksGoDownEmpty
  refine ⟨⟨fun s l x xs hh hs hf hd hn => ?_, fun s l wire h payload x xs ha hal hh hx hn => ?_⟩, fun s l silent hs hf hp => ?_⟩
  · have h1 := Hears.bump s l.toNat (0xB0018 + 0x100 * l.toNat) 32 16 1
    have h2 := h1.trans (State.startReplay_hears (by rw [h1.self]; exact hh) hn)
    rw [h1.self, h1.clk] at h2
    unfold Link.replaying at h2
    rw [hh] at h2
    exact ⟨_, exec_replayTimeout hh hs hf hd, by rw [h2.self]; exact hs, by rw [h2.self], by rw [h2.self], by rw [h2.self], h2.others, h2.beds⟩
  · obtain ⟨st, u, hrec, hu, -⟩ := State.receive_accepted ha (by decide) fun h _ s => nakIn l.toNat h s
    have hheld : (u.link l.toNat).held = x :: xs := by
      rw [hu.self]
      exact hh
    obtain ⟨credits, creditAt, hk⟩ := u.headerIn_unheld h
      (by unfold Alone; rw [hu.comp]; exact hal) fun y hy => (hn y (hheld ▸ hy)).2
    have h1 := hu.trans hk
    have hb := h1.trans (.bump _ l.toNat (0xB0018 + 0x100 * l.toNat) 48 16 1)
    have h2 := hb.trans (State.startReplay_hears (x := x) (xs := xs) (by rw [hb.self, h1.self]; exact hheld) fun y hy => (hn y hy).1)
    rw [hb.self, h1.self, hu.self, hb.clk] at h2
    have hexec : exec (.nakReceive l wire) s = .next _ := congrArg Host.Outcome.next hrec
    unfold nakIn at hexec
    rw [← hx] at hexec
    have hk2 := h2.self
    unfold Link.replaying at hk2
    have hh2 : ((s.link l.toNat).heard 4 h st s.clk.sundial).held = x :: xs := hh
    exact ⟨_, hexec, by rw [hk2]; exact ha.trained, by rw [hk2]; exact congrArg (List.map TxHeld.seq) hh2,
      by rw [hk2]; exact congrArg (List.map fun y => { y with replays := y.replays + 1, since := s.clk.sundial }) hh2⟩
  · obtain ⟨⟨a, b, hl⟩, hothers, hbeds, hlatch, hcause⟩ := State.linkDown_effect hp (cause := if silent then 2 else 1)
      (by cases silent <;> decide)
    refine ⟨_, exec_linkLost hs hf, by rw [hl]; rfl, by rw [hl]; rfl, by rw [hl]; rfl, by rw [hl]; rfl, by rw [hl]; rfl, fun j hj => ?_, hbeds,
      hlatch, hcause⟩
    obtain ⟨c, d, hj⟩ := hothers j hj
    rw [hj]

end Sys2Proof.Machine
end

section
/-! PROOFS. Messages that land (R233, R235, R264, R320, R321): O30. -/

namespace Sys2Proof.Machine

/-! ## Flits that leave the buffers -/

/-- A link whose flow's flits have left the buffers. -/
def Link.taken (k : Link) (f : Nat) (m : List RxItem) (kept : List Byte) : Link :=
  { k with
    rx := m.foldl (fun r y => r.erase y) k.rx
    arrived := tset (fun _ => []) k.arrived f kept
    owed := tset (fun _ => 0) k.owed f (tget (fun _ => 0) k.owed f + m.length) }

theorem State.takeFlits_link (s : State) (l f : Nat) (m : List RxItem) (kept : List Byte) (j : Nat) :
    (s.takeFlits l f m kept).link j = if j = l then (s.link l).taken f m kept else s.link j := by
  have h1 : (s.setLink l { s.link l with
    rx := m.foldl (fun r y => r.erase y) (s.link l).rx, arrived := tset (fun _ => []) (s.link l).arrived f kept }).link l =
      { s.link l with
        rx := m.foldl (fun r y => r.erase y) (s.link l).rx, arrived := tset (fun _ => []) (s.link l).arrived f kept } :=
    (State.link_setLink _ _ _ _).trans (if_pos rfl)
  unfold State.takeFlits State.owe
  simp only []
  rw [State.link_setLink, h1]
  split
  next hj => rfl
  next hj => rw [State.link_setLink, if_neg hj]

theorem State.takeFlits_frame (s : State) (l f : Nat) (m : List RxItem) (kept : List Byte) :
    ∃ x, s.takeFlits l f m kept = { s with lnk := x } := ⟨_, rfl⟩

/-! ## A message on its way to its window -/

/-- The bytes of a message put on their way to its window. -/
def State.messageSent (s : State) (p l b : Nat) (w : Window) (before bytes : List Byte) (dues : List Nat) : State :=
  s.sendWords p
    { segment := (s.messageRoute p b l).segment, exec := w.exec, bed := b, send := true, addr := 0, bytes, enabled := true, dues }
    (w.addr + before.length)

theorem State.messageSent_frame (s : State) (p l b : Nat) (w : Window) (before bytes : List Byte) (dues : List Nat) :
    ∃ x, s.messageSent p l b w before bytes dues = { s with plots := x } := ⟨_, rfl⟩

/-- The bed whose LRECV has taken the last byte of a message. -/
def Bed.received (b : Bed) (i : Nat) (due : Nat) : Bed :=
  { b with
    seq := { b.seq with
      recvLanded := tset (fun _ => 0) b.seq.recvLanded i (tget (fun _ => 0) b.seq.recvLanded i + 1)
      recvAt := tset (fun _ => 0) b.seq.recvAt i due } }

theorem State.landMessage_eq (s : State) (p l b : Nat) (w : Window) (before bytes : List Byte) (ends : Bool) (dues : List Nat) {u : State}
    (hu : s.messageSent p l b w before bytes dues = u) : s.landMessage p l b w before bytes ends dues =
      if ends then (u.setBed b ((u.bed b).received w.index (dues.getLastD 0))).arrive p w.tensor (u.bed b).logical w.index (before ++ bytes)
      else u := by
  rw [← hu]
  rfl

/-- Bytes of a message put on their way: words, and with the last of them the LRECV's own fields. -/
theorem State.landMessage_effect (s : State) (p l b : Nat) (w : Window) (before bytes : List Byte) (ends : Bool) (dues : List Nat) :
    (((s.landMessage p l b w before bytes ends dues).plot p).words = ((s.messageSent p l b w before bytes dues).plot p).words) ∧
      (s.landMessage p l b w before bytes ends dues).lnk = s.lnk ∧
      ∀ q, (s.landMessage p l b w before bytes ends dues).bed q =
        if q = b ∧ ends = true then (s.bed b).received w.index (dues.getLastD 0) else s.bed q := by
  obtain ⟨y, hy⟩ := s.messageSent_frame p l b w before bytes dues
  generalize hu : s.messageSent p l b w before bytes dues = u at hy ⊢
  have hbed : ∀ q, u.bed q = s.bed q := fun q => by rw [hy]; rfl
  rw [s.landMessage_eq p l b w before bytes ends dues hu]
  cases ends with
  | false =>
    rw [if_neg Bool.false_ne_true]
    exact ⟨rfl, by rw [hy], fun q => by rw [if_neg (fun h => by cases h.2), hbed]⟩
  | true =>
    rw [if_pos rfl]
    have hn := State.arrive_noted (u.setBed b ((u.bed b).received w.index (dues.getLastD 0))) p w.tensor (u.bed b).logical w.index
      (before ++ bytes)
    obtain ⟨x, z, he⟩ := hn.eq
    obtain ⟨i, j, hp⟩ := hn.plot p
    refine ⟨?_, ?_, fun q => ?_⟩
    · rw [hp]
      rfl
    · rw [he]
      show u.lnk = _
      rw [hy]
    · rw [he]
      refine (State.bed_setBed u b q _).trans ?_
      simp only [hbed, and_true]

/-! ## A word that lands -/

theorem Word.damaged_clean {w : Word} (h : w.err = []) : w.damaged = false := by
  unfold Word.damaged
  rw [h]
  rfl

theorem State.landDue_early {s : State} {p c : Nat} {w : Word} (hw : (s.plot p).words = [w]) (hc : c < w.due) : s.landDue p none c = s := by
  unfold State.landDue
  simp only [hw]
  rw [if_pos (by simp [hc])]

theorem State.landDue_due {s : State} {p c : Nat} {w : Word} (hw : (s.plot p).words = [w]) (he : w.err = []) (hc : w.due ≤ c) :
    s.landDue p none c =
      (s.setPlot p { s.plot p with words := [], came := (s.plot p).came ++ w.cargo.toList }).landWord w := by
  have hcargo : List.filterMap (fun v : Word => v.cargo) [w] = w.cargo.toList := by
    cases h : w.cargo <;> simp [h]
  unfold State.landDue
  simp only [hw, List.filter_cons, hc, decide_true, BEq.rfl, Bool.true_or, Bool.and_self, if_true, List.filter_nil, Bool.not_true,
    Bool.false_eq_true, if_false, Word.damaged_clean he, Bool.not_false, hcargo, List.any_cons, List.any_nil, Bool.or_self, List.foldl_cons,
    List.foldl_nil]
  rfl

theorem State.landWord_clean {s : State} {w : Word} (he : w.err = []) (hb : w.bed < 256) (hc : Clean (s.bed w.bed))
    (ha : (s.bed w.bed).admin < 2) : s.landWord w = (s.setBed w.bed (((({ s.bed w.bed with
        mem := mwrite 0 (s.bed w.bed).mem w.addr w.bytes, scrubPending := scrubbed (s.bed w.bed) w.addr w.bytes.length } : Bed).gauge 5
          (ceilDiv w.bytes.length 256)).gauge 3 (4 * ceilDiv w.bytes.length 256)).finish w.due)).watchEcc w.bed := by
  unfold State.landWord State.landBytes
  simp only [Word.damaged_clean he, he, List.filter_nil, List.length_nil, if_true, Bool.false_eq_true, if_false,
    if_neg (Nat.not_le.mpr hb), if_neg (Nat.not_le.mpr ha), Bed.putBytes_clean _ _ _ _ hc, List.foldl_nil]

/-! ## The command -/

section
variable {s : State} {l : BitVec 5} {f : BitVec 4} {x : RxItem} {xs : List RxItem} {p : Nat}
  (hm : (s.link l.toNat).message f.toNat = x :: xs) (hp : s.flowPlot l.toNat f.toNat = some p)
include hm hp

theorem exec_messageLand_headless (hb : tget (fun _ => []) (s.link l.toNat).arrived f.toNat = []) (hx : x.first = false) :
    exec (.messageLand l f) s = .next (s.takeFlits l.toNat f.toNat (x :: xs) []) := by
  show execMessageLand l f s = _
  unfold execMessageLand
  simp only [hm, hp]
  exact if_pos ⟨hb, by simp [hx]⟩

variable {b : Nat} {w : Window} (hr : s.running = true) (hs : (s.plot p).state = 3) (hbeds : s.bedsOf p = [b])
  (hw : s.window b l.toNat f.toNat = some w) (ho : w.isOpen = true)
include hr hs hbeds hw ho

theorem exec_messageLand_wrong (hx : x.first = true) (hl : w.len ≠ x.tag + 1) : exec (.messageLand l f) s =
    .next ((s.report (unitId 5 l.toNat) (unitId 0xE (if l.toNat < 12 then 0 else 1)) 0x54 w.index).stopPlot p 0x54
      (some (b, w.index, 0, 0))) := by
  show execMessageLand l f s = _
  unfold execMessageLand
  simp [hm, hp, hr, hs, hbeds, hw, ho, hx, hl]

theorem exec_messageLand_right (hf : x.first = (tget (fun _ => []) (s.link l.toNat).arrived f.toNat).isEmpty) (hl : x.first = true → w.len = x.tag + 1) {before bytes : List Byte} {ends : Bool}
    (hbefore : before = tget (fun _ => []) (s.link l.toNat).arrived f.toNat)
    (hbytes : bytes = ((x :: xs).flatMap fun y => y.payload.take (64 * y.lines)).take (64 * w.len - before.length))
    (hends : ends = (x :: xs).any (·.last)) : exec (.messageLand l f) s =
      .next ((s.takeFlits l.toNat f.toNat (x :: xs) (if ends then [] else before ++ bytes)).landMessage p l.toNat b w before bytes ends
        (s.routeDues p (s.messageRoute p b l.toNat) w.opens (ceilDiv bytes.length 256))) := by
  have hfirst : ¬(before = [] ∧ (!x.first) = true) := by
    rintro ⟨hb, hx⟩
    rw [hf, ← hbefore, hb] at hx
    cases hx
  have hfind : (if x.first = true then [(b, w)].find? fun e => e.2.len != x.tag + 1 else none) = none := by
    split
    next h => simp [hl h]
    next => rfl
  have hws : (s.bedsOf p).filterMap (fun q => (s.window q l.toNat f.toNat).map fun v => (q, v)) = [(b, w)] := by
    simp [hbeds, hw]
  show execMessageLand l f s = _
  unfold execMessageLand
  simp only [hm, hp, hws, ← hbefore]
  rw [if_neg hfirst, if_neg (by simp [hr, hs, ho]), hfind]
  simp only [List.foldl_cons, List.foldl_nil, List.map_cons, List.map_nil, Nat.zero_max, ← hbytes, ← hends]
  rfl

end

/-- A message that lands: the words of its bytes, the buffers it leaves, and with its last flit the LRECV. -/
theorem State.messageLands (s : State) (l f p b : Nat) (w : Window) (m : List RxItem) (before bytes : List Byte) (ends : Bool)
    (dues : List Nat) {t : State}
    (ht : t = (s.takeFlits l f m (if ends then [] else before ++ bytes)).landMessage p l b w before bytes ends dues) :
    (t.plot p).words = ((s.messageSent p l b w before bytes dues).plot p).words ∧
      t.link l = (s.link l).taken f m (if ends then [] else before ++ bytes) ∧
      ∀ q, t.bed q = if q = b ∧ ends = true then (s.bed b).received w.index (dues.getLastD 0) else s.bed q := by
  have hlink := s.takeFlits_link l f m (if ends then [] else before ++ bytes) l
  rw [if_pos rfl] at hlink
  obtain ⟨x, hx⟩ := s.takeFlits_frame l f m (if ends then [] else before ++ bytes)
  obtain ⟨hwords, hlnk, hbed⟩ :=
    (s.takeFlits l f m (if ends then [] else before ++ bytes)).landMessage_effect p l b w before bytes ends dues
  rw [← ht] at hwords hlnk hbed
  rw [hx] at hwords hbed
  refine ⟨hwords, ?_, hbed⟩
  rw [← hlink]
  unfold State.link
  rw [hlnk]

theorem Bed.received_frame (b : Bed) (i due : Nat) : (b.received i due).mem = b.mem ∧ (b.received i due).seq.state = b.seq.state ∧
    tget (fun _ => 0) (b.received i due).seq.recvAt i = due ∧
    tget (fun _ => 0) (b.received i due).seq.recvLanded i = tget (fun _ => 0) b.seq.recvLanded i + 1 :=
  ⟨rfl, rfl, tget_tset_self (fun _ => 0) b.seq.recvAt i due,
   tget_tset_self (fun _ => 0) b.seq.recvLanded i (tget (fun _ => 0) b.seq.recvLanded i + 1)⟩

theorem Link.taken_frame (k : Link) (f : Nat) (m : List RxItem) (kept : List Byte) :
    (k.taken f m kept).rx = m.foldl (fun r y => r.erase y) k.rx ∧ tget (fun _ => []) (k.taken f m kept).arrived f = kept ∧
      tget (fun _ => 0) (k.taken f m kept).owed f = tget (fun _ => 0) k.owed f + m.length :=
  ⟨rfl, tget_tset_self (fun _ => []) k.arrived f kept, tget_tset_self (fun _ => 0) k.owed f (tget (fun _ => 0) k.owed f + m.length)⟩

/-- Settles O30: the effect of a message from `State.landMessage_effect`, a stop from `State.stopPlot_stopped`, a word from
`State.landWord_clean`. -/
theorem aMessageLandsInTheWindowOfItsLrecv : Obligations.AMessageLandsInTheWindowOfItsLrecv := by
  unfold Obligations.AMessageLandsInTheWindowOfItsLrecv
  refine ⟨fun s l f x xs p b w => ?_, fun s l f x xs p hm hp hb hx => ?_, fun s p w hw he => ⟨fun c hc => State.landDue_early hw hc,
    fun c hc => State.landDue_due hw he hc, fun hb hc ha => ?_⟩⟩
  · intro before hm hp hr hs hbeds hw ho hf bytes r dues
    refine ⟨fun hl => ?_, fun hx hl => ?_⟩
    · have hexec := exec_messageLand_right hm hp hr hs hbeds hw ho hf hl (before := before) (bytes := bytes) rfl rfl rfl
      obtain ⟨hwords, hl2, hbed⟩ := s.messageLands l.toNat f.toNat p b w (x :: xs) before bytes ((x :: xs).any (·.last)) dues
        (t := (s.takeFlits l.toNat f.toNat (x :: xs) (if (x :: xs).any (·.last) then [] else before ++ bytes)).landMessage p l.toNat b w
          before bytes ((x :: xs).any (·.last)) dues) rfl
      refine ⟨_, hexec, ?_⟩
      generalize (s.takeFlits l.toNat f.toNat (x :: xs) _).landMessage p l.toNat b w before bytes _ _ = t at hwords hl2 hbed ⊢
      obtain ⟨hmem, hstate, hat, hlanded⟩ := (s.bed b).received_frame w.index (dues.getLastD 0)
      obtain ⟨hrx, harrived, howed⟩ := (s.link l.toNat).taken_frame f.toNat (x :: xs)
        (if (x :: xs).any (·.last) then [] else before ++ bytes)
      refine ⟨hwords, ?_, ?_, fun q hq => ?_, by rw [hl2, hrx], by rw [hl2, howed], fun hlast => ?_, fun hlast => ?_⟩
      · rw [hbed]
        split
        · exact hmem
        · rfl
      · rw [hbed]
        split
        · exact hstate
        · rfl
      · rw [hbed, if_neg fun h => hq h.1]
      · have hend : (x :: xs).any (·.last) = true := List.any_eq_true.mpr hlast
        rw [hl2, harrived, if_pos hend, (hbed b).trans (if_pos ⟨rfl, hend⟩)]
        exact ⟨rfl, hat, hlanded⟩
      · have hend : (x :: xs).any (·.last) = false := List.any_eq_false.mpr fun y hy => by simp [hlast y hy]
        rw [hl2, harrived, if_neg (by rw [hend]; exact Bool.false_ne_true)]
        exact ⟨rfl, (hbed b).trans (if_neg fun h => by rw [hend] at h; exact Bool.false_ne_true h.2)⟩
    · obtain ⟨g, h, he⟩ := s.report_frame (unitId 5 l.toNat) (unitId 0xE (if l.toNat < 12 then 0 else 1)) 0x54 w.index
      have hexec := exec_messageLand_wrong hm hp hr hs hbeds hw ho hx hl
      rw [he] at hexec
      have hstop := State.stopPlot_stopped { s with grd := g, host := h } 0x54 (some (b, w.index, 0, 0)) (p := p) (.inr (.inl hs))
      exact ⟨_, hexec, hstop.state, hstop.stopCode⟩
  · have hlink := s.takeFlits_link l.toNat f.toNat (x :: xs) []
    obtain ⟨hrx, -, howed⟩ := (s.link l.toNat).taken_frame f.toNat (x :: xs) []
    exact ⟨_, exec_messageLand_headless hm hp hb hx, rfl, by rw [hlink, if_pos rfl, hrx], by rw [hlink, if_pos rfl, howed],
      fun j hj => by rw [hlink, if_neg hj]⟩
  · obtain ⟨⟨g, hg⟩, hothers⟩ := State.watchEcc_bed (s.setBed w.bed (((({ s.bed w.bed with
        mem := mwrite 0 (s.bed w.bed).mem w.addr w.bytes, scrubPending := scrubbed (s.bed w.bed) w.addr w.bytes.length } : Bed).gauge 5
          (ceilDiv w.bytes.length 256)).gauge 3 (4 * ceilDiv w.bytes.length 256)).finish w.due)) w.bed
    rw [State.landWord_clean he hb hc ha]
    refine ⟨?_, fun q hq => (hothers q hq).trans ((State.bed_setBed _ _ _ _).trans (if_neg hq))⟩
    rw [hg, State.bed_setBed, if_pos rfl]
    rfl

end Sys2Proof.Machine
end

section
/-! PROOFS. Links trained, retrained and disabled (R325, R326, R386): O31. -/

namespace Sys2Proof.Machine

/-! ## Completions and the host interface -/

theorem State.setDoor_mailbox (s : State) (b : Nat) : (s.setDoor b).host.mbReply = s.host.mbReply := by
  by_cases hr : s.ready = true
  · obtain ⟨p, q, h⟩ := s.setDoor_eq b hr
    rw [h]
  · rw [show s.setDoor b = s from if_pos (by simp [hr])]

/-- A doorbell behind a completion leaves it. -/
theorem done_setDoor {s t : State} {src : Src} {status code result : Nat} (h : Done s t src status code result) (b : Nat) :
    Done s (t.setDoor b) src status code result := by
  obtain ⟨hr, hm⟩ := t.setDoor_rings b
  simpa only [Done, State.ring, hr, hm, t.setDoor_mailbox b] using h

theorem State.serve_done {s : State} {src : Src} (h : s.asked src = true) : Done s (s.serve src 0 0) src 0 0 0 := by
  unfold State.serve
  rw [if_pos rfl, Nat.zero_mul]
  exact State.complete_done h 0 0 0

/-- The same of a state that differs from the one that asks in what the host does not see. -/
theorem State.serve_done_of_host {s t : State} {src : Src} (h : s.asked src = true) (hh : t.host = s.host) (hc : t.clk = s.clk) :
    Done s (t.serve src 0 0) src 0 0 0 :=
  done_congr (congrArg (·.rings) hh) (congrArg (·.mbReq) hh) hc
    (State.serve_done ((State.asked_congr (congrArg (·.rings) hh) (congrArg (·.mbReq) hh) src).trans h))

theorem State.answer_host (s : State) (svc unit status code result : Nat) : ∃ h, s.answer svc unit status code result = { s with host := h } := by
  unfold State.answer
  refine List.foldlRecOn (motive := fun t : State => ∃ h, t = { s with host := h }) _ _ ⟨s.host, rfl⟩ ?_
  rintro _ ⟨h, rfl⟩ w -
  obtain ⟨h', he, -⟩ := State.complete_host { s with host := h } w.src status code result
  exact ⟨h', he⟩

theorem State.trainEnd_host (s : State) (l : Nat) : ∃ h, s.trainEnd l = { s with host := h } := by
  unfold State.trainEnd
  split
  · obtain ⟨h, he⟩ := s.answer_host 0x10 l 0 0 0
    obtain ⟨h', he'⟩ := (s.answer 0x10 l 0 0 0).setDoor_frame 7
    exact ⟨h', by rw [he', he]⟩
  · exact ⟨s.host, rfl⟩

/-! ## A training -/

/-- What a training that comes up finds. -/
def Link.trained (k : Link) (env : LinkEnv) (domain : Nat) (now : W64) : Link :=
  { state := 2, laneRev := env.laneRev, polarity := env.polarity, partnerLink := env.partnerLink.toNat
    partnerPos := env.position.toNat, partnerDomain := env.domain.toNat, partnerId := some env.identity
    rootDist := env.rootDist.toNat, inDomain := env.domain.toNat == domain, child := env.child && env.domain.toNat == domain
    txScramble := env.txScramble, rxScramble := env.rxScramble, lastValid := now, lastCheck := now, wireOut := k.wireOut }

theorem State.train_fails {s : State} {env : LinkEnv} (h : env.failStep ≠ 0 ∨ env.identity = s.sec.identity) (l : Nat) :
    (∀ j, ∃ a b, (s.train l env).link j =
        { (if j = l then { s.link j with state := 0, failedAt := some s.clk.sundial } else s.link j) with tree := a, child := b }) ∧
      (s.train l env).beds = s.beds := by
  have he : s.train l env = (s.setLink l { s.link l with state := 0, failedAt := some s.clk.sundial }).retree s.kids := by
    unfold State.train
    simp only []
    exact if_pos h
  obtain ⟨x, hx, hlinks⟩ := (s.setLink l { s.link l with state := 0, failedAt := some s.clk.sundial }).retree_frame s.kids
  rw [he]
  refine ⟨fun j => ?_, by rw [hx]; rfl⟩
  obtain ⟨a, b, hab⟩ := hlinks j
  refine ⟨a, b, ?_⟩
  rw [hab, State.link_setLink]
  split
  next h => rw [h]
  next => rfl

theorem State.measured_frame (s : State) (l : Nat) (theta delay : Int) : ∃ r, s.measured l theta delay = { s with regs := r } := ⟨_, rfl⟩

/-- What the state is after a link has been measured in its training, or not: the free values drawn and registers. -/
theorem State.train_measures (s : State) (l : Nat) (probes : List Probe) : ∃ n r,
    (if probes.length = 16 then
      let r := s.means ((probes.map probeTheta).sum) ((probes.map probeDelay).sum)
      r.2.measured l r.1.1 r.1.2
    else s) = { s with freeN := n, regs := r } := by
  split
  · exact ⟨_, _, rfl⟩
  · exact ⟨_, _, rfl⟩

theorem State.train_up {s : State} {l : Nat} {env : LinkEnv} (hf : env.failStep = 0) (hs : env.identity ≠ s.sec.identity)
    (hp : (s.link l).partnerId = none ∨ (s.link l).partnerId = some env.identity) :
    (∃ a b, (s.train l env).link l = { (s.link l).trained env s.domain s.clk.sundial with tree := a, child := b }) ∧
      (s.train l env).beds = s.beds := by
  obtain ⟨n, r, kids, he⟩ : ∃ (n : Nat) (r : Tbl W64) (kids : List Nat), s.train l env =
      ({ s.setLink l ((s.link l).trained env s.domain s.clk.sundial) with freeN := n, regs := r } : State).retree kids := by
    unfold State.train
    extract_lets k self kids changed inDomain k' s1 kids' s2
    have hchanged : changed = false := by
      rcases hp with h | h <;> simp [changed, k, h]
    obtain ⟨n, r, h⟩ := s1.train_measures l env.probes
    refine ⟨n, r, kids', ?_⟩
    rw [if_neg (by simp [self, hf, hs]), hchanged, if_neg Bool.false_ne_true]
    exact congrArg (State.retree · kids') h
  obtain ⟨x, hx, hlinks⟩ :=
    ({ s.setLink l ((s.link l).trained env s.domain s.clk.sundial) with freeN := n, regs := r } : State).retree_frame kids
  obtain ⟨a, b, hab⟩ := hlinks l
  rw [he]
  refine ⟨⟨a, b, hab.trans ?_⟩, by rw [hx]; rfl⟩
  rw [show State.link { s.setLink l ((s.link l).trained env s.domain s.clk.sundial) with freeN := n, regs := r } l =
    (s.setLink l ((s.link l).trained env s.domain s.clk.sundial)).link l from rfl, State.link_setLink, if_pos rfl]

/-- What LINK_TRAIN or its retry does of the state that it finds. -/
def trains (l : BitVec 5) (env : LinkEnv) (retry : Bool) : Instr := if retry then .linkTrainRetry l env else .linkTrain l env

theorem exec_trains {s : State} {l : BitVec 5} {env : LinkEnv} {retry : Bool}
    (h : if retry then l.toNat < 24 ∧ (s.link l.toNat).state = 0 ∧ s.clk.locked = true ∧ tget (fun _ => 0) s.grd.gardState 8 = 1 ∧
      (s.link l.toNat).retryDue s.now = true else (s.link l.toNat).state = 1) :
    ∃ x, exec (trains l env retry) s = .next { s.train l.toNat env with host := x } := by
  cases retry with
  | true => exact ⟨_, if_pos h⟩
  | false =>
    obtain ⟨x, hx⟩ := (s.train l.toNat env).trainEnd_host l.toNat
    exact ⟨x, (if_pos h).trans (congrArg _ hx)⟩

/-! ## Retraining and disabling -/

theorem State.bar0_of_served {s : State} {rid : BitVec 16} (h : Served s rid) (f : State → State) : s.bar0 rid f = f s := by
  obtain ⟨halive, -, hmine⟩ := h
  simp [State.bar0, halive, hmine]

theorem State.retrain_state {s : State} {l : Nat} (h : (s.link l).state ≠ 3) : ((s.retrain l).link l).state = 1 := by
  unfold State.retrain
  simp only [if_neg h, State.link_setLink, if_true]

theorem State.retrain_down {s : State} {l : Nat} (h : (s.link l).state ≠ 3) (hup : (s.link l).state ≠ 2) :
    s.retrain l = s.setLink l { s.link l with state := 1 } := by
  unfold State.retrain
  simp only [if_neg h, if_neg hup]

theorem State.disable_state (s : State) (l : Nat) : ((s.disable l true).link l).state = 3 := by
  unfold State.disable
  simp only [if_true, State.link_setLink]

theorem State.release_eq {s : State} {l : Nat} (h : (s.link l).state = 3) :
    s.disable l false = s.setLink l { s.link l with state := 0 } := by
  unfold State.disable
  simp only [Bool.false_eq_true, if_false, if_pos h]

theorem State.writeDisable_release {s : State} {l : Nat} (h : (s.link l).state = 3) : s.writeDisable l false =
    (s.setFld (0xB0008 + 0x100 * l) 1 1 0).setLink l { s.link l with state := 0 } :=
  State.release_eq (s := s.setFld (0xB0008 + 0x100 * l) 1 1 0) h

theorem State.released_host (s : State) (l : Nat) (k : Link) : ((s.setFld (0xB0008 + 0x100 * l) 1 1 0).setLink l k).host = s.host :=
  rfl

/-- What LINK_DISABLE does of a link that there is. -/
theorem exec_linkDisable {s : State} {src : Src} (h : s.service src 0x11 = true) (hl : fieldAt (s.request src) 16 1 < 24) :
    exec (.linkDisable src) s = .next (((s.writeDisable (fieldAt (s.request src) 16 1)
      (bit (fieldAt (s.request src) 17 1) 0)).serve src 0 0).setDoor 7) := by
  simp only [exec, execLinkDisable]
  rw [if_pos h, if_neg (by omega)]
  rfl

theorem State.served_link (s : State) (src : Src) (b j : Nat) : ((s.serve src 0 0).setDoor b).link j = s.link j := by
  obtain ⟨x, hx⟩ := (s.serve src 0 0).setDoor_frame b
  rw [hx]
  exact congrArg (tget (fun _ => {}) ·.links j) (s.serve_lnk src 0 0)

/-- Settles O31: a training ends with the link's new record and the tree's marks, a retraining and a disable with the link's
state. -/
theorem linksTrainRetrainAndDisable : Obligations.LinksTrainRetrainAndDisable := by
  refine ⟨fun s l env retry hdue => ?_, fun s rid l hs hl hst => ?_, fun s rid l hs hl => ?_, fun s rid l hs hl hst => ?_,
    fun s src hs => ⟨fun hl => ?_, fun hl hst => ?_⟩, fun s src hs => ⟨fun hl => ?_, fun hl hon => ?_, fun hl hoff hst => ?_⟩⟩
  · obtain ⟨x, hexec⟩ := exec_trains (env := env) hdue
    refine ⟨fun hfail => ?_, fun hok hself hpartner => ?_⟩
    · obtain ⟨hlinks, hbeds⟩ := State.train_fails hfail l.toNat
      refine ⟨_, hexec, fun j => ?_, hbeds⟩
      obtain ⟨a, b, h⟩ := hlinks j
      have hj : State.link { s.train l.toNat env with host := x } j = _ := h
      rw [hj]
    · obtain ⟨⟨a, b, h⟩, hbeds⟩ := State.train_up hok hself hpartner
      have hl : State.link { s.train l.toNat env with host := x } l.toNat = _ := h
      refine ⟨_, hexec, ?_⟩
      rw [hl]
      exact ⟨rfl, rfl, rfl, rfl, rfl, rfl, rfl, rfl, rfl, rfl, rfl, hbeds⟩
  · refine ⟨s.retrain l.toNat, (if_pos hl).trans (congrArg _ (State.bar0_of_served hs _)), State.retrain_state hst,
      fun hup => State.retrain_down hst hup⟩
  · exact ⟨_, (if_pos hl).trans (congrArg _ (State.bar0_of_served hs _)), State.disable_state _ _⟩
  · refine ⟨_, (if_pos hl).trans (congrArg _ (State.bar0_of_served hs _)), ?_⟩
    rw [State.writeDisable_release hst, State.link_setLink, if_pos rfl]
  · obtain ⟨u, he, hu, hd⟩ := State.refuses (i := .linkRetrain src) hs (by decide : (0x71 : Nat) ≠ 0)
      (by simp only [exec, execLinkRetrain]; rw [if_pos hs]; exact if_pos hl)
    exact ⟨u, he, hd, by rw [hu]⟩
  · refine ⟨(s.retrain (fieldAt (s.request src) 16 1)).await 0x10 (fieldAt (s.request src) 16 1) src 0, ?_,
      State.retrain_state hst, ⟨0x10, fieldAt (s.request src) 16 1, src, 0⟩,
      List.mem_append_right _ (List.mem_singleton_self _), rfl, rfl, rfl⟩
    simp only [exec, execLinkRetrain]
    rw [if_pos hs, if_neg (by omega), if_neg hst]
  · obtain ⟨u, he, hu, hd⟩ := State.refuses (i := .linkDisable src) hs (by decide : (0x71 : Nat) ≠ 0)
      (by simp only [exec, execLinkDisable]; rw [if_pos hs]; exact if_pos hl)
    exact ⟨u, he, hd, by rw [hu]⟩
  · refine ⟨_, exec_linkDisable hs hl, ?_⟩
    rw [State.served_link, hon]
    exact State.disable_state _ _
  · have hrel := State.writeDisable_release hst
    have hask := State.asked_of_service hs
    refine ⟨_, exec_linkDisable hs hl, ?_, ?_⟩
    · rw [State.served_link, hoff, hrel, State.link_setLink, if_pos rfl]
    · rw [hoff, hrel]
      exact done_setDoor (State.serve_done_of_host hask (State.released_host s _ _) rfl) 7

end Sys2Proof.Machine
end

section
/-! PROOFS. Probes and the sundial's recheck (R329, R331), orders of a domain and companion mode (R331 to R334, R338, R339,
R386): O32 and O33. -/

namespace Sys2Proof.Machine

/-! ## Probes and rechecks -/

theorem exec_sundialProbe {s : State} {l : BitVec 5} {probe : Probe} (hst : (s.link l.toNat).state = 2)
    (hin : (s.link l.toNat).inDomain = true) (hlock : s.clk.locked = true) (hfr : s.linkFrozen = false)
    (hex : s.exchanged probe = true) (hn : (s.link l.toNat).probes + 1 ≠ 16) :
    exec (.sundialProbe l probe) s = .next (s.setLink l.toNat { s.link l.toNat with
      probes := (s.link l.toNat).probes + 1, sumTheta := (s.link l.toNat).sumTheta + probeTheta probe
      sumDelay := (s.link l.toNat).sumDelay + probeDelay probe }) := by
  simp only [exec, execSundialProbe]
  rw [if_pos ⟨hst, hin, hlock, by rw [hfr]; rfl, hex⟩]
  exact if_neg hn

theorem probeMean_bounds (sum : Int) (up : Bool) :
    probeMean sum up = sum / 32 ∨ probeMean sum up = sum / 32 + 1 ∧ sum % 32 ≠ 0 := by
  unfold probeMean
  split
  next h => exact .inr ⟨rfl, h.1⟩
  next => exact .inl rfl

theorem State.measured_offset (s : State) (l : Nat) (theta delay : Int) :
    (s.measured l theta delay).reg (0x60100 + 8 * l) = BitVec.ofNat 64 (toTwos 64 theta) := by
  rw [State.measured, State.reg_setReg, if_neg (by omega), State.reg_setReg, if_pos rfl]

/-- What a sundial slip of a link leaves: the first one latched, the module marked, and the fault reported (R331). -/
def State.slipFound (s : State) (l : Nat) (theta : Int) : State :=
  let s := if s.fld 0x60018 0 1 = 1 then s
    else s.setReg 0x60018 (BitVec.ofNat 64 (1 + l * 2 + (s.now % 2 ^ 48) * 2 ^ 6))
  let s : State := { s with lnk := { s.lnk with slipped := true } }
  s.report (unitId 5 l) (unitId 0xE (if l < 12 then 0 else 1)) 0x84 (toTwos 64 theta)

theorem State.slipFound_effect (s : State) (l : Nat) (theta : Int) :
    (s.slipFound l theta).lnk = { s.lnk with slipped := true } ∧
      ∀ off, off ≠ 0x60018 → (s.slipFound l theta).reg off = s.reg off := by
  unfold State.slipFound
  extract_lets s1 _ s2
  obtain ⟨r, hr⟩ : ∃ r, s1 = { s with regs := r } := s.latchReg_regs 0x60018 _
  have hreg : ∀ off, off ≠ 0x60018 → s1.reg off = s.reg off := fun off h => by
    simp only [s1]
    split
    · rfl
    · rw [State.reg_setReg, if_neg h]
  clear_value s1
  obtain ⟨g, h, he⟩ := s2.report_frame (unitId 5 l) (unitId 0xE (if l < 12 then 0 else 1)) 0x84 (toTwos 64 theta)
  rw [he]
  exact ⟨congrArg (fun k : Lnk => { k with slipped := true }) (show s1.lnk = s.lnk by rw [hr]), hreg⟩

theorem exec_sundialRecheck {s : State} {l : BitVec 5} {probes : List Probe} (hst : (s.link l.toNat).state = 2)
    (hin : (s.link l.toNat).inDomain = true) (hlock : s.clk.locked = true) (hfr : s.linkFrozen = false)
    (hlen : probes.length = 16) (hex : probes.all s.exchanged = true)
    (hdue : (s.link l.toNat).lastCheck.toNat + 1000000 ≤ s.now) :
    ∃ (up : Bool) (delay : Int) (n : Nat),
      let theta := probeMean ((probes.map probeTheta).sum) up
      let t := (State.setLink { s with freeN := n } l.toNat { s.link l.toNat with lastCheck := s.clk.sundial }).measured l.toNat theta delay
      exec (.sundialRecheck l probes) s = .next (if theta < -64 ∨ 64 < theta then t.slipFound l.toNat theta else t) := by
  refine ⟨(s.draw 2).1.getLsbD 0, probeMean ((probes.map probeDelay).sum) ((s.draw 2).1.getLsbD 1), s.freeN + 1, ?_⟩
  simp only [exec, execSundialRecheck]
  rw [if_pos ⟨hst, hin, hlock, by rw [hfr]; rfl, hlen, hex, hdue⟩, apply_ite Host.Outcome.next]
  rfl

/-- Settles O32: fifteen exchanges only add up, and a recheck writes the mean of its sixteen. -/
theorem probesAddUpAndRechecksFindSlips : Obligations.ProbesAddUpAndRechecksFindSlips := by
  refine ⟨fun s l probe hst hin hlock hfr hex hn => exec_sundialProbe hst hin hlock hfr hex hn,
    fun s l probes hst hin hlock hfr hlen hex hdue => ?_⟩
  obtain ⟨up, delay, n, hexec⟩ := exec_sundialRecheck hst hin hlock hfr hlen hex hdue
  generalize hm : State.setLink { s with freeN := n } l.toNat { s.link l.toNat with lastCheck := s.clk.sundial } = m at hexec
  refine ⟨_, _, hexec, probeMean_bounds _ up, ?_⟩
  generalize probeMean ((probes.map probeTheta).sum) up = theta
  have hlinks : ∀ j, m.link j = if j = l.toNat then { s.link l.toNat with lastCheck := s.clk.sundial } else s.link j := fun j => by
    rw [← hm, State.link_setLink]
    rfl
  have hslip : m.lnk.slipped = s.lnk.slipped := by rw [← hm]; rfl
  have hoff := m.measured_offset l.toNat theta delay
  obtain ⟨r, hr⟩ := m.measured_frame l.toNat theta delay
  generalize m.measured l.toNat theta delay = t at hoff hr
  have htl : ∀ j, t.link j = m.link j := fun j => by rw [hr]; rfl
  by_cases hout : theta < -64 ∨ 64 < theta
  · obtain ⟨hlnk, hreg⟩ := t.slipFound_effect l.toNat theta
    have hl : ∀ j, (t.slipFound l.toNat theta).link j = m.link j := fun j => by
      rw [← htl, State.link, hlnk]
      rfl
    rw [if_pos hout]
    simp only [hl, hlinks, hlnk, hreg _ (show 0x60100 + 8 * l.toNat ≠ 0x60018 by omega), hoff, hout, decide_true,
      Bool.or_true, true_and, and_true, if_true]
    exact fun j hj => if_neg hj
  · rw [if_neg hout]
    simp only [htl, hlinks, hoff, hout, decide_false, Bool.or_false, true_and, if_true]
    exact ⟨fun j hj => if_neg hj, by rw [hr]; exact hslip⟩

/-! ## Orders of a domain -/

/-- The order on a link that names a code, a tick and the rest of its payload. -/
def Link.order? (k : Link) (code tick : Nat) (rest : List Byte) : Option (List Byte) :=
  k.ctlIn.find? fun x => x.take (9 + rest.length) == leBytes 1 code ++ leBytes 8 tick ++ rest

/-- The link after an order has been taken off it. -/
def State.orderOff (s : State) (l : Nat) (e : List Byte) : State :=
  s.setLink l { s.link l with ctlIn := (s.link l).ctlIn.erase e }

theorem State.takeOrder_some {s : State} {l code tick : Nat} {rest e : List Byte} (h : (s.link l).order? code tick rest = some e) :
    s.takeOrder l code tick rest = some (s.orderOff l e) := by
  unfold Link.order? at h
  unfold State.takeOrder
  simp only [h]
  rfl

theorem exec_mmSowOrder {s : State} {l : BitVec 5} {tick : W64} {digest : BitVec 256} {e : List Byte} {p : Nat} {x : Plot}
    (h : (s.link l.toNat).order? 3 tick.toNat (digestBytes digest) = some e) (hslip : s.lnk.slipped = false) (hnow : s.now ≤ tick.toNat)
    (hp : (s.plots.find? fun y => y.2.state == 2 && y.2.prog.multi && y.2.prog.digest == digest && y.2.sowAt == none) = some (p, x)) :
    exec (.mmSowOrder l tick digest) s = .next ((s.orderOff l.toNat e).setPlot p { x with sowAt := some tick }) := by
  have hp' : ((s.orderOff l.toNat e).plots.find? fun y =>
    y.2.state == 2 && y.2.prog.multi && y.2.prog.digest == digest && y.2.sowAt == none) = some (p, x) := hp
  simp only [exec, execMmSowOrder, State.takeOrder_some h, hp']
  rw [if_neg (by rw [show (s.orderOff l.toNat e).lnk.slipped = s.lnk.slipped from rfl, hslip]; decide)]
  exact if_neg (Nat.not_lt.mpr hnow)

theorem exec_mmFrostOrder {s : State} {l : BitVec 5} {tick : W64} {e : List Byte} (h : (s.link l.toNat).order? 4 tick.toNat [] = some e) :
    exec (.mmFrostOrder l tick) s = .next (if s.lnk.slipped ∨ s.dbg.frozen ∨ s.dbg.frostAt.isSome then s.orderOff l.toNat e
      else { s.orderOff l.toNat e with dbg := { s.dbg with frostAt := some (tick, true) } }) := by
  simp only [exec, execMmFrostOrder, State.takeOrder_some h]
  exact (apply_ite Host.Outcome.next _ _ _).symm

theorem exec_mmThawOrder {s : State} {l : BitVec 5} {tick : W64} {e : List Byte} (h : (s.link l.toNat).order? 5 tick.toNat [] = some e) :
    exec (.mmThawOrder l tick) s = .next (if s.lnk.slipped ∨ !s.dbg.frozen ∨ !s.dbg.multi ∨ s.dbg.thawAt.isSome then s.orderOff l.toNat e
      else { s.orderOff l.toNat e with dbg := { s.dbg with thawAt := some tick, thaw := tick } }) := by
  simp only [exec, execMmThawOrder, State.takeOrder_some h]
  exact (apply_ite Host.Outcome.next _ _ _).symm

/-! ## Companion mode -/

theorem leNat_lt : ∀ bs : List Byte, leNat bs < 2 ^ (8 * bs.length)
  | [] => by decide
  | b :: bs => by
    have h := leNat_lt bs
    have hb := b.isLt
    have hp : 2 ^ (8 * (b :: bs).length) = 256 * 2 ^ (8 * bs.length) := by
      rw [List.length_cons, Nat.mul_succ, Nat.pow_add, Nat.mul_comm]
    simp only [leNat]
    omega

theorem fieldAt_lt (bs : List Byte) (pos n : Nat) : fieldAt bs pos n < 2 ^ (8 * n) :=
  Nat.lt_of_lt_of_le (leNat_lt _) (Nat.pow_le_pow_right (by decide) (Nat.mul_le_mul_left 8 (List.length_take_le _ _)))

theorem State.served_fwClaims (s : State) (src : Src) (code value : Nat) : (s.serve src code value).fwClaims = s.fwClaims := by
  obtain ⟨h, hs, -⟩ := s.serve_host src code value
  rw [hs]

/-- The configuration of a comparison that begins. -/
def State.compares (s : State) (l timeout : Nat) : State :=
  ((s.setFld 0xB1800 0 1 1).setFld 0xB1800 1 5 l).setFld 0xB1800 7 32 timeout

theorem State.compares_fld (s : State) {l timeout : Nat} (hl : l < 32) (ht : timeout < 2 ^ 32) :
    (s.compares l timeout).fld 0xB1800 0 1 = 1 ∧ (s.compares l timeout).fld 0xB1800 1 5 = l ∧
      (s.compares l timeout).fld 0xB1800 7 32 = timeout ∧ (s.compares l timeout).fld 0xB1800 6 1 = s.fld 0xB1800 6 1 := by
  unfold State.compares
  refine ⟨?_, ?_, ?_, ?_⟩
  · rw [State.fld_setFld_disjoint _ _ _ (by omega), State.fld_setFld_disjoint _ _ _ (by omega), State.fld_setFld_self _ _ _ (by omega)]
    rfl
  · rw [State.fld_setFld_disjoint _ _ _ (by omega), State.fld_setFld_self _ _ _ (by omega)]
    exact Nat.mod_eq_of_lt hl
  · rw [State.fld_setFld_self _ _ _ (by omega)]
    exact Nat.mod_eq_of_lt ht
  · rw [State.fld_setFld_disjoint _ _ _ (by omega), State.fld_setFld_disjoint _ _ _ (by omega), State.fld_setFld_disjoint _ _ _ (by omega)]

theorem State.compares_frame (s : State) (l timeout : Nat) : ∃ r, s.compares l timeout = { s with regs := r } := ⟨_, rfl⟩

/-- The state in which firmware holds a link's sideband and compares over it. -/
def State.claimsSideband (s : State) (l : Nat) : State :=
  { s with
    fwClaims := s.fwClaims ++ [{ kind := 7, first := l, count := 1 }]
    lnk := { s.lnk with comp := { enable := true, link := l } } }

section
variable {s : State} {src : Src} (hs : s.service src 0x18 = true)
include hs

theorem exec_companionStart_busy (hl : fieldAt (s.request src) 16 1 < 24) (hh : s.holder 7 (fieldAt (s.request src) 16 1) 0 = none)
    (hon : s.lnk.comp.enable = true) : exec (.companionStart src) s = .next (s.serve src 0x72 0) := by
  simp only [exec, execCompanionStart]
  rw [if_pos hs, if_neg (Nat.not_le.mpr hl), hh]
  exact if_pos hon

theorem exec_companionStart (hl : fieldAt (s.request src) 16 1 < 24) (hh : s.holder 7 (fieldAt (s.request src) 16 1) 0 = none)
    (hon : s.lnk.comp.enable = false) : exec (.companionStart src) s = .next
      (((s.claimsSideband (fieldAt (s.request src) 16 1)).compares (fieldAt (s.request src) 16 1)
        (fieldAt (s.request src) 24 4)).serve src 0 0) := by
  simp only [exec, execCompanionStart]
  rw [if_pos hs, if_neg (Nat.not_le.mpr hl), hh]
  exact if_neg (by rw [hon]; decide)

end

/-- The state in which firmware has let go of the sideband. -/
def State.dropsSideband (s : State) : State :=
  { s with
    fwClaims := s.fwClaims.filter fun c => !(c.kind == 7 && c.first == s.lnk.comp.link)
    lnk := { s.lnk with comp := {} } }

theorem exec_companionStop {s : State} {src : Src} (hs : s.service src 0x19 = true) (hon : s.lnk.comp.enable = true) :
    exec (.companionStop src) s = .next ((s.dropsSideband.setFld 0xB1800 0 6 0).serve src 0 0) := by
  simp only [exec, execCompanionStop]
  rw [if_pos hs]
  exact if_pos hon

theorem State.flood_frame (s : State) (but : Option Nat) (code : Nat) (payload : List Byte) :
    ∃ x, s.flood but code payload = { s with lnk := { s.lnk with links := x } } := by
  unfold State.flood
  refine List.foldlRecOn (motive := fun t : State => ∃ x, t = { s with lnk := { s.lnk with links := x } }) _ _ ⟨_, rfl⟩ ?_
  rintro _ ⟨x, rfl⟩ l -
  exact ⟨_, rfl⟩

/-- What a mismatch latches. -/
def mismatchWord (kind : Nat) (r : List Byte) : W64 :=
  BitVec.ofNat 64 (1 + kind * 2 + (fieldAt r 1 1 % 128) * 2 ^ 3 + fieldAt r 2 2 * 2 ^ 10 + fieldAt r 4 4 * 2 ^ 26)

theorem mismatchWord_fld {kind : Nat} (hk : kind < 4) (r : List Byte) : wfld (mismatchWord kind r) 0 1 = 1 ∧
    wfld (mismatchWord kind r) 1 2 = kind := by
  simp only [mismatchWord, wfld, bits, BitVec.toNat_ofNat]
  omega

/-- A mismatch latches its record if it is the first, and changes otherwise only what it reports and the orders it sends. -/
theorem State.mismatch_effect (s : State) (kind : Nat) (r : List Byte) :
    (s.mismatch kind r).lnk.comp = s.lnk.comp ∧ (s.mismatch kind r).beds = s.beds ∧ (s.mismatch kind r).plots = s.plots ∧
      (s.fld 0xB1808 0 1 = 1 → (s.mismatch kind r).reg 0xB1808 = s.reg 0xB1808) ∧
      (s.fld 0xB1808 0 1 = 0 → (s.mismatch kind r).reg 0xB1808 = mismatchWord kind r) := by
  unfold State.mismatch
  extract_lets bed index exec l s1 s2 s3
  obtain ⟨x, hx⟩ : ∃ x, s1 = { s with regs := x } := s.latchReg_regs 0xB1808 _
  have hkept : s.fld 0xB1808 0 1 = 1 → s1.reg 0xB1808 = s.reg 0xB1808 := fun h => by simp only [s1, if_pos h]
  have hset : s.fld 0xB1808 0 1 = 0 → s1.reg 0xB1808 = mismatchWord kind r := fun h => by
    simp only [s1, h, Nat.zero_ne_one, if_false, State.reg_setReg, if_true]
    rfl
  clear_value s1
  obtain ⟨g, h, h2⟩ : ∃ g h, s2 = { s1 with grd := g, host := h } := s1.report_frame _ _ _ _
  clear_value s2
  obtain ⟨h', h3⟩ : ∃ h', s3 = { s2 with host := h' } := s2.setDoor_frame 8
  clear_value s3
  obtain ⟨hcomp, hbeds, hplots, hreg⟩ : s3.lnk = s.lnk ∧ s3.beds = s.beds ∧ s3.plots = s.plots ∧ ∀ o, s3.reg o = s1.reg o := by
    rw [h3, h2, hx]
    exact ⟨rfl, rfl, rfl, fun _ => rfl⟩
  split
  · obtain ⟨y, hy⟩ := State.flood_frame { s3 with dbg := { s3.dbg with frostAt := some (BitVec.ofNat 64 (s3.now + 64 * s3.lnk.reach), true) } }
      none 4 (leBytes 8 (s3.now + 64 * s3.lnk.reach))
    rw [hy]
    exact ⟨congrArg (·.comp) hcomp, hbeds, hplots, fun h => (hreg _).trans (hkept h), fun h => (hreg _).trans (hset h)⟩
  · rw [hcomp, hreg]
    exact ⟨rfl, hbeds, hplots, hkept, hset⟩

theorem exec_companionRecordTimeout {s : State} {r : CmpRec} (hon : s.lnk.comp.enable = true) (hfr : s.linkFrozen = false)
    (hr : ((s.lnk.comp.own ++ s.lnk.comp.partner).find? fun x => decide (x.tick.toNat + s.fld 0xB1800 7 32 < s.now)) = some r) :
    exec .companionRecordTimeout s = .next (State.mismatch { s with lnk := { s.lnk with comp := { s.lnk.comp with
      own := s.lnk.comp.own.erase r, partner := s.lnk.comp.partner.erase r } } } 2 r.bytes) := by
  simp only [exec, execCompanionRecordTimeout, hr]
  exact if_pos ⟨hon, by rw [hfr]; rfl⟩

/-- Settles O33: an order is taken off its link and kept if the module is in the state that it needs; companion mode's
requests write its claim and its configuration, and the first mismatch is latched. -/
theorem domainOrdersAndCompanionMode : Obligations.DomainOrdersAndCompanionMode := by
  refine ⟨fun s l tick e => ⟨fun digest p x h hslip hnow hp => exec_mmSowOrder h hslip hnow hp, fun h hslip hfr hat => ?_,
      fun h hslip hfr hm hat => ?_, fun hslip h => ?_, fun hslip h => ?_⟩,
    fun s src hs => ⟨fun hl => ?_, fun hl hh hon => ?_, fun hl hh hon => ?_⟩,
    fun s src hs => ⟨fun hon => ?_, fun hon => ?_⟩, fun s r hon hfr hr => ?_⟩
  · rw [exec_mmFrostOrder h, if_neg (by simp [hslip, hfr, hat])]
    rfl
  · rw [exec_mmThawOrder h, if_neg (by simp [hslip, hfr, hm, hat])]
    rfl
  · rw [exec_mmFrostOrder h, if_pos (.inl hslip)]
    rfl
  · rw [exec_mmThawOrder h, if_pos (.inl hslip)]
    rfl
  · obtain ⟨u, he, hu, hd⟩ := State.refuses (i := .companionStart src) hs (by decide : (0x71 : Nat) ≠ 0)
      (by simp only [exec, execCompanionStart]; rw [if_pos hs]; exact if_pos hl)
    exact ⟨u, he, hd, by rw [hu]⟩
  · obtain ⟨u, he, hu, hd⟩ := State.refuses (i := .companionStart src) hs (by decide : (0x72 : Nat) ≠ 0)
      (exec_companionStart_busy hs hl hh hon)
    exact ⟨u, he, hd, by rw [hu]⟩
  · refine ⟨_, exec_companionStart hs hl hh hon, ?_⟩
    generalize fieldAt (s.request src) 16 1 = l at *
    have ht : fieldAt (s.request src) 24 4 < 2 ^ 32 := fieldAt_lt _ _ 4
    generalize fieldAt (s.request src) 24 4 = timeout at *
    obtain ⟨h1, h2, h3, h4⟩ := (s.claimsSideband l).compares_fld (show l < 32 by omega) ht
    obtain ⟨r, hr⟩ := (s.claimsSideband l).compares_frame l timeout
    simp only [State.serve_fld, State.serve_lnk, State.serve_plots, State.serve_beds, State.served_fwClaims, h1, h2, h3, h4]
    rw [hr]
    exact ⟨State.serve_done_of_host (State.asked_of_service hs) rfl rfl, rfl, rfl, trivial, trivial, trivial, rfl, rfl, rfl⟩
  · obtain ⟨u, he, hu, hd⟩ := State.refuses (i := .companionStop src) hs (by decide : (0x72 : Nat) ≠ 0)
      (by simp only [exec, execCompanionStop]; rw [if_pos hs]; exact if_neg (by rw [hon]; decide))
    exact ⟨u, he, hd, by rw [hu]⟩
  · refine ⟨_, exec_companionStop hs hon, State.serve_done_of_host (State.asked_of_service hs) rfl rfl, ?_⟩
    simp only [State.serve_fld, State.serve_lnk, State.serve_plots, State.serve_beds, State.served_fwClaims]
    refine ⟨rfl, ?_, fun c hc => ?_, rfl, rfl⟩
    · have h6 : (s.dropsSideband.setFld 0xB1800 0 6 0).fld 0xB1800 0 6 = 0 := State.fld_setFld_self _ _ _ (by omega)
      simp only [State.fld, wfld, bits] at h6 ⊢
      omega
    · have hc' := (List.mem_filter.mp (show c ∈ s.fwClaims.filter fun c => !(c.kind == 7 && c.first == s.lnk.comp.link) from hc)).2
      rintro ⟨hk, hf⟩
      simp [hk, hf] at hc'
  · obtain ⟨hcomp, hbeds, hplots, hkept, hset⟩ := State.mismatch_effect { s with lnk := { s.lnk with comp := { s.lnk.comp with
      own := s.lnk.comp.own.erase r, partner := s.lnk.comp.partner.erase r } } } 2 r.bytes
    obtain ⟨h1, h2⟩ := mismatchWord_fld (by decide : 2 < 4) r.bytes
    refine ⟨_, exec_companionRecordTimeout hon hfr hr, hcomp, hbeds, hplots, hkept, fun h => ?_⟩
    unfold State.fld
    rw [hset h]
    exact ⟨h1, h2⟩

end Sys2Proof.Machine
end

section
/-! PROOFS. Rings: tails, heads, enables and disables (R347, R348, R352, R355): O34. -/

namespace Sys2Proof.Machine

/-! ## Slots of a ring -/

theorem Ring.slot_setSlot (x : Ring) (i : Nat) (y : Slot) (j : Nat) : (x.setSlot i y).slot j = if j = i then y else x.slot j := by
  unfold Ring.slot Ring.setSlot
  exact tget_tset _ _ _ _ _

/-- Positions of a ring less than its size apart are different. -/
theorem Ring.place_ne (x : Ring) (from_ : Nat) {i j : Nat} (hij : i < j) (hj : j < x.size) :
    (from_ + i) % x.size ≠ (from_ + j) % x.size := by
  intro h
  have hmod : x.size ∣ from_ + j - (from_ + i) := (Nat.modEq_iff_dvd' (by omega)).mp h
  rw [Nat.add_sub_add_left] at hmod
  exact absurd (Nat.le_of_dvd (by omega) hmod) (by omega)

/-- Fewer slots from a position on than the ring has are each changed once, and nothing else is. -/
theorem Ring.mapSlots_effect (x : Ring) (from_ : Nat) (f : Slot → Slot) : ∀ n, n ≤ x.size →
    (∃ e, x.mapSlots from_ n f = { x with slots := e }) ∧
      (∀ i, i < n → (x.mapSlots from_ n f).slot ((from_ + i) % x.size) = f (x.slot ((from_ + i) % x.size))) ∧
      ∀ j, (∀ i, i < n → j ≠ (from_ + i) % x.size) → (x.mapSlots from_ n f).slot j = x.slot j
  | 0, _ => ⟨⟨_, rfl⟩, nofun, fun _ _ => rfl⟩
  | n + 1, hn => by
    obtain ⟨⟨e, he⟩, hin, hout⟩ := x.mapSlots_effect from_ f n (by omega)
    have hstep : x.mapSlots from_ (n + 1) f = (x.mapSlots from_ n f).setSlot ((from_ + n) % x.size) (f (x.slot ((from_ + n) % x.size))) := by
      have hlast := hout ((from_ + n) % x.size) fun i hi => (x.place_ne from_ hi (by omega)).symm
      have hsize : (x.mapSlots from_ n f).size = x.size := by rw [he]; rfl
      rw [← hlast, ← hsize]
      unfold Ring.mapSlots
      rw [List.range_succ, List.foldl_append]
      rfl
    rw [hstep]
    refine ⟨⟨_, by rw [he]; rfl⟩, fun i hi => ?_, fun j hj => ?_⟩
    · rw [Ring.slot_setSlot]
      rcases Nat.lt_succ_iff_lt_or_eq.mp hi with hlt | rfl
      · rw [if_neg (x.place_ne from_ hlt (by omega)), hin i hlt]
      · rw [if_pos rfl]
    · rw [Ring.slot_setSlot, if_neg (hj n (by omega)), hout j fun i hi => hj i (by omega)]

theorem Ring.span_lt (x : Ring) (a b : Nat) : x.span a b < x.size := Nat.mod_lt _ (Nat.two_pow_pos _)

theorem State.ring_setRing_of_ne (s : State) {r q : Nat} (x : Ring) (h : q ≠ r) : (s.setRing r x).ring q = s.ring q := by
  rw [State.ring_setRing, if_neg h]

/-! ## Tails, heads, enables and disables -/

section
variable {s : State} {rid : BitVec 16} {r : BitVec 6} {v : W64}

theorem exec_sqTailWrite (h : Served s rid) : exec (.sqTailWrite rid r v) s = .next (s.writeTail r.toNat (bits v.toNat 0 16)) :=
  congrArg Host.Outcome.next (s.bar2_of_served h _)

theorem exec_cqHeadWrite (h : Served s rid) : exec (.cqHeadWrite rid r v) s = .next (s.writeHead r.toNat (bits v.toNat 0 16)) :=
  congrArg Host.Outcome.next (s.bar2_of_served h _)

theorem State.bar0_of_reached (h : Reached s rid) (f : State → State) : s.bar0 rid f = f s := by
  obtain ⟨halive, hmine⟩ := h
  simp [State.bar0, halive, hmine]

theorem exec_ringEnable (h : Reached s rid) (hv : v.getLsbD 0 = true) :
    exec (.ringEnable rid r v) s = .next (s.writeRingCfg r.toNat v) :=
  (if_pos hv).trans (congrArg Host.Outcome.next (State.bar0_of_reached h _))

theorem exec_ringDisable (h : Reached s rid) (hv : v.getLsbD 0 = false) :
    exec (.ringDisable rid r v) s = .next (s.writeRingCfg r.toNat v) :=
  (if_neg (by rw [hv]; decide)).trans (congrArg Host.Outcome.next (State.bar0_of_reached h _))

end

/-- The twelve bits of a ring's configuration that a write names keep its enable, its size and its vector. -/
theorem wfld_ringCfg (v : W64) {lo n : Nat} (h : lo + n ≤ 12) : wfld (BitVec.ofNat 64 (bits v.toNat 0 12)) lo n = wfld v lo n := by
  refine Nat.eq_of_testBit_eq fun i => ?_
  rw [testBit_wfld, testBit_wfld]
  by_cases hi : i < n
  · simp only [hi, BitVec.getLsbD_ofNat, bits, Nat.testBit_mod_two_pow, show lo + i < 64 by omega, show lo + i < 12 by omega, decide_true,
      Bool.true_and, Nat.pow_zero, Nat.div_one]
    rfl
  · simp [hi]

theorem wfld_bit (v : W64) (i : Nat) : wfld v i 1 = if v.getLsbD i then 1 else 0 := by
  unfold wfld bits
  rw [show v.getLsbD i = v.toNat.testBit i from rfl, Nat.testBit_eq_decide_div_mod_eq]
  have := Nat.mod_two_eq_zero_or_one (v.toNat / 2 ^ i)
  split
  next h => simpa using h
  next h => simp at h; omega

theorem State.writeTail_valid {s : State} {r v : Nat} (hst : (s.ring r).state = 1 ∨ (s.ring r).state = 3) (hv : v < (s.ring r).size)
    (hf : (s.ring r).span (s.ring r).tail v ≤ (s.ring r).free) : ∃ h, s.writeTail r v = { s with host := h } ∧
      h.rings = tset (fun _ => {}) s.host.rings r { (s.ring r).mapSlots (s.ring r).tail ((s.ring r).span (s.ring r).tail v)
        (fun (y : Slot) => { y with st := 1 }) with tail := v } ∧
      h.dbIn = s.host.dbIn ||| (1 <<< (r / 2)) := by
  unfold State.writeTail
  extract_lets x a x' s1
  exact ⟨_, if_pos ⟨hst, hv, hf⟩, rfl, rfl⟩

theorem State.writeTail_invalid {s : State} {r v : Nat} (h : (s.ring r).size ≤ v ∨ (s.ring r).free < (s.ring r).span (s.ring r).tail v ∨
    (s.ring r).state = 0 ∨ (s.ring r).state = 2) : s.writeTail r v = s.bump 0x10 24 12 1 := by
  unfold State.writeTail
  exact if_neg (by omega)

theorem State.writeHead_valid {s : State} {r v : Nat} (hv : v < (s.ring r).size)
    (hp : ∀ i, i < (s.ring r).span (s.ring r).head v → ((s.ring r).slot (((s.ring r).head + i) % (s.ring r).size)).st = 4) :
    s.writeHead r v = s.setRing r { (s.ring r).mapSlots (s.ring r).head ((s.ring r).span (s.ring r).head v) (fun _ => {}) with head := v } := by
  unfold State.writeHead
  refine if_pos ⟨hv, List.all_eq_true.mpr fun i hi => ?_⟩
  exact beq_iff_eq.mpr (hp i (List.mem_range.mp hi))

/-- What a ring is enabled with (R347). -/
def State.enabledRing (s : State) (r : Nat) (v : W64) : Ring :=
  { state := 1, log2 := wfld v 1 5, vector := wfld v 6 6, sq := (s.reg (0x1000 + 0x40 * r)).toNat
    cq := (s.reg (0x1008 + 0x40 * r)).toNat, phase := true }

theorem State.writeRingCfg_enables {s : State} {r : Nat} {v : W64} (hready : s.ready = true) (hv : v.getLsbD 0 = true)
    (hoff : s.fld (0x1010 + 0x40 * r) 0 1 = 0) (hst : (s.ring r).state ≠ 2) (h1 : 1 ≤ wfld v 1 5) (h16 : wfld v 1 5 ≤ 16) :
    s.writeRingCfg r v = (s.setReg (0x1010 + 0x40 * r) (BitVec.ofNat 64 (bits v.toNat 0 12))).setRing r (s.enabledRing r v) := by
  unfold State.writeRingCfg
  simp only [wfld_ringCfg v (show 0 + 1 ≤ 12 by decide), wfld_ringCfg v (show 1 + 5 ≤ 12 by decide),
    wfld_ringCfg v (show 6 + 6 ≤ 12 by decide), wfld_bit v 0, hv, if_true]
  unfold State.fld at hoff
  rw [hoff, if_neg (by decide), if_neg (by decide), if_neg (by simp [hready, hst]), if_neg (by omega)]
  rfl

/-- What a ring is while its outstanding work drains (R355). -/
def Ring.drained (x : Ring) : Ring := { x with state := if x.count 2 = 0 ∧ x.count 3 = 0 then 0 else 2 }

theorem Ring.settle_drains (x : Ring) : Ring.settle { x with state := 2 } = x.drained := by
  unfold Ring.settle Ring.drained
  by_cases h : x.count 2 = 0 ∧ x.count 3 = 0
  · rw [if_pos ⟨rfl, h⟩, if_pos h]
  · rw [if_neg fun h' => h h'.2, if_neg h]

theorem State.writeRingCfg_disables {s : State} {r : Nat} {v : W64} (hv : v.getLsbD 0 = false) (hon : s.fld (0x1010 + 0x40 * r) 0 1 = 1) :
    s.writeRingCfg r v = (s.setFld (0x1010 + 0x40 * r) 0 1 0).setRing r (s.ring r).drained := by
  unfold State.writeRingCfg
  simp only [wfld_ringCfg v (show 0 + 1 ≤ 12 by decide), wfld_bit v 0, hv]
  unfold State.fld at hon
  rw [if_pos hon, if_neg (by decide), Ring.settle_drains]
  rfl

/-- Settles O34: the slots that a tail or head passes are changed once each, and a configuration's write decides by its
enable bit and the ring's state. -/
theorem ringsTakeTailsHeadsAndEnables : Obligations.RingsTakeTailsHeadsAndEnables := by
  intro s rid r v x k cfg
  refine ⟨fun hs hst hk hf => ?_, fun hs h => (exec_sqTailWrite hs).trans (congrArg _ ?_), fun hs hk hp => ?_,
    fun hs hready hv hoff hst h1 h16 => ?_, fun hs hv hon => ?_⟩
  · obtain ⟨h, he, hr, hdb⟩ := State.writeTail_valid hst hk hf
    obtain ⟨⟨e, hm⟩, hin, hout⟩ := x.mapSlots_effect x.tail (fun (y : Slot) => { y with st := 1 }) _ (Nat.le_of_lt (x.span_lt x.tail k))
    refine ⟨{ s with host := h }, (exec_sqTailWrite hs).trans (congrArg _ he), rfl, ?_⟩
    have hring : ∀ q, State.ring { s with host := h } q = if q = r.toNat then _ else s.ring q := fun q => by
      unfold State.ring
      rw [hr]
      exact tget_tset _ _ _ _ _
    rw [hring, if_pos rfl]
    exact ⟨rfl, hin, hout, hdb, fun q hq => by rw [hring, if_neg hq]⟩
  · exact State.writeTail_invalid h
  · obtain ⟨⟨e, hm⟩, hin, hout⟩ := x.mapSlots_effect x.head (fun _ => {}) _ (Nat.le_of_lt (x.span_lt x.head k))
    refine ⟨_, (exec_cqHeadWrite hs).trans (congrArg _ (State.writeHead_valid hk hp)), rfl, ?_⟩
    rw [State.ring_setRing, if_pos rfl]
    exact ⟨rfl, hin, hout, fun q hq => State.ring_setRing_of_ne _ _ hq⟩
  · refine ⟨_, (exec_ringEnable hs hv).trans (congrArg _ (State.writeRingCfg_enables hready hv hoff hst h1 h16)), ?_, ?_,
      fun q hq => State.ring_setRing_of_ne _ _ hq⟩
    · exact (State.reg_setReg _ _ _ _).trans (if_pos rfl)
    · rw [State.ring_setRing, if_pos rfl, State.enabledRing, show cfg - 0x10 = 0x1000 + 0x40 * r.toNat by omega,
        show cfg - 0x8 = 0x1008 + 0x40 * r.toNat by omega]
  · refine ⟨_, (exec_ringDisable hs hv).trans (congrArg _ (State.writeRingCfg_disables hv hon)), ?_, ?_, ?_,
      fun q hq => State.ring_setRing_of_ne _ _ hq⟩
    · exact State.fld_setFld_self s _ _ (by decide)
    · exact State.fld_setFld_disjoint s _ _ (by decide)
    · rw [State.ring_setRing, if_pos rfl]
      rfl

end Sys2Proof.Machine
end

section
/-! PROOFS. What the engines' incidents leave of the requests (R285 to R289, R358). -/

namespace Sys2Proof.Machine

/-- What the host has asked for: its rings, the messages taken and the services that wait. -/
def State.requests (s : State) : Tbl Ring × Tbl (List Byte) × List Waiter := (s.host.rings, s.host.mbReq, s.host.waiters)

theorem State.ring_congr {s t : State} (h : t.requests = s.requests) (r : Nat) : t.ring r = s.ring r :=
  congrArg (fun x : Tbl Ring × Tbl (List Byte) × List Waiter => tget (fun _ => ({} : Ring)) x.1 r) h

theorem State.requests_of_host {s t : State} (h : t.host = s.host) : t.requests = s.requests := by
  unfold State.requests
  rw [h]

theorem State.setDoor_requests (s : State) (b : Nat) : (s.setDoor b).requests = s.requests := by
  by_cases hr : s.ready = true
  · obtain ⟨p, q, h⟩ := s.setDoor_eq b hr
    rw [h]
    rfl
  · rw [show s.setDoor b = s from if_pos (by simp [hr])]

theorem State.report_requests (s : State) (unit reporter cause detail : Nat) :
    (s.report unit reporter cause detail).requests = s.requests := by
  unfold State.report
  simp only []
  split
  · rfl
  · split
    · rfl
    · exact State.setDoor_requests _ 2

theorem State.ddrFail_requests (s : State) (u : Nat) : (s.ddrFail u).requests = s.requests := by
  unfold State.ddrFail
  dsimp only
  split
  · rfl
  generalize hs1 : ({ s with freeN := s.freeN + 1 } : State) = s1
  have h1 : s1.host = s.host := by rw [← hs1]
  generalize hs2 : s1.bump (0x90008 + 0x40 * ctlOf u) 32 16 1 = s2
  have h2 : s2.host = s1.host := by rw [← hs2, State.bump_host]
  exact (State.report_requests _ _ _ _ _).trans (State.requests_of_host ((s2.latchReg_host _ _).trans (h2.trans h1)))

theorem State.landBytes_keeps_requests (s : State) (counted : Bool) (bed addr : Nat) (bytes : List Byte) (at_ : Nat) :
    (s.landBytes counted bed addr bytes at_).requests = s.requests := by
  unfold State.landBytes
  simp only []
  split
  · rfl
  · refine (State.requests_of_host (State.watchEcc_only _ _).host).trans ((foldl_same State.requests fun t o => ?_).trans rfl)
    split
    · exact (State.report_requests _ _ _ _ _)
    · rfl

theorem State.ddrWrite_keeps_requests (s : State) (a : Nat) (bytes : List Byte) : (s.ddrWrite a bytes).requests = s.requests := by
  unfold State.ddrWrite
  refine (foldl_same State.requests fun t c => ?_).trans rfl
  split <;> rfl

theorem State.placeBytes_keeps_requests (s : State) (counted : Bool) (space addr : Nat) (bytes : List Byte) :
    (s.placeBytes counted space addr bytes).requests = s.requests := by
  unfold State.placeBytes
  split
  · exact State.ddrWrite_keeps_requests _ _ _
  · split
    · exact State.landBytes_keeps_requests _ _ _ _ _ _
    · rfl
  · rfl

theorem State.placeStream_keeps_requests (s : State) (counted : Bool) (x : Side) (off : Nat) (bytes : List Byte) :
    (s.placeStream counted x off bytes).requests = s.requests :=
  foldl_same State.requests fun _ _ => State.placeBytes_keeps_requests _ _ _ _ _

theorem State.readLines_keeps_requests (s : State) (x : Side) (from_ n : Nat) : (s.readLines x from_ n).2.requests = s.requests := by
  unfold State.readLines
  split <;> rfl

theorem State.gradeCount_host (s : State) (ch : Nat) (d : List Byte) (es : List (Nat × Cnv × Val)) (n : Nat) :
    (s.gradeCount ch d es n).host = s.host := by
  unfold State.gradeCount
  rw [apply_ite State.host, State.setChan_host, ite_self, State.setReg_host, State.bump_host, State.bump_host, State.bump_host]

theorem State.gradeCount_keeps_requests (s : State) (ch : Nat) (d : List Byte) (es : List (Nat × Cnv × Val)) (n : Nat) :
    (s.gradeCount ch d es n).requests = s.requests := State.requests_of_host (State.gradeCount_host _ _ _ _ _)

theorem State.carry_keeps_requests (s : State) (ch good : Nat) : (s.carry ch good).requests = s.requests := by
  unfold State.carry
  extract_lets k
  split
  · rfl
  · extract_lets d a b upto
    split
    · rfl
    · split
      · rfl
      · exact (State.placeStream_keeps_requests _ _ _ _ _).trans ((State.gradeCount_keeps_requests _ _ _ _ _).trans
          (State.readLines_keeps_requests s a _ _))

theorem State.logged_keeps_requests (s : State) (ch : Nat) : (s.logged ch).requests = s.requests := by
  rcases s.logged_eq ch with h | ⟨log, h⟩
  · rw [h]
  · rw [h]
    rfl

theorem State.dropProbe_keeps_requests (s : State) (ch : Nat) : (s.dropProbe ch).requests = s.requests := by
  unfold State.dropProbe
  simp only []
  split
  · split <;> rfl
  · rfl

theorem State.dataCome_keeps_requests (s : State) (ch a : Nat) : (s.dataCome ch a).requests = s.requests := by
  unfold State.dataCome
  simp only []
  split
  · rfl
  · split
    · rfl
    · split
      · rfl
      · exact State.gradeCount_keeps_requests _ _ _ _ _

theorem State.settleAccess_keeps_requests (s : State) (x : Access) : (s.settleAccess x).requests = s.requests := by
  unfold State.settleAccess
  split
  · split
    · exact State.dataCome_keeps_requests _ _ _
    · exact (State.dropProbe_keeps_requests _ _).trans (State.carry_keeps_requests _ _ _)
  · rfl

theorem State.goOn_keeps_requests : ∀ (chs : List Nat) (s : State) (good : Nat), (s.goOn chs good).requests = s.requests
  | [], _, _ => rfl
  | ch :: chs, s, good => by
    unfold State.goOn
    split
    · split
      · exact State.goOn_keeps_requests chs _ _
      · exact (State.goOn_keeps_requests chs _ _).trans ((State.dropProbe_keeps_requests _ _).trans
          ((State.logged_keeps_requests _ _).trans (State.carry_keeps_requests _ _ _)))
    · exact State.goOn_keeps_requests chs _ _

theorem State.holdChans_keeps_requests (s : State) (h : Nat) (held : Bool) : (s.holdChans h held).requests = s.requests :=
  foldl_same State.requests fun t e => by
    dsimp only
    split <;> rfl

theorem State.endIncident_keeps_requests (s : State) (h : Nat) (transient : Bool) (replayed : List Access) (good : Nat) :
    (s.endIncident h transient replayed good).requests = s.requests := by
  unfold State.endIncident
  extract_lets e s1 s2 log s3
  have h2 : s2.requests = s.requests := by
    unfold s2
    split
    · exact State.requests_of_host (State.setFld_host _ _ _ _ _)
    · rfl
  clear_value s2 s1
  exact (State.goOn_keeps_requests _ _ _).trans ((foldl_same State.requests fun t x => State.settleAccess_keeps_requests t x).trans
    ((State.holdChans_keeps_requests _ _ _).trans h2))

theorem State.incident_keeps_requests (s : State) (h cause : Nat) : (s.incident h cause).requests = s.requests := by
  unfold State.incident
  extract_lets e s1 s2
  have h2 : s2.requests = s.requests := State.requests_of_host ((s1.latchReg_host _ _).trans rfl)
  exact (State.report_requests _ _ _ _ _).trans h2

theorem State.busError_keeps_requests (s : State) (ch cause : Nat) : (s.busError ch cause).requests = s.requests := by
  unfold State.busError
  simp only []
  split
  · rfl
  next t _ =>
    generalize hs1 : (if cause = 0 then s.ddrFail ((s.ddrBad t.next.1 t.next.2).getD (t.next.1 / 512)) else s) = s1
    have h1 : s1.requests = s.requests := by
      rw [← hs1]
      split
      · exact (State.ddrFail_requests _ _)
      · rfl
    generalize hs2 : (if (s1.engine (hubOf ch)).state = 0 then s1.incident (hubOf ch) cause else s1) = s2
    have h2 : s2.requests = s1.requests := by
      rw [← hs2]
      split
      · exact State.incident_keeps_requests _ _ _
      · rfl
    exact (State.holdChans_keeps_requests _ _ _).trans (h2.trans h1)

end Sys2Proof.Machine
end

section
/-! PROOFS. Descriptors fetched, started and completed (R349 to R353, R356, R358): O35. -/

namespace Sys2Proof.Machine

/-! ## Descriptors fetched -/

/-- Positions of a ring from one on, each given what its place says. -/
theorem Ring.setSlots_effect (x : Ring) (from_ : Nat) (g : Nat → Slot) : ∀ n, n ≤ x.size →
    let t := (List.range n).foldl (fun (y : Ring) i => y.setSlot ((from_ + i) % x.size) (g ((from_ + i) % x.size))) x
    (∀ i, i < n → t.slot ((from_ + i) % x.size) = g ((from_ + i) % x.size)) ∧
      ∀ j, (∀ i, i < n → j ≠ (from_ + i) % x.size) → t.slot j = x.slot j
  | 0, _ => ⟨nofun, fun _ _ => rfl⟩
  | n + 1, hn => by
    obtain ⟨hin, hout⟩ := x.setSlots_effect from_ g n (by omega)
    rw [List.range_succ, List.foldl_append]
    refine ⟨fun i hi => ?_, fun j hj => ?_⟩
    · refine (Ring.slot_setSlot _ _ _ _).trans ?_
      rcases Nat.lt_succ_iff_lt_or_eq.mp hi with hlt | rfl
      · rw [if_neg (x.place_ne from_ hlt (by omega)), hin i hlt]
      · rw [if_pos rfl]
    · refine (Ring.slot_setSlot _ _ _ _).trans ?_
      rw [if_neg (hj n (by omega)), hout j fun i hi => hj i (by omega)]

/-- How many descriptors a fetch reads (R349). -/
def Ring.fetches (x : Ring) : Nat :=
  min 8 ((List.range x.size).takeWhile fun i => (x.slot ((x.fetch + i) % x.size)).st == 1).length

theorem Ring.fetches_le (x : Ring) : x.fetches ≤ x.size := by
  have h := (List.takeWhile_prefix (l := List.range x.size) fun i => (x.slot ((x.fetch + i) % x.size)).st == 1).length_le
  rw [List.length_range] at h
  exact Nat.le_trans (Nat.min_le_right _ _) h

/-- A slot whose descriptor has been read from its place in host memory. -/
def State.fetchedSlot (s : State) (x : Ring) (pos : Nat) : Slot :=
  { st := 2, desc := mread 0 s.host.mem (x.sq + 64 * pos) 64, fetchTick := s.now }

/-- What a fetch asks its channel to read. -/
def Ring.fetchXfer (x : Ring) (r : Nat) : Xfer := { desc := readDesc (x.sq + 64 * x.fetch) (64 * x.fetches), ring := some r }

section
variable {s : State} {r : BitVec 6} (hrun : s.ringsRun r.toNat = true) (hst : (s.ring r.toNat).state = 1)
  (hn : (s.ring r.toNat).fetches ≠ 0) (hch : (s.chan (28 + r.toNat / 16)).state ≠ 3) (he : (s.engine 0).state = 0)
include hrun hst hn hch he

theorem descriptorFetch_unblocked : ¬(!s.ringsRun r.toNat || (s.ring r.toNat).state != 1 || (s.ring r.toNat).fetches == 0 ||
    (s.chan (28 + r.toNat / 16)).state == 3 || (s.engine 0).state != 0) = true := by
  simp [hrun, hst, hn, hch, he]

theorem exec_descriptorFetch : ∃ h y, exec (.descriptorFetch r none) s = .next { s with host := h } ∧
    h.rings = tset (fun _ => {}) s.host.rings r.toNat y ∧ h.mem = s.host.mem ∧
    y.fetch = ((s.ring r.toNat).fetch + (s.ring r.toNat).fetches) % (s.ring r.toNat).size ∧
    ∀ i, i < (s.ring r.toNat).fetches → y.slot (((s.ring r.toNat).fetch + i) % (s.ring r.toNat).size) =
      s.fetchedSlot (s.ring r.toNat) (((s.ring r.toNat).fetch + i) % (s.ring r.toNat).size) := by
  have heff := (Ring.setSlots_effect (s.ring r.toNat) (s.ring r.toNat).fetch (s.fetchedSlot (s.ring r.toNat)) _ (Ring.fetches_le _)).1
  exact ⟨_, _, if_neg (descriptorFetch_unblocked hrun hst hn hch he), rfl, rfl, rfl, heff⟩

theorem exec_descriptorFetch_fails {cause : BitVec 3} (h2 : 2 ≤ cause.toNat) (h5 : cause.toNat ≤ 5)
    (hf : s.readFree (28 + r.toNat / 16) = true) : exec (.descriptorFetch r (some cause)) s =
      .next (s.failRead (28 + r.toNat / 16) cause.toNat ((s.ring r.toNat).fetchXfer r.toNat)) :=
  (if_neg (descriptorFetch_unblocked hrun hst hn hch he)).trans (if_pos ⟨h2, h5, hf⟩)

end

/-! ## A read that fails -/

/-- A channel whose one table entry is the one given keeps its transfer when its hub's channels are held. -/
theorem State.holdChans_cur {s : State} {ch : Nat} {k : Chan} (hk : s.chan ch = k) (hone : ∀ e ∈ s.brw.chans, e.1 = ch → e.2 = k)
    (h : Nat) (held : Bool) : ((s.holdChans h held).chan ch).cur = k.cur := by
  unfold State.holdChans
  refine List.foldlRecOn (motive := fun t : State => (t.chan ch).cur = k.cur) _ _ (by rw [hk]) fun t ht e he => ?_
  split
  next hc =>
    rw [State.chan_setChan]
    split
    next heq => rw [hone e he heq.symm]
    next => exact ht
  next => exact ht

theorem State.failRead_effect (s : State) {ch cause : Nat} (hc : cause ≠ 0) (t : Xfer) :
    ((s.failRead ch cause t).engine (hubOf ch)).state = 1 ∧ (s.failRead ch cause t).requests = s.requests ∧
      ((s.failRead ch cause t).chan ch).cur = some { t with started := true, probe := true } := by
  unfold State.failRead
  generalize hk : ({ s.chan ch with state := 1, cur := some { t with started := true, probe := true }, buffers := 1 } : Chan) = k
  have hcur : k.cur = some { t with started := true, probe := true } := by rw [← hk]
  have hne : k ≠ {} := fun h => by
    rw [h] at hcur
    cases hcur
  have hlog : ((s.setChan ch k).logged ch).brw.chans = tset (fun _ => {}) s.brw.chans ch k := by
    rcases (s.setChan ch k).logged_eq ch with h | ⟨log, h⟩
    · rw [h]
      rfl
    · rw [h]
      rfl
  have hrings : ((s.setChan ch k).logged ch).requests = s.requests := State.logged_keeps_requests _ _
  generalize (s.setChan ch k).logged ch = u at *
  have hu : u.chan ch = k := by
    unfold State.chan
    rw [hlog]
    exact tget_tset_self _ _ _ _
  refine ⟨?_, (State.busError_keeps_requests _ _ _).trans hrings, ?_⟩
  · unfold State.busError
    rw [hu, hcur]
    exact (congrArg Engine.state (State.holdChans_engine _ _ _ _)).trans (by rw [State.engine_setEngine, if_pos rfl])
  · unfold State.busError
    simp only [hu, hcur, if_neg hc]
    generalize hs2 : (if (u.engine (hubOf ch)).state = 0 then u.incident (hubOf ch) cause else u) = s2
    have hb : s2.brw.chans = u.brw.chans := by
      rw [← hs2]
      split
      · rw [(u.incident_frame _ _).2]
        rfl
      · rfl
    refine (State.holdChans_cur (k := k) ?_ (fun e he hk => ?_) _ _).trans hcur
    · unfold State.chan
      rw [show (s2.setEngine _ _).brw.chans = s2.brw.chans from rfl, hb, hlog]
      exact tget_tset_self _ _ _ _
    · rw [show (s2.setEngine _ _).brw.chans = s2.brw.chans from rfl, hb, hlog] at he
      rw [eq_of_mem_tset he hk]

/-! ## A channel halted -/

/-- A ring in error, with the slot that could not be read (R358). -/
structure Unread (r i : Nat) (s : State) : Prop where
  state : (s.ring r).state = 3
  st : ((s.ring r).slot i).st = 3
  code : ((s.ring r).slot i).code = 0x08

section
variable {r i : Nat} {s t : State}

theorem Unread.of_ring (h : Unread r i s) (he : t.ring r = s.ring r) : Unread r i t := by
  obtain ⟨h1, h2, h3⟩ := h
  exact ⟨he ▸ h1, he ▸ h2, he ▸ h3⟩

theorem Unread.unreadRing (h : Unread r i s) (q : Nat) : Unread r i (s.unreadRing q) := by
  unfold State.unreadRing
  dsimp only
  split
  · exact h
  next hq =>
    have hne : r ≠ q := fun he => hq (by rw [← he, h.state]; decide)
    have hring : ∀ x : Ring, (s.setRing q x).ring r = s.ring r := fun x => State.ring_setRing_of_ne s x hne
    exact ⟨by rw [hring]; exact h.state, by rw [hring]; exact h.st, by rw [hring]; exact h.code⟩

theorem Unread.complete (h : Unread r i s) (src : Src) (status code result : Nat) : Unread r i (s.complete src status code result) := by
  unfold State.complete
  split
  · exact h.of_ring rfl
  · extract_lets q x y _ s1 x'
    have h1 : Unread r i s1 := h.of_ring rfl
    split
    next hy =>
      by_cases hq : r = q
      · have hi : i ≠ src.slot.toNat := fun he => by
          have h2 : y.st = 3 := by
            unfold y x
            rw [← hq, ← he]
            exact h.st
          rw [h2] at hy
          exact absurd hy (by decide)
        have hslot : x'.slot i = (s.ring r).slot i := by
          rw [hq]
          exact (Ring.slot_setSlot _ _ _ _).trans (if_neg hi)
        have hx : x'.state = 3 := by
          have h3 := h.state
          rw [hq] at h3
          exact h3
        have hring : ∀ z : Ring, z.state = x'.state → z.slot i = x'.slot i → Unread r i (s1.setRing q z) := fun z hz hzi =>
          ⟨by rw [State.ring_setRing, if_pos hq, hz, hx], by rw [State.ring_setRing, if_pos hq, hzi, hslot]; exact h.st,
            by rw [State.ring_setRing, if_pos hq, hzi, hslot]; exact h.code⟩
        split
        · exact hring _ rfl rfl
        · exact hring _ rfl rfl
      · have hring : ∀ z : Ring, (s1.setRing q z).ring r = s1.ring r := fun z => State.ring_setRing_of_ne s1 z hq
        exact ⟨by rw [hring]; exact h1.state, by rw [hring]; exact h1.st, by rw [hring]; exact h1.code⟩
    next => exact h1

theorem State.dropEngine_requests (s : State) (x : Xfer) : (s.dropEngine x).requests = s.requests := by
  unfold State.dropEngine
  split <;> rfl

/-- What a halted channel fails of one of its transfers: the ring that it fetched for, and the request that it served. -/
def State.failXfer (s : State) (x : Option Xfer) : State :=
  match x with
  | some t =>
    let s := match t.ring with | some r => s.unreadRing r | none => s
    (match t.src with | some src => (s.dropEngine t).complete src 1 0x02 0 | none => s)
  | none => s

theorem Unread.failXfer (h : Unread r i s) (x : Option Xfer) : Unread r i (s.failXfer x) := by
  unfold State.failXfer
  cases x with
  | none => exact h
  | some y =>
    have hu : Unread r i (match y.ring with | some q => s.unreadRing q | none => s) := by
      cases y.ring with
      | none => exact h
      | some q => exact h.unreadRing q
    dsimp only
    generalize (match y.ring with | some q => s.unreadRing q | none => s) = u at hu ⊢
    cases y.src with
    | none => exact hu
    | some src => exact (hu.of_ring (State.ring_congr (State.dropEngine_requests u y) r)).complete _ _ _ _

/-- The descriptor that a fetch could not read. -/
theorem State.failXfer_fetch {f : Xfer} (hr : f.ring = some r) (hs : f.src = none) (hst : (s.ring r).state = 1) :
    Unread r (s.ring r).fetch (s.failXfer (some f)) := by
  unfold State.failXfer
  simp only [hr, hs]
  unfold State.unreadRing
  simp only [hst, ne_eq, not_true_eq_false, if_false]
  have hslot := ((s.ring r).slot_setSlot (s.ring r).fetch
    { st := 3, started := true, status := 1, code := 0x08, tick := s.now, unread := true } (s.ring r).fetch).trans (if_pos rfl)
  refine ⟨?_, ?_, ?_⟩
  · rw [State.ring_setRing, if_pos rfl]
  · rw [State.ring_setRing, if_pos rfl]
    exact congrArg Slot.st hslot
  · rw [State.ring_setRing, if_pos rfl]
    exact congrArg Slot.code hslot

theorem State.haltChan_unread {ch : Nat} {f : Xfer} (hf : (s.chan ch).cur = some f) (hr : f.ring = some r) (hs : f.src = none)
    (hst : (s.ring r).state = 1) (cause addr : Nat) : Unread r (s.ring r).fetch (s.haltChan ch cause addr) := by
  unfold State.haltChan
  extract_lets k s1 s2 s3 s4 fail
  have h4 : s4.requests = s.requests := (State.report_requests s3 _ _ _ _).trans (State.requests_of_host (State.setReg_host s2 _ _))
  have he : fail (fail s4 k.cur) k.next = (s4.failXfer k.cur).failXfer k.next := rfl
  have hring := State.ring_congr h4 r
  clear_value s4
  rw [he, show k.cur = some f from hf, ← hring]
  exact (State.failXfer_fetch hr hs (by rw [hring]; exact hst)).failXfer _

end

/-- The failing access of an isolated engine halts its channel. -/
theorem exec_isolationAccess_halts {s : State} {ch : BitVec 6} {x : Access} {rest : List Access} {good : Nat} (hr : s.running = true)
    (hs : (s.engine (hubOf ch.toNat)).state = 3) (hl : (s.engine (hubOf ch.toNat)).log = x :: rest) (hx : x.chan = ch.toNat)
    (hg : s.replay [x] good = 0) : ∃ (u : State) (cause addr : Nat) (replayed : List Access) (more : Nat),
      exec (.isolationAccess ch good) s =
        .next ((u.haltChan ch.toNat cause addr).endIncident (hubOf ch.toNat) false replayed more) ∧
      u.requests = s.requests ∧ u.brw = s.brw := by
  have hg' : ¬s.replay [x] good = 1 := by rw [hg]; decide
  obtain ⟨c, dec, n, cause, addr, replayed, more, he⟩ : ∃ (c : Prop) (dec : Decidable c) (n cause addr : Nat) (replayed : List Access)
      (more : Nat), execIsolationAccess ch good s =
        .next (((if c then s.ddrFail n else s).haltChan ch.toNat cause addr).endIncident (hubOf ch.toNat) false replayed more) := by
    unfold execIsolationAccess
    simp only [hr, hs, hl, hx, hg', BEq.rfl, Bool.and_self, if_true, if_false]
    exact ⟨_, _, _, _, _, _, _, rfl⟩
  refine ⟨_, cause, addr, replayed, more, he, ?_, ?_⟩
  · split
    · exact State.ddrFail_requests _ _
    · rfl
  · split
    · exact (State.ddrFail_brw _ _).1
    · rfl

/-! ## Descriptors started and completed -/

/-- A slot whose request ends with an outcome. -/
def Slot.ended (y : Slot) (status code result tick : Nat) : Slot :=
  { y with st := 3, status, code, result := BitVec.ofNat 64 result, tick }

/-- A descriptor in progress completes: its slot alone changes, and its ring's chain with it at most. -/
theorem State.complete_slot {s : State} {src : Src} (hm : src.mailbox = false)
    (hst : ((s.ring src.idx.toNat).slot src.slot.toNat).st = 2) (status code result : Nat) :
    ∃ h x, s.complete src status code result = { s with host := h } ∧ h.rings = tset (fun _ => {}) s.host.rings src.idx.toNat x ∧
      x.start = (s.ring src.idx.toNat).start ∧ ∀ j, x.slot j = if j = src.slot.toNat
        then ((s.ring src.idx.toNat).slot src.slot.toNat).ended status code result s.now else (s.ring src.idx.toNat).slot j := by
  have hslot := fun j => (s.ring src.idx.toNat).slot_setSlot src.slot.toNat
    (((s.ring src.idx.toNat).slot src.slot.toNat).ended status code result s.now) j
  unfold State.complete
  rw [if_neg (by rw [hm]; decide)]
  extract_lets q x y _ s1 x'
  refine ⟨_, _, if_pos hst, rfl, ?_, ?_⟩
  · split <;> rfl
  · split
    · exact hslot
    · exact hslot

/-- A request begun in its slot, the ring's next one in turn. -/
def Ring.begun (x : Ring) : Ring :=
  let y := x.slot x.start
  let x' := x.setSlot x.start { y with started := true }
  let z := if bit (fieldAt y.desc 1 1) 0 then x' else { x' with chain := x.start, chainBad := false }
  { z with start := (x.start + 1) % z.size }

theorem Ring.begun_slot (x : Ring) (j : Nat) :
    x.begun.slot j = if j = x.start then { x.slot x.start with started := true } else x.slot j := by
  have hslot := x.slot_setSlot x.start { x.slot x.start with started := true } j
  unfold Ring.begun
  dsimp only
  split
  · exact hslot
  · exact hslot

theorem Ring.begun_start (x : Ring) : x.begun.start = (x.start + 1) % x.size := by
  unfold Ring.begun
  dsimp only
  split <;> rfl

/-- How a request that begins ends at once, if it does: skipped, malformed, or for a service that there is not. -/
def Ring.rejects (x : Ring) : Option (Nat × Nat × Nat) :=
  let y := x.slot x.start
  if bit (fieldAt y.desc 1 1) 0 && x.chainBad then some (2, 0, 0)
  else if !descOk y.desc then some (1, 0x01, 0)
  else if fieldAt y.desc 0 1 = 8 ∧ !services.contains (fieldAt y.desc 8 2) then some (1, 0x07, 0x70)
  else none

/-- The state after a request has begun, and has ended if it does at once. -/
def State.endsAtOnce (s : State) (src : Src) : Option (Nat × Nat × Nat) → State
  | some (status, code, result) => s.complete src status code result
  | none => s

/-- The same of its slot. -/
def Slot.endsAtOnce (y : Slot) (tick : Nat) : Option (Nat × Nat × Nat) → Slot
  | some (status, code, result) => y.ended status code result tick
  | none => y

theorem State.endsAtOnce_slot {s : State} {src : Src} (hm : src.mailbox = false)
    (hst : ((s.ring src.idx.toNat).slot src.slot.toNat).st = 2) (o : Option (Nat × Nat × Nat)) :
    ∃ h x, s.endsAtOnce src o = { s with host := h } ∧ x.start = (s.ring src.idx.toNat).start ∧
      (∀ q, State.ring { s with host := h } q = if q = src.idx.toNat then x else s.ring q) ∧
      ∀ j, x.slot j = if j = src.slot.toNat then ((s.ring src.idx.toNat).slot src.slot.toNat).endsAtOnce s.now o
        else (s.ring src.idx.toNat).slot j := by
  match o with
  | none =>
    refine ⟨s.host, s.ring src.idx.toNat, rfl, rfl, fun q => ?_, fun j => ?_⟩
    · split
      next h => rw [h]
      next => rfl
    · split
      next h => rw [h]; rfl
      next => rfl
  | some (status, code, result) =>
    obtain ⟨h, x, he, hr, hstart, hslot⟩ := State.complete_slot hm hst status code result
    refine ⟨h, x, he, hstart, fun q => ?_, hslot⟩
    unfold State.ring
    rw [hr]
    exact tget_tset _ _ _ _ _

theorem exec_descriptorStart_waits {s : State} {r : BitVec 6}
    (hf : bit (fieldAt ((s.ring r.toNat).slot (s.ring r.toNat).start).desc 1 1) 0 = true)
    (hb : ((s.ring r.toNat).slots.any fun e => e.2.st == 2 && e.2.started) = true) : exec (.descriptorStart r) s = .next s := by
  simp only [exec, execDescriptorStart]
  exact if_pos (by rw [hf, hb]; simp)

section
variable {s : State} {r : BitVec 6} (hready : s.ready = true) (hg : s.gardens (r.toNat / 8) = true) (hst : (s.ring r.toNat).state ≠ 0)
  (hy : ((s.ring r.toNat).slot (s.ring r.toNat).start).st = 2) (hnew : ((s.ring r.toNat).slot (s.ring r.toNat).start).started = false)
  (hgo : bit (fieldAt ((s.ring r.toNat).slot (s.ring r.toNat).start).desc 1 1) 0 = false ∨
    ((s.ring r.toNat).slots.any fun e => e.2.st == 2 && e.2.started) = false)
include hready hg hst hy hnew hgo

theorem exec_descriptorStart : exec (.descriptorStart r) s = .next ((s.setRing r.toNat (s.ring r.toNat).begun).endsAtOnce
    { mailbox := false, idx := r, slot := BitVec.ofNat 16 (s.ring r.toNat).start } (s.ring r.toNat).rejects) := by
  have hgo' : ¬(!s.ready || !s.gardens (r.toNat / 8) || (s.ring r.toNat).state == 0 ||
      ((s.ring r.toNat).slot (s.ring r.toNat).start).st != 2 || ((s.ring r.toNat).slot (s.ring r.toNat).start).started ||
      (bit (fieldAt ((s.ring r.toNat).slot (s.ring r.toNat).start).desc 1 1) 0 &&
        (s.ring r.toNat).slots.any fun e => e.2.st == 2 && e.2.started)) = true := by
    rcases hgo with h | h <;> simp [hready, hg, hst, hy, hnew, h]
  refine (if_neg hgo').trans ?_
  show _ = (fun o => Host.Outcome.next (State.endsAtOnce _ _ o)) _
  unfold Ring.rejects
  dsimp only
  rw [apply_ite (fun o => Host.Outcome.next (State.endsAtOnce _ _ o)), apply_ite (fun o => Host.Outcome.next (State.endsAtOnce _ _ o)),
    apply_ite (fun o => Host.Outcome.next (State.endsAtOnce _ _ o))]
  rfl

theorem exec_descriptorStart_ring (hb : (s.ring r.toNat).start < 65536) : ∃ h x, exec (.descriptorStart r) s = .next { s with host := h } ∧
    x.start = ((s.ring r.toNat).start + 1) % (s.ring r.toNat).size ∧
    (∀ q, State.ring { s with host := h } q = if q = r.toNat then x else s.ring q) ∧
    ∀ j, x.slot j = if j = (s.ring r.toNat).start then
      ({ (s.ring r.toNat).slot (s.ring r.toNat).start with started := true } : Slot).endsAtOnce s.now (s.ring r.toNat).rejects
      else (s.ring r.toNat).slot j := by
  have hexec := exec_descriptorStart hready hg hst hy hnew hgo
  have hring : ∀ q, (s.setRing r.toNat (s.ring r.toNat).begun).ring q = if q = r.toNat then (s.ring r.toNat).begun else s.ring q :=
    fun q => State.ring_setRing s r.toNat q _
  have hself := (hring r.toNat).trans (if_pos rfl)
  have hsl : (BitVec.ofNat 16 (s.ring r.toNat).start).toNat = (s.ring r.toNat).start := Nat.mod_eq_of_lt hb
  have hbegun := (s.ring r.toNat).begun_slot
  obtain ⟨h, x, he, hstart, hrings, hslot⟩ := State.endsAtOnce_slot (s := s.setRing r.toNat (s.ring r.toNat).begun)
    (src := { mailbox := false, idx := r, slot := BitVec.ofNat 16 (s.ring r.toNat).start }) rfl
    (by rw [hsl, hself, hbegun, if_pos rfl]; exact hy) (s.ring r.toNat).rejects
  refine ⟨h, x, hexec.trans (congrArg _ he), ?_, fun q => ?_, fun j => ?_⟩
  · rw [hstart, hself, Ring.begun_start]
  · refine (hrings q).trans ?_
    split
    · rfl
    next hq => rw [hring, if_neg hq]
  · rw [hslot j, hsl, hself, hbegun, hbegun, if_pos rfl]
    split <;> rfl

end

theorem Ring.rejects_slot (x : Ring) (y : Slot) (tick : Nat) : y.endsAtOnce tick x.rejects =
    if bit (fieldAt (x.slot x.start).desc 1 1) 0 = true ∧ x.chainBad = true then y.ended 2 0 0 tick
    else if descOk (x.slot x.start).desc = false then y.ended 1 0x01 0 tick
    else if fieldAt (x.slot x.start).desc 0 1 = 8 ∧ services.contains (fieldAt (x.slot x.start).desc 8 2) = false then y.ended 1 0x07 0x70 tick
    else y := by
  unfold Ring.rejects
  simp only [Bool.and_eq_true, Bool.not_eq_true']
  split
  · rfl
  · split
    · rfl
    · split <;> rfl

/-! ## Completions posted -/

theorem cqBytes_length (pos : Nat) (y : Slot) (phase : Bool) : (cqBytes pos y phase).length = 32 := by
  simp only [cqBytes, List.length_append, leBytes_length, zeros_length]

theorem Ring.settle_slots (x : Ring) : ∃ n, x.settle = { x with state := n } := by
  unfold Ring.settle
  split
  · exact ⟨0, rfl⟩
  · exact ⟨x.state, rfl⟩

/-- A ring whose next completion has been posted. -/
def Ring.posted (x : Ring) : Ring :=
  { x.setSlot x.post { x.slot x.post with st := 4 } with
    post := (x.post + 1) % x.size
    phase := if x.post + 1 = x.size then !x.phase else x.phase }

/-- The state with the bytes of a ring's next completion in host memory. -/
def State.writesCq (s : State) (x : Ring) : State :=
  { s with host := { s.host with mem := mwrite 0 s.host.mem (x.cq + 32 * x.post) (cqBytes x.post (x.slot x.post) x.phase) } }

theorem exec_completionPost {s : State} {r : BitVec 6} (hrun : s.ringsRun r.toNat = true) (hst : (s.ring r.toNat).state ≠ 0)
    (hy : ((s.ring r.toNat).slot (s.ring r.toNat).post).st = 3) :
    exec (.completionPost r) s = .next (if bit (fieldAt ((s.ring r.toNat).slot (s.ring r.toNat).post).desc 1 1) 1 = true
      then ((s.writesCq (s.ring r.toNat)).setRing r.toNat (s.ring r.toNat).posted.settle).sendVector (s.ring r.toNat).vector
      else (s.writesCq (s.ring r.toNat)).setRing r.toNat (s.ring r.toNat).posted.settle) := by
  simp only [exec, execCompletionPost]
  rw [if_neg (by simp [hrun, hst, hy])]
  rfl

theorem Ring.posted_settles (x : Ring) : x.posted.settle.post = (x.post + 1) % x.size ∧
    x.posted.settle.phase = (if x.post + 1 = x.size then !x.phase else x.phase) ∧
    ∀ j, x.posted.settle.slot j = if j = x.post then { x.slot x.post with st := 4 } else x.slot j := by
  have hslot := x.slot_setSlot x.post { x.slot x.post with st := 4 }
  obtain ⟨n, hn⟩ := x.posted.settle_slots
  rw [hn]
  exact ⟨rfl, rfl, hslot⟩

/-- A completion posted: its bytes in host memory, and the ring's next place. -/
theorem State.posted_effect (s : State) (r : Nat) (x : Ring) : ∃ h, (s.writesCq x).setRing r x.posted.settle = { s with host := h } ∧
    (∀ q, State.ring { s with host := h } q = if q = r then x.posted.settle else s.ring q) ∧
    mread 0 h.mem (x.cq + 32 * x.post) 32 = cqBytes x.post (x.slot x.post) x.phase ∧
    (∀ a, a < x.cq + 32 * x.post ∨ x.cq + 32 * x.post + 32 ≤ a → mget 0 h.mem a = mget 0 s.host.mem a) ∧
    h.msixSent = s.host.msixSent ∧ h.msix = s.host.msix := by
  have hread := mread_mwrite 0 s.host.mem (x.cq + 32 * x.post) (cqBytes x.post (x.slot x.post) x.phase)
  have hout := mget_mwrite_outside 0 s.host.mem (x.cq + 32 * x.post) (cqBytes x.post (x.slot x.post) x.phase)
  rw [cqBytes_length] at hread hout
  exact ⟨_, rfl, fun q => tget_tset _ _ _ _ _, hread, hout, rfl, rfl⟩

theorem State.sendVector_sent {s : State} {v : Nat} (h : wfld (s.host.msix (2 * v + 1)) 32 1 = 0) :
    (s.sendVector v).host.msixSent = v :: s.host.msixSent := by
  unfold State.sendVector
  rw [if_neg (by rw [h]; decide)]

theorem exec_completionPost_host {s : State} {r : BitVec 6} (hrun : s.ringsRun r.toNat = true) (hst : (s.ring r.toNat).state ≠ 0)
    (hy : ((s.ring r.toNat).slot (s.ring r.toNat).post).st = 3) : ∃ h, exec (.completionPost r) s = .next { s with host := h } ∧
      (bit (fieldAt ((s.ring r.toNat).slot (s.ring r.toNat).post).desc 1 1) 1 = true →
        wfld (s.host.msix (2 * (s.ring r.toNat).vector + 1)) 32 1 = 0 → h.msixSent = (s.ring r.toNat).vector :: s.host.msixSent) ∧
      (∀ q, State.ring { s with host := h } q = if q = r.toNat then (s.ring r.toNat).posted.settle else s.ring q) ∧
      mread 0 h.mem ((s.ring r.toNat).cq + 32 * (s.ring r.toNat).post) 32 =
        cqBytes (s.ring r.toNat).post ((s.ring r.toNat).slot (s.ring r.toNat).post) (s.ring r.toNat).phase ∧
      ∀ a, a < (s.ring r.toNat).cq + 32 * (s.ring r.toNat).post ∨ (s.ring r.toNat).cq + 32 * (s.ring r.toNat).post + 32 ≤ a →
        mget 0 h.mem a = mget 0 s.host.mem a := by
  obtain ⟨h, he, hring, hread, hout, hsent, hmsix⟩ := s.posted_effect r.toNat (s.ring r.toNat)
  have hexec := exec_completionPost hrun hst hy
  rw [he] at hexec
  by_cases hirq : bit (fieldAt ((s.ring r.toNat).slot (s.ring r.toNat).post).desc 1 1) 1 = true
  · rw [if_pos hirq] at hexec
    obtain ⟨p, q, hv⟩ := State.sendVector_eq { s with host := h } (s.ring r.toNat).vector
    refine ⟨_, hexec.trans (congrArg _ hv), fun _ hmask => ?_, hring, hread, hout⟩
    have hs := State.sendVector_sent (s := { s with host := h }) (v := (s.ring r.toNat).vector) (by
      rw [show State.host { s with host := h } = h from rfl, hmsix]
      exact hmask)
    rw [hv] at hs
    exact hs.trans (congrArg _ hsent)
  · rw [if_neg hirq] at hexec
    exact ⟨h, hexec, fun hb => absurd hb hirq, hring, hread, hout⟩

/-- Settles O35: a fetch fills its slots, a failed one is told when its channel halts, a start and a post change one slot. -/
theorem descriptorsStartAndCompleteInRingOrder : Obligations.DescriptorsStartAndCompleteInRingOrder := by
  refine ⟨fun s r => ⟨fun hrun hst hn hch he => ⟨?_, fun cause h2 h5 hf => ?_⟩,
    fun ch good f a hlt hrun he hhead ha hf hr hsrc hg hst hpend => ?_,
    fun hready hg hst hy hnew hb => ⟨fun hf hbusy => exec_descriptorStart_waits hf hbusy, fun hgo => ?_⟩⟩,
    fun s src h => ?_, fun s r hrun => fun hst hy => ?_⟩
  · obtain ⟨h, z, hexec, hr, hmem, hfetch, hslots⟩ := exec_descriptorFetch hrun hst hn hch he
    have hring : ∀ q, State.ring { s with host := h } q = if q = r.toNat then z else s.ring q := fun q => by
      unfold State.ring
      rw [hr]
      exact tget_tset _ _ _ _ _
    refine ⟨{ s with host := h }, hexec, rfl, ?_⟩
    rw [hring, if_pos rfl]
    exact ⟨hfetch, hslots, fun q hq => by rw [hring, if_neg hq], hmem⟩
  · have hc : cause.toNat ≠ 0 := by omega
    have hhub : hubOf (28 + r.toNat / 16) = 0 := if_pos (by omega)
    obtain ⟨hstate, hrings, hcur⟩ := s.failRead_effect (ch := 28 + r.toNat / 16) hc ((s.ring r.toNat).fetchXfer r.toNat)
    exact ⟨_, _, exec_descriptorFetch_fails hrun hst hn hch he h2 h5 hf, hhub ▸ hstate, State.ring_congr hrings, hcur, rfl, rfl⟩
  · have hhub : hubOf ch.toNat = 0 := if_pos hlt
    obtain ⟨rest, hlog⟩ : ∃ rest, (s.engine (hubOf ch.toNat)).log = a :: rest := by
      rw [hhub]
      exact List.head?_eq_some_iff.mp hhead
    obtain ⟨u, cause, addr, replayed, more, hexec, hrings, hbrw⟩ :=
      exec_isolationAccess_halts (ch := ch) hrun (by rw [hhub]; exact he) hlog ha hg
    have hring := State.ring_congr hrings r.toNat
    have hun := State.haltChan_unread (s := u) (ch := ch.toNat) ((congrArg Chan.cur (State.chan_congr hbrw _)).trans hf) hr hsrc
      (by rw [hring]; exact hst) cause addr
    rw [hring] at hun
    obtain ⟨hself, hidle⟩ := u.haltChan_self ch.toNat cause addr
    obtain ⟨h1, h2, h3⟩ := hun.of_ring (State.ring_congr (State.endIncident_keeps_requests _ _ _ _ _) r.toNat)
    obtain ⟨-, -, hkeep⟩ := (u.haltChan ch.toNat cause addr).endIncident_engine (hubOf ch.toNat) false replayed more
    refine ⟨_, hexec, h1, ?_, h2, h3⟩
    rw [hkeep ch.toNat hidle, hself]
    rfl
  · obtain ⟨h, z, hexec, hstart, hring, hslot⟩ := exec_descriptorStart_ring hready hg hst hy hnew hgo hb
    refine ⟨{ s with host := h }, hexec, rfl, ?_⟩
    rw [hring, if_pos rfl]
    refine ⟨hstart, fun q hq => by rw [hring, if_neg hq], fun j hj => (hslot j).trans (if_neg hj), ?_⟩
    exact ((hslot _).trans (if_pos rfl)).trans (Ring.rejects_slot _ _ _)
  · have hask : s.asked src = true := by
      simp only [State.descriptor, Bool.and_eq_true] at h
      exact h.1.1.2
    obtain ⟨k, hk, -⟩ := s.complete_host src 0 0 0
    exact ⟨_, if_pos h, by rw [hk], State.complete_done hask 0 0 0⟩
  · obtain ⟨h, hexec, hirq, hring, hread, hout⟩ := exec_completionPost_host hrun hst hy
    obtain ⟨hpost, hphase, hslot⟩ := (s.ring r.toNat).posted_settles
    refine ⟨{ s with host := h }, hexec, rfl, ?_⟩
    rw [hring, if_pos rfl]
    exact ⟨(hslot _).trans (if_pos rfl), fun j hj => (hslot j).trans (if_neg hj), hpost, hphase, hread, hout, hirq,
      fun q hq => by rw [hring, if_neg hq]⟩

end Sys2Proof.Machine
end

section
/-! PROOFS. Which physical bed a logical number names (R183, R378): what an entry of a table with rising keys says of the map, and
which operations leave it. -/

namespace Sys2Proof.Machine

/-! ## The first entry with a property -/

/-- In a table with rising keys the first entry with a property has the least key whose value has it. -/
theorem find_rising {α : Type} (d : Nat → α) {P : α → Bool} (hd : ∀ k, P (d k) = false) {t : Tbl α} (hr : Rising t) (k : Nat) :
    (t.find? fun e => P e.2).map (·.1) = some k ↔ P (tget d t k) = true ∧ ∀ j, j < k → P (tget d t j) = false := by
  induction t with
  | nil => simp [tget, hd]
  | cons e t ih =>
    obtain ⟨i, v⟩ := e
    obtain ⟨hne, ht⟩ := rising_of_cons hr
    have hlt : ∀ x ∈ t, i < x.1 := fun x hx => by
      have h := rising_iff.mp hr
      exact (List.pairwise_cons.mp h).1 x hx
    have hbelow : ∀ j, j ≤ i → tget d t j = d j := fun j hj => tget_of_notMem d fun x hx => by
      have := hlt x hx
      omega
    simp only [tget_cons]
    cases hv : P v with
    | true =>
      simp only [List.find?_cons_of_pos (p := fun e : Nat × α => P e.2) (a := (i, v)) hv, Option.map_some, Option.some.injEq]
      constructor
      · rintro rfl
        refine ⟨by rw [if_pos rfl]; exact hv, fun j hj => ?_⟩
        rw [if_neg (by omega), hbelow j (by omega), hd]
      · rintro ⟨hk, hmin⟩
        rcases Nat.lt_trichotomy i k with h | h | h
        · have := hmin i h
          rw [if_pos rfl, hv] at this
          cases this
        · exact h
        · rw [if_neg (by omega), hbelow k (by omega), hd] at hk
          cases hk
    | false =>
      rw [List.find?_cons_of_neg (p := fun e : Nat × α => P e.2) (a := (i, v)) (by simp [hv]), ih ht]
      constructor
      · rintro ⟨hk, hmin⟩
        have hik : i ≠ k := by
          rintro rfl
          rw [hbelow i (by omega), hd] at hk
          cases hk
        refine ⟨by rw [if_neg hik]; exact hk, fun j hj => ?_⟩
        split
        · exact hv
        · exact hmin j hj
      · rintro ⟨hk, hmin⟩
        have hik : i ≠ k := by
          rintro rfl
          rw [if_pos rfl, hv] at hk
          cases hk
        rw [if_neg hik] at hk
        refine ⟨hk, fun j hj => ?_⟩
        by_cases hij : i = j
        · rw [← hij, hbelow i (by omega), hd]
        · have := hmin j hj
          rwa [if_neg hij] at this

/-- A logical number names the first bed in order that holds it. -/
theorem State.physOf_eq_some {s : State} (hr : Rising s.beds) (l p : Nat) : s.physOf l = some p ↔
    ((s.bed p).mapped = true ∧ (s.bed p).logical = l) ∧ ∀ q, q < p → ¬((s.bed q).mapped = true ∧ (s.bed q).logical = l) := by
  have h := find_rising (fun _ => ({} : Bed)) (P := fun b : Bed => b.mapped && b.logical == l) (fun _ => rfl) hr p
  refine h.trans ?_
  simp [State.bed]

/-! ## States with the same map -/

/-- Two states whose beds hold the same logical numbers, their tables in order. -/
structure SameMap (s t : State) : Prop where
  rising : Rising t.beds
  place : ∀ q, (t.bed q).mapped = (s.bed q).mapped ∧ (t.bed q).logical = (s.bed q).logical

section
variable {s t u : State}

theorem SameMap.refl (h : Rising s.beds) : SameMap s s := ⟨h, fun _ => ⟨rfl, rfl⟩⟩

theorem SameMap.physOf (h : SameMap s t) (hr : Rising s.beds) (l : Nat) : t.physOf l = s.physOf l := by
  refine Option.ext fun p => ?_
  rw [State.physOf_eq_some h.rising, State.physOf_eq_some hr]
  simp only [(h.place _).1, (h.place _).2]

theorem SameMap.setBed (h : SameMap s t) (p : Nat) {b : Bed} (hm : b.mapped = (t.bed p).mapped) (hl : b.logical = (t.bed p).logical) :
    SameMap s (t.setBed p b) := by
  refine ⟨rising_tset (d := fun _ => ({} : Bed)) h.rising, fun q => ?_⟩
  rw [State.bed_setBed]
  split
  next hq => rw [hq, hm, hl]; exact h.place p
  next => exact h.place q

end

/-! ## Writes -/

theorem Bed.mend_frame (ws : List BW) (masked : Bool) (index : Nat) (x : Bed × List BOut) (e : Nat × Nat) :
    ∃ c r, (Bed.mend ws masked index x e).1 = { x.1 with ecc := c, regs := r } := by
  unfold Bed.mend
  split
  · exact ⟨_, x.1.regs, rfl⟩
  · split
    · split
      · obtain ⟨r, h⟩ := x.1.uncorrect_regs e.1 false index
        exact ⟨x.1.ecc, r, h⟩
      · exact ⟨x.1.ecc, x.1.regs, rfl⟩
    · split
      · obtain ⟨r, h⟩ := x.1.correct_regs e.1 (e.2 - 1)
        exact ⟨_, r, by rw [h]; rfl⟩
      · exact ⟨x.1.ecc, x.1.regs, rfl⟩

/-- A write changes a bed's memory, its error state and registers, and the line under the scrubber at most. -/
theorem Bed.put_frame (b : Bed) (index : Nat) (ws : List BW) (masked : Bool) :
    ∃ m g c r, (b.put index ws masked).1 = { b with mem := m, scrubPending := g, ecc := c, regs := r } := by
  unfold Bed.put
  extract_lets hit bad x ws' _
  obtain ⟨c, r, h⟩ : ∃ c r, x.1 = { b with ecc := c, regs := r } := by
    refine List.foldlRecOn (motive := fun y : Bed × List BOut => ∃ c r, y.1 = { b with ecc := c, regs := r }) _ _ ⟨b.ecc, b.regs, rfl⟩ ?_
    rintro y ⟨c, r, hy⟩ e -
    obtain ⟨c', r', he⟩ := Bed.mend_frame ws masked index y e
    exact ⟨c', r', by rw [he, hy]⟩
  exact ⟨ws'.foldl applyBW x.1.mem, x.1.scrubPending.filter fun l => !bwLine ws l, c, r,
    congrArg (fun y : Bed => { y with mem := ws'.foldl applyBW x.1.mem, scrubPending := x.1.scrubPending.filter fun l => !bwLine ws l }) h⟩

end Sys2Proof.Machine
end

section
/-! PROOFS. Images loaded (R183, R184, R191, R372): O37. -/

namespace Sys2Proof.Machine

/-! ## Requests that complete -/

/-- A request done by a state that the host sees as the one that asked. -/
theorem State.complete_done_of_host {s t : State} {src : Src} (h : s.asked src = true) (hh : t.host = s.host) (hc : t.clk = s.clk)
    (status code result : Nat) : Done s (t.complete src status code result) src status code result :=
  done_congr (congrArg (·.rings) hh) (congrArg (·.mbReq) hh) hc
    (State.complete_done ((State.asked_congr (congrArg (·.rings) hh) (congrArg (·.mbReq) hh) src).trans h) _ _ _)

theorem State.asked_of_descriptor {s : State} {src : Src} {n : Nat} (h : s.descriptor src n = true) : s.asked src = true := by
  simp only [State.descriptor, Bool.and_eq_true] at h
  exact h.1.1.2

/-- A request that completes at once, and nothing else. -/
theorem State.completes {s : State} {i : Instr} {src : Src} (h : s.asked src = true) {status code result : Nat}
    (he : exec i s = .next (s.complete src status code result)) :
    ∃ t, exec i s = .next t ∧ t = { s with host := t.host } ∧ Done s t src status code result := by
  obtain ⟨x, hx, -⟩ := s.complete_host src status code result
  exact ⟨_, he, by rw [hx], State.complete_done h _ _ _⟩

/-! ## A load that is asked for -/

theorem State.failRead_rest (s : State) {ch cause : Nat} (hc : cause ≠ 0) (t : Xfer) :
    (s.failRead ch cause t).plots = s.plots ∧ (s.failRead ch cause t).beds = s.beds := by
  have hhold : ∀ (u : State) h, (u.holdChans h true).plots = u.plots ∧ (u.holdChans h true).beds = u.beds := fun u h => by
    rw [State.holdChans_held]
    exact ⟨rfl, rfl⟩
  have hinc : ∀ (u : State) h, (u.incident h cause).plots = u.plots ∧ (u.incident h cause).beds = u.beds := fun u h => by
    unfold State.incident
    extract_lets e s1 s2
    obtain ⟨r, h2⟩ : ∃ r, s2 = { s1 with regs := r } := s1.latchReg_regs _ _
    clear_value s2
    obtain ⟨g, x, hx⟩ := s2.report_frame (unitId 2 h) (unitId 0xE h) 0x86 cause
    rw [hx, h2]
    exact ⟨rfl, rfl⟩
  have hbus : ∀ u : State, (u.busError ch cause).plots = u.plots ∧ (u.busError ch cause).beds = u.beds := fun u => by
    unfold State.busError
    simp only [if_neg hc]
    split
    · exact ⟨rfl, rfl⟩
    · rw [(hhold _ _).1, (hhold _ _).2]
      split
      · exact hinc u _
      · exact ⟨rfl, rfl⟩
  unfold State.failRead
  rw [(hbus _).1, (hbus _).2]
  generalize ({ s.chan ch with state := 1, cur := some { t with started := true, probe := true }, buffers := 1 } : Chan) = k
  rcases (s.setChan ch k).logged_eq ch with h | ⟨log, h⟩
  · rw [h]
    exact ⟨rfl, rfl⟩
  · rw [h]
    exact ⟨rfl, rfl⟩

theorem not_any_of_forall {s : State} {src : Src} (h : ∀ e ∈ s.plots, e.2.loadSrc ≠ some src) :
    ¬(s.plots.any fun e => e.2.loadSrc == some src) = true := by
  rw [List.any_eq_true]
  rintro ⟨e, he, hs⟩
  exact h e he (beq_iff_eq.mp hs)

section
variable {s : State} {src : Src} {dir : List ListDir} {tds : List (BitVec 256)} (hd : s.descriptor src 1 = true) (hrun : s.running = true)
  (hnew : ∀ e ∈ s.plots, e.2.loadSrc ≠ some src)
include hd hrun hnew

theorem exec_load_malformed (h : fieldAt (s.request src) 8 8 % 64 ≠ 0 ∨ fieldAt (s.request src) 16 4 % 64 ≠ 0 ∨ fieldAt (s.request src) 16 4 = 0) :
    exec (.load src none dir tds) s = .next (s.complete src 1 0x01 0) := by
  simp only [exec, execLoad]
  rw [if_pos ⟨hd, hrun⟩, if_neg (not_any_of_forall hnew)]
  exact if_pos h

variable (ha : fieldAt (s.request src) 8 8 % 64 = 0) (hn : fieldAt (s.request src) 16 4 % 64 = 0) (h0 : fieldAt (s.request src) 16 4 ≠ 0)
  (hch : (s.chan (28 + src.idx.toNat / 16)).state ≠ 3) (he : (s.engine 0).state = 0)
  (hcur : ((s.chan (28 + src.idx.toNat / 16)).cur.getD {}).src ≠ some src)
include ha hn h0 hch he hcur

theorem exec_load_fails {cause : BitVec 3} (h2 : 2 ≤ cause.toNat) (h5 : cause.toNat ≤ 5) (hf : s.readFree (28 + src.idx.toNat / 16) = true) :
    exec (.load src (some cause) dir tds) s =
      .next (s.failRead (28 + src.idx.toNat / 16) cause.toNat { desc := readDesc (fieldAt (s.request src) 8 8) 64, src := some src }) := by
  have hhub : hubOf (28 + src.idx.toNat / 16) = 0 := if_pos (by omega)
  simp only [exec, execLoad]
  rw [if_pos ⟨hd, hrun⟩, if_neg (not_any_of_forall hnew), if_neg (by omega), if_neg hch, if_neg (by rw [hhub]; simp [he, hcur])]
  exact if_pos ⟨h2, h5, hf⟩

theorem exec_load_refused {f : Fail} (hf : s.loadFail (s.imageOf src) dir tds = some f) : exec (.load src none dir tds) s =
    .next (s.complete src 1 0x07 (reportWord f.code f.holder f.kind f.index f.bed)) := by
  have hhub : hubOf (28 + src.idx.toNat / 16) = 0 := if_pos (by omega)
  simp only [exec, execLoad, hf]
  rw [if_pos ⟨hd, hrun⟩, if_neg (not_any_of_forall hnew), if_neg (by omega), if_neg hch]
  exact if_neg (by rw [hhub]; simp [he, hcur])

theorem exec_load_accepted (hf : s.loadFail (s.imageOf src) dir tds = none) : exec (.load src none dir tds) s =
    .next (s.startLoad src (programOf (s.imageOf src) dir tds)) := by
  have hhub : hubOf (28 + src.idx.toNat / 16) = 0 := if_pos (by omega)
  simp only [exec, execLoad, hf]
  rw [if_pos ⟨hd, hrun⟩, if_neg (not_any_of_forall hnew), if_neg (by omega), if_neg hch]
  exact if_neg (by rw [hhub]; simp [he, hcur])

end

/-! ## A load that ends -/

theorem Bed.load_place (b : Bed) (p : Nat) (g : Program) (list : Nat) :
    (b.load p g list).mapped = b.mapped ∧ (b.load p g list).logical = b.logical := ⟨rfl, rfl⟩

theorem Bed.putBytes_place (b : Bed) (index addr : Nat) (bs : List Byte) :
    (b.putBytes index addr bs).1.mapped = b.mapped ∧ (b.putBytes index addr bs).1.logical = b.logical := by
  obtain ⟨m, g, c, r, h⟩ := b.put_frame index [{ addr, bytes := bs }] false
  rw [show (b.putBytes index addr bs).1 = _ from h]
  exact ⟨rfl, rfl⟩

/-- A step that rewrites the bed that a logical number names, if it names one. -/
def State.onLogical (s : State) (l : Nat) (f : Bed → Bed) : State :=
  match s.physOf l with
  | some b => s.setBed b (f (s.bed b))
  | none => s

section
variable {s t : State} {l : Nat} {f : Bed → Bed}

theorem State.onLogical_beds (s : State) (l : Nat) (f : Bed → Bed) : ∃ x, s.onLogical l f = { s with beds := x } := by
  unfold State.onLogical
  split
  · exact ⟨_, rfl⟩
  · exact ⟨s.beds, rfl⟩

theorem SameMap.onLogical (h : SameMap s t) (hf : ∀ b, (f b).mapped = b.mapped ∧ (f b).logical = b.logical) :
    SameMap s (t.onLogical l f) := by
  unfold State.onLogical
  split
  · exact h.setBed _ (hf _).1 (hf _).2
  · exact h

theorem State.onLogical_self {b : Nat} (h : s.physOf l = some b) : (s.onLogical l f).bed b = f (s.bed b) := by
  unfold State.onLogical
  simp only [h, State.bed_setBed, if_true]

theorem State.onLogical_other {b : Nat} (h : s.physOf l ≠ some b) : (s.onLogical l f).bed b = s.bed b := by
  unfold State.onLogical
  split
  next q hq => rw [State.bed_setBed, if_neg fun hb => h (by rw [hq, hb])]
  next => rfl

end

/-- The beds of a map loaded, each with its list. -/
def State.loadBeds (s : State) (p : Nat) (g : Program) (es : List (Nat × Nat)) : State :=
  es.foldl (fun (s : State) e => s.onLogical e.1 fun b => b.load p g e.2) s

theorem State.loadBeds_beds (s : State) (p : Nat) (g : Program) (es : List (Nat × Nat)) : ∃ x, s.loadBeds p g es = { s with beds := x } := by
  refine List.foldlRecOn (motive := fun t : State => ∃ x, t = { s with beds := x }) _ _ ⟨s.beds, rfl⟩ ?_
  rintro _ ⟨x, rfl⟩ e -
  obtain ⟨y, hy⟩ := State.onLogical_beds { s with beds := x } e.1 fun b => b.load p g e.2
  exact ⟨y, hy⟩

theorem SameMap.loadBeds {s t : State} (h : SameMap s t) (p : Nat) (g : Program) (es : List (Nat × Nat)) : SameMap s (t.loadBeds p g es) :=
  List.foldlRecOn (motive := fun u : State => SameMap s u) _ _ h fun _ hu _ _ => hu.onLogical fun _ => Bed.load_place _ _ _ _

/-- A bed that no entry names keeps what it holds. -/
theorem State.loadBeds_other {s t : State} (hr : Rising s.beds) (h : SameMap s t) (p : Nat) (g : Program) {es : List (Nat × Nat)} {b : Nat}
    (hno : ∀ e ∈ es, s.physOf e.1 ≠ some b) : (t.loadBeds p g es).bed b = t.bed b := by
  induction es generalizing t with
  | nil => rfl
  | cons e es ih =>
    refine (ih (h.onLogical fun _ => Bed.load_place _ p g e.2) fun x hx => hno x (List.mem_cons_of_mem _ hx)).trans ?_
    exact State.onLogical_other (by rw [h.physOf hr]; exact hno e List.mem_cons_self)

/-- The bed that one entry names holds that entry's list. -/
theorem State.loadBeds_self {s t : State} (hr : Rising s.beds) (h : SameMap s t) (p : Nat) (g : Program) {es : List (Nat × Nat)}
    {e : Nat × Nat} (he : e ∈ es) (hone : (es.filter fun y => y.1 == e.1) = [e]) {b : Nat} (hb : s.physOf e.1 = some b) :
    (t.loadBeds p g es).bed b = (t.bed b).load p g e.2 := by
  have hname : ∀ y : Nat × Nat, y.1 ≠ e.1 → s.physOf y.1 ≠ some b := fun y hy hyb => by
    have h1 := ((State.physOf_eq_some hr _ _).mp hb).1.2
    have h2 := ((State.physOf_eq_some hr _ _).mp hyb).1.2
    exact hy (h2.symm.trans h1)
  induction es generalizing t with
  | nil => cases he
  | cons y es ih =>
    have hmap : SameMap s (t.onLogical y.1 fun b => b.load p g y.2) := h.onLogical fun _ => Bed.load_place _ p g y.2
    by_cases hy : y.1 = e.1
    · rw [List.filter_cons_of_pos (by simp [hy])] at hone
      obtain ⟨hye, hnil⟩ := List.cons.inj hone
      subst hye
      refine (State.loadBeds_other hr hmap p g fun x hx => hname x fun hxe => ?_).trans
        (State.onLogical_self (by rw [h.physOf hr]; exact hb))
      exact absurd (hnil ▸ List.mem_filter.mpr ⟨hx, by simp [hxe]⟩) List.not_mem_nil
    · rw [List.filter_cons_of_neg (by simp [hy])] at hone
      have hmem : e ∈ es := (List.mem_cons.mp he).resolve_left fun hey => hy (by rw [hey])
      refine (ih hmap hmem hone).trans ?_
      rw [State.onLogical_other (by rw [h.physOf hr]; exact hname y hy)]

theorem State.writeImages_eq (s : State) (g : Program) (sec : List Byte) : s.writeImages g sec = (enumFrom 0 (imageTensors g)).foldl
    (fun (s : State) e => s.onLogical (g.tensors.getD e.2 {}).bed fun b =>
      (b.putBytes 0 (g.tensors.getD e.2 {}).base (entryAt sec 32768 e.1)).1) s := rfl

theorem State.writeImages_map {s t : State} (h : SameMap s t) (g : Program) (sec : List Byte) : SameMap s (t.writeImages g sec) ∧
    ∃ x, t.writeImages g sec = { t with beds := x } := by
  rw [State.writeImages_eq]
  refine List.foldlRecOn (motive := fun u : State => SameMap s u ∧ ∃ x, u = { t with beds := x }) _ _ ⟨h, t.beds, rfl⟩ ?_
  rintro u ⟨hu, x, hx⟩ e -
  obtain ⟨y, hy⟩ := u.onLogical_beds (g.tensors.getD e.2 {}).bed fun b => (b.putBytes 0 (g.tensors.getD e.2 {}).base (entryAt sec 32768 e.1)).1
  exact ⟨hu.onLogical fun b => Bed.putBytes_place b _ _ _, y, by rw [hy, hx]⟩

theorem State.writeImages_none (s : State) {g : Program} (h : imageTensors g = []) (sec : List Byte) : s.writeImages g sec = s := by
  unfold State.writeImages
  rw [h]
  rfl

theorem State.clearChannels_regs (s : State) (g : Program) : ∃ r, s.clearChannels g = { s with regs := r } := by
  unfold State.clearChannels
  refine List.foldlRecOn (motive := fun t : State => ∃ r, t = { s with regs := r }) _ _ ⟨s.regs, rfl⟩ ?_
  rintro _ ⟨r, rfl⟩ c -
  refine List.foldlRecOn (motive := fun t : State => ∃ r, t = { s with regs := r }) _ _ ⟨r, rfl⟩ ?_
  rintro _ ⟨r', rfl⟩ ch -
  exact ⟨_, rfl⟩

theorem State.takeTrace_frame (s : State) (p : Nat) (g : Program) : ∃ d r, s.takeTrace p g = { s with dbg := d, regs := r } := by
  unfold State.takeTrace
  split
  · exact ⟨_, _, rfl⟩
  · exact ⟨s.dbg, s.regs, rfl⟩

/-- The state in which every bed of a plot's map has been written. -/
def State.loaded (s : State) (p : Nat) (src : Src) : State :=
  (s.writeImages (s.plot p).prog (secBytes (s.imageOf src) 5)).loadBeds p (s.plot p).prog (s.plot p).prog.beds

theorem State.finishLoad_eq (s : State) (p : Nat) (src : Src) : ∃ d r, s.finishLoad p src =
    ((State.setRunRec { s.loaded p src with dbg := d, regs := r } p {}).setPlot p { s.plot p with state := 2, loadSrc := none }).complete src 0 0
      (reportWord 0 p 0 0 0) := by
  obtain ⟨r, hr⟩ := (s.loaded p src).clearChannels_regs (s.plot p).prog
  obtain ⟨d, r', hd⟩ := ((s.loaded p src).clearChannels (s.plot p).prog).takeTrace_frame p (s.plot p).prog
  refine ⟨d, r', ?_⟩
  rw [show s.finishLoad p src = (((((s.loaded p src).clearChannels (s.plot p).prog).takeTrace p (s.plot p).prog).setRunRec p {}).setPlot p
    { s.plot p with state := 2, loadSrc := none }).complete src 0 0 (reportWord 0 p 0 0 0) from rfl, hd, hr]

theorem State.loaded_effect {s : State} (hr : Rising s.beds) (p : Nat) (src : Src) : (∃ x, s.loaded p src = { s with beds := x }) ∧
    ∀ e ∈ (s.plot p).prog.beds, ∀ b, ((s.plot p).prog.beds.filter fun y => y.1 == e.1) = [e] → s.physOf e.1 = some b →
      (s.loaded p src).bed b = ((s.writeImages (s.plot p).prog (secBytes (s.imageOf src) 5)).bed b).load p (s.plot p).prog e.2 := by
  obtain ⟨hmap, x, hx⟩ := State.writeImages_map (.refl hr) (s.plot p).prog (secBytes (s.imageOf src) 5)
  obtain ⟨y, hy⟩ := (s.writeImages (s.plot p).prog (secBytes (s.imageOf src) 5)).loadBeds_beds p (s.plot p).prog (s.plot p).prog.beds
  exact ⟨⟨y, hy.trans (by rw [hx])⟩, fun e he b hone hb => State.loadBeds_self hr hmap p _ he hone hb⟩

theorem State.finishLoad_effect {s : State} (hr : Rising s.beds) {p : Nat} {src : Src} (hask : s.asked src = true) :
    (∀ q, (s.finishLoad p src).plot q = if q = p then { s.plot p with state := 2, loadSrc := none } else s.plot q) ∧
    (s.finishLoad p src).runRec p = {} ∧
    (∀ e ∈ (s.plot p).prog.beds, ∀ b, ((s.plot p).prog.beds.filter fun y => y.1 == e.1) = [e] → s.physOf e.1 = some b →
      (s.finishLoad p src).bed b = ((s.writeImages (s.plot p).prog (secBytes (s.imageOf src) 5)).bed b).load p (s.plot p).prog e.2) ∧
    Done s (s.finishLoad p src) src 0 0 (reportWord 0 p 0 0 0) := by
  obtain ⟨d, r, he⟩ := s.finishLoad_eq p src
  obtain ⟨⟨y, hy⟩, hbeds⟩ := State.loaded_effect hr p src
  rw [hy] at he hbeds
  generalize hx : ({ s.plot p with state := 2, loadSrc := none } : Plot) = x at he
  obtain ⟨u, hplots, hrecs, hu, hhost, hclk, hf⟩ : ∃ u : State, u.plots = tset (fun _ => {}) s.plots p x ∧
      u.recs = tset (fun _ => {}) s.recs p {} ∧ u.beds = y ∧ u.host = s.host ∧ u.clk = s.clk ∧
      s.finishLoad p src = u.complete src 0 0 (reportWord 0 p 0 0 0) :=
    ⟨(State.setRunRec { s with beds := y, dbg := d, regs := r } p {}).setPlot p x, rfl, rfl, rfl, rfl, rfl, he⟩
  have hdone := State.complete_done_of_host hask hhost hclk 0 0 (reportWord 0 p 0 0 0)
  rw [hf]
  obtain ⟨z, hz, -⟩ := u.complete_host src 0 0 (reportWord 0 p 0 0 0)
  refine ⟨fun q => ?_, ?_, fun e hmem b hone hb => ?_, hdone⟩
  · rw [hz]
    unfold State.plot
    rw [show State.plots { u with host := z } = u.plots from rfl, hplots]
    exact tget_tset _ _ _ _ _
  · rw [hz]
    unfold State.runRec
    rw [show State.recs { u with host := z } = u.recs from rfl, hrecs]
    exact tget_tset_self (fun _ => ({} : Rec)) _ _ _
  · rw [hz]
    refine Eq.trans ?_ (hbeds e hmem b hone hb)
    exact congrArg (fun t : Tbl Bed => tget (fun _ => ({} : Bed)) t b) hu

section
variable {s : State} {p : BitVec 4} {src : Src} (hst : (s.plot p.toNat).state = 1) (hsrc : (s.plot p.toNat).loadSrc = some src)
  (hrun : s.running = true)
include hst hsrc hrun

theorem exec_loadComplete_refused {f : Fail} (h : firstFail ((s.serviceFails (s.plot p.toNat).prog).filter fun f => f.kind == 1) = some f) :
    exec (.loadComplete p) s = .next ((s.setPlot p.toNat { stopCode := (s.plot p.toNat).stopCode }).complete src 1 0x07
      (reportWord f.code f.holder f.kind f.index f.bed)) := by
  simp only [exec, execLoadComplete, hsrc, h]
  exact if_pos ⟨hst, hrun⟩

theorem exec_loadComplete (h : firstFail ((s.serviceFails (s.plot p.toNat).prog).filter fun f => f.kind == 1) = none) :
    exec (.loadComplete p) s = .next (s.finishLoad p.toNat src) := by
  simp only [exec, execLoadComplete, hsrc, h]
  exact if_pos ⟨hst, hrun⟩

end

/-- Settles O37: the checks decide whether a load takes its number, and the beds that the map names are written one by one, each
under its own logical number. -/
theorem loadsCheckThenWriteTheirBeds : Obligations.LoadsCheckThenWriteTheirBeds := by
  refine ⟨fun s src dir tds hd hrun hnew => ⟨fun h => ?_, fun ha hn h0 hch he hcur => ⟨fun cause h2 h5 hf => ?_, fun hf => ?_, fun f hf => ?_⟩⟩,
    fun s p src hst hsrc hrun hask htidy => ⟨fun f hf => ?_, fun hf => ?_⟩⟩
  · exact State.completes (State.asked_of_descriptor hd) (exec_load_malformed hd hrun hnew h)
  · have hc : cause.toNat ≠ 0 := by omega
    have hhub : hubOf (28 + src.idx.toNat / 16) = 0 := if_pos (by omega)
    obtain ⟨hstate, -, hcur'⟩ := s.failRead_effect (ch := 28 + src.idx.toNat / 16) hc
      { desc := readDesc (fieldAt (s.request src) 8 8) 64, src := some src }
    obtain ⟨hplots, hbeds⟩ := s.failRead_rest (ch := 28 + src.idx.toNat / 16) hc
      { desc := readDesc (fieldAt (s.request src) 8 8) 64, src := some src }
    exact ⟨_, _, exec_load_fails hd hrun hnew ha hn h0 hch he hcur h2 h5 hf, hhub ▸ hstate, hplots, hbeds, hcur', rfl⟩
  · exact exec_load_accepted hd hrun hnew ha hn h0 hch he hcur hf
  · exact State.completes (State.asked_of_descriptor hd) (exec_load_refused hd hrun hnew ha hn h0 hch he hcur hf)
  · obtain ⟨x, hx, -⟩ := (s.setPlot p.toNat { stopCode := (s.plot p.toNat).stopCode }).complete_host src 1 0x07
      (reportWord f.code f.holder f.kind f.index f.bed)
    refine ⟨_, exec_loadComplete_refused hst hsrc hrun hf, ?_, ?_,
      State.complete_done_of_host (t := s.setPlot p.toNat { stopCode := (s.plot p.toNat).stopCode }) hask rfl rfl _ _ _⟩
    · rw [hx]
      exact (State.plot_setPlot _ _ _ _).trans (if_pos rfl)
    · rw [hx]
      rfl
  · obtain ⟨hplot, hrec, hbeds, hdone⟩ := State.finishLoad_effect htidy.beds (p := p.toNat) hask
    refine ⟨_, exec_loadComplete hst hsrc hrun hf, (hplot _).trans (if_pos rfl), fun q hq => (hplot q).trans (if_neg hq), hrec, hdone,
      fun e hmem b hone hb => ?_⟩
    rw [hbeds e hmem b hone hb]
    refine ⟨rfl, rfl, rfl, rfl, rfl, fun himg => ?_⟩
    rw [s.writeImages_none himg]

end Sys2Proof.Machine
end

section
/-! PROOFS. Sowings (R193, R398): O38 refuted. -/

namespace Sys2Proof.Machine

/-- A record opened at a sowing holds no event: the plot's early events are cleared before the record takes them. -/
theorem State.sowPlot_events (s : State) (p : Nat) : ((s.sowPlot p).runRec p).events = [] := by
  have hopen : ∀ u : State, (u.plot p).early = [] → ((u.openRec p).runRec p).events = [] := fun u hu => by
    unfold State.openRec
    rw [State.runRec_setRunRec, if_pos rfl]
    simp only [hu, List.take_nil]
  have hbeds : ∀ (u : State) (f : Bed → Bed), (u.mapBeds p f).plots = u.plots := fun u f => foldl_same State.plots fun _ _ => rfl
  unfold State.sowPlot
  extract_lets x t s1 s2 r
  have h2 : (s2.runRec p).events = [] := hopen _ (by
    unfold State.plot
    rw [hbeds]
    exact congrArg Plot.early ((State.plot_setPlot s p p _).trans (if_pos rfl)))
  clear_value s2
  split
  · exact (congrArg Rec.events ((State.runRec_setRunRec s2 p p { s2.runRec p with stretched := true, stretches := 1 }).trans (if_pos rfl))).trans h2
  · exact h2

/-- An event that came before the sowing. -/
def earlyEvent : REvent := { kind := 2, bed := 0, index := 0, exec := 0, tick := 0, payload := [] }

/-- A loaded plot that is due, with an event that came before its sowing. -/
def earlyPlot : Plot := { state := 2, sowAt := some 0, early := [earlyEvent] }

/-- A module at a run's start, with power to spare and that plot. -/
def earlySown : State := { clk := { locked := true }, pwr := { cap := 1000000 }, plots := [(0, earlyPlot)] }

theorem earlySown_sowCode : earlySown.sowCode 0 0 = 0 := by decide +kernel

theorem exec_plotSow {s : State} {p : BitVec 4} {t : W64} (hat : (s.plot p.toNat).sowAt = some t) (hst : (s.plot p.toNat).state = 2)
    (hrun : s.running = true) (hlock : s.clk.locked = true) (hdue : t.toNat ≤ s.now) (hcode : s.sowCode p.toNat t.toNat = 0)
    (hmulti : (s.plot p.toNat).prog.multi = false) : exec (.plotSow p) s = .next (s.sowPlot p.toNat) := by
  simp only [exec, execPlotSow, hat, hmulti]
  rw [if_pos ⟨hst, hrun, hlock, hdue⟩]
  exact if_pos hcode

theorem exec_plotSow_earlySown : exec (.plotSow 0) earlySown = .next (earlySown.sowPlot 0) :=
  exec_plotSow (s := earlySown) (p := 0) (t := 0) rfl rfl rfl rfl (by decide) earlySown_sowCode rfl

/-- Refutes O38: a sowing clears the plot's early events before the record that it opens takes them, so a loaded plot with an
event that came before its sowing starts with an empty record. -/
theorem not_sowsAreAcceptedAndStartEveryBed : ¬ Obligations.SowsAreAcceptedAndStartEveryBed := by
  rintro ⟨-, h⟩
  obtain ⟨hsown, -⟩ := h earlySown 0 0 rfl rfl rfl rfl (by decide)
  obtain ⟨u, he, -, -, -, -, -, -, -, -, -, hevents, -⟩ := hsown earlySown_sowCode
  rw [exec_plotSow_earlySown] at he
  rw [← Host.Outcome.next.inj he] at hevents
  exact absurd (hevents.symm.trans (State.sowPlot_events earlySown 0)) (by decide)

end Sys2Proof.Machine
end

section
/-! PROOFS. Plots unloaded (R374): O39 refuted. -/

namespace Sys2Proof.Machine

/-- A byte on its way to physical bed 5. -/
def heldWord : Word := { segment := 0, bed := 5, addr := 0, bytes := [1], due := 0 }

/-- A bed that runs under no plot, and behind it in the table, under the same key, one that plot 0 holds. -/
def strayHeld : State where
  clk := { sundial := 8 }
  plots := [(0, { state := 1, unloadAt := some 0, words := [heldWord] })]
  beds := [(5, { seq := { state := 3 } }), (5, { job := some {} })]

theorem exec_unloadStop {s : State} {p : BitVec 4} {n : Nat} (hat : (s.plot p.toNat).unloadAt = some n) (hrun : s.running = true)
    (hdue : n + 8 ≤ s.now) :
    exec (.unloadStop p) s = .next (((s.stopPlot p.toNat 0x57 none).release p.toNat).answer 3 p.toNat 0 0 0) := by
  simp only [exec, execUnloadStop, hat]
  exact if_pos ⟨hrun, hdue⟩

/-- The word that lands is written into the bed of the first entry, which no plot holds. -/
theorem strayHeld_stays : ((((strayHeld.stopPlot 0 0x57 none).release 0).answer 3 0 0 0 0).bed 5).seq.state = 3 := by decide +kernel

/-- Refutes O39: without rising keys a plot's beds before its unload need not be those that are released. In `strayHeld` the word that
lands writes the bed of the first entry, the entry that named the plot is gone, and the bed keeps its sequencer's state. -/
theorem not_plotsCompleteAndUnload : ¬ Obligations.PlotsCompleteAndUnload := by
  rintro ⟨-, -, h⟩
  obtain ⟨t, he, -, hbeds⟩ := h strayHeld 0 0 rfl rfl (by decide)
  obtain ⟨-, hseq, -⟩ := hbeds 5 (by decide)
  rw [exec_unloadStop (s := strayHeld) (p := 0) (n := 0) rfl rfl (by decide)] at he
  rw [← Host.Outcome.next.inj he] at hseq
  exact absurd (strayHeld_stays.symm.trans hseq) (by decide)

end Sys2Proof.Machine
end

section
/-! PROOFS. Copies through firmware's channels and records copied out (R356, R357, R375): O40. -/

namespace Sys2Proof.Machine

/-! ## A copy handed to its channel -/

theorem State.begin_keeps_requests {s : State} {ch : Nat} {t : Xfer} (ht : (s.chan ch).cur = some t) (hp : t.plot = none) (good : Nat) :
    (s.begin ch good).requests = s.requests := by
  rw [State.begin_firmware_eq ht hp]
  exact (State.logged_keeps_requests _ _).trans (State.carry_keeps_requests _ _ _)

theorem State.waiter_of_requests {s t : State} (h : t.requests = s.requests) {src : Src} (hw : ∃ w ∈ s.host.waiters, w.src = src) :
    ∃ w ∈ t.host.waiters, w.src = src := by
  have hw' : t.host.waiters = s.host.waiters := congrArg (fun x : Tbl Ring × Tbl (List Byte) × List Waiter => x.2.2) h
  rw [hw']
  exact hw

/-- A copy that its channel takes: the next in turn, or begun if the channel and its engine are idle. -/
theorem State.giveCopy_effect {s : State} {src : Src} {ch : Nat} {x : Xfer} (hst : (s.chan ch).state ≠ 3) (hn : (s.chan ch).next = none)
    (hp : x.plot = none) (hs : x.started = false) (good : Nat) :
    (∃ w ∈ (s.giveCopy src ch good x).host.waiters, w.src = src) ∧
      (∀ y, (s.chan ch).cur = some y → (s.giveCopy src ch good x).chan ch = { s.chan ch with next := some x }) ∧
      ((s.chan ch).cur = none → ∃ y, ((s.giveCopy src ch good x).chan ch).cur = some y ∧ y.desc = x.desc ∧ y.src = x.src ∧ y.more = x.more ∧
        y.digestTo = x.digestTo ∧ (y.started = true ↔ (s.engine (hubOf ch)).state = 0)) ∧
      ∀ j, j ≠ ch → (s.giveCopy src ch good x).chan j = s.chan j := by
  have hon : OnChan ch ((s.chan ch).given x) s ((s.await 4 ch src 0).give ch x) :=
    .of_keep (show (s.await 4 ch src 0).brw = s.brw from rfl) ((s.await 4 ch src 0).give_onChan ch x)
  have hw : ∃ w ∈ ((s.await 4 ch src 0).give ch x).host.waiters, w.src = src := by
    obtain ⟨b, hb⟩ := (s.await 4 ch src 0).give_brw ch x
    rw [hb]
    exact ⟨⟨4, ch, src, 0⟩, List.mem_append_right _ (List.mem_singleton_self _), rfl⟩
  have heq : s.giveCopy src ch good x = if ((s.chan ch).cur.isNone && (s.engine (hubOf ch)).state == 0) = true
      then ((s.await 4 ch src 0).give ch x).begin ch good else (s.await 4 ch src 0).give ch x := if_neg hst
  rw [heq]
  generalize (s.await 4 ch src 0).give ch x = u at hon hw
  cases hcur : (s.chan ch).cur with
  | some y =>
    rw [if_neg (by simp)]
    refine ⟨hw, fun _ _ => ?_, nofun, hon.others⟩
    rw [hon.self, Chan.given_queued (by rw [hcur]; rfl) hn]
  | none =>
    have hself : (u.chan ch).cur = some x := by rw [hon.self, Chan.given_free hcur]
    by_cases he : (s.engine (hubOf ch)).state = 0
    · rw [if_pos (by simp [he])]
      obtain ⟨n, ps, k, hk, hothers, -, -, hcur', -⟩ := State.begin_firmware hself hp good
      refine ⟨State.waiter_of_requests (State.begin_keeps_requests hself hp good) hw, nofun, fun _ => ?_,
        fun j hj => (hothers j hj).trans (hon.others j hj)⟩
      rw [hk]
      exact ⟨_, hcur', rfl, rfl, rfl, rfl, fun _ => he, fun _ => rfl⟩
    · rw [if_neg (by simp [he])]
      exact ⟨hw, nofun, fun _ => ⟨x, hself, rfl, rfl, rfl, rfl, fun h => by simp [hs] at h, fun h => absurd h he⟩, hon.others⟩

/-- The transfer that a copy is made of. -/
def copyXfer (src : Src) (out : Bool) (q : CopyReq) : Xfer where
  desc := if out then copyDesc (if q.bed then 1 else 0) q.addr 2 q.host q.len q.dig q.engine
    else copyDesc 2 q.host (if q.bed then 1 else 0) q.addr q.len q.dig q.engine
  src := some src
  digestTo := if q.dig then some q.digTo else none
  more := q.len - min q.len pieceSize

theorem Bed.sendRead_firmware {b : Bed} (hc : Clean b) (index addr len : Nat) : b.sendRead false index addr len = (b, .ok (b.bytes addr len)) := by
  unfold Bed.sendRead
  rw [Bed.touch_clean _ _ _ hc]
  rfl

theorem State.physOf_of_copyCode {s : State} {out : Bool} {q : CopyReq} (h : s.copyCode out q = 0) (hb : q.bed = true) :
    ∃ p, s.physOf (bits q.addr 25 7) = some p := by
  cases hp : s.physOf (bits q.addr 25 7) with
  | some p => exact ⟨p, rfl⟩
  | none =>
    unfold State.copyCode at h
    simp only [hp, hb, Bool.not_true, Bool.false_eq_true, if_false] at h
    split at h
    · cases h
    · cases h

section
variable {s : State} {src : Src} {out : Bool} {f : CopyReq → Nat → State → State}

theorem State.startCopy_refused (h : s.copyCode out (copyReq (s.request src)) ≠ 0) :
    s.startCopy src out f = s.complete src 1 (s.copyCode out (copyReq (s.request src))) 0 := if_pos h

theorem State.startCopy_goes (h : s.copyCode out (copyReq (s.request src)) = 0) (hn : (s.chan (28 + src.idx.toNat / 16)).next = none)
    (hrun : s.running = true) (hc : (copyReq (s.request src)).dig = true → s.clash [engineClaim (copyReq (s.request src)).engine] = none) :
    ∃ c, s.startCopy src out f = f (copyReq (s.request src)) (28 + src.idx.toNat / 16) { s with fwClaims := c } := by
  have hgo : ¬((s.chan (28 + src.idx.toNat / 16)).next.isSome = true ∨ (!s.running) = true) := by simp [hn, hrun]
  unfold State.startCopy
  simp only [h, ne_eq, not_true_eq_false, if_false, if_neg hgo]
  split
  next hd =>
    rw [hc hd]
    exact ⟨_, rfl⟩
  next => exact ⟨s.fwClaims, rfl⟩

end

section
variable {s : State} {src : Src}

theorem exec_copyIn (good : Nat) (hd : s.descriptor src 4 = true) : ∃ f, exec (.copyIn src good) s = .next (s.startCopy src false f) ∧
    ∀ q ch u, f q ch u = u.giveCopy src ch good (copyXfer src false q) := ⟨_, if_pos hd, fun _ _ _ => rfl⟩

theorem exec_copyOut (hd : s.descriptor src 5 = true) : ∃ f, exec (.copyOut src) s = .next (s.startCopy src true f) ∧
    (∀ q ch u, q.bed = false → f q ch u = u.giveCopy src ch q.len (copyXfer src true q)) ∧
    ∀ q ch u p, q.bed = true → State.physOf u (bits q.addr 25 7) = some p → Clean (u.bed p) →
      f q ch u = (u.setBed p (u.bed p)).giveCopy src ch q.len (copyXfer src true q) := by
  refine ⟨_, if_pos hd, fun q ch u hb => if_neg (by rw [hb]; decide), fun q ch u p hb hp hc => (if_pos hb).trans ?_⟩
  simp only [hp, Bed.sendRead_firmware hc]
  rfl

/-- The command of a copy, in or out. -/
def copyCmd (src : Src) (good : Nat) (out : Bool) : Instr := if out then .copyOut src else .copyIn src good

variable {good : Nat} {out : Bool} (hd : s.descriptor src (if out then 5 else 4) = true)
include hd

theorem exec_copy_refused (h : s.copyCode out (copyReq (s.request src)) ≠ 0) :
    exec (copyCmd src good out) s = .next (s.complete src 1 (s.copyCode out (copyReq (s.request src))) 0) := by
  cases out with
  | true =>
    obtain ⟨f, he, -⟩ := exec_copyOut hd
    exact he.trans (congrArg _ (State.startCopy_refused h))
  | false =>
    obtain ⟨f, he, -⟩ := exec_copyIn good hd
    exact he.trans (congrArg _ (State.startCopy_refused h))

/-- A copy that its checks let pass is handed to its channel. -/
theorem exec_copy_goes (h : s.copyCode out (copyReq (s.request src)) = 0) (hn : (s.chan (28 + src.idx.toNat / 16)).next = none)
    (hrun : s.running = true) (hc : (copyReq (s.request src)).dig = true → s.clash [engineClaim (copyReq (s.request src)).engine] = none)
    (hclean : ∀ p, s.physOf (bits (copyReq (s.request src)).addr 25 7) = some p → Clean (s.bed p)) :
    ∃ u g, exec (copyCmd src good out) s = .next (State.giveCopy u src (28 + src.idx.toNat / 16) g (copyXfer src out (copyReq (s.request src)))) ∧
      u.brw = s.brw := by
  cases out with
  | false =>
    obtain ⟨f, he, hf⟩ := exec_copyIn good hd
    obtain ⟨c, hs⟩ := State.startCopy_goes (f := f) h hn hrun hc
    exact ⟨_, _, he.trans (congrArg _ (hs.trans (hf _ _ _))), rfl⟩
  | true =>
    obtain ⟨f, he, hddr, hbed⟩ := exec_copyOut hd
    obtain ⟨c, hs⟩ := State.startCopy_goes (f := f) h hn hrun hc
    cases hb : (copyReq (s.request src)).bed with
    | false => exact ⟨_, _, he.trans (congrArg _ (hs.trans (hddr _ _ _ hb))), rfl⟩
    | true =>
      obtain ⟨p, hp⟩ := State.physOf_of_copyCode h hb
      exact ⟨_, _, he.trans (congrArg _ (hs.trans (hbed _ _ _ p hb hp (hclean p hp)))), rfl⟩

end

/-! ## The end of a copy -/

theorem State.arriveCopy_noted (s : State) (bed addr len : Nat) (d : BitVec 256) : Noted s (s.arriveCopy bed addr len d) := by
  unfold State.arriveCopy
  refine List.foldlRecOn (motive := fun t : State => Noted s t) _ _ (.refl s) fun t ht e _ => ?_
  exact List.foldlRecOn (motive := fun u : State => Noted s u) _ _ ht fun u hu x _ => hu.trans (State.noteInput_noted u e.1 x.digestIdx bed 0 d)

/-- The digest of a copy written where it is asked for, its input noted, and its engine let go. -/
def State.copyDigested (s : State) (t : Xfer) : State :=
  let d := t.desc
  let b := sideB d
  let h := digest t.passed
  let s := match t.digestTo with
    | some x => s.placeBytes false 2 x (digestBytes h)
    | none => s
  let s := if dDigest d ∧ b.space = 1 then
      let first := bits (b.addr + (sideA d).len * (sideA d).lines) 0 25 - t.passed.length
      s.arriveCopy (bits b.addr 25 7) first t.passed.length h
    else s
  s.dropEngine t

theorem State.copyDigested_frame (s : State) (t : Xfer) : ∃ m x y c, s.copyDigested t =
    { s with host := { s.host with mem := m }, recs := x, plots := y, fwClaims := c } := by
  unfold State.copyDigested
  extract_lets d b h s1 first s2
  obtain ⟨m, h1⟩ : ∃ m, s1 = { s with host := { s.host with mem := m } } := by
    unfold s1
    cases t.digestTo with
    | none => exact ⟨s.host.mem, rfl⟩
    | some a => exact ⟨_, rfl⟩
  obtain ⟨x, y, h2⟩ : ∃ x y, s2 = { s1 with recs := x, plots := y } := by
    unfold s2
    split
    · exact (State.arriveCopy_noted _ _ _ _ _).eq
    · exact ⟨s1.recs, s1.plots, rfl⟩
  obtain ⟨c, h3⟩ : ∃ c, s2.dropEngine t = { s2 with fwClaims := c } := by
    unfold State.dropEngine
    split
    · exact ⟨_, rfl⟩
    · exact ⟨s2.fwClaims, rfl⟩
  exact ⟨m, x, y, c, by rw [h3, h2, h1]⟩

theorem State.finish_copy {s : State} {ch : Nat} {x : Xfer} {src : Src} (hx : (s.chan ch).cur = some x) (hp : x.plot = none)
    (hm : x.more = 0) (hs : x.src = some src) :
    s.finish ch = ((s.setChan ch ((s.chan ch).finished x.till)).copyDigested x).complete src 0 0 0 := by
  unfold State.finish
  simp only [hx, hp]
  unfold State.finishFw
  simp only [hm, Nat.lt_irrefl, if_false, hs]
  rfl

/-! ## Records -/

section
variable {s : State} {src : Src} (hd : s.descriptor src 7 = true)
include hd

theorem exec_record_malformed (h : fieldAt (s.request src) 16 8 % 64 ≠ 0 ∨ fieldAt (s.request src) 28 4 % 64 ≠ 0 ∨ fieldAt (s.request src) 28 4 = 0) :
    exec (.record src) s = .next (s.complete src 1 0x01 0) := by
  simp only [exec, execRecord]
  rw [if_pos hd]
  exact if_pos h

variable (ha : fieldAt (s.request src) 16 8 % 64 = 0) (hn : fieldAt (s.request src) 28 4 % 64 = 0) (h0 : fieldAt (s.request src) 28 4 ≠ 0)
include ha hn h0

theorem exec_record_none (h : 16 ≤ fieldAt (s.request src) 8 1 ∨ (s.runRec (fieldAt (s.request src) 8 1)).valid = false ∨
    (s.runRec (fieldAt (s.request src) 8 1)).isOpen = true) : exec (.record src) s = .next (s.complete src 1 0x06 0) := by
  simp only [exec, execRecord]
  rw [if_pos hd, if_neg (by omega)]
  exact if_pos (by simpa using h)

/-- The state with a record's bytes in the buffer that is given for them. -/
def State.recordOut (s : State) (a : Nat) (bytes : List Byte) : State := { s with host := { s.host with mem := mwrite 0 s.host.mem a bytes } }

theorem exec_record (hp : fieldAt (s.request src) 8 1 < 16) (hv : (s.runRec (fieldAt (s.request src) 8 1)).valid = true)
    (ho : (s.runRec (fieldAt (s.request src) 8 1)).isOpen = false) (hrun : s.running = true)
    (hch : (s.chan (28 + src.idx.toNat / 16)).state ≠ 3) (he : (s.engine 0).state = 0) :
    exec (.record src) s = .next ((s.recordOut (fieldAt (s.request src) 16 8) (((s.runRec (fieldAt (s.request src) 8 1)).bytes
      (fieldAt (s.request src) 8 1)).take (fieldAt (s.request src) 28 4))).complete src 0 0
        (((s.runRec (fieldAt (s.request src) 8 1)).bytes (fieldAt (s.request src) 8 1)).take (fieldAt (s.request src) 28 4)).length) := by
  have hhub : hubOf (28 + src.idx.toNat / 16) = 0 := if_pos (by omega)
  simp only [exec, execRecord]
  rw [if_pos hd, if_neg (by omega), if_neg (by simp [hv, ho]; omega), if_neg hch, if_neg (by rw [hhub]; simp [hrun, he])]
  rfl

end

/-- Settles O40: a copy is refused with its code or handed to its channel, whose transfer's end completes it; a record's bytes go
where they are asked for. -/
theorem copiesGoThroughFirmwareChannels : Obligations.CopiesGoThroughFirmwareChannels := by
  refine ⟨fun s src good out hd => ⟨fun h => ?_, fun h hn hrun hst hc hclean => ?_⟩,
    fun s ch x src hrun he hx hs hpos htill hp hsrc hm hask => ?_, fun s src hd => ⟨fun h => ?_, fun ha hn h0 h => ?_,
      fun ha hn h0 hp hv ho hrun hch he => ?_⟩⟩
  · exact State.completes (State.asked_of_descriptor hd) (exec_copy_refused (good := good) hd h)
  · obtain ⟨u, g, hexec, hu⟩ := exec_copy_goes (good := good) hd h hn hrun hc hclean
    have hchan := State.chan_congr hu
    have heng := State.engine_congr hu
    obtain ⟨hw, hqueued, hbegun, hothers⟩ := State.giveCopy_effect (s := u) (src := src) (ch := 28 + src.idx.toNat / 16)
      (x := copyXfer src out (copyReq (s.request src))) (by rw [hchan]; exact hst) (by rw [hchan]; exact hn) rfl rfl g
    rw [hchan] at hqueued hbegun
    rw [heng] at hbegun
    refine ⟨_, _, hexec, ?_, rfl, rfl, rfl, hw, hqueued, hbegun, fun j hj => (hothers j hj).trans (hchan j)⟩
    cases out <;> rfl
  · have hcount : x.pos = x.count := by
      unfold Xfer.count
      rw [hp]
      exact hpos
    have hexec := exec_barrowTransferComplete hx hrun he hs hcount htill
    rw [State.finish_copy hx hp hm hsrc] at hexec
    obtain ⟨m, a, b, c, hfr⟩ := (s.setChan ch.toNat ((s.chan ch.toNat).finished x.till)).copyDigested_frame x
    refine ⟨_, hexec, ?_, ?_⟩
    · rw [hfr]
      exact done_congr rfl rfl rfl (State.complete_done (s := { s.setChan ch.toNat ((s.chan ch.toNat).finished x.till) with
        host := { s.host with mem := m }, recs := a, plots := b, fwClaims := c }) hask 0 0 0)
    · refine (State.chan_congr (State.complete_brw _ _ _ _ _) _).trans ?_
      rw [hfr]
      exact (State.chan_setChan s ch.toNat ch.toNat _).trans (if_pos rfl)
  · exact State.completes (State.asked_of_descriptor hd) (exec_record_malformed hd h)
  · exact State.completes (State.asked_of_descriptor hd) (exec_record_none hd ha hn h0 h)
  · have hexec := exec_record hd ha hn h0 hp hv ho hrun hch he
    generalize ((s.runRec (fieldAt (s.request src) 8 1)).bytes (fieldAt (s.request src) 8 1)).take (fieldAt (s.request src) 28 4) = bytes at hexec ⊢
    generalize fieldAt (s.request src) 16 8 = a at hexec ⊢
    obtain ⟨k, hk, hmem⟩ := (s.recordOut a bytes).complete_host src 0 0 bytes.length
    have hdone : Done s ((s.recordOut a bytes).complete src 0 0 bytes.length) src 0 0 bytes.length :=
      done_congr rfl rfl rfl (State.complete_done (s := s.recordOut a bytes) (State.asked_of_descriptor hd) 0 0 bytes.length)
    refine ⟨_, hexec, by rw [hk]; rfl, hdone, ?_, fun d hout => ?_⟩
    · rw [hk]
      exact (congrArg (fun m : Mem => mread 0 m a bytes.length) hmem).trans (mread_mwrite _ _ _ _)
    · rw [hk]
      exact (congrArg (fun m : Mem => mget 0 m d) hmem).trans (mget_mwrite_outside _ _ _ _ _ hout)

end Sys2Proof.Machine
end

section
/-! PROOFS. Fences and self-tests of beds (R378 to R381): O41. -/

namespace Sys2Proof.Machine

/-! ## One plot's entries in the plot table -/

/-- Between two states the plot table has been set at one plot's number, and nowhere else. -/
def SetsPlot (p : Nat) (s t : State) : Prop := ∃ xs : List Plot, t.plots = xs.foldl (fun b x => tset (fun _ => {}) b p x) s.plots

/-- A plot's number stands once in the table at most. -/
def Lone (q : Nat) (s : State) : Prop := ∀ e ∈ s.plots, e.1 = q → e.2 = s.plot q

section
variable {p q : Nat} {s t u : State}

theorem SetsPlot.of_plots (h : t.plots = s.plots) : SetsPlot p s t := ⟨[], h⟩

theorem SetsPlot.trans (a : SetsPlot p s t) (b : SetsPlot p t u) : SetsPlot p s u := by
  obtain ⟨xs, hx⟩ := a
  obtain ⟨ys, hy⟩ := b
  exact ⟨xs ++ ys, by rw [hy, hx, List.foldl_append]⟩

theorem SetsPlot.then_plots (a : SetsPlot p s t) (h : u.plots = t.plots) : SetsPlot p s u := a.trans (.of_plots h)

theorem SetsPlot.setPlot (x : Plot) : SetsPlot p s (s.setPlot p x) := ⟨[x], rfl⟩

theorem Lone.setPlot (x : Plot) : Lone p (s.setPlot p x) := fun e he hk => by
  have he : e ∈ tset (fun _ => ({} : Plot)) s.plots p x := he
  rw [eq_of_mem_tset he hk, State.plot_setPlot, if_pos rfl]

theorem Lone.setPlot_other (h : Lone q s) (hne : p ≠ q) (x : Plot) : Lone q (s.setPlot p x) := fun e he hk => by
  rw [State.plot_setPlot, if_neg (Ne.symm hne)]
  have he : e ∈ tset (fun _ => ({} : Plot)) s.plots p x := he
  rcases mem_tset he with rfl | he
  · exact absurd hk hne
  · exact h e he hk

theorem Lone.of_plots (h : Lone q s) (hp : t.plots = s.plots) : Lone q t := fun e he hk => by
  unfold State.plot
  rw [hp] at he ⊢
  exact h e he hk

theorem Lone.sets_other (h : Lone q s) (hne : p ≠ q) (hs : SetsPlot p s t) : Lone q t := by
  obtain ⟨xs, hx⟩ := hs
  induction xs generalizing s with
  | nil => exact h.of_plots hx
  | cons x xs ih => exact ih (h.setPlot_other hne x) hx

/-- A plot whose entry has changed stands once in the table. -/
theorem Lone.of_sets (hs : SetsPlot p s t) (hc : t.plot p ≠ s.plot p) : Lone p t := by
  obtain ⟨xs, hx⟩ := hs
  rcases List.eq_nil_or_concat xs with rfl | ⟨ys, y, rfl⟩
  · exact absurd (congrArg (fun b : Tbl Plot => tget (fun _ => ({} : Plot)) b p) hx) hc
  · rw [List.concat_eq_append, List.foldl_append] at hx
    exact (Lone.setPlot (s := { s with plots := ys.foldl (fun b x => tset (fun _ => {}) b p x) s.plots }) y).of_plots hx

theorem State.event_plots (s : State) (j kind bed index exec : Nat) (payload : List Byte) :
    (s.event j kind bed index exec payload).plots = s.plots := by
  obtain ⟨x, he⟩ := s.event_recs j kind bed index exec payload
  rw [he]

theorem SetsPlot.endEpisode (s : State) (p : Nat) : SetsPlot p s (s.endEpisode p) := by
  unfold State.endEpisode
  split
  · exact .of_plots rfl
  next e _ =>
    obtain ⟨x, he⟩ := s.eventAt_recs e.tick p 0x09 0xFF 0 0 (leBytes 4 e.runs ++ leBytes 1 e.source)
    rw [he]
    exact ⟨[_], rfl⟩

theorem SetsPlot.closeRec (s : State) (p outcome code : Nat) : SetsPlot p s (s.closeRec p outcome code) := by
  refine (SetsPlot.endEpisode s p).then_plots ?_
  unfold State.closeRec
  refine (foldl_same State.plots fun t c => foldl_same State.plots fun u ch => State.event_plots _ _ _ _ _ _ _).trans ?_
  exact foldl_same State.plots fun t b => State.event_plots _ _ _ _ _ _ _

theorem State.dropTransfers_plots (s : State) (p : Nat) : (s.dropTransfers p).plots = s.plots := by
  unfold State.dropTransfers
  extract_lets mine out s1 keep
  have h1 : s1.plots = s.plots := foldl_same State.plots fun t e => by
    dsimp only
    split <;> rfl
  split
  · exact h1
  · refine (foldl_same State.plots fun t h => ?_).trans h1
    rfl

theorem State.complete_plots (s : State) (src : Src) (status code result : Nat) : (s.complete src status code result).plots = s.plots := by
  obtain ⟨h, he, -⟩ := s.complete_host src status code result
  rw [he]

theorem State.boundary_plots (s : State) : s.boundary.plots = s.plots := by
  unfold State.boundary
  split <;> rfl

/-- A stop sets the stopped plot's entry alone. -/
theorem State.stopPlot_sets (s : State) (p code : Nat) (at_ : Option (Nat × Nat × Nat × Nat)) : SetsPlot p s (s.stopPlot p code at_) := by
  have hbeds : ∀ (t : State) (f : Bed → Bed), (t.mapBeds p f).plots = t.plots := fun t f => foldl_same State.plots fun _ _ => rfl
  unfold State.stopPlot
  extract_lets x sown s1 lead word bed index s2 s3 s4 s5 own s6 exec s7 last s8
  split
  · have h1 : SetsPlot p s s1 := .of_plots (by
      unfold s1
      split
      · rfl
      · exact hbeds _ _)
    clear_value s1
    have h2 : SetsPlot p s s2 := h1.then_plots (by
      unfold s2
      split
      · exact State.event_plots _ _ _ _ _ _ _
      · rfl)
    clear_value s2
    have h3 : SetsPlot p s s3 := h2.then_plots (hbeds _ _)
    clear_value s3
    have h4 : SetsPlot p s s4 := h3.trans (by
      unfold s4
      split
      · exact .closeRec _ _ _ _
      · exact .of_plots rfl)
    clear_value s4
    have h5 : SetsPlot p s s5 := h4.then_plots (State.dropTransfers_plots _ _)
    clear_value s5
    have h6 : SetsPlot p s s6 := h5.trans (.setPlot _)
    clear_value s6
    have h7 : SetsPlot p s s7 := h6.then_plots (by
      unfold s7
      split
      · exact (SameBeds.refl s6).compare.plots
      · rfl)
    clear_value s7
    have h8 : SetsPlot p s s8 := h7.trans (by
      unfold s8
      split
      · exact (SetsPlot.of_plots (State.complete_plots _ _ _ _ _)).trans (.setPlot _)
      · exact .of_plots rfl)
    exact h8.then_plots (State.boundary_plots _)
  · exact .of_plots rfl

end

/-! ## The plots of a fenced bed stop -/

theorem State.askedDone_frame (s : State) (q : Asked) : ∃ h l, s.askedDone q = { s with host := h, lnk := l } := by
  unfold State.askedDone
  split
  · obtain ⟨h, he, -⟩ := State.complete_host ({ s with lnk := { s.lnk with asked := s.lnk.asked.erase q } } : State) q.src
      (b2n q.bad) (if q.bad then 0x07 else 0) (q.sown + q.refused * 2 ^ 16 + q.without * 2 ^ 32 + q.code * 2 ^ 48)
    exact ⟨h, _, he⟩
  · exact ⟨s.host, s.lnk, rfl⟩

theorem State.sowAnswer_frame (s : State) (tick : Nat) (dig : BitVec 256) (a : SowAns) (code : Nat) :
    ∃ h l, s.sowAnswer tick dig a code = { s with host := h, lnk := l } := by
  unfold State.sowAnswer
  split
  · obtain ⟨h, l, he⟩ := State.askedDone_frame (s := _) _
    exact ⟨h, l, he⟩
  · split
    · exact ⟨s.host, _, rfl⟩
    · exact ⟨s.host, s.lnk, rfl⟩

/-- After a plot's stop the fence may only answer the partner that ordered its sow. -/
theorem State.fencePlot_frame (s : State) (p : Nat) :
    ∃ h l, s.fencePlot p = { s.stopPlot p 0x56 none with host := h, lnk := l } := by
  unfold State.fencePlot
  simp only []
  split
  · split
    · exact State.sowAnswer_frame _ _ _ _ _
    · exact ⟨_, _, rfl⟩
  · exact ⟨_, _, rfl⟩

theorem State.stopPlot_skips {s : State} {p : Nat} (h : ¬((s.plot p).state = 2 ∨ (s.plot p).state = 3 ∨ (s.plot p).state = 4)) (code : Nat)
    (at_ : Option (Nat × Nat × Nat × Nat)) : s.stopPlot p code at_ = s := if_neg h

/-- What a fence keeps of the bed it fences, and the time. -/
def KeepsBed (p : Nat) (s t : State) : Prop :=
  (t.bed p).logical = (s.bed p).logical ∧ (t.bed p).mapped = (s.bed p).mapped ∧ t.now = s.now

/-- A plot that a fence has stopped. -/
def FenceStopped (q : Nat) (s : State) : Prop := (s.plot q).state = 5 ∧ (s.plot q).stopCode = 0x56 ∧ Lone q s

section
variable {p q : Nat} {s t u : State}

theorem KeepsBed.refl : KeepsBed p s s := ⟨rfl, rfl, rfl⟩

theorem KeepsBed.trans (a : KeepsBed p s t) (b : KeepsBed p t u) : KeepsBed p s u :=
  ⟨b.1.trans a.1, b.2.1.trans a.2.1, b.2.2.trans a.2.2⟩

theorem KeepsBed.of_beds (hb : t.beds = s.beds) (hn : t.clk = s.clk) : KeepsBed p s t := by
  unfold KeepsBed State.bed State.now
  rw [hb, hn]
  exact ⟨rfl, rfl, rfl⟩

theorem State.stopPlot_keepsBed (s : State) (r : Nat) : KeepsBed p s (s.stopPlot r 0x56 none) := by
  by_cases h : (s.plot r).state = 2 ∨ (s.plot r).state = 3 ∨ (s.plot r).state = 4
  · have hs := s.stopPlot_stopped 0x56 none h
    obtain ⟨g, x, hb⟩ := hs.bed p
    obtain ⟨c, d, hc⟩ := hs.clk
    unfold KeepsBed State.now
    rw [hb, hc]
    exact ⟨rfl, rfl, rfl⟩
  · rw [State.stopPlot_skips h]
    exact .refl

theorem State.fencePlot_keepsBed (s : State) (r : Nat) : KeepsBed p s (s.fencePlot r) := by
  obtain ⟨h, l, he⟩ := s.fencePlot_frame r
  rw [he]
  exact (s.stopPlot_keepsBed r).trans (.of_beds rfl rfl)

theorem FenceStopped.of_plots (h : FenceStopped q s) (hp : t.plots = s.plots) : FenceStopped q t :=
  have hq : t.plot q = s.plot q := congrArg (fun b : Tbl Plot => tget (fun _ => ({} : Plot)) b q) hp
  ⟨hq ▸ h.1, hq ▸ h.2.1, h.2.2.of_plots hp⟩

theorem State.fencePlot_plots (s : State) (r : Nat) : (s.fencePlot r).plots = (s.stopPlot r 0x56 none).plots := by
  obtain ⟨h, l, he⟩ := s.fencePlot_frame r
  rw [he]

/-- The plot stops when its turn comes. -/
theorem State.fencePlot_stops (h2 : 2 ≤ (s.plot q).state) (h4 : (s.plot q).state ≤ 4) : FenceStopped q (s.fencePlot q) := by
  have hs := s.stopPlot_stopped (p := q) 0x56 none (by omega)
  refine FenceStopped.of_plots ⟨hs.state, hs.stopCode, .of_sets (State.stopPlot_sets s q 0x56 none) fun hc => ?_⟩ (s.fencePlot_plots q)
  have h5 := hs.state
  rw [hc] at h5
  omega

theorem FenceStopped.fencePlot (h : FenceStopped q s) (r : Nat) : FenceStopped q (s.fencePlot r) := by
  refine FenceStopped.of_plots ?_ (s.fencePlot_plots r)
  by_cases hr : (s.plot r).state = 2 ∨ (s.plot r).state = 3 ∨ (s.plot r).state = 4
  · have hne : q ≠ r := by
      rintro rfl
      obtain ⟨h5, -⟩ := h
      omega
    have hq := (s.stopPlot_stopped 0x56 none hr).others q hne
    exact ⟨hq ▸ h.1, hq ▸ h.2.1, h.2.2.sets_other hne.symm (State.stopPlot_sets s r 0x56 none)⟩
  · rw [State.stopPlot_skips hr]
    exact h

theorem State.fencePlot_others (s : State) {r : Nat} (hne : q ≠ r) : (s.fencePlot r).plot q = s.plot q := by
  refine (congrArg (fun b : Tbl Plot => tget (fun _ => ({} : Plot)) b q) (s.fencePlot_plots r)).trans ?_
  by_cases hr : (s.plot r).state = 2 ∨ (s.plot r).state = 3 ∨ (s.plot r).state = 4
  · exact (s.stopPlot_stopped 0x56 none hr).others q hne
  · rw [State.stopPlot_skips hr]
    rfl

theorem foldl_fencePlot_keepsBed (rs : List Nat) (s : State) : KeepsBed p s (rs.foldl State.fencePlot s) :=
  List.foldlRecOn (motive := fun t => KeepsBed p s t) rs _ .refl fun t ht r _ => ht.trans (t.fencePlot_keepsBed r)

theorem FenceStopped.foldl (h : FenceStopped q s) (rs : List Nat) : FenceStopped q (rs.foldl State.fencePlot s) :=
  List.foldlRecOn (motive := fun t => FenceStopped q t) rs _ h fun _ ht r _ => ht.fencePlot r

theorem foldl_fencePlot_stops {rs : List Nat} (hq : q ∈ rs) (h2 : 2 ≤ (s.plot q).state) (h4 : (s.plot q).state ≤ 4) :
    FenceStopped q (rs.foldl State.fencePlot s) := by
  induction rs generalizing s with
  | nil => cases hq
  | cons r rs ih =>
    rw [List.foldl_cons]
    by_cases hr : q = r
    · subst hr
      exact (State.fencePlot_stops h2 h4).foldl rs
    · have he := s.fencePlot_others hr
      exact ih ((List.mem_cons.mp hq).resolve_left hr) (by rw [he]; exact h2) (by rw [he]; exact h4)

/-- A plot of the bed's map that has been accepted is among the holders. -/
theorem State.mem_holders_of_job {j : Job} (hj : (s.bed p).job = some j) (h2 : 2 ≤ (s.plot j.plot).state) : j.plot ∈ s.holders p := by
  have hmem : (j.plot, s.plot j.plot) ∈ s.plots := by
    rcases tget_default_or_mem (fun _ => ({} : Plot)) s.plots j.plot with hd | hm
    · exact absurd h2 (by unfold State.plot; rw [hd]; decide)
    · exact hm
  unfold State.holders
  refine List.mem_map.mpr ⟨_, List.mem_filter.mpr ⟨hmem, ?_⟩, rfl⟩
  simp [hj]

/-! ## Loads, orders and sessions -/

theorem State.refuseLoads_effect (s : State) (log : Nat) :
    KeepsBed p s (s.refuseLoads log) ∧ (FenceStopped q s → FenceStopped q (s.refuseLoads log)) := by
  unfold State.refuseLoads
  refine ⟨List.foldlRecOn (motive := fun t => KeepsBed p s t) _ _ .refl fun t ht e _ => ?_, fun h => ?_⟩
  · dsimp only
    split
    · split
      · refine ht.trans ?_
        obtain ⟨h, he, -⟩ := State.complete_host (t.setPlot e.1 { stopCode := e.2.stopCode }) _ 1 0x07 (reportWord 0x11 0 1 log log)
        rw [he]
        exact .of_beds rfl rfl
      · exact ht.trans (.of_beds rfl rfl)
    · exact ht
  · have hl := h.2.2
    have h5 := h.1
    refine List.foldlRecOn (motive := fun t => FenceStopped q t) _ _ h fun t ht e he => ?_
    dsimp only
    split
    next hc =>
      have hne : e.1 ≠ q := fun hk => by
        rw [hl e he hk] at hc
        omega
      have hx : FenceStopped q (t.setPlot e.1 { stopCode := e.2.stopCode }) := by
        obtain ⟨a, b, c⟩ := ht
        have hq : (t.setPlot e.1 { stopCode := e.2.stopCode }).plot q = t.plot q := by
          rw [State.plot_setPlot, if_neg hne.symm]
        exact ⟨hq ▸ a, hq ▸ b, c.setPlot_other hne _⟩
      split
      · exact hx.of_plots (State.complete_plots _ _ _ _ _)
      · exact hx
    · exact ht

theorem State.unstage_effect (s : State) (w : Nat) : KeepsBed p s (s.unstage w) ∧ (s.unstage w).plots = s.plots := by
  unfold State.unstage
  refine List.foldlRecOn (motive := fun t : State => KeepsBed p s t ∧ t.plots = s.plots) _ _ ⟨.refl, rfl⟩ ?_
  rintro t ⟨hb, hp⟩ e -
  dsimp only
  split
  · refine ⟨hb.trans ⟨?_, ?_, rfl⟩, hp⟩
    all_goals
      rw [State.bed_setBed]
      split
      next he => rw [he]
      next => rfl
  · exact ⟨hb, hp⟩

theorem State.setReg_effect (s : State) (off : Nat) (v : W64) : KeepsBed p s (s.setReg off v) ∧ (s.setReg off v).plots = s.plots :=
  ⟨.of_beds rfl rfl, rfl⟩

theorem State.walkFail_effect (s : State) (w : Nat) (k : Work) (code page : Nat) (dest : Bool) :
    KeepsBed p s (s.walkFail w k code page dest) ∧ (s.walkFail w k code page dest).plots = s.plots := by
  unfold State.walkFail
  extract_lets o session s1 s2
  have h1 : KeepsBed p s s1 ∧ s1.plots = s.plots := by
    unfold s1
    split
    · exact ⟨.refl, rfl⟩
    · exact s.setReg_effect _ _
  clear_value s1
  have h2 : KeepsBed p s s2 ∧ s2.plots = s.plots := by
    obtain ⟨g, h, he⟩ := s1.report_frame (unitId 7 w) (unitId 7 w) 0x8C (code + session * 2 ^ 8)
    unfold s2
    rw [he]
    exact ⟨h1.1.trans (.of_beds rfl rfl), h1.2⟩
  clear_value s2
  obtain ⟨hb, hp⟩ := s2.unstage_effect (p := p) w
  exact ⟨(h2.1.trans hb).trans (.of_beds rfl rfl), hp.trans h2.2⟩

theorem State.fenceOrders_effect (s : State) (log : Nat) : KeepsBed p s (s.fenceOrders log) ∧ (s.fenceOrders log).plots = s.plots := by
  unfold State.fenceOrders
  refine List.foldlRecOn (motive := fun t : State => KeepsBed p s t ∧ t.plots = s.plots) _ _ ⟨.refl, rfl⟩ ?_
  rintro t ⟨hb, hp⟩ w -
  dsimp only
  split
  · split
    · split
      · obtain ⟨hb', hp'⟩ := t.walkFail_effect (p := p) w _ 0x67 _ false
        exact ⟨hb.trans hb', hp'.trans hp⟩
      · exact ⟨hb, hp⟩
    · exact ⟨hb, hp⟩
  · exact ⟨hb, hp⟩

theorem State.parkSessions_effect (s : State) (is : List Nat) : KeepsBed p s (s.parkSessions is) ∧ (s.parkSessions is).plots = s.plots := by
  unfold State.parkSessions
  refine List.foldlRecOn (motive := fun t : State => KeepsBed p s t ∧ t.plots = s.plots) _ _ ⟨.refl, rfl⟩ ?_
  rintro t ⟨hb, hp⟩ i -
  obtain ⟨mem, ctls, he, -⟩ := t.ddrWrite_ctls (t.sessAddr i) (sessWith (t.sess i) 1 15)
  unfold State.setSess
  rw [he]
  exact ⟨hb.trans (.of_beds rfl rfl), hp⟩

end

/-! ## The fence takes effect -/

/-- A fence in effect, but for the bed's own fields: its plots have stopped and its loads, orders and sessions have ended. -/
theorem State.fenceNow_effect (s : State) (p : Nat) (remap : Bool) : ∃ u n i, KeepsBed p s u ∧
    s.fenceNow p remap = u.setBed p { u.bed p with
      admin := 2, fencePending := none, fencing := some remap, fenceTick := BitVec.ofNat 48 u.now, mem := [], ecc := [],
      scrubPending := none, lost := true
      fenceSessions := n, fenceFirst := i, mulch := 0 } ∧
    ∀ q, q ∈ s.holders p → 2 ≤ (s.plot q).state → (s.plot q).state ≤ 4 → FenceStopped q u := by
  unfold State.fenceNow
  extract_lets b is s1 s2 s3
  have k1 : KeepsBed p s s1 := foldl_fencePlot_keepsBed _ s
  have f1 : ∀ q, q ∈ s.holders p → 2 ≤ (s.plot q).state → (s.plot q).state ≤ 4 → FenceStopped q s1 :=
    fun _ hq h2 h4 => foldl_fencePlot_stops hq h2 h4
  clear_value s1
  have k2 : KeepsBed p s s2 ∧ ∀ q, FenceStopped q s1 → FenceStopped q s2 := by
    unfold s2
    split
    · obtain ⟨hk, hp⟩ := (s1.refuseLoads b.logical).fenceOrders_effect (p := p) b.logical
      refine ⟨(k1.trans (s1.refuseLoads_effect (q := 0) b.logical).1).trans hk, fun q hq => ?_⟩
      exact ((s1.refuseLoads_effect (p := p) b.logical).2 hq).of_plots hp
    · exact ⟨k1, fun _ hq => hq⟩
  clear_value s2
  obtain ⟨hk, hp⟩ := s2.parkSessions_effect (p := p) is
  exact ⟨s3, _, _, k2.1.trans hk, rfl, fun q hq h2 h4 => (k2.2 q (f1 q hq h2 h4)).of_plots hp⟩

theorem exec_fenceTakeEffect (s : State) (p : BitVec 8) : exec (.fenceTakeEffect p) s = execFenceTakeEffect p s := rfl

/-- FENCE_TAKE_EFFECT (R379). -/
theorem fenceTakeEffect_effect {s : State} {p : BitVec 8} {f : Nat × Bool} (hf : (s.bed p.toNat).fencePending = some f)
    (hrun : s.running = true) (hlate : f.1 + 8 ≤ s.now) :
    ∃ t, exec (.fenceTakeEffect p) s = .next t ∧ (t.bed p.toNat).admin = 2 ∧ (t.bed p.toNat).fencing = some f.2 ∧
      (t.bed p.toNat).fencePending = none ∧ (t.bed p.toNat).fenceTick = BitVec.ofNat 48 s.now ∧
      (t.bed p.toNat).mem = [] ∧ (t.bed p.toNat).lost = true ∧ (t.bed p.toNat).logical = (s.bed p.toNat).logical ∧
      (t.bed p.toNat).mapped = (s.bed p.toNat).mapped ∧
      ∀ q, (q ∈ s.holders p.toNat ∨ ∃ j, (s.bed p.toNat).job = some j ∧ j.plot = q) → 2 ≤ (s.plot q).state →
        (s.plot q).state ≤ 4 → (t.plot q).state = 5 ∧ (t.plot q).stopCode = 0x56 := by
  obtain ⟨u, n, i, ⟨hlog, hmap, hnow⟩, he, hstop⟩ := s.fenceNow_effect p.toNat f.2
  refine ⟨s.fenceNow p.toNat f.2, ?_, ?_⟩
  · rw [exec_fenceTakeEffect]
    unfold execFenceTakeEffect
    simp only [hf, hrun, hlate, and_self, if_true]
  · rw [he, State.bed_setBed, if_pos rfl]
    refine ⟨rfl, rfl, rfl, by rw [hnow], rfl, rfl, hlog, hmap, fun q hq h2 h4 => ?_⟩
    have hq' : q ∈ s.holders p.toNat := by
      rcases hq with hq | ⟨j, hj, rfl⟩
      · exact hq
      · exact State.mem_holders_of_job hj h2
    obtain ⟨h5, hc, -⟩ := hstop q hq' h2 h4
    exact ⟨h5, hc⟩

/-! ## A fence is asked for -/

/-- A service that has nothing left to do completes at once. -/
theorem State.served_at_once {s : State} {i : Instr} {src : Src} {n : Nat} (h : s.service src n = true) (he : exec i s = .next (s.serve src 0 0)) :
    ∃ t, exec i s = .next t ∧ t = { s with host := t.host } ∧ Done s t src 0 0 0 := by
  obtain ⟨hi, hhost, -⟩ := State.serve_host s src 0 0
  exact ⟨_, he, by rw [hhost], State.serve_done (State.asked_of_service h)⟩

theorem exec_fence (s : State) (src : Src) : exec (.fence src) s = execFence src s := rfl

/-- FENCE (R378, R379). -/
theorem fence_effect {s : State} {src : Src} (h : s.service src 0x01 = true) :
    let d := s.request src
    let b := fieldAt d 16 1
    (128 ≤ b → ∃ t, exec (.fence src) s = .next t ∧ t = { s with host := t.host } ∧ Done s t src 1 0x07 0x71) ∧
    (b < 128 → s.physOf b = none → ∃ t, exec (.fence src) s = .next t ∧ t = { s with host := t.host } ∧ Done s t src 0 0 0) ∧
    ∀ p, b < 128 → s.physOf b = some p →
      (2 ≤ (s.bed p).admin → ∃ t, exec (.fence src) s = .next t ∧ t = { s with host := t.host } ∧ Done s t src 0 0 0) ∧
      ((s.bed p).admin < 2 → exec (.fence src) s = .next ((
        if (s.bed p).fencePending.isSome ∨ (s.bed p).fencing.isSome then s
        else s.setBed p { s.bed p with fencePending := some (s.now, bit (fieldAt d 17 1) 0) }).await 1 p src 0)) := by
  intro d b
  have hex : exec (.fence src) s = if 128 ≤ b then .next (s.serve src 0x71 0) else execFence src s := by
    rw [exec_fence]
    unfold execFence
    rw [if_pos h]
    split
    next h128 => exact if_pos h128
    next => rfl
  have hnone : b < 128 → s.physOf b = none → execFence src s = .next (s.serve src 0 0) := fun hb hp => by
    unfold execFence
    rw [if_pos h]
    dsimp only
    rw [if_neg (show ¬128 ≤ fieldAt (s.request src) 16 1 from Nat.not_le.mpr hb)]
    simp only [show s.physOf (fieldAt (s.request src) 16 1) = _ from hp]
  have hsome : ∀ p, b < 128 → s.physOf b = some p → execFence src s = if 2 ≤ (s.bed p).admin then .next (s.serve src 0 0)
      else .next ((s.askFence p (bit (fieldAt d 17 1) 0)).await 1 p src 0) := fun p hb hp => by
    unfold execFence
    rw [if_pos h]
    dsimp only
    rw [if_neg (show ¬128 ≤ fieldAt (s.request src) 16 1 from Nat.not_le.mpr hb)]
    simp only [show s.physOf (fieldAt (s.request src) 16 1) = _ from hp]
    rfl
  refine ⟨fun h128 => State.refuses h (by decide) (by rw [hex, if_pos h128]), fun hb hp => State.served_at_once h (hnone hb hp), fun p hb hp => ⟨fun ha => State.served_at_once h ?_, fun ha => ?_⟩⟩
  · rw [exec_fence, hsome p hb hp, if_pos ha]
  · rw [exec_fence, hsome p hb hp]
    rw [if_neg (by omega)]
    unfold State.askFence
    have h2 : (s.bed p).admin ≠ 2 := by omega
    have h3 : (s.bed p).admin ≠ 3 := by omega
    simp only [h2, h3, false_or]

theorem exec_bedPollTimeout (s : State) (p : BitVec 8) : exec (.bedPollTimeout p) s = execBedPollTimeout p s := rfl

/-- BED_POLL_TIMEOUT (R378). -/
theorem bedPollTimeout_effect {s : State} {p : BitVec 8} (hp : p.toNat < 132) (hr : s.ready = true) (hauto : s.fld 0x20100 4 1 = 1)
    (ha : (s.bed p.toNat).admin < 2) (hpend : (s.bed p.toNat).fencePending = none) (hf : (s.bed p.toNat).fencing = none) :
    exec (.bedPollTimeout p) s = .next (s.setBed p.toNat { s.bed p.toNat with fencePending := some (s.now, true) }) := by
  rw [exec_bedPollTimeout]
  unfold execBedPollTimeout
  rw [if_pos ⟨hp, hr, hauto⟩]
  unfold State.askFence
  have h2 : (s.bed p.toNat).admin ≠ 2 := by omega
  have h3 : (s.bed p.toNat).admin ≠ 3 := by omega
  simp [h2, h3, hpend, hf]

end Sys2Proof.Machine
end

section
/-! PROOFS. The end of a fence, and self-tests of beds (R379 to R381): O41. -/

namespace Sys2Proof.Machine

/-! ## Requests that wait for a bed -/

section
variable {s t u : State}

/-- A doorbell rung in service is set. -/
theorem State.setDoor_set (s : State) {b : Nat} (hb : b < 32) (hr : s.ready = true) : (s.setDoor b).host.dbOut.getLsbD b = true := by
  obtain ⟨p, q, h⟩ := s.setDoor_eq b hr
  rw [h]
  exact getLsbD_or_one_shiftLeft _ hb

/-- The one request that waits for a service of a unit completes. -/
theorem State.answer_done {svc unit : Nat} {w : Waiter} (hr : t.requests = s.requests) (hc : t.clk = s.clk)
    (hw : (s.host.waiters.filter fun w => w.svc == svc && w.unit == unit) = [w]) (ha : s.asked w.src = true) (status code result : Nat) :
    Done s (t.answer svc unit status code result) w.src status code result := by
  have hrings : t.host.rings = s.host.rings := congrArg Prod.fst hr
  have hmb : t.host.mbReq = s.host.mbReq := congrArg (fun x : Tbl Ring × Tbl (List Byte) × List Waiter => x.2.1) hr
  have hwait : t.host.waiters = s.host.waiters := congrArg (fun x : Tbl Ring × Tbl (List Byte) × List Waiter => x.2.2) hr
  have he : t.answer svc unit status code result = t.complete w.src status code result := by
    unfold State.answer
    rw [hwait, hw]
    rfl
  rw [he]
  exact done_congr hrings hmb hc (State.complete_done ((State.asked_congr hrings hmb w.src).trans ha) _ _ _)

theorem State.answer_rest (s : State) (svc unit status code result b : Nat) : ∃ h, (s.answer svc unit status code result).setDoor b = { s with host := h } := by
  obtain ⟨h, he⟩ := s.answer_host svc unit status code result
  obtain ⟨h', he'⟩ := State.setDoor_frame { s with host := h } b
  exact ⟨h', by rw [he, he']⟩

/-! ## A fence completes -/

/-- A plot without the claim of one bed. -/
def Plot.unclaim (log : Nat) (x : Plot) : Plot := { x with prog := { x.prog with claims := dropBed log x.prog.claims } }

/-- Every plot of the table gives up its claim of a bed. -/
def State.unclaimAll (s : State) (log : Nat) : State := s.plots.foldl (fun (s : State) e => s.setPlot e.1 (e.2.unclaim log)) s

theorem State.unclaimAll_eq (s : State) (log : Nat) : s.unclaimAll log =
    { s with plots := updateAll (fun _ => ({} : Plot)) (fun e => some (e.2.unclaim log)) s.plots s.plots } :=
  foldl_eq_updateAll (fun _ => ({} : Plot)) (fun e => some (e.2.unclaim log)) (fun b => ({ s with plots := b } : State))
    (fun _ _ => rfl) s.plots s.plots

theorem State.unclaimAll_plot (hr : Rising s.plots) (log q : Nat) : (s.unclaimAll log).plot q = (s.plot q).unclaim log := by
  rw [State.unclaimAll_eq]
  unfold State.plot
  by_cases h : ∃ v, (q, v) ∈ s.plots
  · obtain ⟨v, hv⟩ := h
    rw [tget_of_mem (fun _ => ({} : Plot)) hr hv]
    exact tget_updateAll_of_mem (fun _ => ({} : Plot)) (fun e => some (e.2.unclaim log)) hr hv s.plots
  · have hno : ∀ e ∈ s.plots, e.1 ≠ q := fun e he hek => h ⟨e.2, hek ▸ he⟩
    rw [tget_of_notMem (fun _ => ({} : Plot)) hno]
    exact (tget_updateAll_of_notMem (fun _ => ({} : Plot)) _ hno s.plots).trans (tget_of_notMem _ hno)

/-- The bed of a completed fence, out of the bed map. -/
def Bed.unmap (b : Bed) : Bed := { b with fencing := none, mapped := false, logical := 0, former := some b.logical }

/-- The die's spare takes a fenced bed's number. -/
def State.takeOver (s : State) (log : Nat) : Option Nat → State
  | some q => s.setBed q { s.bed q with admin := 0, mapped := true, logical := log }
  | none => s

theorem State.takeOver_frame (s : State) (log : Nat) (o : Option Nat) : ∃ bs, s.takeOver log o = { s with beds := bs } := by
  cases o with
  | some q => exact ⟨_, rfl⟩
  | none => exact ⟨s.beds, rfl⟩

theorem State.takeOver_bed (s : State) (log : Nat) (o : Option Nat) (r : Nat) : (s.takeOver log o).bed r =
    if o = some r then { s.bed r with admin := 0, mapped := true, logical := log } else s.bed r := by
  cases o with
  | none => exact (if_neg (by simp)).symm
  | some q =>
    refine (State.bed_setBed _ _ _ _).trans ?_
    by_cases hr : r = q
    · subst hr
      rw [if_pos rfl, if_pos rfl]
    · rw [if_neg hr, if_neg (fun h => hr (Option.some.inj h).symm)]

theorem State.spareOf_congr {die : Nat} (h : ∀ q, (t.bed q).admin = (s.bed q).admin) : t.spareOf die = s.spareOf die := by
  unfold State.spareOf
  congr 1
  funext q
  rw [h q]

/-- A spare is no fenced bed. -/
theorem State.spareOf_ne {die p : Nat} (ha : (s.bed p).admin = 2) : s.spareOf die ≠ some p := fun h => by
  have h1 := List.find?_some h
  rw [ha] at h1
  exact absurd h1 (by decide)

/-- The end of a fence, but for what the host and the fault collector see. -/
def State.unfenced (s : State) (p : Nat) (remap : Bool) : State :=
  let log := (s.bed p).logical
  ((s.unclaimAll log).setBed p (s.bed p).unmap).takeOver log (if remap then s.spareOf (dieOf p) else none)

theorem State.unfenced_frame (s : State) (p : Nat) (remap : Bool) : ∃ ps bs, s.unfenced p remap = { s with plots := ps, beds := bs } := by
  obtain ⟨bs, he⟩ := ((s.unclaimAll (s.bed p).logical).setBed p (s.bed p).unmap).takeOver_frame (s.bed p).logical
    (if remap then s.spareOf (dieOf p) else none)
  refine ⟨(s.unclaimAll (s.bed p).logical).plots, bs, he.trans ?_⟩
  rw [State.unclaimAll_eq]
  rfl

theorem State.unfenced_plot (hr : Rising s.plots) (p : Nat) (remap : Bool) (q : Nat) :
    (s.unfenced p remap).plot q = (s.plot q).unclaim (s.bed p).logical := by
  obtain ⟨bs, he⟩ := ((s.unclaimAll (s.bed p).logical).setBed p (s.bed p).unmap).takeOver_frame (s.bed p).logical
    (if remap then s.spareOf (dieOf p) else none)
  exact (congrArg (fun u : State => u.plot q) he).trans (State.unclaimAll_plot hr _ q)

theorem State.unfenced_bed (s : State) (p : Nat) (remap : Bool) (r : Nat) : (s.unfenced p remap).bed r =
    if (if remap then s.spareOf (dieOf p) else none) = some r then
      { (if r = p then (s.bed p).unmap else s.bed r) with admin := 0, mapped := true, logical := (s.bed p).logical }
    else if r = p then (s.bed p).unmap else s.bed r := by
  have hbed : ((s.unclaimAll (s.bed p).logical).setBed p (s.bed p).unmap).bed r = if r = p then (s.bed p).unmap else s.bed r := by
    rw [State.bed_setBed, State.unclaimAll_eq]
    rfl
  refine (State.takeOver_bed _ _ _ _).trans ?_
  rw [hbed]

/-- The same with its report, its answers and its doorbell (R379). -/
theorem State.fenceDone_eq {p : Nat} (hm : (s.bed p).mapped = true) (remap : Bool) : ∃ d,
    s.fenceDone p remap = (((s.unfenced p remap).report (unitId 1 p) (dieGardener p) 0x89 d).answer 1 p 0 0 0).setDoor 5 := by
  have hspare : ((s.unclaimAll (s.bed p).logical).setBed p (s.bed p).unmap).spareOf (dieOf p) = s.spareOf (dieOf p) :=
    State.spareOf_congr fun q => by
      rw [State.bed_setBed, State.unclaimAll_eq]
      split
      next h => rw [h]; rfl
      next => rfl
  refine ⟨(s.bed p).fenceSessions % 2 ^ 18 + (s.bed p).fenceFirst * 2 ^ 18, ?_⟩
  unfold State.unfenced
  rw [← hspare]
  unfold State.fenceDone
  simp only [hm, if_true, and_true]
  rfl

end

theorem exec_fenceComplete (s : State) (p : BitVec 8) : exec (.fenceComplete p) s = execFenceComplete p s := rfl

/-- FENCE_COMPLETE (R379, R380). -/
theorem fenceComplete_effect {s : State} {p : BitVec 8} {remap : Bool} (hf : (s.bed p.toNat).fencing = some remap) (hrun : s.running = true)
    (ha : (s.bed p.toNat).admin = 2) (hm : (s.bed p.toNat).mapped = true) (hr : Rising s.plots) :
    let b := s.bed p.toNat
    ∃ t, exec (.fenceComplete p) s = .next t ∧
      t.bed p.toNat = { b with fencing := none, mapped := false, logical := 0, former := some b.logical } ∧
      (∀ q, t.plot q = { s.plot q with prog := { (s.plot q).prog with claims := dropBed b.logical (s.plot q).prog.claims } }) ∧
      (remap = true → ∀ q, s.spareOf (dieOf p.toNat) = some q →
        t.bed q = { s.bed q with admin := 0, mapped := true, logical := b.logical }) ∧
      (∀ q, q ≠ p.toNat → (remap = true → s.spareOf (dieOf p.toNat) ≠ some q) → t.bed q = s.bed q) ∧
      (s.ready = true → t.host.dbOut.getLsbD 5 = true) ∧
      ∀ w, (s.host.waiters.filter fun w => w.svc == 1 && w.unit == p.toNat) = [w] → s.asked w.src = true →
        Done s t w.src 0 0 0 := by
  intro b
  obtain ⟨d, hd⟩ := State.fenceDone_eq hm remap
  have hex : exec (.fenceComplete p) s = .next (s.fenceDone p.toNat remap) := by
    rw [exec_fenceComplete]
    unfold execFenceComplete
    simp only [hf, hrun, if_true]
  have hplot := State.unfenced_plot hr p.toNat remap
  have hbed := s.unfenced_bed p.toNat remap
  have hne := State.spareOf_ne (die := dieOf p.toNat) ha
  obtain ⟨ps, bs, hu⟩ := s.unfenced_frame p.toNat remap
  generalize s.unfenced p.toNat remap = u at hd hplot hbed hu
  obtain ⟨g, h, hrep⟩ := u.report_frame (unitId 1 p.toNat) (dieGardener p.toNat) 0x89 d
  have hreq : (u.report (unitId 1 p.toNat) (dieGardener p.toNat) 0x89 d).requests = s.requests :=
    (u.report_requests _ _ _ _).trans (by rw [hu]; rfl)
  have hclk : (u.report (unitId 1 p.toNat) (dieGardener p.toNat) 0x89 d).clk = s.clk := (u.report_clk _ _ _ _).trans (by rw [hu])
  have hready : u.ready = s.ready := by rw [hu]; rfl
  generalize u.report (unitId 1 p.toNat) (dieGardener p.toNat) 0x89 d = v at hd hrep hreq hclk
  obtain ⟨x, hx⟩ := v.answer_rest 1 p.toNat 0 0 0 5
  have hplots : (s.fenceDone p.toNat remap).plots = u.plots := by rw [hd, hx, hrep]
  have hbeds : ∀ q, (s.fenceDone p.toNat remap).bed q = u.bed q := fun q => by rw [hd, hx, hrep]; rfl
  refine ⟨_, hex, ?_, fun q => ?_, fun hrm q hq => ?_, fun q hq hnq => ?_, fun hrd => ?_, fun w hw hasked => ?_⟩
  · rw [hbeds, hbed, if_neg (by split <;> simp [hne]), if_pos rfl]
    rfl
  · refine (congrArg (fun b : Tbl Plot => tget (fun _ => ({} : Plot)) b q) hplots).trans (hplot q)
  · have hqp : q ≠ p.toNat := fun h => hne (h ▸ hq)
    rw [hbeds, hbed, if_pos (by rw [if_pos hrm, hq]), if_neg hqp]
  · rw [hbeds, hbed, if_neg (by split <;> simp_all), if_neg hq]
  · obtain ⟨y, hy⟩ := v.answer_host 1 p.toNat 0 0 0
    rw [hd]
    refine State.setDoor_set _ (by decide) ?_
    rw [hy, hrep]
    exact hready.trans hrd
  · rw [hd]
    exact done_setDoor (State.answer_done hreq hclk hw hasked 0 0 0) 5

/-! ## Self-tests -/

theorem exec_selftest (s : State) (src : Src) : exec (.selftest src) s = execSelftest src s := rfl

/-- SELFTEST (R381). -/
theorem selftest_effect {s : State} {src : Src} (h : s.service src 0x02 = true) :
    let d := s.request src
    let p := fieldAt d 16 1
    let b := s.bed p
    (132 ≤ p → ∃ t, exec (.selftest src) s = .next t ∧ t = { s with host := t.host } ∧ Done s t src 1 0x07 0x71) ∧
    (p < 132 → (b.admin ≠ 2 ∨ b.fencing.isSome) →
      ∃ t, exec (.selftest src) s = .next t ∧ t = { s with host := t.host } ∧ Done s t src 1 0x07 0x72) ∧
    (p < 132 → b.admin = 2 → b.fencing = none → exec (.selftest src) s = .next
      ((s.setBed p { b with admin := 3, testing := some (s.now, bit (fieldAt d 17 1) 0) }).await 0x12 p src 0)) := by
  intro d p b
  have hex : exec (.selftest src) s = if 132 ≤ p then .next (s.serve src 0x71 0) else
      if b.admin ≠ 2 ∨ b.fencing.isSome then .next (s.serve src 0x72 0) else
      .next ((s.setBed p { b with admin := 3, testing := some (s.now, bit (fieldAt d 17 1) 0) }).await 0x12 p src 0) := by
    rw [exec_selftest]
    exact if_pos h
  refine ⟨fun hp => State.refuses h (by decide) (by rw [hex, if_pos hp]),
    fun hp hb => State.refuses h (by decide) (by rw [hex, if_neg (Nat.not_le.mpr hp), if_pos hb]), fun hp ha hn => ?_⟩
  rw [hex, if_neg (Nat.not_le.mpr hp), if_neg (by simp [ha, hn])]

/-- A bed after its self-test: its memory all zeros (R381). -/
def Bed.wiped (b : Bed) (pass : Bool) : Bed := { b with testing := none, mem := [], ecc := [], lost := false, bistPass := pass }

/-- Whether a tested bed serves on its former number again. -/
def State.again (s : State) (former : Option Nat) (unfence : Bool) : Bool := former.any fun n => unfence && (s.physOf n).isNone

theorem State.tested_pass (s : State) (p : Nat) (unfence : Bool) : s.tested p unfence true = s.setBed p
    (if s.again (s.bed p).former unfence then
      { (s.bed p).wiped true with admin := 0, mapped := true, logical := (s.bed p).former.getD 0, former := none, job := none }
    else { (s.bed p).wiped true with admin := 1, former := none, job := none }) := by
  unfold State.tested State.again
  simp only [if_true]
  show s.setBed p (if (match (s.bed p).former with | some n => unfence && (s.physOf n).isNone | none => false) then _ else _) = _
  cases (s.bed p).former <;> rfl

/-- A bed that has failed its self-test stays fenced. -/
def Bed.failed (b : Bed) : Bed := { b.wiped false with admin := 2 }

theorem State.tested_fail (s : State) (p : Nat) (unfence : Bool) : ∃ n d, s.tested p unfence false =
    ({ s.setBed p (s.bed p).failed with freeN := n } : State).report (unitId 1 p) (dieGardener p) 0x8A d :=
  ⟨_, _, rfl⟩

/-- A tested bed, with nothing else of the module changed but what the fault collector and the host see. -/
theorem State.tested_effect (s : State) (p : Nat) (unfence pass : Bool) :
    (∃ b, (b.mem = [] ∧ b.ecc = [] ∧ b.lost = false ∧ b.testing = none ∧ b.bistPass = pass) ∧
      (∀ q, (s.tested p unfence pass).bed q = if q = p then b else s.bed q) ∧ (pass = false → b.admin = 2) ∧
      (pass = true → s.again (s.bed p).former unfence = true → b.admin = 0 ∧ b.mapped = true ∧ b.logical = (s.bed p).former.getD 0) ∧
      (pass = true → s.again (s.bed p).former unfence = false → b.admin = 1)) ∧
    (s.tested p unfence pass).requests = s.requests ∧ (s.tested p unfence pass).clk = s.clk ∧ (s.tested p unfence pass).ready = s.ready := by
  cases pass with
  | true =>
    rw [State.tested_pass]
    refine ⟨⟨_, ?_, fun q => State.bed_setBed _ _ _ _, nofun, fun _ h => ?_, fun _ h => ?_⟩, rfl, rfl, rfl⟩
    · split <;> exact ⟨rfl, rfl, rfl, rfl, rfl⟩
    · rw [if_pos h]
      exact ⟨rfl, rfl, rfl⟩
    · rw [if_neg (by simp [h])]
  | false =>
    obtain ⟨n, d, he⟩ := s.tested_fail p unfence
    obtain ⟨g, h, hrep⟩ := State.report_frame ({ s.setBed p (s.bed p).failed with freeN := n } : State)
      (unitId 1 p) (dieGardener p) 0x8A d
    refine ⟨⟨(s.bed p).failed, ⟨rfl, rfl, rfl, rfl, rfl⟩, fun q => ?_, fun _ => rfl, nofun, nofun⟩, ?_, ?_, ?_⟩
    · rw [he, hrep]
      exact State.bed_setBed s p q (s.bed p).failed
    · rw [he]
      exact State.report_requests _ _ _ _ _
    · rw [he]
      exact State.report_clk _ _ _ _ _
    · rw [he, hrep]
      rfl

theorem exec_selftestEnd (s : State) (p : BitVec 8) (pass : Bool) : exec (.selftestEnd p pass) s = execSelftestEnd p pass s := rfl

/-- SELFTEST_END (R381). -/
theorem selftestEnd_effect {s : State} {p : BitVec 8} (pass : Bool) {t0 : Nat × Bool} (ht : (s.bed p.toNat).testing = some t0)
    (hlate : t0.1 + 4000000 ≤ s.now) (hlock : s.clk.locked = true) :
    let b := s.bed p.toNat
    ∃ t, exec (.selftestEnd p pass) s = .next t ∧ (t.bed p.toNat).mem = [] ∧ (t.bed p.toNat).ecc = [] ∧ (t.bed p.toNat).lost = false ∧
      (t.bed p.toNat).testing = none ∧ (t.bed p.toNat).bistPass = pass ∧ (∀ q, q ≠ p.toNat → t.bed q = s.bed q) ∧
      (pass = false → (t.bed p.toNat).admin = 2) ∧
      (∀ n, pass = true → b.former = some n → t0.2 = true → s.physOf n = none →
        (t.bed p.toNat).admin = 0 ∧ (t.bed p.toNat).mapped = true ∧ (t.bed p.toNat).logical = n) ∧
      (pass = true → (b.former = none ∨ t0.2 = false ∨ ∃ n, b.former = some n ∧ s.physOf n ≠ none) → (t.bed p.toNat).admin = 1) ∧
      (s.ready = true → t.host.dbOut.getLsbD 6 = true) ∧
      ∀ w, (s.host.waiters.filter fun w => w.svc == 0x12 && w.unit == p.toNat) = [w] → s.asked w.src = true →
        Done s t w.src 0 0 (b2n pass * 2 ^ 32) := by
  intro b
  obtain ⟨⟨b', ⟨hmem, hecc, hlost, htest, hpass⟩, hbed, hfail, hagain, hspare⟩, hreq, hclk, hready⟩ := s.tested_effect p.toNat t0.2 pass
  have hex : exec (.selftestEnd p pass) s =
      .next (((s.tested p.toNat t0.2 pass).answer 0x12 p.toNat 0 0 (b2n pass * 2 ^ 32)).setDoor 6) := by
    rw [exec_selftestEnd]
    unfold execSelftestEnd
    simp only [ht]
    exact if_pos ⟨hlate, hlock⟩
  generalize s.tested p.toNat t0.2 pass = u at hbed hreq hclk hready hex
  obtain ⟨x, hx⟩ := u.answer_rest 0x12 p.toNat 0 0 (b2n pass * 2 ^ 32) 6
  have hbeds : ∀ q, ((u.answer 0x12 p.toNat 0 0 (b2n pass * 2 ^ 32)).setDoor 6).bed q = if q = p.toNat then b' else s.bed q := fun q => by
    rw [hx]
    exact hbed q
  have hp := (hbeds p.toNat).trans (if_pos rfl)
  refine ⟨_, hex, ?_⟩
  rw [hp]
  refine ⟨hmem, hecc, hlost, htest, hpass, fun q hq => (hbeds q).trans (if_neg hq), hfail, fun n hps hf hu hn => ?_, fun hps hn => ?_,
    fun hrd => ?_, fun w hw hasked => done_setDoor (State.answer_done hreq hclk hw hasked 0 0 _) 6⟩
  · have hf : (s.bed p.toNat).former = some n := hf
    obtain ⟨ha, hm, hl⟩ := hagain hps (by simp [State.again, hf, hu, hn])
    exact ⟨ha, hm, by rw [hl, hf]; rfl⟩
  · refine hspare hps ?_
    rcases hn with hn | hn | ⟨n, hf, hn⟩
    · rw [show (s.bed p.toNat).former = none from hn]
      rfl
    · cases hfm : (s.bed p.toNat).former <;> simp [State.again, hn]
    · rw [show (s.bed p.toNat).former = some n from hf]
      cases hph : s.physOf n
      · exact absurd hph hn
      · simp [State.again, hph]
  · obtain ⟨y, hy⟩ := u.answer_host 0x12 p.toNat 0 0 (b2n pass * 2 ^ 32)
    refine State.setDoor_set _ (by decide) ?_
    rw [hy]
    exact hready.trans hrd

/-- Settles O41: the plots of a fenced bed stop one after the other, and a stop leaves the bed's place in the map. -/
theorem fencesTakeEffectAndSelfTestsReturnBeds : Obligations.FencesTakeEffectAndSelfTestsReturnBeds := by
  unfold Obligations.FencesTakeEffectAndSelfTestsReturnBeds
  exact ⟨⟨fun _ _ h => fence_effect h, fun _ _ hp hr hauto ha hpend hf => bedPollTimeout_effect hp hr hauto ha hpend hf,
      fun _ _ _ hf hrun hlate => fenceTakeEffect_effect hf hrun hlate⟩,
    fun _ _ _ hf hrun ha hm htidy => fenceComplete_effect hf hrun ha hm htidy.plots,
    fun _ _ h => selftest_effect h, fun _ _ pass _ ht hlate hlock => selftestEnd_effect pass ht hlate hlock⟩

end Sys2Proof.Machine
end

section
/-! PROOFS. Attestation, owner enrolment and the power cap (R414, R444, R445, R447, R448): O44, O45. -/

namespace Sys2Proof.Machine

/-! ## The body of a report -/

/-- What stands in a report's body behind its nonce (Table 20.5). -/
def State.attestRest (s : State) : List Byte :=
  digestBytes s.sec.identity ++
    digestBytes s.sec.fwDigest ++ digestBytes s.sec.ownerDigest ++ digestBytes Config.romDigest ++ zeros 64 ++ s.fenceMap ++
    zeros 248 ++ (List.range 64).flatMap (fun i => digestBytes (tget (fun _ => 0) s.sec.recDigests i)) ++
    digestBytes Config.fwClaim

theorem State.attestBody_eq (s : State) (nonce : List Byte) : ∃ v, v.length = 4 ∧ s.attestBody nonce =
    ascii "QP2ATT01" ++ (v ++ (leBytes 4 s.sec.recCount ++ (leBytes 8 s.now ++ (leBytes 8 s.sec.attestCount.toNat ++
      (fitBytes 32 nonce ++ s.attestRest))))) := by
  refine ⟨leBytes 2 1 ++ leBytes 1 revisionId ++
    leBytes 1 (b2n s.sec.ownerFw + 2 * b2n s.sec.owner.isSome + 4 * b2n s.sec.pending + 8 * b2n s.sec.tapUsed + 16 * b2n s.lnk.formed),
    by simp only [List.length_append, leBytes_length], ?_⟩
  unfold State.attestBody State.attestRest
  simp only [List.append_assoc]

theorem drop_append_length {l k : List Byte} {n m : Nat} (h : l.length = n) : (l ++ k).drop (n + m) = k.drop m := by
  rw [← h, List.drop_append, List.drop_eq_nil_of_le (Nat.le_add_right _ _), List.nil_append, Nat.add_sub_cancel_left]

/-- The fields of a body that name its tick, its counter value and its nonce (Table 20.5). -/
theorem State.attestBody_fields (s : State) (nonce : List Byte) :
    (s.attestBody nonce).take 8 = ascii "QP2ATT01" ∧ ((s.attestBody nonce).drop 24).take 8 = leBytes 8 s.sec.attestCount.toNat ∧
      ((s.attestBody nonce).drop 16).take 8 = leBytes 8 s.now ∧ ((s.attestBody nonce).drop 32).take 32 = fitBytes 32 nonce := by
  obtain ⟨v, hv, he⟩ := s.attestBody_eq nonce
  have hascii : (ascii "QP2ATT01").length = 8 := rfl
  have h16 : (s.attestBody nonce).drop 16 = leBytes 8 s.now ++ (leBytes 8 s.sec.attestCount.toNat ++ (fitBytes 32 nonce ++ s.attestRest)) := by
    rw [he, drop_append_length (m := 8) hascii, drop_append_length (m := 4) hv, drop_append_length (m := 0) (leBytes_length _ _)]
    rfl
  have h24 : (s.attestBody nonce).drop 24 = leBytes 8 s.sec.attestCount.toNat ++ (fitBytes 32 nonce ++ s.attestRest) := by
    rw [← List.drop_drop (i := 8) (j := 16), h16, drop_append_length (m := 0) (leBytes_length _ _)]
    rfl
  have h32 : (s.attestBody nonce).drop 32 = fitBytes 32 nonce ++ s.attestRest := by
    rw [← List.drop_drop (i := 8) (j := 24), h24, drop_append_length (m := 0) (leBytes_length _ _)]
    rfl
  refine ⟨by rw [he, List.take_left' hascii], ?_, ?_, ?_⟩
  · rw [h24, List.take_left' (leBytes_length _ _)]
  · rw [h16, List.take_left' (leBytes_length _ _)]
  · rw [h32, List.take_left' (fitBytes_length _ _)]

/-! ## The next report starts -/

/-- The body of the next report: a snapshot with the next counter value. -/
def State.nextBody (s : State) (a : Attest) (rest : List Attest) : List Byte :=
  State.attestBody { s with sec := { s.sec with attestQueue := rest, attestCount := s.sec.attestCount + 1 } } a.nonce

section
variable {s : State}

theorem State.startReport_next {a : Attest} {rest : List Attest} (hb : s.sec.attestBody = none) (hq : s.sec.attestQueue = a :: rest) :
    s.startReport = { s with sec := { s.sec with
      attestQueue := rest, attestCount := s.sec.attestCount + 1, attestBody := some (a, s.nextBody a rest) } } := by
  unfold State.startReport
  simp only [hb, hq]
  rfl

theorem State.startReport_busy (hb : s.sec.attestBody ≠ none) : s.startReport = s := by
  unfold State.startReport
  split
  next h _ => exact absurd h hb
  next => rfl

theorem State.startReport_idle (hq : s.sec.attestQueue = []) : s.startReport = s := by
  unfold State.startReport
  split
  next h => exact absurd (hq.symm.trans h) nofun
  next => rfl

theorem State.startReport_frame (s : State) : ∃ k, s.startReport = { s with sec := k } := by
  unfold State.startReport
  split
  · exact ⟨_, rfl⟩
  · exact ⟨s.sec, rfl⟩

end

theorem exec_attest (s : State) (src : Src) : exec (.attest src) s = execAttest src s := rfl

/-- A report's request joins the queue. -/
def State.askReport (s : State) (a : Attest) : State :=
  ({ s with sec := { s.sec with attestQueue := s.sec.attestQueue ++ [a] } } : State).await 0x30 0 a.src 0

/-- ATTEST (R448). -/
theorem attest_effect {s : State} {src : Src} (h : s.service src 0x30 = true) :
    let a : Attest := { src, nonce := ((s.request src).drop 16).take 32, addr := fieldAt (s.request src) 48 8 }
    ∃ t, exec (.attest src) s = .next t ∧ (∃ w ∈ t.host.waiters, w.src = src) ∧ t.beds = s.beds ∧
      (s.sec.attestBody ≠ none → t.sec = { s.sec with attestQueue := s.sec.attestQueue ++ [a] }) ∧
      (s.sec.attestBody = none → s.sec.attestQueue = [] →
        t.sec.attestCount = s.sec.attestCount + 1 ∧ t.sec.attestQueue = [] ∧ ∃ body, t.sec.attestBody = some (a, body) ∧
          body.take 8 = ascii "QP2ATT01" ∧ (body.drop 24).take 8 = leBytes 8 (s.sec.attestCount + 1).toNat ∧
          (body.drop 16).take 8 = leBytes 8 s.now ∧ (body.drop 32).take 32 = fitBytes 32 a.nonce) := by
  intro a
  have hex : exec (.attest src) s = .next (s.askReport a).startReport := by
    rw [exec_attest]
    exact if_pos h
  obtain ⟨k, hk⟩ := (s.askReport a).startReport_frame
  refine ⟨_, hex, ?_, by rw [hk]; rfl, fun hb => by rw [State.startReport_busy (s := s.askReport a) hb]; rfl, fun hb hq => ?_⟩
  · rw [hk]
    exact ⟨_, List.mem_append_right _ List.mem_cons_self, rfl⟩
  · have hq' : (s.askReport a).sec.attestQueue = [a] := congrArg (· ++ [a]) hq
    rw [State.startReport_next (s := s.askReport a) hb hq']
    obtain ⟨h8, h24, h16, h32⟩ := State.attestBody_fields
      { s.askReport a with sec := { (s.askReport a).sec with attestQueue := [], attestCount := s.sec.attestCount + 1 } } a.nonce
    exact ⟨rfl, rfl, _, rfl, h8, h24, h16, h32⟩

/-! ## A report is written -/

theorem State.setDoor_mem (s : State) (b : Nat) : (s.setDoor b).host.mem = s.host.mem := by
  by_cases hr : s.ready = true
  · obtain ⟨p, q, h⟩ := s.setDoor_eq b hr
    rw [h]
  · rw [show s.setDoor b = s from if_pos (by simp [hr])]

theorem exec_attestReportWritten (s : State) : exec .attestReportWritten s = execAttestReportWritten s := rfl

/-- A report's bytes in host memory, and the signer free. -/
def State.putReport (s : State) (a : Nat) (bytes : List Byte) : State :=
  { s with host := { s.host with mem := mwrite 0 s.host.mem a bytes }, sec := { s.sec with attestBody := none } }

/-- ATTEST_REPORT_WRITTEN (R448). -/
theorem attestReportWritten_effect {s : State} {a : Attest} {body : List Byte} {seed : BitVec 256} (hb : s.sec.attestBody = some (a, body))
    (hs : s.sec.seed = some seed) (hasked : s.asked a.src = true) :
    let bytes := s.reportBytes seed body
    ∃ t, exec .attestReportWritten s = .next t ∧ Done s t a.src 0 0 (49872 * 2 ^ 32) ∧
      mread 0 t.host.mem a.addr bytes.length = bytes ∧
      (∀ d, (d < a.addr ∨ a.addr + bytes.length ≤ d) → mget 0 t.host.mem d = mget 0 s.host.mem d) ∧
      (s.ready = true → t.host.dbOut.getLsbD 10 = true) ∧
      (s.sec.attestQueue = [] → t.sec = { s.sec with attestBody := none }) ∧
      (∀ q qs, s.sec.attestQueue = q :: qs → t.sec.attestQueue = qs ∧ t.sec.attestCount = s.sec.attestCount + 1 ∧
        ∃ next, t.sec.attestBody = some (q, next)) := by
  intro bytes
  have hex : exec .attestReportWritten s = .next (((s.putReport a.addr bytes).serve a.src 0 49872).setDoor 10).startReport := by
    rw [exec_attestReportWritten]
    unfold execAttestReportWritten
    split
    next x y hx hy =>
      obtain rfl : (a, body) = x := Option.some.inj (hb.symm.trans hx)
      obtain rfl : seed = y := Option.some.inj (hs.symm.trans hy)
      rfl
    next hno => exact absurd hs (hno _ _ hb)
  have hdone : Done s ((s.putReport a.addr bytes).serve a.src 0 49872) a.src 0 0 (49872 * 2 ^ 32) :=
    done_congr rfl rfl rfl (State.complete_done (s := s.putReport a.addr bytes) hasked 0 0 (49872 * 2 ^ 32))
  obtain ⟨h, hh, hm⟩ := State.serve_host (s.putReport a.addr bytes) a.src 0 49872
  generalize (s.putReport a.addr bytes).serve a.src 0 49872 = u at hex hdone hh
  have hdoor := done_setDoor hdone 10
  have hset : s.ready = true → (u.setDoor 10).host.dbOut.getLsbD 10 = true := fun hr =>
    State.setDoor_set u (by decide) (by rw [hh]; exact hr)
  have hmem : (u.setDoor 10).host.mem = mwrite 0 s.host.mem a.addr bytes := by
    rw [State.setDoor_mem, hh]
    exact hm
  have hsec : (u.setDoor 10).sec = { s.sec with attestBody := none } := by
    obtain ⟨x, hx⟩ := u.setDoor_frame 10
    rw [hx, hh]
    rfl
  generalize u.setDoor 10 = v at hex hdoor hset hmem hsec
  obtain ⟨k, hk⟩ := v.startReport_frame
  refine ⟨_, hex, ?_, ?_, fun d hd => ?_, fun hr => ?_, fun hq => ?_, fun q qs hq => ?_⟩
  · rw [hk]
    exact hdoor
  · rw [hk]
    show mread 0 v.host.mem a.addr bytes.length = bytes
    rw [hmem, mread_mwrite]
  · rw [hk]
    show mget 0 v.host.mem d = _
    rw [hmem, mget_mwrite_outside _ _ _ _ _ hd]
  · rw [hk]
    exact hset hr
  · rw [State.startReport_idle (by rw [hsec]; exact hq)]
    exact hsec
  · have hq' : v.sec.attestQueue = q :: qs := by rw [hsec]; exact hq
    rw [State.startReport_next (by rw [hsec]) hq']
    exact ⟨rfl, by rw [hsec], _, rfl⟩

/-- Settles O44: a report starts as soon as the signer is free and its queue is not empty. -/
theorem attestationReportsAreQueuedSignedAndWritten : Obligations.AttestationReportsAreQueuedSignedAndWritten := by
  unfold Obligations.AttestationReportsAreQueuedSignedAndWritten
  exact ⟨fun _ _ h => attest_effect h, fun _ _ _ _ hb hs hasked => attestReportWritten_effect hb hs hasked⟩

/-! ## Owner enrolment -/

theorem exec_ownerEnrol (s : State) (src : Src) : exec (.ownerEnrol src) s = execOwnerEnrol src s := rfl

/-- OWNER_ENROL (R445). -/
theorem ownerEnrol_effect {s : State} {src : Src} (h : s.service src 0x31 = true) :
    let d := s.request src
    let len := fieldAt d 24 4
    let req := mread 0 s.host.mem (fieldAt d 16 8) (min len (enrolLen 1 true))
    let c := s.enrolCode req len
    (c.1 ≠ 0 → ∃ t, exec (.ownerEnrol src) s = .next t ∧ t = { s with host := t.host } ∧
      Done s t src 1 0x07 (c.1 + c.2 * 2 ^ 32)) ∧
    (c.1 = 0 → exec (.ownerEnrol src) s = .next (({ s with sec := { s.sec with enrol := some (src, req.take 128) } } : State).await
      0x31 0 src 0)) := by
  intro d len req c
  have hex : exec (.ownerEnrol src) s = if c.1 ≠ 0 then .next (s.serve src c.1 c.2) else
      .next (({ s with sec := { s.sec with enrol := some (src, req.take 128) } } : State).await 0x31 0 src 0) := by
    rw [exec_ownerEnrol]
    exact if_pos h
  refine ⟨fun hc => State.completes (State.asked_of_service h) ?_, fun hc => by rw [hex, if_neg (not_not.mpr hc)]⟩
  rw [hex, if_pos hc, State.serve_error _ _ _ hc]

/-- Bytes read from the front of what was written. -/
theorem mread_mwrite_front (d : Byte) (m : Mem) (a : Nat) (l k : List Byte) : mread d (mwrite d m a (l ++ k)) a l.length = l := by
  refine List.ext_getElem (by simp) fun i h₁ h₂ => ?_
  have hi : i < (l ++ k).length := by
    rw [List.length_append]
    omega
  have hget := mread_getD d (mwrite d m a (l ++ k)) a l.length i h₂
  rw [mget_mwrite_inside d m a (l ++ k) i hi, List.getD_eq_getElem _ _ h₁, List.getD_eq_getElem _ _ hi, List.getElem_append_left h₂] at hget
  exact hget

/-- Bytes read from behind the front of what was written. -/
theorem mread_mwrite_back (d : Byte) (m : Mem) (a : Nat) (l k : List Byte) :
    mread d (mwrite d m a (l ++ k)) (a + l.length) k.length = k := by
  refine List.ext_getElem (by simp) fun i h₁ h₂ => ?_
  have hi : l.length + i < (l ++ k).length := by
    rw [List.length_append]
    omega
  have hget := mread_getD d (mwrite d m a (l ++ k)) (a + l.length) k.length i h₂
  rw [Nat.add_assoc, mget_mwrite_inside d m a (l ++ k) (l.length + i) hi, List.getD_eq_getElem _ _ h₁, List.getD_eq_getElem _ _ hi,
    List.getElem_append_right (Nat.le_add_right _ _)] at hget
  simpa using hget

theorem exec_ownerEnrolComplete (s : State) : exec .ownerEnrolComplete s = execOwnerEnrolComplete s := rfl

/-- The flash with a slot erased and a record written there (R445). -/
def enrolFlash (m : Mem) (a : Nat) (seed : BitVec 256) (r : List Byte) : Mem :=
  mwrite 0xFF (mwrite 0xFF m a (List.replicate 0x10000 0xFF)) a (storedRecord seed r)

/-- The module with a record enrolled, to take effect at the next reset. -/
def State.putRecord (s : State) (seed : BitVec 256) (r : List Byte) : State :=
  { s with sec := { s.sec with flash := enrolFlash s.sec.flash (enrolSlot (1 - s.sec.ownerSlot)) seed r, enrol := none, pending := true } }

theorem storedRecord_length {seed : BitVec 256} {r : List Byte} (hr : r.length = 128) : (storedRecord seed r).length = 29920 := by
  rw [storedRecord, List.length_append, hr, fitBytes_length]
  rfl

theorem enrolFlash_outside (m : Mem) {a d : Nat} (seed : BitVec 256) {r : List Byte} (hr : r.length = 128) (h : d < a ∨ a + 0x10000 ≤ d) :
    mget 0xFF (enrolFlash m a seed r) d = mget 0xFF m d := by
  unfold enrolFlash
  rw [mget_mwrite_outside _ _ _ _ _ (by rw [storedRecord_length hr]; omega),
    mget_mwrite_outside _ _ _ _ _ (by rw [List.length_replicate]; exact h)]

/-- OWNER_ENROL_COMPLETE (R445). -/
theorem ownerEnrolComplete_effect {s : State} {src : Src} {r : List Byte} {seed : BitVec 256} (he : s.sec.enrol = some (src, r))
    (hs : s.sec.seed = some seed) (hasked : s.asked src = true) (hr : r.length = 128) :
    let a := enrolSlot (1 - s.sec.ownerSlot)
    ∃ t, exec .ownerEnrolComplete s = .next t ∧ Done s t src 0 0 0 ∧ t.sec = { s.sec with
        enrol := none, pending := true, flash := t.sec.flash } ∧ t.flashBytes a 128 = r ∧
      t.flashBytes (a + 128) sig256 = fitBytes sig256 (Config.slh256Sign (bndSecret seed) r) ∧
      ∀ d, (d < a ∨ a + 0x10000 ≤ d) → mget 0xFF t.sec.flash d = mget 0xFF s.sec.flash d := by
  intro a
  have hex : exec .ownerEnrolComplete s = .next ((s.putRecord seed r).serve src 0 0) := by
    rw [exec_ownerEnrolComplete]
    unfold execOwnerEnrolComplete
    split
    next x y hx hy =>
      obtain rfl : (src, r) = x := Option.some.inj (he.symm.trans hx)
      obtain rfl : seed = y := Option.some.inj (hs.symm.trans hy)
      rfl
    next hno => exact absurd hs (hno _ _ he)
  obtain ⟨h, hh, -⟩ := State.serve_host (s.putRecord seed r) src 0 0
  have hdone : Done s ((s.putRecord seed r).serve src 0 0) src 0 0 0 := State.serve_done_of_host hasked rfl rfl
  have hsec : ((s.putRecord seed r).serve src 0 0).sec = (s.putRecord seed r).sec := by rw [hh]
  generalize (s.putRecord seed r).serve src 0 0 = u at hex hdone hsec
  have hflash : u.sec.flash = enrolFlash s.sec.flash a seed r := by rw [hsec]; rfl
  refine ⟨u, hex, hdone, by rw [hsec]; rfl, ?_, ?_, fun d hd => ?_⟩
  · unfold State.flashBytes
    rw [hflash, ← hr]
    exact mread_mwrite_front _ _ _ _ _
  · unfold State.flashBytes
    have hb := mread_mwrite_back 0xFF (mwrite 0xFF s.sec.flash a (List.replicate 0x10000 0xFF)) a r
      (fitBytes sig256 (Config.slh256Sign (bndSecret seed) r))
    rw [hr, fitBytes_length] at hb
    rw [hflash]
    exact hb
  · rw [hflash, enrolFlash_outside _ _ hr hd]

/-! ## The power cap -/

theorem exec_powerCap (s : State) (src : Src) : exec (.powerCap src) s = execPowerCap src s := rfl

/-- POWER_CAP (R414). -/
theorem powerCap_effect {s : State} {src : Src} (h : s.service src 0x40 = true) :
    let v := fieldAt (s.request src) 16 2
    (v < 800 ∨ 2000 < v → ∃ t, exec (.powerCap src) s = .next t ∧ t = { s with host := t.host } ∧ Done s t src 1 0x07 0x71) ∧
    (800 ≤ v → v ≤ 2000 → ∃ t, exec (.powerCap src) s = .next t ∧
      t = { s with host := t.host, pwr := { s.pwr with cap := v } } ∧ Done s t src 0 0 0 ∧
      (v ≠ s.pwr.cap → s.ready = true → t.host.dbOut.getLsbD 3 = true)) := by
  intro v
  have hex : exec (.powerCap src) s = if v < 800 ∨ 2000 < v then .next (s.serve src 0x71 0) else
      .next (if v ≠ s.pwr.cap then (State.serve { s with pwr := { s.pwr with cap := v } } src 0 0).setDoor 3
        else State.serve { s with pwr := { s.pwr with cap := v } } src 0 0) := by
    rw [exec_powerCap]
    exact if_pos h
  refine ⟨fun hv => State.refuses h (by decide) (by rw [hex, if_pos hv]), fun hlo hhi => ?_⟩
  have hdone : Done s (State.serve { s with pwr := { s.pwr with cap := v } } src 0 0) src 0 0 0 :=
    State.serve_done_of_host (State.asked_of_service h) rfl rfl
  obtain ⟨x, hx, -⟩ := State.serve_host { s with pwr := { s.pwr with cap := v } } src 0 0
  generalize State.serve { s with pwr := { s.pwr with cap := v } } src 0 0 = u at hex hdone hx
  refine ⟨_, by rw [hex, if_neg (by omega)], ?_⟩
  by_cases hc : v ≠ s.pwr.cap
  · rw [if_pos hc]
    obtain ⟨y, hy⟩ := u.setDoor_frame 3
    refine ⟨by rw [hy, hx], done_setDoor hdone 3, fun _ hr => State.setDoor_set u (by decide) (by rw [hx]; exact hr)⟩
  · rw [if_neg hc]
    exact ⟨by rw [hx], hdone, fun h => absurd h hc⟩

/-- Settles O45: the record goes behind the slot in force, whose bytes stay. -/
theorem enrolmentWritesTheOtherSlotAndCapsAreBounded : Obligations.EnrolmentWritesTheOtherSlotAndCapsAreBounded := by
  unfold Obligations.EnrolmentWritesTheOtherSlotAndCapsAreBounded
  exact ⟨fun _ _ h => ownerEnrol_effect h, fun _ _ _ _ he hs hasked hr => ownerEnrolComplete_effect he hs hasked hr,
    fun _ _ h => powerCap_effect h⟩

end Sys2Proof.Machine
end

section
/-! PROOFS. The fault collector and the gardeners' watchdog (R371, R384, R385): O46. -/

namespace Sys2Proof.Machine

/-! ## Reports and acknowledgements -/

/-- The entry that a first report writes (R384). -/
def State.newFlt (s : State) (unit reporter cause : Nat) (detail : W64) : Flt :=
  { valid := true, unit, cause, count := 1, tick := s.clk.sundial, reporter, detail, order := s.grd.fltOrder }

/-- An entry taken, and the next place to look for a free one. -/
def State.takeFlt (s : State) (e : Nat) (f : Flt) : State :=
  { s with grd := { s.grd with flt := tset (fun _ => {}) s.grd.flt e f, fltNext := (e + 1) % 256, fltOrder := s.grd.fltOrder + 1 } }

section
variable {s : State} {unit : Nat}

theorem State.report_again {e : Nat × Flt} (h : (s.grd.flt.find? fun e => e.2.valid && e.2.unit == unit) = some e) (reporter cause detail : Nat) :
    s.report unit reporter cause detail =
      { s with grd := { s.grd with flt := tset (fun _ => {}) s.grd.flt e.1 { e.2 with count := satAdd 16 e.2.count 1 } } } := by
  unfold State.report
  simp only [h]

theorem find_unit_eq_none (h : ∀ e ∈ s.grd.flt, e.2.valid = true → e.2.unit ≠ unit) :
    (s.grd.flt.find? fun e => e.2.valid && e.2.unit == unit) = none := by
  refine List.find?_eq_none.mpr fun e he hv => ?_
  simp only [Bool.and_eq_true, beq_iff_eq] at hv
  exact h e he hv.1 hv.2

theorem State.report_dropped (h : ∀ e ∈ s.grd.flt, e.2.valid = true → e.2.unit ≠ unit) (hf : s.grd.freeFrom s.grd.fltNext = none)
    (reporter cause detail : Nat) :
    s.report unit reporter cause detail = { s with grd := { s.grd with fltDropped := satAdd 32 s.grd.fltDropped 1 } } := by
  unfold State.report
  simp only [find_unit_eq_none h, hf]

theorem State.report_first {e : Nat} (h : ∀ e ∈ s.grd.flt, e.2.valid = true → e.2.unit ≠ unit) (hf : s.grd.freeFrom s.grd.fltNext = some e)
    (reporter cause : Nat) (detail : W64) : s.report unit reporter cause detail.toNat =
      (s.takeFlt e (s.newFlt unit reporter cause detail)).setDoor 2 := by
  unfold State.report State.newFlt
  simp only [find_unit_eq_none h, hf, BitVec.ofNat_toNat, BitVec.setWidth_eq]
  rfl

/-- A free entry is one of the 256. -/
theorem Grd.freeFrom_some {g : Grd} {k e : Nat} (h : g.freeFrom k = some e) : e < 256 ∧ (g.entry e).valid = false := by
  unfold Grd.freeFrom at h
  obtain ⟨i, -, rfl⟩ := List.mem_map.mp (List.mem_of_find?_eq_some h)
  have hv := List.find?_some h
  exact ⟨Nat.mod_lt _ (by decide), by simpa using hv⟩

end

theorem exec_faultReport {s : State} (h : s.clk.locked = true) (unit reporter : BitVec 20) (cause : BitVec 8) (detail : W64) :
    exec (.faultReport unit reporter cause detail) s = .next (s.report unit.toNat reporter.toNat cause.toNat detail.toNat) := if_pos h

/-- FAULT_REPORT (R384, R385). -/
theorem faultReport_effect {s : State} (unit reporter : BitVec 20) (cause : BitVec 8) (detail : W64) (hl : s.clk.locked = true) :
    let g := s.grd
    (∀ e, (g.flt.find? fun e => e.2.valid && e.2.unit == unit.toNat) = some e →
      exec (.faultReport unit reporter cause detail) s = .next { s with
        grd := { g with flt := tset (fun _ => {}) g.flt e.1 { e.2 with count := satAdd 16 e.2.count 1 } } }) ∧
    ((∀ e ∈ g.flt, e.2.valid = true → e.2.unit ≠ unit.toNat) → g.freeFrom g.fltNext = none →
      exec (.faultReport unit reporter cause detail) s = .next { s with
        grd := { g with fltDropped := satAdd 32 g.fltDropped 1 } }) ∧
    ∀ e, (∀ e ∈ g.flt, e.2.valid = true → e.2.unit ≠ unit.toNat) → g.freeFrom g.fltNext = some e →
      ∃ t, exec (.faultReport unit reporter cause detail) s = .next t ∧ e < 256 ∧ (g.entry e).valid = false ∧
        t = { s with host := t.host, grd := t.grd } ∧
        t.grd.entry e = { valid := true, unit := unit.toNat, cause := cause.toNat, count := 1, tick := s.clk.sundial,
                          reporter := reporter.toNat, detail, order := g.fltOrder } ∧
        (∀ j, j ≠ e → t.grd.entry j = g.entry j) ∧ t.grd.fltNext = (e + 1) % 256 ∧
        (s.ready = true → t.host.dbOut.getLsbD 2 = true) := by
  intro g
  refine ⟨fun e he => ?_, fun hno hfree => ?_, fun e hno hfree => ?_⟩
  · rw [exec_faultReport hl, State.report_again he]
  · rw [exec_faultReport hl, State.report_dropped hno hfree]
  · obtain ⟨hlt, hv⟩ := Grd.freeFrom_some hfree
    refine ⟨_, (exec_faultReport hl unit reporter cause detail).trans (congrArg Host.Outcome.next (State.report_first hno hfree _ _ _)),
      hlt, hv, ?_⟩
    generalize hf : s.newFlt unit.toNat reporter.toNat cause.toNat detail = f
    obtain ⟨x, hx⟩ := State.setDoor_frame (s.takeFlt e f) 2
    refine ⟨by rw [hx]; rfl, ?_, fun j hj => ?_, by rw [hx]; rfl, fun hr => State.setDoor_set (s.takeFlt e f) (by decide) hr⟩
    · rw [hx]
      exact (tget_tset_self (fun _ => ({} : Flt)) s.grd.flt e f).trans hf.symm
    · rw [hx]
      exact tget_tset_ne (fun _ => ({} : Flt)) s.grd.flt e f j hj

theorem exec_faultAck (s : State) (rid : BitVec 16) (e : BitVec 8) : exec (.faultAck rid e) s = execFaultAck rid e s := rfl

/-- FAULT_ACK (R385). -/
theorem faultAck_effect {s : State} {rid : BitVec 16} (e : BitVec 8) (h : Reached s rid) :
    ∃ t, exec (.faultAck rid e) s = .next t ∧ t = { s with grd := t.grd } ∧ t.grd.entry e.toNat = {} ∧
      ∀ j, j ≠ e.toNat → t.grd.entry j = s.grd.entry j := by
  refine ⟨s.ackFault e.toNat, ?_, rfl, tget_tset_self (fun _ => ({} : Flt)) s.grd.flt e.toNat {}, fun j hj => ?_⟩
  · rw [exec_faultAck]
    exact congrArg Host.Outcome.next (State.bar0_of_reached h _)
  · exact tget_tset_ne (fun _ => ({} : Flt)) s.grd.flt e.toNat {} j hj

/-! ## Heartbeats -/

/-- The heartbeats that a gardener has given, and the ones that it has missed in a row (R371). -/
def State.beats (s : State) (g : Nat) : Nat := tget (fun _ => 0) s.grd.heartbeat g
def State.missed (s : State) (g : Nat) : Nat := tget (fun _ => 0) s.grd.misses g
def State.gard (s : State) (g : Nat) : Nat := tget (fun _ => 0) s.grd.gardState g

/-- A gardener's heartbeat, and its miss, counted. -/
def State.hear (s : State) (g : Nat) : State :=
  { s with grd := { s.grd with
    heartbeat := tset (fun _ => 0) s.grd.heartbeat g (satAdd 32 (s.beats g) 1), misses := tset (fun _ => 0) s.grd.misses g 0 } }
def State.miss (s : State) (g : Nat) : State :=
  { s with grd := { s.grd with misses := tset (fun _ => 0) s.grd.misses g (s.missed g + 1) } }

theorem State.hear_counts (s : State) (g j : Nat) : (s.hear g).beats j = (if j = g then satAdd 32 (s.beats g) 1 else s.beats j) ∧
    (s.hear g).missed j = if j = g then 0 else s.missed j :=
  ⟨tget_tset (fun _ => (0 : Nat)) s.grd.heartbeat g _ j, tget_tset (fun _ => (0 : Nat)) s.grd.misses g 0 j⟩

theorem State.miss_counts (s : State) (g j : Nat) : (s.miss g).missed j = if j = g then s.missed g + 1 else s.missed j :=
  tget_tset (fun _ => (0 : Nat)) s.grd.misses g (s.missed g + 1) j

theorem State.checkGardener_stopped {s : State} {g : Nat} (h : s.gard g ≠ 1) (a : Bool) : s.checkGardener g a = s := if_pos h

theorem State.checkGardener_hears {s : State} {g : Nat} (h : s.gard g = 1) : s.checkGardener g true = s.hear g := if_neg (not_not.mpr h)

theorem State.checkGardener_misses {s : State} {g : Nat} (h : s.gard g = 1) :
    s.checkGardener g false = if s.missed g + 1 = 10 then (s.miss g).watchdog g else s.miss g := if_neg (not_not.mpr h)

/-- A check of one gardener has counted its heartbeat, or its miss. -/
def Counted (a : Bool) (g : Nat) (s t : State) : Prop :=
  s.gard g = 1 → (a = true → t.beats g = satAdd 32 (s.beats g) 1 ∧ t.missed g = 0) ∧ (a = false → t.beats g = s.beats g ∧ t.missed g = s.missed g + 1)

/-- A check of heartbeats that changes nothing else. -/
def Calm (s t : State) : Prop := ∃ hb ms, t = { s with grd := { s.grd with heartbeat := hb, misses := ms } }

section
variable {s t u : State} {g : Nat}

theorem Calm.refl : Calm s s := ⟨s.grd.heartbeat, s.grd.misses, rfl⟩

theorem Calm.trans (a : Calm s t) (b : Calm t u) : Calm s u := by
  obtain ⟨hb, ms, rfl⟩ := a
  obtain ⟨hb', ms', rfl⟩ := b
  exact ⟨hb', ms', rfl⟩

theorem State.checkGardener_of_calm (a : Bool) (hm : s.missed g < 9) : Calm s (s.checkGardener g a) ∧ Counted a g s (s.checkGardener g a) ∧
    ∀ j, j ≠ g → (s.checkGardener g a).beats j = s.beats j ∧ (s.checkGardener g a).missed j = s.missed j := by
  by_cases h1 : s.gard g = 1
  · cases a with
    | true =>
      rw [State.checkGardener_hears h1]
      refine ⟨⟨_, _, rfl⟩, fun _ => ⟨fun _ => ?_, nofun⟩, fun j hj => ?_⟩
      · obtain ⟨hb, hms⟩ := s.hear_counts g g
        exact ⟨hb.trans (if_pos rfl), hms.trans (if_pos rfl)⟩
      · obtain ⟨hb, hms⟩ := s.hear_counts g j
        exact ⟨hb.trans (if_neg hj), hms.trans (if_neg hj)⟩
    | false =>
      rw [State.checkGardener_misses h1, if_neg (by omega)]
      exact ⟨⟨s.grd.heartbeat, _, rfl⟩, fun _ => ⟨nofun, fun _ => ⟨rfl, (s.miss_counts g g).trans (if_pos rfl)⟩⟩,
        fun j hj => ⟨rfl, (s.miss_counts g j).trans (if_neg hj)⟩⟩
  · rw [State.checkGardener_stopped h1]
    exact ⟨.refl, fun h => absurd h h1, fun _ _ => ⟨rfl, rfl⟩⟩

theorem foldl_checkGardener_of_calm (a : Nat → Bool) {gs : List Nat} (hn : gs.Nodup) (hm : ∀ g ∈ gs, s.missed g < 9) :
    Calm s (gs.foldl (fun (s : State) g => s.checkGardener g (a g)) s) ∧
      (∀ g ∈ gs, Counted (a g) g s (gs.foldl (fun (s : State) g => s.checkGardener g (a g)) s)) ∧
      ∀ j ∉ gs, (gs.foldl (fun (s : State) g => s.checkGardener g (a g)) s).beats j = s.beats j ∧
        (gs.foldl (fun (s : State) g => s.checkGardener g (a g)) s).missed j = s.missed j := by
  induction gs generalizing s with
  | nil => exact ⟨.refl, nofun, fun _ _ => ⟨rfl, rfl⟩⟩
  | cons g gs ih =>
    obtain ⟨hg, hn⟩ := List.nodup_cons.mp hn
    obtain ⟨c1, k1, o1⟩ := State.checkGardener_of_calm (a g) (hm g List.mem_cons_self)
    rw [List.foldl_cons]
    generalize s.checkGardener g (a g) = t at c1 k1 o1
    have hgard : ∀ j, t.gard j = s.gard j := fun j => by
      obtain ⟨hb, ms, rfl⟩ := c1
      rfl
    have hne : ∀ j ∈ gs, j ≠ g := fun j hj h => hg (h ▸ hj)
    obtain ⟨c2, k2, o2⟩ := ih (s := t) hn fun j hj => by
      rw [(o1 j (hne j hj)).2]
      exact hm j (List.mem_cons_of_mem _ hj)
    refine ⟨c1.trans c2, fun j hj => ?_, fun j hj => ?_⟩
    · rcases List.mem_cons.mp hj with rfl | hj
      · obtain ⟨hb, hms⟩ := o2 j hg
        unfold Counted
        rw [hb, hms]
        exact k1
      · obtain ⟨hb, hms⟩ := o1 j (hne j hj)
        have h2 := k2 j hj
        unfold Counted at h2 ⊢
        rwa [hgard, hb, hms] at h2
    · obtain ⟨hb, hms⟩ := o1 j fun h => hj (h ▸ List.mem_cons_self)
      obtain ⟨hb', hms'⟩ := o2 j fun h => hj (List.mem_cons_of_mem _ h)
      exact ⟨hb'.trans hb, hms'.trans hms⟩

/-! ## The tenth miss -/

/-- A module in recovery because of its watchdog (R371, R434). -/
def InRecovery (s : State) : Prop := s.ready = false ∧ s.fld 0x0 2 1 = 1 ∧ s.pins.recovery = 0x8B

theorem InRecovery.of_regs (h : InRecovery s) (hr : t.regs = s.regs) (hp : t.pins = s.pins) : InRecovery t := by
  unfold InRecovery State.ready State.fld State.reg at *
  rw [hr, hp]
  exact h

theorem State.recover_inRecovery (s : State) : InRecovery (s.recover 0x8B) :=
  ⟨s.leaveService_ready, s.leaveService_recovery, rfl⟩

/-- Rings and doorbells aside, the watchdog ends one gardener (R371). -/
theorem State.watchdog_effect (s : State) (g : Nat) : InRecovery (s.watchdog g) ∧ (s.watchdog g).beds = s.beds ∧
    (s.watchdog g).gard g = 2 ∧ ∀ j, j ≠ g → (s.watchdog g).gard j = s.gard j ∧ (s.watchdog g).missed j = s.missed j := by
  have hreport : ∀ j, (s.report (unitId 9 g) (unitId 9 8) 0x8B 0).gard j = s.gard j ∧
      (s.report (unitId 9 g) (unitId 9 8) 0x8B 0).missed j = s.missed j := fun j => by
    unfold State.report
    simp only []
    split
    · exact ⟨rfl, rfl⟩
    · split
      · exact ⟨rfl, rfl⟩
      · obtain ⟨h, he⟩ := State.setDoor_frame (s := _) 2
        rw [he]
        exact ⟨rfl, rfl⟩
  obtain ⟨d, h, hr⟩ := s.report_frame (unitId 9 g) (unitId 9 8) 0x8B 0
  unfold State.watchdog
  extract_lets s1 src s2 rings s3
  have h1 : s1.beds = s.beds := by unfold s1; rw [hr]
  have h3 : s3.beds = s2.beds ∧ s3.grd = s2.grd :=
    List.foldlRecOn (motive := fun t : State => t.beds = s2.beds ∧ t.grd = s2.grd) _ _ ⟨rfl, rfl⟩ fun t ht r _ => by
      dsimp only
      split
      · exact ht
      · exact ht
  have hgrd : (s3.recover 0x8B).grd = s2.grd := h3.2
  refine ⟨s3.recover_inRecovery, (s3.leaveService_frame.2.2.1.trans h3.1).trans h1, ?_, fun j hj => ?_⟩
  · unfold State.gard
    rw [hgrd]
    exact tget_tset_self (fun _ => (0 : Nat)) s1.grd.gardState g 2
  · obtain ⟨hg, hm⟩ := hreport j
    unfold State.gard State.missed
    rw [hgrd]
    exact ⟨(tget_tset_ne (fun _ => (0 : Nat)) s1.grd.gardState g 2 j hj).trans hg, hm⟩

theorem State.checkGardener_rest (s : State) (g : Nat) (a : Bool) : (s.checkGardener g a).beds = s.beds ∧
    (InRecovery s → InRecovery (s.checkGardener g a)) ∧
    ∀ j, j ≠ g → (s.checkGardener g a).gard j = s.gard j ∧ (s.checkGardener g a).missed j = s.missed j := by
  by_cases h1 : s.gard g = 1
  · cases a with
    | true =>
      rw [State.checkGardener_hears h1]
      exact ⟨rfl, fun h => h.of_regs rfl rfl, fun j hj => ⟨rfl, (s.hear_counts g j).2.trans (if_neg hj)⟩⟩
    | false =>
      have hm : ∀ j, j ≠ g → (s.miss g).missed j = s.missed j := fun j hj => (s.miss_counts g j).trans (if_neg hj)
      rw [State.checkGardener_misses h1]
      split
      · obtain ⟨hrec, hbeds, -, ho⟩ := (s.miss g).watchdog_effect g
        exact ⟨hbeds, fun _ => hrec, fun j hj => ⟨(ho j hj).1, (ho j hj).2.trans (hm j hj)⟩⟩
      · exact ⟨rfl, fun h => h.of_regs rfl rfl, fun j hj => ⟨rfl, hm j hj⟩⟩
  · rw [State.checkGardener_stopped h1]
    exact ⟨rfl, id, fun _ _ => ⟨rfl, rfl⟩⟩

/-- A gardener that the watchdog has ended. -/
def GardEnded (g : Nat) (s : State) : Prop := s.gard g = 2 ∧ InRecovery s

theorem State.checkGardener_ends (h1 : s.gard g = 1) (h9 : s.missed g = 9) : GardEnded g (s.checkGardener g false) := by
  rw [State.checkGardener_misses h1, if_pos (by rw [h9])]
  obtain ⟨hrec, -, hg, -⟩ := (s.miss g).watchdog_effect g
  exact ⟨hg, hrec⟩

theorem GardEnded.checkGardener (h : GardEnded g s) (j : Nat) (a : Bool) : GardEnded g (s.checkGardener j a) := by
  obtain ⟨h2, hrec⟩ := h
  obtain ⟨-, hr, ho⟩ := s.checkGardener_rest j a
  by_cases hj : g = j
  · subst hj
    rw [State.checkGardener_stopped (by omega)]
    exact ⟨h2, hrec⟩
  · exact ⟨(ho g hj).1.trans h2, hr hrec⟩

theorem foldl_checkGardener_ends (a : Nat → Bool) {gs : List Nat} (hg : g ∈ gs) (h1 : s.gard g = 1) (h9 : s.missed g = 9) (ha : a g = false) :
    GardEnded g (gs.foldl (fun (s : State) g => s.checkGardener g (a g)) s) := by
  induction gs generalizing s with
  | nil => cases hg
  | cons j gs ih =>
    rw [List.foldl_cons]
    by_cases hj : g = j
    · subst hj
      rw [ha]
      exact List.foldlRecOn (motive := fun t => GardEnded g t) _ _ (State.checkGardener_ends h1 h9) fun _ ht x _ => ht.checkGardener x (a x)
    · obtain ⟨-, -, ho⟩ := s.checkGardener_rest j (a j)
      exact ih ((List.mem_cons.mp hg).resolve_left hj) ((ho g hj).1.trans h1) ((ho g hj).2.trans h9)

/-! ## The check -/

/-- A module whose heartbeats have been checked in this tick. -/
def State.checkedNow (s : State) : State := { s with grd := { s.grd with checked := some s.clk.sundial } }

theorem exec_heartbeatCheck (alive : BitVec 10) (h0 : s.now % 100000 = 0) (hl : s.clk.locked = true) (h8 : s.gardens 8 = true)
    (hc : s.grd.checked ≠ some s.clk.sundial) : exec (.heartbeatCheck alive) s =
      .next ((List.range 10).foldl (fun (s : State) g => s.checkGardener g (g == 8 || alive.getLsbD g)) s.checkedNow) :=
  if_pos ⟨h0, hl, h8, hc⟩

end

/-- HEARTBEAT_CHECK (R371). -/
theorem heartbeatCheck_effect {s : State} (alive : BitVec 10) (h0 : s.now % 100000 = 0) (hl : s.clk.locked = true)
    (h8 : s.gardens 8 = true) (hc : s.grd.checked ≠ some s.clk.sundial) :
    let beats := fun (s : State) (g : Nat) => tget (fun _ => 0) s.grd.heartbeat g
    let missed := fun (s : State) (g : Nat) => tget (fun _ => 0) s.grd.misses g
    let heard := fun (g : Nat) => g = 8 ∨ alive.getLsbD g = true
    ((∀ g, g < 10 → missed s g < 9) →
      ∃ t, exec (.heartbeatCheck alive) s = .next t ∧ t = { s with grd := t.grd } ∧ t.grd.gardState = s.grd.gardState ∧
        t.grd.flt = s.grd.flt ∧ ∀ g, g < 10 → tget (fun _ => 0) s.grd.gardState g = 1 →
          (heard g → beats t g = satAdd 32 (beats s g) 1 ∧ missed t g = 0) ∧
          (¬heard g → beats t g = beats s g ∧ missed t g = missed s g + 1)) ∧
    ∀ g, g < 10 → tget (fun _ => 0) s.grd.gardState g = 1 → ¬heard g → missed s g = 9 →
      ∃ t, exec (.heartbeatCheck alive) s = .next t ∧ tget (fun _ => 0) t.grd.gardState g = 2 ∧ t.ready = false ∧
        t.fld 0x0 2 1 = 1 ∧ t.pins.recovery = 0x8B ∧ t.beds = s.beds := by
  intro beats missed heard
  have hex := exec_heartbeatCheck alive h0 hl h8 hc
  refine ⟨fun hm => ?_, fun g hg h1 hh h9 => ?_⟩
  · obtain ⟨⟨hb, ms, hcalm⟩, hcount, -⟩ := foldl_checkGardener_of_calm (s := s.checkedNow) (fun g => g == 8 || alive.getLsbD g)
      (List.nodup_range (n := 10)) fun g hg => hm g (List.mem_range.mp hg)
    refine ⟨_, hex, by rw [hcalm]; rfl, by rw [hcalm]; rfl, by rw [hcalm]; rfl, fun g hg h1 => ?_⟩
    obtain ⟨ha, hn⟩ := hcount g (List.mem_range.mpr hg) h1
    exact ⟨fun hh => ha (by simpa [heard] using hh), fun hh => hn (by simpa [heard] using hh)⟩
  · obtain ⟨h2, hready, hrec, hpin⟩ := foldl_checkGardener_ends (s := s.checkedNow) (fun g => g == 8 || alive.getLsbD g)
      (List.mem_range.mpr hg) h1 h9 (by simpa [heard] using hh)
    refine ⟨_, hex, h2, hready, hrec, hpin, ?_⟩
    exact foldl_same State.beds fun t g => (t.checkGardener_rest g _).1

/-- Settles O46: every report finds its unit's entry or the first free one, and every gardener is checked once. -/
theorem faultsAreCollectedAndHeartbeatsChecked : Obligations.FaultsAreCollectedAndHeartbeatsChecked := by
  unfold Obligations.FaultsAreCollectedAndHeartbeatsChecked
  exact ⟨⟨fun _ unit reporter cause detail hl => faultReport_effect unit reporter cause detail hl, fun _ _ e h => faultAck_effect e h⟩,
    fun _ alive h0 hl h8 hc => heartbeatCheck_effect alive h0 hl h8 hc⟩

end Sys2Proof.Machine
end

section
/-! PROOFS. Writes of registers (R7, R8, R343, R344, R346, R365): O47. -/

namespace Sys2Proof.Machine

/-! ## The bits that a write takes -/

theorem getLsbD_putBits (old v cover mask : W64) (b : Nat) (hb : b < 64) : (putBits old v cover mask).getLsbD b =
    if cover.getLsbD b = true ∧ mask.getLsbD b = true then v.getLsbD b else old.getLsbD b := by
  simp only [putBits, BitVec.getLsbD_or, BitVec.getLsbD_and, BitVec.getLsbD_not, hb, decide_true, Bool.true_and]
  cases cover.getLsbD b <;> cases mask.getLsbD b <;> simp

/-- A write of 8 bytes covers every bit. -/
theorem and_lowMask_64 (v : W64) : v &&& lowMask 64 = v := by
  have h : lowMask 64 = BitVec.allOnes 64 := by decide
  rw [h, BitVec.and_allOnes]

/-! ## The access checks -/

theorem exec_registerWrite (s : State) (rid : BitVec 16) (bar2 : Bool) (off : BitVec 26) (bytes : Nat) (v : W64) :
    exec (.registerWrite rid bar2 off bytes v) s = execRegisterWrite rid bar2 off bytes v s := rfl

section
variable {s : State} {rid : BitVec 16} {off : BitVec 26} {bytes : Nat}

theorem registerWrite_misplaced (v : W64) (ha : s.alive = true) (hok : accessOk off.toNat bytes = false) :
    exec (.registerWrite rid false off bytes v) s = .next (s.bump 0x10 0 12 1) := by
  rw [exec_registerWrite]
  unfold execRegisterWrite
  simp only [ha, hok, Bool.not_true, Bool.not_false, Bool.false_eq_true, if_false, if_true]

/-- Any other write of BAR0 goes by the requester's right. -/
theorem registerWrite_bar0 (v : W64) (ha : s.alive = true) (hok : accessOk off.toNat bytes = true) :
    exec (.registerWrite rid false off bytes v) s =
      .next (s.bar0 rid fun s => s.writeReg (off.toNat - off.toNat % 8) (placed off.toNat bytes v) (coverOf off.toNat bytes)) := by
  rw [exec_registerWrite]
  unfold execRegisterWrite
  simp only [ha, hok, Bool.not_true, Bool.false_eq_true, if_false]

theorem registerWrite_foreign (v : W64) (ha : s.alive = true) (hok : accessOk off.toNat bytes = true) (hm : s.mine rid = false) :
    exec (.registerWrite rid false off bytes v) s = .next (s.bump 0x10 12 12 1) := by
  rw [registerWrite_bar0 v ha hok]
  unfold State.bar0
  simp only [ha, hm, Bool.not_true, Bool.false_eq_true, if_false]

theorem registerWrite_early (v : W64) (ha : s.alive = true) (ho : off.toNat < 0x100000) (hr : s.ready = false) :
    exec (.registerWrite rid true off bytes v) s = .next (s.bump 0x10 54 10 1) := by
  rw [exec_registerWrite]
  unfold execRegisterWrite
  simp only [ha, hr, Bool.not_true, Bool.not_false, Bool.false_eq_true, if_false, if_true, Nat.not_le.mpr ho]

/-- The holder's write of a whole register reaches it. -/
theorem registerWrite_whole (v : W64) (h : Reached s rid) (h8 : off.toNat % 8 = 0) :
    exec (.registerWrite rid false off 8 v) s = .next (s.writeReg off.toNat v (lowMask 64)) := by
  rw [registerWrite_bar0 v h.1 (by simp [accessOk, h8]), State.bar0_of_reached h, h8]
  rfl

/-! ## What a write does, by the register's access codes -/

/-- The target of mulch takes its nine bits (RW). -/
theorem registerWrite_mulch (v : W64) (h : Reached s rid) : exec (.registerWrite rid false 0x40028 8 v) s =
    .next (s.setReg 0x40028 (putBits (s.reg 0x40028) v (lowMask 64) (lowMask 9))) := by
  rw [registerWrite_whole v h (by decide)]
  rfl

/-- A place without a register takes nothing (R8). -/
theorem registerWrite_nowhere (v : W64) (h : Reached s rid) : exec (.registerWrite rid false 0x2002C 4 v) s = .next s := by
  rw [registerWrite_bar0 v h.1 (by decide), State.bar0_of_reached h]
  rfl

/-- A latch goes by its valid bit (W1C). -/
theorem registerWrite_latch (v : W64) (h : Reached s rid) : exec (.registerWrite rid false 0x60018 8 v) s =
    .next (if v.getLsbD 0 then s.setReg 0x60018 0 else s) := by
  rw [registerWrite_whole v h (by decide)]
  have he : s.writeReg (0x60018 : BitVec 26).toNat v (lowMask 64) = s.clearAll 0x60018 v (lowMask 64) := rfl
  rw [he, State.clearAll, and_lowMask_64]

/-- A register that is loaded before service stays in service (RWL). -/
theorem registerWrite_loaded (v : W64) (h : Reached s rid) (hr : s.ready = true) :
    exec (.registerWrite rid false 0x80010 8 v) s = .next s := by
  rw [registerWrite_whole v h (by decide)]
  have he : s.writeReg (0x80010 : BitVec 26).toNat v (lowMask 64) = s.writeData 0x80010 v (lowMask 64) := rfl
  rw [he]
  unfold State.writeData State.rwl State.starting
  simp [hr]

theorem exec_pwrCorrClear (h : Reached s rid) : exec (.pwrCorrClear rid) s = .next { s with pwr := { s.pwr with k64 := 64 } } :=
  congrArg Host.Outcome.next (State.bar0_of_reached h _)

/-- A latch of a bed's window, by the bed's logical number (R346). -/
theorem registerWrite_bed {v : W64} {b : BitVec 7} {p : Nat} (h : Reached s rid) (hp : s.physOf b.toNat = some p) (hv : v.getLsbD 0 = true) :
    exec (.registerWrite rid false (0x1000808 + b.setWidth 26 * 0x4000) 8 v) s = .next (s.setBed p ((s.bed p).setReg 0x808 0)) := by
  have hoff : (0x1000808 + b.setWidth 26 * 0x4000 : BitVec 26).toNat = 0x1000808 + b.toNat * 0x4000 := by
    have := b.isLt
    have hbase : (0x1000808 : BitVec 26).toNat = 0x1000808 := rfl
    have hstep : (0x4000 : BitVec 26).toNat = 0x4000 := rfl
    rw [BitVec.toNat_add, BitVec.toNat_mul, BitVec.toNat_setWidth, hbase, hstep]
    omega
  have hwin : s.windowBed b.toNat = some p := by
    unfold State.windowBed
    rw [if_pos b.isLt, hp]
  rw [registerWrite_whole v h (by rw [hoff]; omega), hoff]
  unfold State.writeReg
  rw [if_pos (by omega), show (0x1000808 + b.toNat * 0x4000 - 0x1000000) / 0x4000 = b.toNat by omega, hwin,
    show (0x1000808 + b.toNat * 0x4000) % 0x4000 = 0x808 by omega]
  unfold Bed.writeReg
  simp only [and_lowMask_64, hv]
  rfl

end

/-- Settles O47: a write passes its checks in order, and its register takes the bits that its access codes let it. -/
theorem registerWritesFollowTheirAccessCodes : Obligations.RegisterWritesFollowTheirAccessCodes := by
  unfold Obligations.RegisterWritesFollowTheirAccessCodes
  refine ⟨fun _ _ _ _ v ha => ⟨registerWrite_misplaced v ha, registerWrite_foreign v ha, registerWrite_early v ha⟩,
    fun s rid v h => ⟨registerWrite_mulch v h, registerWrite_nowhere v h, fun hv => ?_, fun hv => ?_, registerWrite_loaded v h, exec_pwrCorrClear h⟩,
    getLsbD_putBits, fun _ _ _ _ _ h hp hv => registerWrite_bed h hp hv⟩
  · rw [registerWrite_latch v h, if_pos hv]
  · rw [registerWrite_latch v h, if_neg (by rw [hv]; decide)]

end Sys2Proof.Machine
end

section
/-! PROOFS. What start-up leaves of the state that it finds (chapter 19): for O48 and O49. -/

namespace Sys2Proof.Machine

/-! ## What start-up does not touch -/

/-- Neither service nor the beds' counts have changed. -/
def Still (s t : State) : Prop := t.ready = s.ready ∧ ∀ p, (t.bed p).arrays = (s.bed p).arrays

/-- No link has known its partner since the reset. -/
def Unpartnered (s : State) : Prop := ∀ l, (s.link l).partnerId = none

/-- The parts of a state that a start-up from nothing leaves as they are. -/
def State.spared (s : State) : Mem × Mem × BitVec 32 × Bool × Nat × Tbl Flt × Tbl Plot × List Claim × Brw × Dbg :=
  (s.host.mem, s.sec.flash, s.sec.attestCount, s.sec.tapUsed, s.clk.total, s.grd.flt, s.plots, s.fwClaims, s.brw, s.dbg)

/-- A part of start-up: quiet, and, as long as no link has known its partner, with what is spared as it was. Where k says so, no
link knows its partner afterwards either. -/
structure Boots (k : Bool) (s t : State) : Prop where
  quiet : Still s t
  calm : Unpartnered s → t.spared = s.spared ∧ t.reg 0x30010 = s.reg 0x30010 ∧ t.reg 0x10108 = s.reg 0x10108 ∧ (k = true → Unpartnered t)

section
variable {k : Bool} {s₀ s t u : State}

theorem Still.refl : Still s s := ⟨rfl, fun _ => rfl⟩

theorem Still.trans (a : Still s t) (b : Still t u) : Still s u := ⟨b.1.trans a.1, fun p => (b.2 p).trans (a.2 p)⟩

theorem Still.of_same (hr : t.regs = s.regs) (hb : t.beds = s.beds) : Still s t := by
  unfold Still State.ready State.fld State.reg State.bed
  rw [hr, hb]
  exact ⟨rfl, fun _ => rfl⟩

theorem Still.setReg {off : Nat} (v : W64) (h : off ≠ 0) : Still s (s.setReg off v) := by
  refine ⟨?_, fun _ => rfl⟩
  unfold State.ready State.fld
  rw [State.reg_setReg, if_neg h.symm]

theorem Boots.refl : Boots k s s := ⟨.refl, fun h => ⟨rfl, rfl, rfl, fun _ => h⟩⟩

theorem Boots.trans (a : Boots true s t) (b : Boots k t u) : Boots k s u :=
  ⟨a.quiet.trans b.quiet, fun h => by
    obtain ⟨h1, h2, h3, h4⟩ := a.calm h
    obtain ⟨g1, g2, g3, g4⟩ := b.calm (h4 rfl)
    exact ⟨g1.trans h1, g2.trans h2, g3.trans h3, g4⟩⟩

/-- A further step that leaves the links' partners. -/
theorem Boots.step (h : Boots k s₀ s) (hq : Still s t) (hs : t.spared = s.spared) (h1 : t.reg 0x30010 = s.reg 0x30010)
    (h2 : t.reg 0x10108 = s.reg 0x10108) (hl : ∀ l, (t.link l).partnerId = (s.link l).partnerId) : Boots k s₀ t :=
  ⟨h.quiet.trans hq, fun hu => by
    obtain ⟨g1, g2, g3, g4⟩ := h.calm hu
    exact ⟨hs.trans g1, h1.trans g2, h2.trans g3, fun hk l => (hl l).trans (g4 hk l)⟩⟩

theorem Boots.upd (h : Boots k s₀ s) (hs : t.spared = s.spared) (hr : t.regs = s.regs) (hb : t.beds = s.beds)
    (hl : t.lnk.links = s.lnk.links) : Boots k s₀ t := by
  have hreg : ∀ off, t.reg off = s.reg off := fun off => congrArg (fun b : Tbl W64 => tget regReset b off) hr
  refine h.step (.of_same hr hb) hs (hreg _) (hreg _) fun l => ?_
  exact congrArg (fun b : Tbl Link => (tget (fun _ => ({} : Link)) b l).partnerId) hl

theorem Boots.setSec {x : Sec} (h : Boots k s₀ s) (hf : x.flash = s.sec.flash) (ha : x.attestCount = s.sec.attestCount)
    (ht : x.tapUsed = s.sec.tapUsed) : Boots k s₀ { s with sec := x } :=
  h.upd (by unfold State.spared; dsimp only; rw [hf, ha, ht]) rfl rfl rfl

theorem Boots.setGrd {x : Grd} (h : Boots k s₀ s) (hx : x.flt = s.grd.flt) : Boots k s₀ { s with grd := x } :=
  h.upd (by unfold State.spared; dsimp only; rw [hx]) rfl rfl rfl

theorem Boots.setPins {x : Pins} (h : Boots k s₀ s) : Boots k s₀ { s with pins := x } := h.upd rfl rfl rfl rfl

theorem Boots.setClk {x : Clk} (h : Boots k s₀ s) (hx : x.total = s.clk.total) : Boots k s₀ { s with clk := x } :=
  h.upd (by unfold State.spared; dsimp only; rw [hx]) rfl rfl rfl

/-- A register written that start-up may write. -/
theorem Boots.setReg {off : Nat} (v : W64) (h : Boots k s₀ s) (h0 : off ≠ 0) (h1 : off ≠ 0x30010) (h2 : off ≠ 0x10108) :
    Boots k s₀ (s.setReg off v) :=
  h.step (.setReg v h0) rfl (by rw [State.reg_setReg, if_neg h1.symm]) (by rw [State.reg_setReg, if_neg h2.symm]) fun _ => rfl

/-- A field of HST_BOOT_STATUS above ready written. -/
theorem Boots.setStatus {lo n : Nat} (v : Nat) (h : Boots k s₀ s) (hlo : 1 ≤ lo) : Boots k s₀ (s.setFld 0x0 lo n v) := by
  refine h.step ⟨?_, fun _ => rfl⟩ rfl ?_ ?_ fun _ => rfl
  · unfold State.ready
    rw [State.fld_setFld_disjoint _ _ _ (.inl hlo)]
  all_goals
    unfold State.setFld
    rw [State.reg_setReg, if_neg (by decide)]

theorem Boots.setLink {l : Nat} {x : Link} (h : Boots k s₀ s) (hx : x.partnerId = (s.link l).partnerId) : Boots k s₀ (s.setLink l x) := by
  refine h.step ⟨rfl, fun _ => rfl⟩ rfl rfl rfl fun j => ?_
  rw [State.link_setLink]
  split
  next hj => rw [hx, hj]
  next => rfl

theorem Boots.foldl {α : Type} {f : State → α → State} {xs : List α} (hf : ∀ t x, Boots k s₀ t → Boots k s₀ (f t x)) (h : Boots k s₀ s) :
    Boots k s₀ (xs.foldl f s) :=
  List.foldlRecOn (motive := fun t => Boots k s₀ t) xs f h fun t ht x _ => hf t x ht

theorem Boots.ite {c : Prop} [Decidable c] (h : Boots k s₀ s) (g : Boots k s₀ t) : Boots k s₀ (if c then s else t) := by
  split
  · exact h
  · exact g

theorem Boots.loosen (h : Boots true s₀ s) : Boots false s₀ s :=
  ⟨h.quiet, fun hu => ⟨(h.calm hu).1, (h.calm hu).2.1, (h.calm hu).2.2.1, nofun⟩⟩

/-! ## Steps 3 to 6 -/

theorem Boots.atStep (n : Nat) (h : Boots k s₀ s) : Boots k s₀ (s.atStep n) := h.setStatus n (by decide)

theorem Boots.status (code detail : Nat) (h : Boots k s₀ s) : Boots k s₀ (s.status code detail) :=
  (h.setStatus code (by decide)).setStatus detail (by decide)

theorem Boots.fatal (step code detail : Nat) (h : Boots k s₀ s) : Boots k s₀ (s.fatal step code detail) :=
  (((h.atStep step).status code detail).setStatus 1 (by decide)).setPins

theorem Boots.useSeed (x : BitVec 256 × Bool) (h : Boots k s₀ s) : Boots k s₀ (s.useSeed x) := h.setSec rfl rfl rfl

theorem Boots.useSlot (i : Nat) (h : Boots k s₀ s) : Boots k s₀ (s.useSlot i) := by
  unfold State.useSlot
  extract_lets hd owner src s1
  have h1 : Boots k s₀ s1 := h.setSec rfl rfl rfl
  clear_value s1
  exact h1.setReg _ (by decide) (by decide) (by decide)

/-- The same of a start-up step, whether start-up goes on or halts. -/
def BootsEither (k : Bool) (s : State) : Except State State → Prop
  | .ok t => Boots k s t
  | .error t => Boots k s t

theorem BootsEither.ite {c : Prop} [Decidable c] {e f : Except State State} (h : BootsEither k s₀ e) (g : BootsEither k s₀ f) :
    BootsEither k s₀ (if c then e else f) := by
  split
  · exact h
  · exact g

theorem Boots.bootKeys (env : BootEnv) (h : Boots k s₀ s) : BootsEither k s₀ (s.bootKeys env) := by
  unfold State.bootKeys
  extract_lets s1 _ s2 s3 s4
  have h1 : Boots k s₀ s1 := h.atStep 3
  have h2 : Boots k s₀ s2 := by
    unfold s2
    split
    · exact h1.useSeed _
    · exact h1
  have h3 : Boots k s₀ s3 := h2.atStep 4
  have h4 : Boots k s₀ s4 := .ite (h3.useSlot 0) ((h3.useSlot 1).status 0x12 0)
  exact .ite (h1.fatal _ _ _) (.ite (h1.fatal _ _ _) (.ite (.ite (h4.fatal _ _ _) (h4.atStep 5)) (h3.fatal _ _ _)))

theorem Boots.applyEntry (kind v : Nat) (h : Boots k s₀ s) : Boots k s₀ (s.applyEntry kind v) := by
  unfold State.applyEntry
  split
  iterate 5 exact h.setReg _ (by decide) (by decide) (by decide)
  all_goals exact h.upd rfl rfl rfl rfl

theorem Boots.bootRecords (is set : List Nat) (h : Boots k s₀ s) : BootsEither k s₀ (s.bootRecords is set) := by
  induction is generalizing s set with
  | nil => exact h
  | cons i rest ih =>
    unfold State.bootRecords
    extract_lets r s1 src s2
    clear_value r
    have h1 : Boots k s₀ s1 := .foldl (fun _ e ht => ht.applyEntry e.1 e.2) h
    clear_value s1
    have h2 : Boots k s₀ s2 := h1.setSec rfl rfl rfl
    clear_value s2
    generalize s.recordOk i r set = ok
    split
    · exact ih _ h
    · split
      · exact ih _ (s := s2) h2
      · show Boots k s₀ (s.fatal 6 0x14 i)
        exact h.fatal 6 0x14 i

/-! ## Steps 7 to 9 -/

theorem Boots.bootGardeners (h : Boots k s₀ s) : Boots k s₀ s.bootGardeners := by
  unfold State.bootGardeners
  extract_lets s1
  have h1 : Boots k s₀ s1 := h.atStep 7
  clear_value s1
  exact h1.setGrd rfl

theorem Boots.setCtl {c : Nat} {x : Ctl} (h : Boots k s₀ s) : Boots k s₀ (s.setCtl c x) := h.upd rfl rfl rfl rfl

theorem Boots.bootDdr (env : BootEnv) (h : Boots k s₀ s) : Boots k s₀ (s.bootDdr env) := by
  unfold State.bootDdr
  extract_lets s1 out s2 mask
  have h1 : Boots k s₀ s1 := h.atStep 8
  have h2 : Boots k s₀ s2 := .foldl (fun _ _ ht => ht.setCtl) h1
  exact .ite (h2.status _ _) h2

/-- A link that goes down leaves service and the beds' counts, whatever stops with it. -/
theorem State.linkDown_still (s : State) (l cause : Nat) : Still s (s.linkDown l cause) := by
  unfold State.linkDown
  extract_lets x kids off s1 s2 s3 s4 s5
  have h1 : Still s s1 := by
    unfold s1
    split
    · exact .refl
    · exact .setReg _ (by unfold off; omega)
  clear_value s1
  have h2 : Still s s2 := h1.trans (by
    unfold s2 State.unsend
    refine List.foldlRecOn (motive := fun t => Still s1 t) _ _ .refl fun t ht e _ => ?_
    dsimp only
    split
    · exact ht.trans (.of_same rfl rfl)
    · exact ht)
  clear_value s2
  have h4 : Still s s4 := h2.trans (by
    obtain ⟨y, hy, -⟩ := s3.retree_frame kids
    unfold s4
    rw [hy]
    exact .of_same rfl rfl)
  clear_value s4
  have h5 : Still s s5 := h4.trans (by
    obtain ⟨g, hh, he⟩ := s4.report_frame (unitId 5 l) (unitId 0xE (if l < 12 then 0 else 1)) 0x83 cause
    unfold s5
    rw [he]
    exact .of_same rfl rfl)
  clear_value s5
  refine h5.trans (List.foldlRecOn (motive := fun t => Still s5 t) _ _ .refl fun t ht p _ => ?_)
  split
  next hst =>
    have hs := t.stopPlot_stopped 0x52 none (p := p) (.inr hst)
    refine ht.trans ⟨?_, fun q => ?_⟩
    · unfold State.ready State.fld
      rw [hs.reg 0x0 (by decide)]
    · obtain ⟨r, y, hb⟩ := hs.bed q
      rw [hb]
  next => exact ht

/-- The state after a link's training, but for the tree chosen anew (R325). -/
theorem State.train_cases (s : State) (l : Nat) (env : LinkEnv) : ∃ x,
    (∃ u kids, s.train l env = State.retree u kids ∧ (u = s.setLink l x ∨ ∃ n a b, u =
      State.measured { s.setLink l x with freeN := n } l a b)) ∨
    ((s.link l).partnerId ≠ none ∧ s.train l env = (s.setLink l x).linkDown l 4) := by
  unfold State.train
  extract_lets k self kids changed inDomain k' s1 kids' r s2
  split
  · exact ⟨_, .inl ⟨_, _, rfl, .inl rfl⟩⟩
  · split
    next hc =>
      refine ⟨k', .inr ⟨fun hn => ?_, rfl⟩⟩
      simp [changed, k, hn] at hc
    next =>
      refine ⟨k', .inl ⟨s2, kids', rfl, ?_⟩⟩
      unfold s2
      split
      · exact .inr ⟨_, _, _, rfl⟩
      · exact .inl rfl

theorem Boots.measured {l : Nat} (a b : Int) (h : Boots k s₀ s) : Boots k s₀ (s.measured l a b) := by
  unfold State.measured
  exact (h.setReg _ (by omega) (by omega) (by omega)).setReg _ (by omega) (by omega) (by omega)

/-- A link that has not known its partner trains without going down. -/
theorem Boots.train {l : Nat} (env : LinkEnv) (h : Boots false s₀ s) (hl : Unpartnered s₀ → (s.link l).partnerId = none) :
    Boots false s₀ (s.train l env) ∧ (Unpartnered s₀ → ∀ j, j ≠ l → ((s.train l env).link j).partnerId = (s.link j).partnerId) := by
  obtain ⟨x, ⟨u, kids, he, hu⟩ | ⟨hn, he⟩⟩ := s.train_cases l env
  · have hset : Boots false s₀ (s.setLink l x) := ⟨h.quiet.trans (.of_same rfl rfl), fun hun => by
      obtain ⟨g1, g2, g3, -⟩ := h.calm hun
      exact ⟨g1, g2, g3, nofun⟩⟩
    have hlinks : ∀ j, j ≠ l → (u.link j).partnerId = (s.link j).partnerId := fun j hj => by
      have hx : (s.setLink l x).link j = s.link j := by rw [State.link_setLink, if_neg hj]
      rcases hu with rfl | ⟨n, a, b, rfl⟩
      · rw [hx]
      · exact congrArg Link.partnerId hx
    have hb : Boots false s₀ u := by
      rcases hu with rfl | ⟨n, a, b, rfl⟩
      · exact hset
      · exact Boots.measured a b (hset.upd rfl rfl rfl rfl)
    obtain ⟨y, hy, hj⟩ := u.retree_frame kids
    have hkeep : ∀ j, ((u.retree kids).link j).partnerId = (u.link j).partnerId := fun j => by
      obtain ⟨a, b, hab⟩ := hj j
      rw [hab]
    rw [he]
    refine ⟨hb.step ?_ ?_ ?_ ?_ hkeep, fun _ j hne => (hkeep j).trans (hlinks j hne)⟩
    all_goals rw [hy]
    · exact .of_same rfl rfl
    all_goals rfl
  · rw [he]
    refine ⟨⟨(h.quiet.trans (.of_same rfl rfl)).trans (State.linkDown_still _ l 4), fun hun => absurd (hl hun) hn⟩, fun hun => absurd (hl hun) hn⟩

/-- Step 9 of one link. -/
def State.bootLink (s : State) (env : BootEnv) (l : Nat) : State :=
  if s.sec.linksOff.getLsbD l then (s.setFld (0xB0008 + 0x100 * l) 1 1 1).setLink l { s.link l with state := 3 }
  else match env.links[l]? with
    | some e => s.train l e
    | none => s

theorem Boots.bootLink {l : Nat} (env : BootEnv) (h : Boots false s₀ s) (hl : Unpartnered s₀ → (s.link l).partnerId = none) :
    Boots false s₀ (s.bootLink env l) ∧ (Unpartnered s₀ → ∀ j, j ≠ l → ((s.bootLink env l).link j).partnerId = (s.link j).partnerId) := by
  unfold State.bootLink
  split
  · refine ⟨?_, fun _ j hj => ?_⟩
    · unfold State.setFld
      exact (h.setReg _ (by omega) (by omega) (by omega)).setLink rfl
    · rw [State.link_setLink, if_neg hj]
      rfl
  · split
    · exact h.train _ hl
    · exact ⟨h, fun _ _ _ => rfl⟩

theorem Boots.foldl_bootLink (env : BootEnv) {ls : List Nat} (hn : ls.Nodup) (h : Boots false s₀ s)
    (hl : Unpartnered s₀ → ∀ l ∈ ls, (s.link l).partnerId = none) : Boots false s₀ (ls.foldl (fun s l => s.bootLink env l) s) := by
  induction ls generalizing s with
  | nil => exact h
  | cons l ls ih =>
    obtain ⟨hnot, hn⟩ := List.nodup_cons.mp hn
    obtain ⟨h1, ho⟩ := h.bootLink env fun hu => hl hu l List.mem_cons_self
    exact ih hn h1 fun hu j hj => (ho hu j fun he => hnot (he ▸ hj)).trans (hl hu j (List.mem_cons_of_mem _ hj))

theorem State.bootLinks_eq (s : State) (env : BootEnv) : ∃ mask, s.bootLinks env =
    if mask ≠ 0 then ((List.range 24).foldl (fun s l => s.bootLink env l) (s.atStep 9)).status 0x30 mask
    else (List.range 24).foldl (fun s l => s.bootLink env l) (s.atStep 9) := ⟨_, rfl⟩

theorem Boots.bootLinks (env : BootEnv) (h : Boots true s₀ s) : Boots false s₀ (s.bootLinks env) := by
  obtain ⟨mask, he⟩ := s.bootLinks_eq env
  have h9 : Boots true s₀ (s.atStep 9) := h.atStep 9
  have h1 : Boots false s₀ ((List.range 24).foldl (fun s l => s.bootLink env l) (s.atStep 9)) :=
    Boots.foldl_bootLink env List.nodup_range h9.loosen fun hu l _ => (h9.calm hu).2.2.2 rfl l
  rw [he]
  exact .ite (h1.status _ _) h1

/-! ## Step 10 -/

theorem Boots.stepSundial (n : Int) (h : Boots false s₀ s) : Boots false s₀ (s.stepSundial n) := by
  unfold State.stepSundial
  extract_lets w s1 src s2 src2 s3
  clear_value w
  have h1 : Boots false s₀ s1 := h.setReg _ (by decide) (by decide) (by decide)
  clear_value s1
  have h2 : Boots false s₀ s2 := h1.setGrd rfl
  clear_value s2
  have h3 : Boots false s₀ s3 := h2.setClk rfl
  clear_value s3
  refine .foldl (fun t e ht => ⟨ht.quiet.trans (.of_same rfl rfl), fun hu => ?_⟩) h3
  obtain ⟨g1, g2, g3, -⟩ := ht.calm hu
  exact ⟨g1, g2, g3, nofun⟩

theorem Boots.formDomain (env : BootEnv) (h : Boots false s₀ s) : Boots false s₀ (s.formDomain env) := by
  unfold State.formDomain
  extract_lets src s1
  have h1 : Boots false s₀ s1 := h.upd rfl rfl rfl rfl
  clear_value s1
  refine .foldl (fun t e ht => ?_) h1
  unfold State.sendControl
  exact ht.setLink rfl

theorem Boots.tryForm {env : BootEnv} {restarted : Bool} (h : Boots false s₀ s) (ht : s.tryForm env restarted = some t) : Boots false s₀ t := by
  unfold State.tryForm at ht
  split at ht
  · split at ht
    · cases ht
      exact h.formDomain env
    · cases ht
  · split at ht
    · obtain ⟨x, -, rfl⟩ := Option.map_eq_some_iff.mp ht
      exact (h.stepSundial _).formDomain env
    · cases ht

/-! ## Steps 11 to 14 -/

/-- A bed of a module in service: what self-test found, with the counts since cold reset (R90, R430). -/
def State.served (s : State) (env : BootEnv) (p : Nat) : Bed := { bootBed env p with arrays := (s.bed p).counted.arrays }

theorem State.served_congr (h : ∀ p, (t.bed p).arrays = (s.bed p).arrays) (env : BootEnv) (p : Nat) : t.served env p = s.served env p := by
  unfold State.served Bed.counted
  rw [h p]

theorem tget_range {α : Type} (d : Nat → α) (f : Nat → α) {n p : Nat} (hp : p < n) : tget d ((List.range n).map fun p => (p, f p)) p = f p := by
  exact tget_of_mem d (rising_range (n := n) (f := f)) (List.mem_map.mpr ⟨p, List.mem_range.mpr hp, rfl⟩)

end

end Sys2Proof.Machine
end

section
/-! PROOFS. The last steps of start-up, with the module in service (R366, R416, R428, R430): for O48 and O49. -/

namespace Sys2Proof.Machine

/-- Of the registers, only HST_BOOT_STATUS above ready has changed. -/
structure OnlyStatus (s t : State) : Prop where
  reg : ∀ off, off ≠ 0 → t.reg off = s.reg off
  ready : t.ready = s.ready

section
variable {s t u : State}

theorem OnlyStatus.trans (a : OnlyStatus s t) (b : OnlyStatus t u) : OnlyStatus s u :=
  ⟨fun off h => (b.reg off h).trans (a.reg off h), b.ready.trans a.ready⟩

theorem OnlyStatus.of_regs (h : t.regs = s.regs) : OnlyStatus s t := by
  have hreg : ∀ off, t.reg off = s.reg off := fun off => congrArg (fun b : Tbl W64 => tget regReset b off) h
  refine ⟨fun off _ => hreg off, ?_⟩
  unfold State.ready State.fld
  rw [hreg]

theorem OnlyStatus.setStatus {lo n : Nat} (v : Nat) (h : 1 ≤ lo) : OnlyStatus s (s.setFld 0x0 lo n v) := by
  refine ⟨fun off h0 => ?_, ?_⟩
  · unfold State.setFld
    rw [State.reg_setReg, if_neg h0]
  · unfold State.ready
    rw [State.fld_setFld_disjoint _ _ _ (.inl h)]

theorem OnlyStatus.atStep (n : Nat) : OnlyStatus s (s.atStep n) := .setStatus n (by decide)

theorem OnlyStatus.status (code detail : Nat) : OnlyStatus s (s.status code detail) :=
  (OnlyStatus.setStatus code (by decide)).trans (.setStatus detail (by decide))

/-- A step taken is no status code. -/
theorem State.atStep_code (s : State) (n : Nat) : (s.atStep n).fld 0x0 8 8 = s.fld 0x0 8 8 :=
  State.fld_setFld_disjoint _ _ _ (.inr (by decide))

theorem State.setFld_frame (s : State) (off lo n v : Nat) : ∃ r, s.setFld off lo n v = { s with regs := r } := ⟨_, rfl⟩

theorem State.atStep_frame (s : State) (n : Nat) : ∃ r, s.atStep n = { s with regs := r } := ⟨_, rfl⟩

theorem State.ddrService_eq (s : State) : ∃ d, s.ddrService = { s.atStep 11 with ddr := d } := by
  unfold State.ddrService
  refine List.foldlRecOn (motive := fun t : State => ∃ d, t = { s.atStep 11 with ddr := d }) _ _ ⟨_, rfl⟩ ?_
  rintro _ ⟨d, rfl⟩ c -
  dsimp only
  split <;> exact ⟨_, rfl⟩

/-- The beds of step 12. -/
def State.servedBeds (s : State) (env : BootEnv) : Tbl Bed := (List.range 132).map fun p => (p, s.served env p)

theorem State.servedBeds_get (s : State) (env : BootEnv) {p : Nat} (hp : p < 132) :
    tget (fun _ => ({} : Bed)) (s.servedBeds env) p = s.served env p := tget_range _ _ hp

/-- How many beds of a die have failed. -/
def dieFails (env : BootEnv) (d : Nat) : Nat := ((upFrom (33 * d) 33).filter fun p => env.bedFail.getLsbD p).length

def failMask (env : BootEnv) : Nat := (enumFrom 0 ((List.range 4).map (dieFails env))).foldl (fun n e => n + e.2 * 2 ^ (8 * e.1)) 0

theorem failMask_of_none {env : BootEnv} (h : env.bedFail = 0) : failMask env = 0 := by
  have hd : ∀ d, dieFails env d = 0 := fun d => by
    unfold dieFails
    rw [h]
    simp
  simp [failMask, hd, List.range_succ, enumFrom]

theorem State.bootBeds_eq (s : State) (env : BootEnv) : s.bootBeds env =
    if failMask env ≠ 0 then ({ s.atStep 12 with beds := s.servedBeds env } : State).status 0x40 (failMask env)
    else { s.atStep 12 with beds := s.servedBeds env } := rfl

/-- Steps 11 and 12. -/
theorem State.bootBeds_effect (s : State) (env : BootEnv) :
    OnlyStatus s (s.ddrService.bootBeds env) ∧ (∃ r d, s.ddrService.bootBeds env = { s with regs := r, ddr := d, beds := s.servedBeds env }) ∧
      (env.bedFail = 0 → (s.ddrService.bootBeds env).fld 0x0 8 8 = s.fld 0x0 8 8) := by
  obtain ⟨d, hd⟩ := s.ddrService_eq
  rw [hd]
  have h12 : OnlyStatus s { ({ s.atStep 11 with ddr := d } : State).atStep 12 with beds := s.servedBeds env } :=
    (((OnlyStatus.atStep 11).trans (.of_regs (t := { s.atStep 11 with ddr := d }) rfl)).trans (.atStep 12)).trans (.of_regs rfl)
  have heq : ({ s.atStep 11 with ddr := d } : State).servedBeds env = s.servedBeds env := rfl
  rw [State.bootBeds_eq, heq]
  refine ⟨?_, ?_, fun hf => ?_⟩
  · split
    · exact h12.trans (.status _ _)
    · exact h12
  · split <;> exact ⟨_, _, rfl⟩
  · rw [if_neg (not_not.mpr (failMask_of_none hf))]
    exact (State.atStep_code { s.atStep 11 with ddr := d } 12).trans (State.atStep_code s 11)

/-! ## In service -/

/-- Step 13 and the start of step 14: base power is known. -/
def State.putPower (v : State) (w : BitVec 12) : State := ((v.atStep 13).setFld 0x40008 24 12 w.toNat).atStep 14

/-- The A-clock's runs count from tick 0, and start-up no longer waits. -/
def State.inTime (s : State) : State := { s with clk := s.clk.aligned, pins := { s.pins with boot := none } }

theorem State.reg_withClk (x : State) (c : Clk) (p : Pins) (off : Nat) : ({ x with clk := c, pins := p } : State).reg off = x.reg off := rfl

theorem State.inTime_reg (x : State) (off : Nat) : x.inTime.reg off = x.reg off := x.reg_withClk _ _ off

theorem State.inTime_fld (x : State) (off lo n : Nat) : x.inTime.fld off lo n = x.fld off lo n := congrArg (wfld · lo n) (x.inTime_reg off)

/-- A module ready for service. -/
def State.measuredPower (s : State) (env : BootEnv) : State := ((s.ddrService.bootBeds env).putPower env.basePower).inTime

/-- The registers of step 13 and the start of step 14. -/
theorem State.putPower_effect (v : State) (w : BitVec 12) :
    (∃ r, v.putPower w = { v with regs := r }) ∧
    (v.putPower w).ready = v.ready ∧
    (v.putPower w).fld 0x0 3 5 = 14 ∧
    (∀ off, off ≠ 0 → off ≠ 0x40008 → (v.putPower w).reg off = v.reg off) ∧
    (v.putPower w).fld 0x40008 24 12 = w.toNat ∧
    (v.putPower w).fld 0x0 8 8 = v.fld 0x0 8 8 := by
  unfold State.putPower
  have h13 : OnlyStatus v (v.atStep 13) := .atStep 13
  have hc13 := v.atStep_code 13
  obtain ⟨r1, h1⟩ := v.atStep_frame 13
  generalize v.atStep 13 = a at h13 hc13 h1
  have hready : (a.setFld 0x40008 24 12 w.toNat).ready = a.ready := by
    unfold State.ready
    rw [State.fld_setFld_of_ne _ _ _ _ _ _ (by decide)]
  have hcode : (a.setFld 0x40008 24 12 w.toNat).fld 0x0 8 8 = a.fld 0x0 8 8 := State.fld_setFld_of_ne _ _ _ _ _ _ (by decide)
  have hpower : (a.setFld 0x40008 24 12 w.toNat).fld 0x40008 24 12 = w.toNat :=
    (State.fld_setFld_self a 0x40008 w.toNat (by decide)).trans (Nat.mod_eq_of_lt w.isLt)
  have hreg : ∀ off, off ≠ 0x40008 → (a.setFld 0x40008 24 12 w.toNat).reg off = a.reg off := fun off h => by
    unfold State.setFld
    rw [State.reg_setReg, if_neg h]
  obtain ⟨r2, h2⟩ := a.setFld_frame 0x40008 24 12 w.toNat
  generalize a.setFld 0x40008 24 12 w.toNat = b at hready hcode hpower hreg h2
  have h14 : OnlyStatus b (b.atStep 14) := .atStep 14
  obtain ⟨r3, h3⟩ := b.atStep_frame 14
  refine ⟨⟨r3, by rw [h3, h2, h1]⟩, (h14.ready.trans hready).trans h13.ready, ?_,
    fun off h0 h40 => ((h14.reg off h0).trans (hreg off h40)).trans (h13.reg off h0), ?_, ((b.atStep_code 14).trans hcode).trans hc13⟩
  · exact State.fld_setFld_self b 0x0 14 (by decide)
  · exact (congrArg (wfld · 24 12) (h14.reg 0x40008 (by decide))).trans hpower

theorem State.measuredPower_effect (s : State) (env : BootEnv) :
    (∃ r d, s.measuredPower env = { s with
      regs := r, ddr := d, beds := s.servedBeds env, clk := s.clk.aligned, pins := { s.pins with boot := none } }) ∧
    (s.measuredPower env).ready = s.ready ∧ (s.measuredPower env).fld 0x0 3 5 = 14 ∧
    (∀ off, off ≠ 0 → off ≠ 0x40008 → (s.measuredPower env).reg off = s.reg off) ∧
    (s.measuredPower env).fld 0x40008 24 12 = env.basePower.toNat ∧
    (env.bedFail = 0 → (s.measuredPower env).fld 0x0 8 8 = s.fld 0x0 8 8) := by
  obtain ⟨hm, ⟨r, d, he⟩, hf⟩ := s.bootBeds_effect env
  unfold State.measuredPower
  generalize s.ddrService.bootBeds env = v at hm he hf
  obtain ⟨⟨r', hframe⟩, hready, hstep, hreg, hpower, hcode⟩ := v.putPower_effect env.basePower
  generalize v.putPower env.basePower = x at hframe hready hstep hreg hpower hcode
  refine ⟨⟨r', d, ?_⟩, Eq.trans ?_ (hready.trans hm.ready), (x.inTime_fld _ _ _).trans hstep,
    fun off h0 h1 => (x.inTime_reg off).trans ((hreg off h0 h1).trans (hm.reg off h0)), (x.inTime_fld _ _ _).trans hpower,
    fun hb => (x.inTime_fld _ _ _).trans (hcode.trans (hf hb))⟩
  case refine_2 => exact congrArg (· == 1) (x.inTime_fld 0x0 0 1)
  rw [hframe, he]
  rfl

/-- The module in service, its first doorbells rung (R366). -/
def State.enterService (s : State) : State :=
  let s := ((s.setFld 0x0 0 1 1).setFld 0x0 2 1 0).setDoor 0
  if s.grd.flt.any fun e => e.2.valid then s.setDoor 2 else s

theorem State.enterService_effect (s : State) :
    (∃ r h, s.enterService = { s with regs := r, host := h } ∧ h.mem = s.host.mem) ∧ s.enterService.ready = true ∧
    (∀ off, off ≠ 0 → s.enterService.reg off = s.reg off) ∧
    ∀ lo n, 3 ≤ lo → s.enterService.fld 0x0 lo n = s.fld 0x0 lo n := by
  obtain ⟨x, hx, hxm⟩ : ∃ h, s.enterService = { (s.setFld 0x0 0 1 1).setFld 0x0 2 1 0 with host := h } ∧ h.mem = s.host.mem := by
    unfold State.enterService
    generalize hv : (s.setFld 0x0 0 1 1).setFld 0x0 2 1 0 = v
    have hvm : v.host.mem = s.host.mem := by rw [← hv]; rfl
    obtain ⟨a, ha⟩ := v.setDoor_frame 0
    have ham : a.mem = v.host.mem := by
      have := v.setDoor_mem 0
      rwa [ha] at this
    dsimp only
    split
    · obtain ⟨b, hb⟩ := (v.setDoor 0).setDoor_frame 2
      have hbm : b.mem = (v.setDoor 0).host.mem := by
        have := (v.setDoor 0).setDoor_mem 2
        rwa [hb] at this
      exact ⟨b, by rw [hb, ha], hbm.trans ((v.setDoor_mem 0).trans hvm)⟩
    · exact ⟨a, ha, ham.trans hvm⟩
  have hreg : ∀ off, s.enterService.reg off = ((s.setFld 0x0 0 1 1).setFld 0x0 2 1 0).reg off := fun off => by rw [hx]; rfl
  have hfld : ∀ lo n, s.enterService.fld 0x0 lo n = ((s.setFld 0x0 0 1 1).setFld 0x0 2 1 0).fld 0x0 lo n := fun lo n =>
    congrArg (wfld · lo n) (hreg 0x0)
  refine ⟨⟨_, x, hx, hxm⟩, ?_, fun off h0 => ?_, fun lo n hlo => ?_⟩
  · unfold State.ready
    rw [hfld, State.fld_setFld_disjoint _ _ _ (.inl (by decide)), State.fld_setFld_self _ _ _ (by decide)]
    rfl
  · rw [hreg]
    unfold State.setFld
    rw [State.reg_setReg, if_neg h0, State.reg_setReg, if_neg h0]
  · rw [hfld, State.fld_setFld_disjoint _ _ _ (.inr (by omega)), State.fld_setFld_disjoint _ _ _ (.inr (by omega))]

theorem State.bootLast_eq (s : State) (env : BootEnv) :
    s.bootLast env = if (s.measuredPower env).dbg.ballsHeld then s.measuredPower env else (s.measuredPower env).enterService := rfl

/-- Steps 11 to 14. -/
structure LastSteps (env : BootEnv) (s t : State) : Prop where
  frame : ∃ r d h, t = { s with
    regs := r, ddr := d, host := h, beds := s.servedBeds env, clk := s.clk.aligned, pins := { s.pins with boot := none } } ∧
    h.mem = s.host.mem
  ready : t.ready = (!s.dbg.ballsHeld || s.ready)
  step : t.fld 0x0 3 5 = 14
  reg : ∀ off, off ≠ 0 → off ≠ 0x40008 → t.reg off = s.reg off
  power : t.fld 0x40008 24 12 = env.basePower.toNat
  code : env.bedFail = 0 → t.fld 0x0 8 8 = s.fld 0x0 8 8

theorem State.bootLast_lastSteps (s : State) (env : BootEnv) : LastSteps env s (s.bootLast env) := by
  obtain ⟨⟨r, d, he⟩, hready, hstep, hreg, hpower, hcode⟩ := s.measuredPower_effect env
  rw [State.bootLast_eq]
  generalize s.measuredPower env = v at he hready hstep hreg hpower hcode
  have hballs : v.dbg = s.dbg := by rw [he]
  cases hb : v.dbg.ballsHeld with
  | true =>
    rw [if_pos rfl]
    rw [hballs] at hb
    exact ⟨⟨r, d, s.host, he, rfl⟩, by rw [hready, hb]; rfl, hstep, hreg, hpower, hcode⟩
  | false =>
    rw [if_neg Bool.false_ne_true]
    rw [hballs] at hb
    obtain ⟨⟨r', h, he', hm⟩, hr, hreg', hfld'⟩ := v.enterService_effect
    refine ⟨⟨r', d, h, by rw [he', he], by rw [hm, he]⟩, by rw [hr, hb]; rfl, (hfld' 3 5 (by decide)).trans hstep,
      fun off h0 h1 => (hreg' off h0).trans (hreg off h0 h1), ?_, fun hf => (hfld' 8 8 (by decide)).trans (hcode hf)⟩
    exact (congrArg (wfld · 24 12) (hreg' 0x40008 (by decide))).trans hpower

theorem LastSteps.bed {env : BootEnv} (h : LastSteps env s t) {p : Nat} (hp : p < 132) : t.bed p = s.served env p := by
  obtain ⟨r, d, x, he, -⟩ := h.frame
  rw [he]
  exact s.servedBeds_get env hp

theorem LastSteps.spared {env : BootEnv} (h : LastSteps env s t) : t.spared = s.spared := by
  obtain ⟨r, d, x, he, hm⟩ := h.frame
  rw [he]
  unfold State.spared
  dsimp only
  rw [hm]
  rfl

end

end Sys2Proof.Machine
end

section
/-! PROOFS. Cold and warm resets, and the start-ups that follow (R330, R423, R424, R429, R434, R435, R473, R477): O48, O49. -/

namespace Sys2Proof.Machine

/-! ## A start-up as a whole -/

/-- What a start-up from a module out of service leaves: in service its beds are those of step 12, and what is spared is as it
was where no link has known its partner. -/
structure Started (env : BootEnv) (s t : State) : Prop where
  beds : t.ready = true → ∀ p, p < 132 → t.bed p = s.served env p
  calm : Unpartnered s → t.spared = s.spared ∧ t.reg 0x30010 = s.reg 0x30010 ∧ t.reg 0x10108 = s.reg 0x10108

section
variable {s t u : State} {env : BootEnv}

theorem Boots.started {k : Bool} (h : Boots k s t) (hr : s.ready = false) : Started env s t :=
  ⟨fun ht => absurd (ht.symm.trans (h.quiet.1.trans hr)) (by decide), fun hu => ⟨(h.calm hu).1, (h.calm hu).2.1, (h.calm hu).2.2.1⟩⟩

theorem Boots.last (h : Boots false s t) (hl : LastSteps env t u) : Started env s u :=
  ⟨fun _ p hp => (hl.bed hp).trans (State.served_congr h.quiet.2 env p), fun hu => by
    obtain ⟨h1, h2, h3, -⟩ := h.calm hu
    exact ⟨hl.spared.trans h1, (hl.reg _ (by decide) (by decide)).trans h2, (hl.reg _ (by decide) (by decide)).trans h3⟩⟩

/-- The same from an earlier step of the start-up. -/
theorem Started.after (h : Boots true s t) (hs : Started env t u) : Started env s u :=
  ⟨fun hr p hp => (hs.beds hr p hp).trans (State.served_congr h.quiet.2 env p), fun hu => by
    obtain ⟨h1, h2, h3, h4⟩ := h.calm hu
    obtain ⟨g1, g2, g3⟩ := hs.calm (h4 rfl)
    exact ⟨g1.trans h1, g2.trans h2, g3.trans h3⟩⟩

theorem State.bootDomain_started (h : Boots false s t) (hr : s.ready = false) (cold restarted : Bool) :
    Started env s (t.bootDomain env cold restarted) := by
  have h10 : Boots false s (t.atStep 10) := h.atStep 10
  unfold State.bootDomain
  dsimp only
  split
  next v hv => exact (h10.tryForm hv).last (v.bootLast_lastSteps env)
  next => exact (h10.setPins).started hr

theorem State.bootFrom3_started (hr : s.ready = false) (cold restarted : Bool) : Started env s (s.bootFrom3 env cold restarted) := by
  unfold State.bootFrom3
  extract_lets src s1
  have h1 : Boots true s s1 := Boots.refl.setPins
  have hk := h1.bootKeys env
  generalize s1.bootKeys env = e at hk ⊢
  cases e with
  | error v => exact Boots.started (k := true) hk hr
  | ok v =>
    have hk : Boots true s v := hk
    dsimp only
    generalize List.range 64 = is
    have hrec := (hk.atStep 6).bootRecords is []
    generalize (v.atStep 6).bootRecords is [] = e at hrec ⊢
    cases e with
    | error v => exact Boots.started (k := true) hrec hr
    | ok v => exact State.bootDomain_started (((Boots.bootGardeners hrec).bootDdr env).bootLinks env) hr cold restarted

/-- A module whose A-clock runs again, at step 1. -/
def State.wake (s : State) : State :=
  State.atStep { s with clk := { s.clk with locked := true, stopped := false }, pins := { s.pins with halted := false } } 1

theorem State.wake_boots (s : State) : Boots true s s.wake :=
  ((Boots.refl.setClk (x := { s.clk with locked := true, stopped := false }) rfl).setPins (x := { s.pins with halted := false })).atStep 1

theorem State.startUp_eq (s : State) (env : BootEnv) (cold restarted hot : Bool) : s.startUp env cold restarted hot =
    if hot ∧ 360 ≤ env.tMax.toInt then
      { s.wake.status 0x01 env.tMax.toNat with
        pins := { (s.wake.status 0x01 env.tMax.toNat).pins with boot := some { step := 1, env, cold, since := (s.wake.status 0x01 env.tMax.toNat).clk.sundial } } }
    else s.wake.bootFrom3 env cold restarted := rfl

theorem State.startUp_started (hr : s.ready = false) (cold restarted hot : Bool) : Started env s (s.startUp env cold restarted hot) := by
  have hw := s.wake_boots
  have hrw : s.wake.ready = false := hw.quiet.1.trans hr
  rw [State.startUp_eq]
  split
  · exact Boots.started ((hw.status 0x01 env.tMax.toNat).setPins) hr
  · exact (State.bootFrom3_started hrw cold restarted).after hw

/-! ## A flash that does not answer -/

/-- A start-up that has halted at step 3 since the flash does not answer (R426, R433). -/
structure Halted (s t : State) : Prop where
  halted : t.pins.halted = true
  ready : t.ready = s.ready
  done : t.fld 0x0 1 1 = 1
  recovery : t.fld 0x0 2 1 = s.fld 0x0 2 1
  step : t.fld 0x0 3 5 = 3
  code : t.fld 0x0 8 8 = 0x10

/-- Start-up halted where it stands. -/
def State.halt (x : State) : State := { x with pins := { x.pins with halted := true, boot := none } }

theorem State.halt_fld (x : State) (off lo n : Nat) : x.halt.fld off lo n = x.fld off lo n :=
  congrArg (wfld · lo n) (x.reg_withClk x.clk _ off)

theorem State.fatal_eq (s : State) (step code detail : Nat) :
    s.fatal step code detail = (((s.atStep step).status code detail).setFld 0x0 1 1 1).halt := rfl

theorem State.fatal_halted (s : State) : Halted s (s.fatal 3 0x10 0) := by
  have hfld : ∀ lo n, (s.fatal 3 0x10 0).fld 0x0 lo n =
      ((((s.setFld 0x0 3 5 3).setFld 0x0 8 8 0x10).setFld 0x0 16 32 0).setFld 0x0 1 1 1).fld 0x0 lo n := fun lo n => by
    rw [State.fatal_eq, State.halt_fld]
    rfl
  refine ⟨rfl, ?_, ?_, ?_, ?_, ?_⟩
  · unfold State.ready
    rw [hfld]
    iterate 4 rw [State.fld_setFld_disjoint _ _ _ (.inl (by decide))]
  · rw [hfld, State.fld_setFld_self _ _ _ (by decide)]
    rfl
  · rw [hfld, State.fld_setFld_disjoint _ _ _ (.inr (by decide))]
    iterate 3 rw [State.fld_setFld_disjoint _ _ _ (.inl (by decide))]
  · rw [hfld, State.fld_setFld_disjoint _ _ _ (.inr (by decide))]
    iterate 2 rw [State.fld_setFld_disjoint _ _ _ (.inl (by decide))]
    rw [State.fld_setFld_self _ _ _ (by decide)]
    rfl
  · rw [hfld, State.fld_setFld_disjoint _ _ _ (.inr (by decide)), State.fld_setFld_disjoint _ _ _ (.inl (by decide)),
      State.fld_setFld_self _ _ _ (by decide)]
    rfl

theorem State.atStep_fld (s : State) (n : Nat) {lo m : Nat} (h : lo + m ≤ 3) : (s.atStep n).fld 0x0 lo m = s.fld 0x0 lo m :=
  State.fld_setFld_disjoint _ _ _ (.inl h)

theorem State.startUp_halted (hf : env.flashOk = false) (cold restarted : Bool) {hot : Bool} (h : hot = false ∨ env.tMax.toInt < 360) :
    Halted s (s.startUp env cold restarted hot) := by
  have hno : ¬(hot = true ∧ 360 ≤ env.tMax.toInt) := fun hc => h.elim (fun hn => absurd (hn.symm.trans hc.1) (by decide)) (by omega)
  rw [State.startUp_eq, if_neg hno]
  unfold State.bootFrom3 State.bootKeys
  simp only [hf, Bool.not_false, if_true]
  generalize hv : ({ s.wake with pins := { s.wake.pins with thermtrip := false, boot := none } } : State) = v
  have hfld : ∀ lo n, v.fld 0x0 lo n = s.wake.fld 0x0 lo n := fun lo n => by rw [← hv]; rfl
  obtain ⟨h1, h2, h3, h4, h5, h6⟩ := (v.atStep 3).fatal_halted
  refine ⟨h1, h2.trans ?_, h3, h4.trans ?_, h5, h6⟩
  · unfold State.ready
    rw [State.atStep_fld _ _ (by decide), hfld]
    exact congrArg (· == 1) (State.atStep_fld _ 1 (by decide))
  · rw [State.atStep_fld _ _ (by decide), hfld]
    exact State.atStep_fld _ 1 (by decide)

end

end Sys2Proof.Machine
end

section
/-! PROOFS. Cold resets, the start-up that follows them, and the end of the wait for a domain (R330, R423, R473, R477): O49. -/

namespace Sys2Proof.Machine

/-! ## The hold -/

/-- What a cold reset leaves (R423, R473). -/
theorem State.coldHold_effect (s : State) {kind : Nat} (hk : kind < 8) :
    (∃ r, s.coldHold kind = { s.base with regs := r }) ∧ (s.coldHold kind).ready = false ∧ (s.coldHold kind).fld 0x10108 0 3 = kind := by
  unfold State.coldHold
  refine ⟨s.base.setFld_frame 0x10108 0 3 kind, ?_, ?_⟩
  · unfold State.ready
    rw [State.fld_setFld_of_ne _ _ _ _ _ _ (by decide), State.fld, show s.base.reg 0x0 = 0 from rfl]
    decide
  · rw [State.fld_setFld_self _ _ _ (by decide)]
    exact Nat.mod_eq_of_lt hk

section
variable {s : State}

theorem exec_perstAssert (hp : s.pins.perst = false) (hr : s.pins.rails = true) :
    exec .perstAssert s = .next (State.coldHold { s with pins := { s.pins with perst := true } } 1) := by
  show execPerstAssert s = _
  unfold execPerstAssert
  simp only [hp, hr, Bool.false_eq_true, if_false, if_true]

/-- The module when a rail fails: the TAP starts from its reset too. -/
def State.undervolted (s : State) : State :=
  { s with pins := { s.pins with rails := false, thermtrip := false }, dbg := { qspi := s.dbg.qspi, hvOut := s.dbg.hvOut } }

theorem exec_railUndervoltage (s : State) : exec .railUndervoltage s = .next (s.undervolted.coldHold 0) := rfl

/-- PERST_ASSERT (R423, R477). -/
theorem perstAssert_effect (hp : s.pins.perst = false) (hr : s.pins.rails = true) :
    ∃ t, exec .perstAssert s = .next t ∧ t.alive = false ∧ t.ready = false ∧ t.beds = [] ∧ t.plots = [] ∧ t.recs = [] ∧ t.clk = {} ∧
      t.grd = {} ∧ t.ddr = {} ∧ t.brw = {} ∧ t.pwr = {} ∧ t.fwClaims = [] ∧ t.sec = { flash := s.sec.flash } ∧
      t.host = { mem := s.host.mem, msixSent := s.host.msixSent } ∧ t.pending = s.pending ∧
      t.fld 0x10108 0 3 = 1 ∧ t.dbg.ir = s.dbg.ir ∧ t.dbg.boundary = s.dbg.boundary := by
  obtain ⟨⟨r, he⟩, hready, hkind⟩ := State.coldHold_effect { s with pins := { s.pins with perst := true } } (kind := 1) (by decide)
  have hex := exec_perstAssert hp hr
  generalize State.coldHold { s with pins := { s.pins with perst := true } } 1 = u at hex he hready hkind
  refine ⟨u, hex, ?_, hready, ?_⟩
  all_goals rw [he] at hkind ⊢
  · rfl
  · exact ⟨rfl, rfl, rfl, rfl, rfl, rfl, rfl, rfl, rfl, rfl, rfl, rfl, hkind, rfl, rfl⟩

/-- RAIL_UNDERVOLTAGE (R473). -/
theorem railUndervoltage_effect (s : State) :
    ∃ t, exec .railUndervoltage s = .next t ∧ t.alive = false ∧ t.ready = false ∧ t.beds = [] ∧ t.plots = [] ∧ t.recs = [] ∧ t.clk = {} ∧
      t.grd = {} ∧ t.ddr = {} ∧ t.brw = {} ∧ t.pwr = {} ∧ t.fwClaims = [] ∧ t.sec = { flash := s.sec.flash } ∧
      t.host = { mem := s.host.mem, msixSent := s.host.msixSent } ∧ t.pending = s.pending ∧
      t.fld 0x10108 0 3 = 0 ∧ t.dbg.ir = 2 ∧ t.dbg.boundary = [] := by
  obtain ⟨⟨r, he⟩, hready, hkind⟩ := s.undervolted.coldHold_effect (kind := 0) (by decide)
  have hex := exec_railUndervoltage s
  generalize s.undervolted.coldHold 0 = u at hex he hready hkind
  refine ⟨u, hex, ?_, hready, ?_⟩
  all_goals rw [he] at hkind ⊢
  · show (!s.pins.perst && false && s.pins.refclk) = false
    rw [Bool.and_false, Bool.false_and]
  · exact ⟨rfl, rfl, rfl, rfl, rfl, rfl, rfl, rfl, rfl, rfl, rfl, rfl, hkind, rfl, rfl⟩

/-! ## The release -/

/-- A command that releases one of the three conditions (R477). -/
def Releases (i : Instr) (env : BootEnv) (s : State) (x : Pins) : Prop := exec i s = .next (State.coldStart { s with pins := x } env)

theorem releases_perst (env : BootEnv) (h : s.pins.perst = true) : Releases (.perstRelease env) env s { s.pins with perst := false } := if_pos h

theorem releases_rails (env : BootEnv) (h : s.pins.rails = false) : Releases (.railsGood env) env s { s.pins with rails := true } :=
  if_neg (by rw [h]; decide)

theorem releases_refclk (env : BootEnv) (h : s.pins.refclk = false) : Releases (.refclkValid env) env s { s.pins with refclk := true } :=
  if_neg (by rw [h]; decide)

/-- The last release starts the module up, any other changes its pin. -/
theorem Releases.effect {i : Instr} {env : BootEnv} {x : Pins} (h : Releases i env s x) :
    (({ s with pins := x } : State).alive = false → exec i s = .next { s with pins := x }) ∧
    (({ s with pins := x } : State).alive = true → s.ready = false → ∃ t, exec i s = .next t ∧
      (t.ready = true → ∀ p, p < 132 → t.bed p = { bootBed env p with arrays := (s.bed p).counted.arrays }) ∧
      (env.flashOk = false → t.pins.halted = true ∧ t.ready = false ∧ t.fld 0x0 3 5 = 3 ∧ t.fld 0x0 8 8 = 0x10)) := by
  refine ⟨fun ha => h.trans (congrArg _ (if_neg (by rw [ha]; decide))), fun ha hr => ?_⟩
  have hr' : ({ s with pins := x } : State).ready = false := hr
  have hstart := State.startUp_started (env := env) hr' true true false
  refine ⟨_, h.trans (congrArg _ (if_pos ha)), fun hrd p hp => hstart.beds hrd p hp, fun hf => ?_⟩
  obtain ⟨h1, h2, -, -, h5, h6⟩ := State.startUp_halted (s := { s with pins := x }) hf true true (.inl rfl)
  exact ⟨h1, h2.trans hr', h5, h6⟩

/-! ## The domain's wait -/

/-- A link of a module that is a domain of one. -/
def Link.alone (k : Link) : Link := { k with inDomain := false, tree := false, child := false }

/-- A module that is a domain of one (R330). -/
def State.single (s : State) : State :=
  let s := s.status 0x31 0
  let s : State := { s with lnk := { s.lnk with formed := false, reach := 0, members := 1 } }
  s.lnk.links.foldl (fun (s : State) e => s.setLink e.1 e.2.alone) s

theorem State.single_effect (s : State) :
    (∃ r, s.single = { s with
      regs := r
      lnk := { s.lnk with
        formed := false, reach := 0, members := 1
        links := updateAll (fun _ => ({} : Link)) (fun e => some e.2.alone) s.lnk.links s.lnk.links } }) ∧
    s.single.ready = s.ready ∧ s.single.fld 0x0 8 8 = 0x31 := by
  obtain ⟨r, hr⟩ : ∃ r, s.status 0x31 0 = { s with regs := r } := by
    obtain ⟨a, ha⟩ := s.setFld_frame 0x0 8 8 0x31
    obtain ⟨b, hb⟩ := (s.setFld 0x0 8 8 0x31).setFld_frame 0x0 16 32 0
    exact ⟨b, by unfold State.status; rw [hb, ha]⟩
  have hready : (s.status 0x31 0).ready = s.ready := (OnlyStatus.status 0x31 0).ready
  have hcode : (s.status 0x31 0).fld 0x0 8 8 = 0x31 := by
    unfold State.status
    rw [State.fld_setFld_disjoint _ _ _ (.inl (by decide)), State.fld_setFld_self _ _ _ (by decide)]
    rfl
  have hfold : s.single = { s.status 0x31 0 with
      lnk := { (s.status 0x31 0).lnk with
        formed := false, reach := 0, members := 1
        links := updateAll (fun _ => ({} : Link)) (fun e => some e.2.alone) (s.status 0x31 0).lnk.links (s.status 0x31 0).lnk.links } } :=
    foldl_eq_updateAll (fun _ => ({} : Link)) (fun e => some e.2.alone)
      (fun b => ({ s.status 0x31 0 with lnk := { (s.status 0x31 0).lnk with formed := false, reach := 0, members := 1, links := b } } : State))
      (fun _ _ => rfl) (s.status 0x31 0).lnk.links (s.status 0x31 0).lnk.links
  generalize s.status 0x31 0 = v at hr hready hcode hfold
  refine ⟨⟨r, by rw [hfold, hr]⟩, ?_, ?_⟩
  · rw [hfold]
    exact hready
  · rw [hfold]
    exact hcode

theorem exec_domainWaitExpiry {b : Boot} (hb : s.pins.boot = some b) (hstep : b.step = 10)
    (hlate : b.since.toNat + s.sec.domainWait * 100000 ≤ s.now) : exec .domainWaitExpiry s = .next (s.single.bootLast b.env) := by
  show execDomainWaitExpiry s = _
  unfold execDomainWaitExpiry
  simp only [hb]
  exact if_pos ⟨hstep, hlate⟩

/-- DOMAIN_WAIT_EXPIRY (R330, R429, R433). -/
theorem domainWaitExpiry_effect {b : Boot} (hb : s.pins.boot = some b) (hstep : b.step = 10)
    (hlate : b.since.toNat + s.sec.domainWait * 100000 ≤ s.now) (ht : Rising s.lnk.links) :
    ∃ t, exec .domainWaitExpiry s = .next t ∧ t.lnk.formed = false ∧ t.lnk.reach = 0 ∧ t.lnk.members = 1 ∧
      (∀ e ∈ s.lnk.links, t.link e.1 = { e.2 with inDomain := false, tree := false, child := false }) ∧
      t.pins.boot = none ∧ (∀ p, p < 132 → t.bed p = { bootBed b.env p with arrays := (s.bed p).counted.arrays }) ∧ t.fld 0x0 3 5 = 14 ∧
      (b.env.bedFail = 0 → t.fld 0x0 8 8 = 0x31) ∧ t.ready = (!s.dbg.ballsHeld || s.ready) ∧
      t.fld 0x40008 24 12 = b.env.basePower.toNat ∧ t.clk.sundial = s.clk.sundial := by
  obtain ⟨⟨r, he⟩, hready, hcode⟩ := s.single_effect
  have hex := exec_domainWaitExpiry hb hstep hlate
  have hlast := s.single.bootLast_lastSteps b.env
  have hserved : ∀ p, s.single.served b.env p = s.served b.env p := State.served_congr (fun p => by rw [he]; rfl) b.env
  have hballs : s.single.dbg = s.dbg := by rw [he]
  have hlnk : s.single.lnk = { s.lnk with
      formed := false, reach := 0, members := 1
      links := updateAll (fun _ => ({} : Link)) (fun e => some e.2.alone) s.lnk.links s.lnk.links } := by rw [he]
  have hclk : s.single.clk = s.clk := by rw [he]
  generalize s.single = v at hready hcode hex hlast hserved hballs hlnk hclk
  obtain ⟨⟨r', d, h, hf, -⟩, hrd, hst, -, hpow, hcd⟩ := id hlast
  have hlnk' : (v.bootLast b.env).lnk = v.lnk := by rw [hf]
  have hpins : (v.bootLast b.env).pins.boot = none := by rw [hf]
  have hclk' : (v.bootLast b.env).clk.sundial = v.clk.sundial := by rw [hf]; rfl
  refine ⟨_, hex, by rw [hlnk', hlnk], by rw [hlnk', hlnk], by rw [hlnk', hlnk], fun e hmem => ?_, hpins, fun p hp => ?_, hst,
    fun hb => (hcd hb).trans hcode, by rw [hrd, hballs, hready], hpow, by rw [hclk', hclk]⟩
  · unfold State.link
    rw [hlnk', hlnk]
    exact tget_updateAll_of_mem (fun _ => ({} : Link)) (fun e => some e.2.alone) ht hmem s.lnk.links
  · exact (hlast.bed hp).trans (hserved p)

end

/-- Settles O49: what is held starts from nothing, and of the three releases the last one starts the module up. -/
theorem coldResetsHoldAndReleaseTheModule : Obligations.ColdResetsHoldAndReleaseTheModule := by
  unfold Obligations.ColdResetsHoldAndReleaseTheModule
  refine ⟨⟨fun s low hlow => ?_, fun s env => ?_⟩, fun s b hb hstep hlate ht => domainWaitExpiry_effect hb hstep hlate ht.links⟩
  · cases low with
    | true =>
      obtain ⟨t, hex, h1, h2, h3, h4, h5, h6, h7, h8, h9, h10, h11, h12, h13, h14, h15, h16, h17⟩ := railUndervoltage_effect s
      exact ⟨t, hex, h1, h2, h3, h4, h5, h6, h7, h8, h9, h10, h11, h12, h13, h14, h15, fun _ => ⟨h16, h17⟩, nofun⟩
    | false =>
      obtain ⟨t, hex, h1, h2, h3, h4, h5, h6, h7, h8, h9, h10, h11, h12, h13, h14, h15, h16, h17⟩ :=
        perstAssert_effect (hlow rfl).1 (hlow rfl).2
      exact ⟨t, hex, h1, h2, h3, h4, h5, h6, h7, h8, h9, h10, h11, h12, h13, h14, h15, nofun, fun _ => ⟨h16, h17⟩⟩
  · exact ⟨fun h => (releases_perst env h).effect, fun h => (releases_rails env h).effect, fun h => (releases_refclk env h).effect⟩

end Sys2Proof.Machine
end

section
/-! PROOFS. Warm resets (R423, R424, R434, R435, Table 19.2): O48. -/

namespace Sys2Proof.Machine

/-! ## What is closed and adjusted first -/

section
variable {s : State}

theorem State.closeRec_frame (s : State) (p outcome code : Nat) : ∃ ps rs, s.closeRec p outcome code = { s with plots := ps, recs := rs } := by
  have hend : ∃ ps rs, s.endEpisode p = { s with plots := ps, recs := rs } := by
    unfold State.endEpisode
    split
    · exact ⟨s.plots, s.recs, rfl⟩
    next e _ =>
      obtain ⟨x, he⟩ := s.eventAt_recs e.tick p 0x09 0xFF 0 0 (leBytes 4 e.runs ++ leBytes 1 e.source)
      rw [he]
      exact ⟨_, x, rfl⟩
  have hevent : ∀ (u : State), (∃ ps rs, u = { s with plots := ps, recs := rs }) → ∀ kind bed index exec payload,
      ∃ ps rs, u.event p kind bed index exec payload = { s with plots := ps, recs := rs } := by
    rintro _ ⟨ps, rs, rfl⟩ kind bed index exec payload
    obtain ⟨x, he⟩ := State.event_recs { s with plots := ps, recs := rs } p kind bed index exec payload
    exact ⟨ps, x, he⟩
  unfold State.closeRec
  extract_lets s1 s2 s3 r
  have h2 : ∃ ps rs, s2 = { s with plots := ps, recs := rs } :=
    List.foldlRecOn (motive := fun t : State => ∃ ps rs, t = { s with plots := ps, recs := rs }) _ _ hend fun t ht b _ => hevent t ht _ _ _ _ _
  have h3 : ∃ ps rs, s3 = { s with plots := ps, recs := rs } :=
    List.foldlRecOn (motive := fun t : State => ∃ ps rs, t = { s with plots := ps, recs := rs }) _ _ h2 fun t ht c _ =>
      List.foldlRecOn (motive := fun t : State => ∃ ps rs, t = { s with plots := ps, recs := rs }) _ _ ht fun u hu ch _ => hevent u hu _ _ _ _ _
  obtain ⟨ps, rs, he⟩ := h3
  unfold State.setRunRec
  rw [he]
  exact ⟨ps, _, rfl⟩

theorem State.closeRecords_frame (s : State) : ∃ ps rs, s.closeRecords = { s with plots := ps, recs := rs } := by
  unfold State.closeRecords
  refine List.foldlRecOn (motive := fun t : State => ∃ ps rs, t = { s with plots := ps, recs := rs }) _ _ ⟨s.plots, s.recs, rfl⟩ ?_
  rintro _ ⟨ps, rs, rfl⟩ p -
  split
  · obtain ⟨ps', rs', he⟩ := State.closeRec_frame { s with plots := ps, recs := rs } p 1 0x5A
    exact ⟨ps', rs', he⟩
  · exact ⟨ps, rs, rfl⟩

theorem State.setSess_frame (s : State) (i : Nat) (e : List Byte) : ∃ d, s.setSess i e = { s with ddr := d } := by
  obtain ⟨mem, ctls, he, -⟩ := s.ddrWrite_ctls (s.sessAddr i) e
  exact ⟨_, he⟩

/-- A session that a warm reset finds moving goes to a state. -/
def State.settleSess (s : State) (i st : Nat) : State := if sessState (s.sess i) = 3 then s.setSess i (sessWith (s.sess i) st 15) else s

theorem State.settleSess_frame {t : State} (h : ∃ d, t = { s with ddr := d }) (i st : Nat) : ∃ d, t.settleSess i st = { s with ddr := d } := by
  obtain ⟨d, rfl⟩ := h
  unfold State.settleSess
  split
  · obtain ⟨d', he⟩ := State.setSess_frame { s with ddr := d } i (sessWith (State.sess { s with ddr := d } i) st 15)
    exact ⟨d', he⟩
  · exact ⟨d, rfl⟩

theorem State.adjustSessions_frame (s : State) : ∃ d, s.adjustSessions = { s with ddr := d } := by
  unfold State.adjustSessions
  extract_lets put s1
  have h1 : ∃ d, s1 = { s with ddr := d } := by
    refine List.foldlRecOn (motive := fun t : State => ∃ d, t = { s with ddr := d }) _ _ ⟨s.ddr, rfl⟩ fun t ht w _ => ?_
    split
    · exact ht
    · split
      · exact State.settleSess_frame ht _ _
      · exact State.settleSess_frame ht _ _
      · exact State.settleSess_frame (State.settleSess_frame ht _ _) _ _
  refine List.foldlRecOn (motive := fun t : State => ∃ d, t = { s with ddr := d }) _ _ h1 ?_
  rintro _ ⟨d, rfl⟩ i -
  obtain ⟨d', he⟩ := State.setSess_frame { s with ddr := d } i (sessWith (State.sess { s with ddr := d } i) 1 15)
  exact ⟨d', he⟩

/-- Records closed and sessions adjusted. -/
theorem State.settled_frame (s : State) : ∃ ps rs d, s.closeRecords.adjustSessions = { s with plots := ps, recs := rs, ddr := d } := by
  obtain ⟨ps, rs, he⟩ := s.closeRecords_frame
  obtain ⟨d, hd⟩ := s.closeRecords.adjustSessions_frame
  exact ⟨ps, rs, d, by rw [hd, he]⟩

/-! ## Registers and counts kept -/

theorem mem_keptRegs_iff {e : Nat × W64} (h : ¬(0x1000 ≤ e.1 ∧ e.1 < 0x2000)) :
    e ∈ s.keptRegs ↔ e ∈ s.regs ∧ (e.1 = 0x8 ∨ e.1 = 0x10108 ∨ e.1 = 0x10300 ∨ e.1 = 0x30010) ∧ e.2 ≠ regReset e.1 := by
  unfold State.keptRegs
  simp only [List.mem_filter, List.mem_map, bne_iff_ne, ne_eq, Bool.or_eq_true, Bool.and_eq_true, beq_iff_eq, decide_eq_true_eq]
  constructor
  · rintro ⟨⟨x, ⟨hx, hk⟩, he⟩, hv⟩
    have hxe : x = e := by
      split at he
      next hc =>
        subst he
        exact absurd ⟨hc.1, hc.2.1⟩ h
      next => exact he
    subst hxe
    refine ⟨hx, ?_, hv⟩
    rcases hk with (((hk | hk) | hk) | hk) | hk
    · exact .inl hk
    · exact .inr (.inl hk)
    · exact .inr (.inr (.inl hk))
    · exact .inr (.inr (.inr hk))
    · exact absurd hk.1 h
  · rintro ⟨hx, hk, hv⟩
    refine ⟨⟨e, ⟨hx, ?_⟩, if_neg fun hc => h ⟨hc.1, hc.2.1⟩⟩, hv⟩
    rcases hk with hk | hk | hk | hk
    · exact .inl (.inl (.inl (.inl hk)))
    · exact .inl (.inl (.inl (.inr hk)))
    · exact .inl (.inl (.inr hk))
    · exact .inl (.inr hk)

/-- A register that a warm reset keeps as it is (Table 19.2). -/
theorem State.keptRegs_get (hr : Rising s.regs) {off : Nat} (h : off = 0x10108 ∨ off = 0x30010) : tget regReset s.keptRegs off = s.reg off := by
  have hout : ¬(0x1000 ≤ off ∧ off < 0x2000) := by omega
  have hkind : off = 0x8 ∨ off = 0x10108 ∨ off = 0x10300 ∨ off = 0x30010 := by omega
  by_cases hm : ∃ v, (off, v) ∈ s.regs ∧ v ≠ regReset off
  · obtain ⟨v, hv, hne⟩ := hm
    have hk : (off, v) ∈ s.keptRegs := (mem_keptRegs_iff hout).mpr ⟨hv, hkind, hne⟩
    exact (tget_of_mem regReset (rising_keptRegs hr) hk).trans (tget_of_mem regReset hr hv).symm
  · have hno : ∀ e ∈ s.keptRegs, e.1 ≠ off := fun e he hoff => by
      subst hoff
      obtain ⟨hx, -, hv⟩ := (mem_keptRegs_iff hout).mp he
      exact hm ⟨e.2, hx, hv⟩
    rw [tget_of_notMem regReset hno]
    by_cases hin : ∃ v, (off, v) ∈ s.regs
    · obtain ⟨v, hv⟩ := hin
      have hreset : v = regReset off := not_not.mp fun hne => hm ⟨v, hv, hne⟩
      exact hreset.symm.trans (tget_of_mem regReset hr hv).symm
    · exact (tget_of_notMem regReset fun e he hoff => hin ⟨e.2, by rw [← hoff]; exact he⟩).symm

/-- HST_BOOT_STATUS starts from its reset value. -/
theorem State.keptRegs_status (s : State) : tget regReset s.keptRegs 0 = 0 := by
  have hno : ∀ e ∈ s.keptRegs, e.1 ≠ 0 := fun e he h0 => by
    obtain ⟨-, hk, -⟩ := (mem_keptRegs_iff (by omega)).mp he
    omega
  exact tget_of_notMem regReset hno

theorem Bed.counted_arrays (b : Bed) : b.counted.arrays = (b.arrays.map fun e => (e.1, e.2.loaded)).filter fun e => e.2 != {} := rfl

theorem Bed.counted_counted (b : Bed) : b.counted.counted.arrays = b.counted.arrays := by
  have hmap : (b.counted.arrays.map fun e => (e.1, e.2.loaded)) = b.counted.arrays := by
    refine (List.map_congr_left fun e he => ?_).trans (List.map_id _)
    obtain ⟨x, -, rfl⟩ := List.mem_map.mp (List.mem_filter.mp he).1
    rfl
  rw [Bed.counted_arrays b.counted, hmap, Bed.counted_arrays b, List.filter_filter]
  simp only [Bool.and_self]

/-- The beds that a warm reset keeps: their counts (R90). -/
def State.keptBeds (s : State) : Tbl Bed := (s.beds.map fun e => (e.1, e.2.counted)).filter fun e => e.2 != {}

theorem State.keptBeds_get (hr : Rising s.beds) (p : Nat) : tget (fun _ => ({} : Bed)) s.keptBeds p = (s.bed p).counted := by
  have hrise : Rising s.keptBeds := rising_filter (rising_map (f := fun e : Nat × Bed => e.2.counted) hr)
  have hmem : ∀ e, e ∈ s.keptBeds ↔ (∃ b, (e.1, b) ∈ s.beds ∧ b.counted = e.2) ∧ e.2 ≠ {} := fun e => by
    unfold State.keptBeds
    simp only [List.mem_filter, List.mem_map, bne_iff_ne, ne_eq]
    refine and_congr_left fun _ => ⟨?_, ?_⟩
    · rintro ⟨x, hx, rfl⟩
      exact ⟨x.2, hx, rfl⟩
    · rintro ⟨b, hb, he⟩
      exact ⟨(e.1, b), hb, by rw [he]⟩
  by_cases hm : ∃ b, (p, b) ∈ s.beds
  · obtain ⟨b, hb⟩ := hm
    have hbed : s.bed p = b := tget_of_mem (fun _ => ({} : Bed)) hr hb
    rw [hbed]
    by_cases he : b.counted = {}
    · have hno : ∀ e ∈ s.keptBeds, e.1 ≠ p := fun e hin hk => by
        obtain ⟨⟨x, hx, hxe⟩, hne⟩ := (hmem e).mp hin
        rw [hk] at hx
        have hxb : x = b := (tget_of_mem (fun _ => ({} : Bed)) hr hx).symm.trans (tget_of_mem (fun _ => ({} : Bed)) hr hb)
        exact hne (hxe.symm.trans ((congrArg Bed.counted hxb).trans he))
      rw [tget_of_notMem (fun _ => ({} : Bed)) hno, he]
    · exact tget_of_mem (fun _ => ({} : Bed)) hrise ((hmem (p, b.counted)).mpr ⟨⟨b, hb, rfl⟩, he⟩)
  · have hno : ∀ e ∈ s.keptBeds, e.1 ≠ p := fun e hin hk => by
      obtain ⟨⟨x, hx, -⟩, -⟩ := (hmem e).mp hin
      exact hm ⟨x, hk ▸ hx⟩
    have hbed : s.bed p = {} := tget_of_notMem (fun _ => ({} : Bed)) fun e he hk => hm ⟨e.2, hk ▸ he⟩
    rw [tget_of_notMem (fun _ => ({} : Bed)) hno, hbed]
    rfl

/-! ## The hold -/

/-- What a warm reset leaves of a state whose records are closed, but for the cause. -/
def State.warmState (s : State) (kind : Nat) : State :=
  { s.base with
    recs := s.recs
    beds := s.keptBeds
    ddr := { ctls := (s.ddr.ctls.filter fun e => e.2.state == 3).map fun e => (e.1, { state := 3 : Ctl }), mem := s.ddr.mem }
    host := { s.base.host with
      rings := (s.host.rings.map fun e => (e.1, e.2.kept)).filter fun e => e.2 != {}
      msixTable := if kind = 3 then [] else s.host.msixTable
      msixPending := if kind = 3 then 0 else s.host.msixPending
      d3hot := if kind = 3 then false else s.host.d3hot }
    grd := { flt := s.grd.flt, fltNext := s.grd.fltNext, fltOrder := s.grd.fltOrder }
    sec := { s.base.sec with attestCount := s.sec.attestCount, tapUsed := s.sec.tapUsed }
    clk := { sundial := if s.clk.locked then s.clk.sundial else 0, total := s.clk.total }
    dbg := { s.base.dbg with ballsHeld := s.dbg.ballsHeld }
    regs := s.keptRegs }

/-- The cause of a reset noted in GLB_RESET_CAUSE. -/
def State.noteCause (w : State) (kind c : Nat) : State :=
  let w := w.setFld 0x10108 0 3 kind
  let w := if c ≠ 0 then w.setFld 0x10108 3 8 c else w
  (w.bump 0x10108 11 16 1).setFld 0x0 2 1 1

theorem State.warmHold_eq (s : State) (kind : Nat) : s.warmHold kind =
    (s.closeRecords.adjustSessions.warmState kind).noteCause kind s.closeRecords.adjustSessions.pins.recovery := rfl

theorem State.noteCause_effect (w : State) {kind : Nat} (hk : kind < 8) (c : Nat) :
    (∃ r, w.noteCause kind c = { w with regs := r }) ∧ (w.noteCause kind c).ready = w.ready ∧ (w.noteCause kind c).fld 0x0 2 1 = 1 ∧
    (w.noteCause kind c).reg 0x30010 = w.reg 0x30010 ∧ (w.noteCause kind c).fld 0x10108 0 3 = kind ∧
    (w.noteCause kind c).fld 0x10108 11 16 = satAdd 16 (w.fld 0x10108 11 16) 1 := by
  have hother : ∀ (x : State) (off lo n v : Nat), off ≠ 0x30010 → (x.setFld off lo n v).reg 0x30010 = x.reg 0x30010 := fun x off lo n v h => by
    unfold State.setFld
    rw [State.reg_setReg, if_neg h.symm]
  unfold State.noteCause
  extract_lets w1 w2
  have h1 : w1.fld 0x10108 0 3 = kind ∧ w1.fld 0x10108 11 16 = w.fld 0x10108 11 16 ∧ w1.ready = w.ready ∧ w1.reg 0x30010 = w.reg 0x30010 ∧
      ∃ r, w1 = { w with regs := r } := by
    refine ⟨(State.fld_setFld_self w 0x10108 kind (by decide)).trans (Nat.mod_eq_of_lt hk),
      State.fld_setFld_disjoint _ _ _ (.inr (by decide)), ?_, hother _ _ _ _ _ (by decide), w.setFld_frame _ _ _ _⟩
    unfold State.ready
    rw [State.fld_setFld_of_ne _ _ _ _ _ _ (by decide)]
  clear_value w1
  have h2 : w2.fld 0x10108 0 3 = kind ∧ w2.fld 0x10108 11 16 = w.fld 0x10108 11 16 ∧ w2.ready = w.ready ∧ w2.reg 0x30010 = w.reg 0x30010 ∧
      ∃ r, w2 = { w with regs := r } := by
    obtain ⟨ha, hb, hc, hd, r, he⟩ := h1
    unfold w2
    split
    · obtain ⟨r', hr'⟩ := w1.setFld_frame 0x10108 3 8 c
      refine ⟨(State.fld_setFld_disjoint _ _ _ (.inl (by decide))).trans ha, (State.fld_setFld_disjoint _ _ _ (.inr (by decide))).trans hb,
        Eq.trans ?_ hc, (hother _ _ _ _ _ (by decide)).trans hd, r', by rw [hr', he]⟩
      unfold State.ready
      rw [State.fld_setFld_of_ne _ _ _ _ _ _ (by decide)]
    · exact ⟨ha, hb, hc, hd, r, he⟩
  clear_value w2
  obtain ⟨ha, hb, hc, hd, r, he⟩ := h2
  rw [State.bump_eq_setFld]
  generalize hsat : satAdd 16 (w2.fld 0x10108 11 16) 1 = n
  have hn : n < 2 ^ 16 := by
    rw [← hsat]
    unfold satAdd
    omega
  obtain ⟨r1, hr1⟩ := w2.setFld_frame 0x10108 11 16 n
  have h3 : (w2.setFld 0x10108 11 16 n).ready = w2.ready := by
    unfold State.ready
    rw [State.fld_setFld_of_ne _ _ _ _ _ _ (by decide)]
  have h4 : (w2.setFld 0x10108 11 16 n).fld 0x10108 0 3 = kind := (State.fld_setFld_disjoint _ _ _ (.inl (by decide))).trans ha
  have h5 : (w2.setFld 0x10108 11 16 n).fld 0x10108 11 16 = n := (State.fld_setFld_self _ _ _ (by decide)).trans (Nat.mod_eq_of_lt hn)
  have h6 : (w2.setFld 0x10108 11 16 n).reg 0x30010 = w.reg 0x30010 := (hother _ _ _ _ _ (by decide)).trans hd
  generalize w2.setFld 0x10108 11 16 n = w3 at hr1 h3 h4 h5 h6
  have hs := OnlyStatus.setStatus (s := w3) (lo := 2) (n := 1) 1 (by decide)
  obtain ⟨r2, hr2⟩ := w3.setFld_frame 0x0 2 1 1
  refine ⟨⟨r2, by rw [hr2, hr1, he]⟩, (hs.ready.trans h3).trans hc, State.fld_setFld_self w3 0x0 1 (by decide),
    (hs.reg _ (by decide)).trans h6, (congrArg (wfld · 0 3) (hs.reg 0x10108 (by decide))).trans h4,
    (congrArg (wfld · 11 16) (hs.reg 0x10108 (by decide))).trans (h5.trans ?_)⟩
  rw [← hsat, hb]

/-- A warm reset's hold (R424, Table 19.2). -/
structure WarmHeld (kind : Nat) (s w : State) : Prop where
  ready : w.ready = false
  recovery : w.fld 0x0 2 1 = 1
  unpartnered : Unpartnered w
  spared : w.spared.1 = s.host.mem ∧ w.sec.flash = s.sec.flash ∧ w.sec.attestCount = s.sec.attestCount ∧ w.sec.tapUsed = s.sec.tapUsed ∧
    w.clk.total = s.clk.total ∧ w.grd.flt = s.grd.flt ∧ w.plots = [] ∧ w.fwClaims = [] ∧ w.brw = {} ∧ w.dbg.frozen = false
  stretch : w.reg 0x30010 = s.reg 0x30010
  cause : w.fld 0x10108 0 3 = kind
  resets : w.fld 0x10108 11 16 = satAdd 16 (s.fld 0x10108 11 16) 1
  beds : ∀ p, (w.bed p).counted.arrays = (s.bed p).counted.arrays

/-- No link of a base state knows a partner. -/
theorem State.base_unpartnered (s : State) : Unpartnered s.base := fun l => by
  rcases tget_default_or_mem (fun _ => ({} : Link)) s.base.lnk.links l with h | h
  · unfold State.link
    rw [h]
  · obtain ⟨x, -, hx⟩ := List.mem_map.mp (List.mem_filter.mp h).1
    have hl : tget (fun _ => ({} : Link)) s.base.lnk.links l = { wireOut := x.2.wireOut } := (Prod.mk.inj hx).2.symm
    unfold State.link
    rw [hl]

theorem State.warmHold_held (ht : Tidy s) {kind : Nat} (hk : kind < 8) : WarmHeld kind s (s.warmHold kind) := by
  obtain ⟨ps, rs, d, he⟩ := s.settled_frame
  rw [State.warmHold_eq]
  generalize s.closeRecords.adjustSessions = v at he
  have hregs : v.regs = s.regs := by rw [he]
  have hbeds : v.beds = s.beds := by rw [he]
  have hreg : ∀ off, v.reg off = s.reg off := fun off => congrArg (fun b : Tbl W64 => tget regReset b off) hregs
  have hbed : ∀ p, v.bed p = s.bed p := fun p => congrArg (fun b : Tbl Bed => tget (fun _ => ({} : Bed)) b p) hbeds
  have hrise : Rising v.regs := by rw [hregs]; exact ht.regs
  have hriseB : Rising v.beds := by rw [hbeds]; exact ht.beds
  have hw : (v.warmState kind).reg 0x0 = 0 := v.keptRegs_status
  have hwready : (v.warmState kind).ready = false := by
    unfold State.ready State.fld
    rw [hw]
    decide
  have hkept : ∀ off, off = 0x10108 ∨ off = 0x30010 → (v.warmState kind).reg off = s.reg off := fun off h =>
    (State.keptRegs_get hrise h).trans (hreg off)
  have hcount : (v.warmState kind).fld 0x10108 11 16 = s.fld 0x10108 11 16 := congrArg (wfld · 11 16) (hkept _ (.inl rfl))
  have hwbed : ∀ p, (v.warmState kind).bed p = (s.bed p).counted := fun p =>
    (State.keptBeds_get hriseB p).trans (congrArg Bed.counted (hbed p))
  have hwlink : Unpartnered (v.warmState kind) := v.base_unpartnered
  have hspared : (v.warmState kind).host.mem = s.host.mem ∧ (v.warmState kind).sec.flash = s.sec.flash ∧
      (v.warmState kind).sec.attestCount = s.sec.attestCount ∧ (v.warmState kind).sec.tapUsed = s.sec.tapUsed ∧
      (v.warmState kind).clk.total = s.clk.total ∧ (v.warmState kind).grd.flt = s.grd.flt ∧ (v.warmState kind).plots = [] ∧
      (v.warmState kind).fwClaims = [] ∧ (v.warmState kind).brw = {} ∧ (v.warmState kind).dbg.frozen = false := by
    rw [he]
    exact ⟨rfl, rfl, rfl, rfl, rfl, rfl, rfl, rfl, rfl, rfl⟩
  generalize v.warmState kind = w at hw hwready hkept hcount hwbed hwlink hspared
  obtain ⟨⟨r, hr⟩, h1, h2, h3, h4, h5⟩ := w.noteCause_effect hk v.pins.recovery
  generalize w.noteCause kind v.pins.recovery = u at hr h1 h2 h3 h4 h5
  refine ⟨h1.trans hwready, h2, ?_, ?_, h3.trans (hkept _ (.inr rfl)), h4, by rw [h5, hcount], fun p => ?_⟩
  · rw [hr]
    exact hwlink
  · rw [hr]
    exact hspared
  · have hu : u.bed p = w.bed p := by rw [hr]; rfl
    rw [hu, hwbed, Bed.counted_counted]

/-! ## The reset as a whole -/

/-- A warm reset and its start-up (R423). -/
theorem State.warmReset_effect (ht : Tidy s) (ha : s.alive = true) {kind : Nat} (hk : kind < 8) (env : BootEnv) :
    let t := s.warmReset kind env
    t.pending = s.pending ∧ t.host.mem = s.host.mem ∧ t.sec.flash = s.sec.flash ∧
      t.clk.total = s.clk.total ∧ t.reg 0x30010 = s.reg 0x30010 ∧ t.sec.attestCount = s.sec.attestCount ∧ t.sec.tapUsed = s.sec.tapUsed ∧
      t.grd.flt = s.grd.flt ∧ t.plots = [] ∧ t.fwClaims = [] ∧ t.brw = {} ∧ t.dbg.frozen = false ∧ t.fld 0x10108 0 3 = kind ∧
      t.fld 0x10108 11 16 = satAdd 16 (s.fld 0x10108 11 16) 1 ∧
      (t.ready = true → ∀ p, p < 132 → t.bed p = { bootBed env p with arrays := (s.bed p).counted.arrays }) ∧
      (env.tMax.toInt < 360 → env.flashOk = false → t.pins.halted = true ∧ t.ready = false ∧ t.fld 0x0 1 1 = 1 ∧ t.fld 0x0 2 1 = 1 ∧
        t.fld 0x0 3 5 = 3 ∧ t.fld 0x0 8 8 = 0x10) := by
  intro t
  have hpend : t.pending = s.pending := (Keeps.warmReset .refl).pending
  have he : t = (s.warmHold kind).startUp env false (!s.clk.locked) (s.pins.recovery == 0x8D) := if_pos ha
  obtain ⟨hready, hrec, hun, ⟨hmem, hflash, hatt, htap, htot, hflt, hplots, hfw, hbrw, hfroz⟩, hstr, hcause, hcount, hbeds⟩ :=
    State.warmHold_held ht hk
  have hstart := State.startUp_started (env := env) hready false (!s.clk.locked) (s.pins.recovery == 0x8D)
  have hhalt := fun hf hh => State.startUp_halted (s := s.warmHold kind) (env := env) hf false (!s.clk.locked)
    (hot := s.pins.recovery == 0x8D) hh
  rw [← he] at hstart hhalt
  generalize s.warmHold kind = w at *
  clear_value t
  obtain ⟨hsp, h30010, h10108⟩ := hstart.calm hun
  unfold State.spared at hsp
  simp only [Prod.mk.injEq] at hsp
  obtain ⟨p1, p2, p3, p4, p5, p6, p7, p8, p9, p10⟩ := hsp
  refine ⟨hpend, p1.trans hmem, p2.trans hflash, p5.trans htot, h30010.trans hstr, p3.trans hatt, p4.trans htap, p6.trans hflt,
    p7.trans hplots, p8.trans hfw, p9.trans hbrw, (congrArg Dbg.frozen p10).trans hfroz,
    (congrArg (wfld · 0 3) h10108).trans hcause, (congrArg (wfld · 11 16) h10108).trans hcount, fun hr p hp => ?_, fun htm hf => ?_⟩
  · refine (hstart.beds hr p hp).trans ?_
    unfold State.served
    rw [hbeds p]
  · obtain ⟨g1, g2, g3, g4, g5, g6⟩ := hhalt hf (.inr htm)
    exact ⟨g1, g2.trans hready, g3, g4.trans hrec, g5, g6⟩

end

/-- Settles O48: what a warm reset holds is what the table names, and no link that it starts again knew a partner before. -/
theorem warmResetsKeepWhatTheTableNames : Obligations.WarmResetsKeepWhatTheTableNames := by
  unfold Obligations.WarmResetsKeepWhatTheTableNames
  intro s rid v env hot ht hyp i
  cases hot with
  | true => exact ⟨s.warmReset 3 env, rfl, State.warmReset_effect ht hyp (kind := 3) (by decide) env⟩
  | false =>
    obtain ⟨hreach, hgo, hkey⟩ := hyp
    refine ⟨s.warmReset 2 env, ?_, State.warmReset_effect ht hreach.1 (kind := 2) (by decide) env⟩
    show execGlbResetWarm rid v env s = _
    unfold execGlbResetWarm
    rw [if_pos hreach.1, State.bar0_of_reached hreach, State.writeReset, if_pos ⟨hgo, hkey⟩]

end Sys2Proof.Machine
end

section
/-! PROOFS. Faults of the whole module and the delivery of entropy (R403, R407, R434, R450): O50. -/

namespace Sys2Proof.Machine

/-! ## Recovery -/

/-- A fault that takes the module into recovery (R434). -/
theorem State.recover_effect (s : State) (cause : Nat) : (∃ r h, s.recover cause = { s with
      regs := r, host := h, pins := { s.pins with recovery := cause } }) ∧ (s.recover cause).ready = false ∧ (s.recover cause).fld 0x0 2 1 = 1 ∧
    ∀ off, off ≠ 0 → (s.recover cause).reg off = s.reg off := by
  have hreg : ∀ off, (s.recover cause).reg off = ((s.setFld 0x0 0 1 0).setFld 0x0 2 1 1).reg off := fun _ => rfl
  refine ⟨⟨_, _, rfl⟩, s.leaveService_ready, s.leaveService_recovery, fun off h => ?_⟩
  rw [hreg]
  unfold State.setFld
  rw [State.reg_setReg, if_neg h, State.reg_setReg, if_neg h]

section
variable {s : State}

/-! ## The root clock is lost -/

theorem exec_pllLockLoss (h : s.clk.locked = true) : exec .pllLockLoss s =
    .next (State.recover { (s.report (unitId 0xE 0) (unitId 0xE 0) 0x8E 0).setFld 0x30000 1 1 1 with
      clk := { (s.report (unitId 0xE 0) (unitId 0xE 0) 0x8E 0).clk with locked := false, stopped := true } } 0x8E) := if_pos h

/-- PLL_LOCK_LOSS (R407, R434). -/
theorem pllLockLoss_effect (h : s.clk.locked = true) : ∃ t, exec .pllLockLoss s = .next t ∧
    t.clk = { s.clk with locked := false, stopped := true } ∧
      t.running = false ∧ t.ready = false ∧ t.fld 0x0 2 1 = 1 ∧ t.pins.recovery = 0x8E ∧ t.fld 0x30000 1 1 = 1 ∧
      t.beds = s.beds ∧ t.plots = s.plots := by
  obtain ⟨g, x, hr⟩ := s.report_frame (unitId 0xE 0) (unitId 0xE 0) 0x8E 0
  have hex := exec_pllLockLoss h
  generalize s.report (unitId 0xE 0) (unitId 0xE 0) 0x8E 0 = u at hr hex
  have hlost : (u.setFld 0x30000 1 1 1).fld 0x30000 1 1 = 1 := State.fld_setFld_self u 0x30000 1 (by decide)
  obtain ⟨r, hf⟩ := u.setFld_frame 0x30000 1 1 1
  generalize u.setFld 0x30000 1 1 1 = v at hex hlost hf
  obtain ⟨⟨r', x', he⟩, hready, hrec, hreg⟩ := State.recover_effect { v with clk := { u.clk with locked := false, stopped := true } } 0x8E
  refine ⟨_, hex, ?_, ?_, hready, hrec, ?_, (congrArg (wfld · 1 1) (hreg 0x30000 (by decide))).trans hlost, ?_, ?_⟩
  all_goals rw [he]
  · rw [hr]
  · unfold State.running
    exact Bool.and_false _
  · rw [hf, hr]
  · rw [hf, hr]

/-! ## A conservation fault -/

theorem State.setRing_frame (s : State) (r : Nat) (x : Ring) : ∃ h, s.setRing r x = { s with host := h } := ⟨_, rfl⟩

/-- The mark of a pool in its own registers (R403). -/
def State.markPool (s : State) (pool : BitVec 3) (index : Nat) : State :=
  let s := if pool = 0 then s.setFld (0xB0028 + 0x100 * index) 55 1 1 else s
  let s := if pool = 1 then s.setFld (0x80040 + 8 * index) 39 1 1 else s
  if pool = 2 then s.setRing index { s.ring index with mismatch := true } else s

theorem State.markPool_effect (s : State) (pool : BitVec 3) (index : Nat) :
    (∃ r h, s.markPool pool index = { s with regs := r, host := h }) ∧ ∀ off, off < 0x80000 → (s.markPool pool index).reg off = s.reg off := by
  have hset : ∀ (x : State) (a off lo n v : Nat), off < 0x80000 → 0x80000 ≤ a → (x.setFld a lo n v).reg off = x.reg off :=
    fun x a off lo n v h ha => by
      unfold State.setFld
      rw [State.reg_setReg, if_neg (by omega)]
  unfold State.markPool
  extract_lets s1 s2
  have h1 : (∃ r, s1 = { s with regs := r }) ∧ ∀ off, off < 0x80000 → s1.reg off = s.reg off := by
    unfold s1
    split
    · exact ⟨s.setFld_frame _ _ _ _, fun off h => hset _ _ _ _ _ _ h (by omega)⟩
    · exact ⟨⟨s.regs, rfl⟩, fun _ _ => rfl⟩
  clear_value s1
  have h2 : (∃ r, s2 = { s with regs := r }) ∧ ∀ off, off < 0x80000 → s2.reg off = s.reg off := by
    obtain ⟨⟨r, he⟩, hreg⟩ := h1
    unfold s2
    split
    · obtain ⟨r', hr'⟩ := s1.setFld_frame (0x80040 + 8 * index) 39 1 1
      exact ⟨⟨r', by rw [hr', he]⟩, fun off h => (hset _ _ _ _ _ _ h (by omega)).trans (hreg off h)⟩
    · exact ⟨⟨r, he⟩, hreg⟩
  clear_value s2
  obtain ⟨⟨r, he⟩, hreg⟩ := h2
  split
  · obtain ⟨h, hh⟩ := s2.setRing_frame index { s2.ring index with mismatch := true }
    exact ⟨⟨r, h, by rw [hh, he]⟩, fun off h => hreg off h⟩
  · exact ⟨⟨r, s.host, he⟩, hreg⟩

/-- GLB_AUDIT_STATUS of a conservation fault (R403). -/
def auditWord (pool : BitVec 3) (index : BitVec 8) (t : Nat) : W64 :=
  BitVec.ofNat 64 (1 + pool.toNat * 2 + index.toNat * 2 ^ 4 + (t % 2 ^ 48) * 2 ^ 12)

theorem auditWord_fld {pool : BitVec 3} (index : BitVec 8) (t : Nat) :
    wfld (auditWord pool index t) 0 1 = 1 ∧ wfld (auditWord pool index t) 1 3 = pool.toNat ∧
      wfld (auditWord pool index t) 4 8 = index.toNat ∧ wfld (auditWord pool index t) 12 48 = t % 2 ^ 48 := by
  have hp := pool.isLt
  have hi := index.isLt
  simp only [auditWord, wfld, bits, BitVec.toNat_ofNat]
  omega

/-- The module frozen by a conservation fault. -/
def State.conserve (s : State) (now : W64) : State :=
  { s with
    freeN := s.freeN + 1
    dbg := { s.dbg with
      frozen := true, conservation := true, multi := false, cut := now, frostAt := none, thawAt := none, scan := s.freeN } }

/-- A module whose sundial reads another tick. -/
def State.atTick (s : State) (t : W64) : State := { s with clk := { s.clk with sundial := t } }

/-- A report at an earlier tick. -/
def State.reportAt (s : State) (t : Nat) (detail : Nat) : State :=
  ((s.atTick (BitVec.ofNat 64 t)).report (unitId 0xD 0) (unitId 0xD 0) 0x8F detail).atTick s.clk.sundial

theorem State.reportAt_frame (s : State) (t detail : Nat) : ∃ g h, s.reportAt t detail = { s with grd := g, host := h } := by
  obtain ⟨g, h, he⟩ := (s.atTick (BitVec.ofNat 64 t)).report_frame (unitId 0xD 0) (unitId 0xD 0) 0x8F detail
  refine ⟨g, h, ?_⟩
  unfold State.reportAt
  rw [he]
  rfl

theorem exec_conservationFreeze {pool : BitVec 3} (index : BitVec 8) (tally : W64) (hp : pool.toNat < 5) (hl : s.clk.locked = true) (h8 : 8 ≤ s.now) :
    exec (.conservationFreeze pool index tally) s = .next (State.recover
      ((((s.reportAt (s.now - 8) (pool.toNat + tally.toNat * 2 ^ 3)).setReg 0x10300 (auditWord pool index (s.now - 8))).markPool pool
        index.toNat).conserve s.clk.sundial) 0x8F) := if_pos ⟨hp, hl, h8⟩

/-- CONSERVATION_FREEZE (R403). -/
theorem conservationFreeze_effect {pool : BitVec 3} (index : BitVec 8) (tally : W64) (hp : pool.toNat < 5) (hl : s.clk.locked = true)
    (h8 : 8 ≤ s.now) :
    ∃ t, exec (.conservationFreeze pool index tally) s = .next t ∧ t.dbg.frozen = true ∧ t.dbg.conservation = true ∧
        t.dbg.cut = s.clk.sundial ∧ t.dbg.frostAt = none ∧ t.running = false ∧ t.ready = false ∧ t.pins.recovery = 0x8F ∧
        t.fld 0x10300 0 1 = 1 ∧ t.fld 0x10300 1 3 = pool.toNat ∧ t.fld 0x10300 4 8 = index.toNat ∧
        t.fld 0x10300 12 48 = (s.now - 8) % 2 ^ 48 ∧ t.clk = s.clk ∧ t.beds = s.beds ∧ t.plots = s.plots := by
  have hex := exec_conservationFreeze index tally hp hl h8
  obtain ⟨g, x, hr⟩ := s.reportAt_frame (s.now - 8) (pool.toNat + tally.toNat * 2 ^ 3)
  generalize s.reportAt (s.now - 8) (pool.toNat + tally.toNat * 2 ^ 3) = u at hr hex
  obtain ⟨h0, h1, h4, h12⟩ := auditWord_fld (pool := pool) index (s.now - 8)
  generalize auditWord pool index (s.now - 8) = w at hex h0 h1 h4 h12
  obtain ⟨⟨r, y, he⟩, hreg⟩ := (u.setReg 0x10300 w).markPool_effect pool index.toNat
  have hw : ((u.setReg 0x10300 w).markPool pool index.toNat).reg 0x10300 = w := by
    rw [hreg _ (by decide), State.reg_setReg, if_pos rfl]
  generalize (u.setReg 0x10300 w).markPool pool index.toNat = v at hex he hw
  obtain ⟨⟨r', y', hrec⟩, hready, -, hreg'⟩ := (v.conserve s.clk.sundial).recover_effect 0x8F
  have ht : ((v.conserve s.clk.sundial).recover 0x8F).reg 0x10300 = w := (hreg' _ (by decide)).trans hw
  have hfld : ∀ lo n, ((v.conserve s.clk.sundial).recover 0x8F).fld 0x10300 lo n = wfld w lo n := fun lo n => congrArg (wfld · lo n) ht
  refine ⟨_, hex, ?_, ?_, ?_, ?_, ?_, hready, ?_, (hfld 0 1).trans h0, (hfld 1 3).trans h1, (hfld 4 8).trans h4, (hfld 12 48).trans h12, ?_, ?_, ?_⟩
  all_goals rw [hrec]
  iterate 4 rfl
  · exact Bool.false_and _
  · rw [he, hr]
    rfl
  · rw [he, hr]
    rfl
  · rw [he, hr]
    rfl

/-! ## Entropy -/

theorem entropyWordDelivery_failed {die : BitVec 2} (h : s.sec.entropyFail.getLsbD die.toNat = true) (words : List W64) :
    exec (.entropyWordDelivery die words) s = .next s := if_neg (by simp [h])

theorem exec_entropyHealthFail {die : BitVec 2} (h : s.sec.entropyFail.getLsbD die.toNat = false) : exec (.entropyHealthFail die) s =
    .next (State.report { s with sec := { s.sec with entropyFail := s.sec.entropyFail ||| (1 <<< die.toNat) } } (unitId 0xE 0) (unitId 0xE 0) 0x90
      die.toNat) := if_neg (by rw [h]; decide)

/-- ENTROPY_HEALTH_FAIL (R450). -/
theorem entropyHealthFail_effect {die : BitVec 2} (h : s.sec.entropyFail.getLsbD die.toNat = false) :
    ∃ t, exec (.entropyHealthFail die) s = .next t ∧
        t.sec = { s.sec with entropyFail := s.sec.entropyFail ||| (1 <<< die.toNat) } ∧ t.beds = s.beds ∧ t.plots = s.plots ∧
        ∀ words, exec (.entropyWordDelivery die words) t = .next t := by
  obtain ⟨g, x, hr⟩ := State.report_frame { s with sec := { s.sec with entropyFail := s.sec.entropyFail ||| (1 <<< die.toNat) } } (unitId 0xE 0)
    (unitId 0xE 0) 0x90 die.toNat
  refine ⟨_, exec_entropyHealthFail h, by rw [hr], by rw [hr], by rw [hr], fun words => entropyWordDelivery_failed ?_ words⟩
  rw [hr]
  exact getLsbD_or_one_shiftLeft _ die.isLt

/-- A bed with the word that it takes, if it has room (R450). -/
def Bed.takeWord (b : Bed) (w : W64) : Bed := if b.entropy.length < 32 then { b with entropy := b.entropy ++ [w] } else b

/-- A logical bed given its word. -/
def State.giveWord (base : Nat) (s : State) (e : Nat × W64) : State :=
  match s.physOf (base + e.1) with
  | none => s
  | some p => if (s.bed p).entropy.length < 32 then s.setBed p ((s.bed p).takeWord e.2) else s

theorem State.giveWord_none {base : Nat} {e : Nat × W64} (h : s.physOf (base + e.1) = none) : s.giveWord base e = s := by
  unfold State.giveWord
  rw [h]

theorem State.giveWord_some {base p : Nat} {e : Nat × W64} (h : s.physOf (base + e.1) = some p) :
    (∃ bs, s.giveWord base e = { s with beds := bs }) ∧
      ∀ q, (s.giveWord base e).bed q = if q = p then (s.bed p).takeWord e.2 else s.bed q := by
  unfold State.giveWord
  rw [h]
  dsimp only
  split
  next hlt => exact ⟨⟨_, rfl⟩, fun q => State.bed_setBed _ _ _ _⟩
  next hlt =>
    refine ⟨⟨s.beds, rfl⟩, fun q => ?_⟩
    split
    next hq => rw [hq, Bed.takeWord, if_neg hlt]
    next => rfl

/-- The words of one delivery: every logical bed that is mapped takes its own, and no other bed any. -/
theorem foldl_giveWord {base : Nat} {es : List (Nat × W64)} (hn : (es.map (·.1)).Nodup) (hr : Rising s.beds) :
    (∃ bs, es.foldl (State.giveWord base) s = { s with beds := bs }) ∧
      (∀ e ∈ es, ∀ p, s.physOf (base + e.1) = some p → (es.foldl (State.giveWord base) s).bed p = (s.bed p).takeWord e.2) ∧
      ∀ p, (∀ e ∈ es, s.physOf (base + e.1) ≠ some p) → (es.foldl (State.giveWord base) s).bed p = s.bed p := by
  induction es generalizing s with
  | nil => exact ⟨⟨s.beds, rfl⟩, nofun, fun _ _ => rfl⟩
  | cons e es ih =>
    obtain ⟨hne, hn⟩ := List.nodup_cons.mp hn
    rw [List.foldl_cons]
    cases hp : s.physOf (base + e.1) with
    | none =>
      rw [State.giveWord_none hp]
      obtain ⟨hf, hin, hout⟩ := ih hn hr
      refine ⟨hf, fun x hx p hxp => ?_, fun p hno => hout p fun x hx => hno x (List.mem_cons_of_mem _ hx)⟩
      rcases List.mem_cons.mp hx with rfl | hx
      · exact absurd (hp.symm.trans hxp) nofun
      · exact hin x hx p hxp
    | some q =>
      obtain ⟨⟨bs, hf1⟩, hbed⟩ := State.giveWord_some hp
      have hmap : SameMap s (s.giveWord base e) := by
        unfold State.giveWord
        rw [hp]
        dsimp only
        split
        next hlt => exact (SameMap.refl hr).setBed q (by rw [Bed.takeWord, if_pos hlt]) (by rw [Bed.takeWord, if_pos hlt])
        next => exact .refl hr
      generalize s.giveWord base e = t at hf1 hbed hmap
      obtain ⟨⟨bs', hf⟩, hin, hout⟩ := ih (s := t) hn hmap.rising
      have hphys : ∀ l, t.physOf l = s.physOf l := fun l => hmap.physOf hr l
      have hown : ∀ x ∈ es, s.physOf (base + x.1) ≠ some q := fun x hx hxq => by
        have h1 := ((State.physOf_eq_some hr _ _).mp hxq).1.2
        have h2 := ((State.physOf_eq_some hr _ _).mp hp).1.2
        exact hne (List.mem_map.mpr ⟨x, hx, show x.1 = e.1 by omega⟩)
      refine ⟨⟨bs', by rw [hf, hf1]⟩, fun x hx p hxp => ?_, fun p hno => ?_⟩
      · rcases List.mem_cons.mp hx with rfl | hx
        · obtain rfl : q = p := Option.some.inj (hp.symm.trans hxp)
          rw [hout q fun x hx => by rw [hphys]; exact hown x hx, hbed, if_pos rfl]
        · have hpq : p ≠ q := fun h => hown x hx (h ▸ hxp)
          rw [hin x hx p (by rw [hphys]; exact hxp), hbed, if_neg hpq]
      · have hpq : p ≠ q := fun h => hno e List.mem_cons_self (h ▸ hp)
        rw [hout p fun x hx => by rw [hphys]; exact hno x (List.mem_cons_of_mem _ hx), hbed, if_neg hpq]

/-- A die's frame noted as delivered. -/
def State.noteFrame (s : State) (die : Nat) : State :=
  { s with sec := { s.sec with entropyFrame := tset (fun _ => none) s.sec.entropyFrame die (some (s.clk.cycles / 64)) } }

theorem exec_entropyWordDelivery {die : BitVec 2} {words : List W64} (hrun : s.running = true) (hl : s.clk.locked = true)
    (hok : s.sec.entropyFail.getLsbD die.toNat = false) (hw : words.length = 32)
    (hf : tget (fun _ => none) s.sec.entropyFrame die.toNat ≠ some (s.clk.cycles / 64)) : exec (.entropyWordDelivery die words) s =
      .next ((enumFrom 0 words).foldl (State.giveWord (32 * die.toNat)) (s.noteFrame die.toNat)) := by
  show execEntropyWordDelivery die words s = _
  unfold execEntropyWordDelivery
  dsimp only
  rw [if_pos ⟨hrun, hl, by simp [hok], hw, hf⟩]
  congr 2
  funext t e
  unfold State.giveWord
  cases t.physOf (32 * die.toNat + e.1) with
  | none => rfl
  | some p =>
    dsimp only
    split
    next hlt => rw [Bed.takeWord, if_pos hlt]
    next => rfl

/-- ENTROPY_WORD_DELIVERY (R450). -/
theorem entropyWordDelivery_effect {die : BitVec 2} {words : List W64} (hrun : s.running = true) (hl : s.clk.locked = true)
    (hok : s.sec.entropyFail.getLsbD die.toNat = false) (hw : words.length = 32) (hr : Rising s.beds)
    (hf : tget (fun _ => none) s.sec.entropyFrame die.toNat ≠ some (s.clk.cycles / 64)) :
    ∃ t, exec (.entropyWordDelivery die words) s = .next t ∧ t = { s with beds := t.beds, sec := t.sec } ∧
      exec (.entropyWordDelivery die words) t = .next t ∧
      (∀ i p, i < 32 → s.physOf (32 * die.toNat + i) = some p → t.bed p =
        if (s.bed p).entropy.length < 32 then { s.bed p with entropy := (s.bed p).entropy ++ [words.getD i 0] } else s.bed p) ∧
      ∀ p, (∀ i, i < 32 → s.physOf (32 * die.toNat + i) ≠ some p) → t.bed p = s.bed p := by
  obtain ⟨⟨bs, he⟩, hin, hout⟩ := foldl_giveWord (s := s.noteFrame die.toNat) (base := 32 * die.toNat) (enumFrom_nodup 0 words) hr
  have hex := exec_entropyWordDelivery hrun hl hok hw hf
  generalize (enumFrom 0 words).foldl (State.giveWord (32 * die.toNat)) (s.noteFrame die.toNat) = t at he hin hout hex
  refine ⟨t, hex, by rw [he]; rfl, ?_, fun i p hi hp => ?_, fun p hno => hout p fun e he' => hno e.1 ?_⟩
  · refine if_neg fun hc => hc.2.2.2.2 ?_
    rw [he]
    exact tget_tset_self (fun _ => none) s.sec.entropyFrame die.toNat (some (s.clk.cycles / 64))
  · have hi' : i < words.length := by omega
    have hmem : (i, words.getD i 0) ∈ enumFrom 0 words := (mem_enumFrom 0 words i _).mpr ⟨Nat.zero_le _, by
      rw [Nat.sub_zero, List.getElem?_eq_getElem hi', List.getD_eq_getElem _ _ hi']⟩
    exact hin _ hmem p hp
  · exact (lt_of_mem_enumFrom he').trans_eq hw

end

/-- Settles O50: what a module fault takes into recovery keeps its beds, and a delivery names every logical bed once. -/
theorem moduleFaultsFreezeAndEntropyIsDelivered : Obligations.ModuleFaultsFreezeAndEntropyIsDelivered := by
  unfold Obligations.ModuleFaultsFreezeAndEntropyIsDelivered
  exact ⟨fun s => ⟨pllLockLoss_effect, fun _ index tally hp hl h8 => conservationFreeze_effect index tally hp hl h8,
      fun _ h => entropyHealthFail_effect h⟩,
    fun _ _ _ hrun hl hok hw ht hf => entropyWordDelivery_effect hrun hl hok hw ht.beds hf⟩

end Sys2Proof.Machine
end

section
/-! PROOFS. Power samples, mulch and droop (R411, R413, R414, R416, R417, R420, R471): O51. -/

namespace Sys2Proof.Machine

/-! ## Mulch levels -/

section
variable {s t u : State}

/-- A bed whose mulch has stopped. -/
def Bed.calm (b : Bed) : Bed := { b with mulch := 0 }

theorem State.noMulch_eq (s : State) : s.noMulch =
    { s with beds := updateAll (fun _ => ({} : Bed)) (fun e => some e.2.calm) s.beds s.beds } :=
  foldl_eq_updateAll (fun _ => ({} : Bed)) (fun e => some e.2.calm) (fun b => ({ s with beds := b } : State)) (fun _ _ => rfl) s.beds s.beds

theorem State.noMulch_bed (hr : Rising s.beds) (q : Nat) : s.noMulch.bed q = { s.bed q with mulch := 0 } := by
  rw [State.noMulch_eq]
  unfold State.bed
  by_cases h : ∃ v, (q, v) ∈ s.beds
  · obtain ⟨v, hv⟩ := h
    rw [tget_of_mem (fun _ => ({} : Bed)) hr hv]
    exact tget_updateAll_of_mem (fun _ => ({} : Bed)) (fun e => some e.2.calm) hr hv s.beds
  · have hno : ∀ e ∈ s.beds, e.1 ≠ q := fun e he hek => h ⟨e.2, hek ▸ he⟩
    rw [tget_of_notMem (fun _ => ({} : Bed)) hno]
    exact (tget_updateAll_of_notMem (fun _ => ({} : Bed)) _ hno s.beds).trans (tget_of_notMem _ hno)

/-- A bed whose mulch has moved toward its target. -/
def Bed.moveMulch (b : Bed) (target : Nat) : Bed := { b with mulch := BitVec.ofNat 8 (mulchMove b.mulch.toNat target) }

/-- The levels of some beds moved, each once. -/
def State.moveMulches (s : State) (ps : List Nat) : State :=
  ps.foldl (fun (s : State) p => s.setBed p ((s.bed p).moveMulch (s.mulchTarget (s.bed p)))) s

theorem State.mulchTarget_congr (hp : t.plots = s.plots) (hr : t.regs = s.regs) (b : Bed) : t.mulchTarget b = s.mulchTarget b := by
  unfold State.mulchTarget State.plot State.fld State.reg
  rw [hp, hr]

theorem State.moveMulches_effect {ps : List Nat} (hn : ps.Nodup) : (∃ bs, s.moveMulches ps = { s with beds := bs }) ∧
    (∀ q ∉ ps, (s.moveMulches ps).bed q = s.bed q) ∧
    ∀ q ∈ ps, (s.moveMulches ps).bed q = (s.bed q).moveMulch (s.mulchTarget (s.bed q)) := by
  induction ps generalizing s with
  | nil => exact ⟨⟨s.beds, rfl⟩, fun _ _ => rfl, nofun⟩
  | cons p ps ih =>
    obtain ⟨hp, hn⟩ := List.nodup_cons.mp hn
    have he : s.moveMulches (p :: ps) = (s.setBed p ((s.bed p).moveMulch (s.mulchTarget (s.bed p)))).moveMulches ps := rfl
    obtain ⟨⟨bs, hf⟩, hout, hin⟩ := ih (s := s.setBed p ((s.bed p).moveMulch (s.mulchTarget (s.bed p)))) hn
    rw [he]
    refine ⟨⟨bs, hf⟩, fun q hq => ?_, fun q hq => ?_⟩
    · obtain ⟨hne, hq⟩ := not_or.mp (mt List.mem_cons.mpr hq)
      rw [hout q hq, State.bed_setBed, if_neg hne]
    · rcases List.mem_cons.mp hq with rfl | hq
      · rw [hout q hp, State.bed_setBed, if_pos rfl]
      · have hne : q ≠ p := fun h => hp (h ▸ hq)
        rw [hin q hq, State.bed_setBed, if_neg hne]
        exact congrArg _ (State.mulchTarget_congr (s := s) rfl rfl _)

/-- A module whose mulch has moved at this tick. -/
def State.mulched (s : State) : State := { s with pwr := { s.pwr with lastMulch := s.clk.sundial } }

theorem exec_mulchLevelStep (hl : s.clk.locked = true) (hrun : s.running = true) (hlate : s.pwr.lastMulch.toNat + 100 ≤ s.now) :
    exec .mulchLevelStep s = if s.clk.hold.isSome ∨ s.fld 0x40028 0 1 = 0 ∨ s.pwr.shed then .next s.mulched.noMulch
      else .next (s.mulched.moveMulches (List.range 132)) := if_pos ⟨hl, hrun, hlate⟩

/-- MULCH_LEVEL_STEP (R420). -/
theorem mulchLevelStep_effect (hl : s.clk.locked = true) (hrun : s.running = true) (hlate : s.pwr.lastMulch.toNat + 100 ≤ s.now)
    (hr : Rising s.beds) :
    ∃ t, exec .mulchLevelStep s = .next t ∧ t = { s with pwr := { s.pwr with lastMulch := s.clk.sundial }, beds := t.beds } ∧
      (s.clk.hold ≠ none ∨ s.fld 0x40028 0 1 = 0 ∨ s.pwr.shed = true → ∀ q, t.bed q = { s.bed q with mulch := 0 }) ∧
      (s.clk.hold = none → s.fld 0x40028 0 1 = 1 → s.pwr.shed = false → ∀ q, q < 132 → ∃ k, t.bed q = { s.bed q with mulch := k } ∧
        k.toNat = mulchMove (s.bed q).mulch.toNat (s.mulchTarget (s.bed q)) % 256) := by
  have hex := exec_mulchLevelStep hl hrun hlate
  by_cases hc : s.clk.hold.isSome ∨ s.fld 0x40028 0 1 = 0 ∨ s.pwr.shed
  · rw [if_pos hc] at hex
    refine ⟨_, hex, ?_, fun _ q => State.noMulch_bed (s := s.mulched) hr q, fun hh h1 hs => absurd hc ?_⟩
    · rw [State.noMulch_eq]
      rfl
    · simp [hh, h1, hs]
  · rw [if_neg hc] at hex
    obtain ⟨⟨bs, hf⟩, -, hin⟩ := State.moveMulches_effect (s := s.mulched) (List.nodup_range (n := 132))
    generalize s.mulched.moveMulches (List.range 132) = u at hex hf hin
    refine ⟨u, hex, by rw [hf]; rfl, fun hn => absurd hn ?_, fun _ _ _ q hq => ⟨_, hin q (List.mem_range.mpr hq), ?_⟩⟩
    · rintro (h | h | h)
      · exact hc (.inl (Option.isSome_iff_ne_none.mpr h))
      · exact hc (.inr (.inl h))
      · exact hc (.inr (.inr h))
    · rw [BitVec.toNat_ofNat]
      rfl

/-! ## Droop -/

/-- The droop of a run: its lowest source (R411). -/
def lowestDroop (d : Option Nat) (source : Nat) : Nat := d.elim source (min · source)

theorem exec_droopDetect {source : BitVec 3} (h6 : source.toNat < 6) (hl : s.clk.locked = true) (hrun : s.running = true) :
    exec (.droopDetect source) s = .next { s with clk := { s.clk with droop := some (lowestDroop s.clk.droop source.toNat) } } := by
  show execDroopDetect source s = _
  unfold execDroopDetect
  rw [if_pos ⟨h6, hl, hrun⟩]
  cases s.clk.droop <;> rfl

/-- DROOP_DETECT (R411). -/
theorem droopDetect_effect {source : BitVec 3} (h6 : source.toNat < 6) (hl : s.clk.locked = true) (hrun : s.running = true) :
    ∃ t d, exec (.droopDetect source) s = .next t ∧ t = { s with clk := { s.clk with droop := some d } } ∧ d ≤ source.toNat ∧
      (s.clk.droop = none → d = source.toNat) ∧ ∀ e, s.clk.droop = some e → d = min e source.toNat := by
  refine ⟨_, _, exec_droopDetect h6 hl hrun, rfl, ?_, fun h => by rw [h]; rfl, fun e h => by rw [h]; rfl⟩
  cases s.clk.droop with
  | none => exact Nat.le_refl _
  | some d => exact Nat.min_le_right _ _

/-! ## Power samples -/

/-- A part of a power sample: it changes the power state, event and estimate registers, the host's view and, with the mulch, the
beds. -/
structure Sampling (s t : State) : Prop where
  plots : t.plots = s.plots
  reg : t.reg 0x40008 = s.reg 0x40008

theorem Sampling.trans (a : Sampling s t) (b : Sampling t u) : Sampling s u := ⟨b.plots.trans a.plots, b.reg.trans a.reg⟩

/-- The same with clocks and beds as they were. -/
structure Weighing (s t : State) : Prop extends Sampling s t where
  clk : t.clk = s.clk
  beds : t.beds = s.beds
  cap : t.pwr.cap = s.pwr.cap

theorem Weighing.trans (a : Weighing s t) (b : Weighing t u) : Weighing s u :=
  ⟨a.toSampling.trans b.toSampling, b.clk.trans a.clk, b.beds.trans a.beds, b.cap.trans a.cap⟩

theorem State.powerEvent_frame (s : State) (b : Nat) : (∃ r, s.powerEvent b = { s with regs := r }) ∧
    ∀ off, off ≠ 0x40018 → (s.powerEvent b).reg off = s.reg off := by
  unfold State.powerEvent
  refine ⟨⟨_, rfl⟩, fun off h => ?_⟩
  unfold State.setFld
  rw [State.reg_setReg, if_neg h, State.reg_setReg, if_neg h]

theorem Weighing.powerEvent (b : Nat) : Weighing s (s.powerEvent b) ∧ (s.powerEvent b).pwr = s.pwr := by
  obtain ⟨⟨r, he⟩, hreg⟩ := s.powerEvent_frame b
  have h := hreg 0x40008 (by decide)
  rw [he] at h ⊢
  exact ⟨⟨⟨rfl, h⟩, rfl, rfl, rfl⟩, rfl⟩

theorem Weighing.setDoor (b : Nat) : Weighing s (s.setDoor b) ∧ (s.setDoor b).pwr = s.pwr := by
  obtain ⟨h, he⟩ := s.setDoor_frame b
  rw [he]
  exact ⟨⟨⟨rfl, rfl⟩, rfl, rfl, rfl⟩, rfl⟩

theorem Weighing.setPwr {p : Pwr} (h : p.cap = s.pwr.cap) : Weighing s { s with pwr := p } := ⟨⟨rfl, rfl⟩, rfl, rfl, h⟩

/-- The over-estimate excursion (R417). -/
theorem State.overSample_effect (s : State) (m e : Nat) : Weighing s (s.overSample m e) ∧ (s.overSample m e).pwr.lastSample = s.pwr.lastSample ∧
    (4000 * m ≤ 5 * e → (s.overSample m e).pwr.overs = 0 ∧ (s.overSample m e).pwr.k64 = s.pwr.k64) ∧
    (5 * e < 4000 * m → (s.overSample m e).pwr.overs = s.pwr.overs + 1 ∧ s.pwr.k64 ≤ (s.overSample m e).pwr.k64) := by
  unfold State.overSample
  extract_lets p better p1 k p2 s1
  split
  next hc =>
    have h2 : p2.cap = s.pwr.cap ∧ p2.lastSample = s.pwr.lastSample ∧ p2.overs = s.pwr.overs + 1 ∧ s.pwr.k64 ≤ p2.k64 := by
      unfold p2
      split
      · exact ⟨rfl, rfl, rfl, Nat.le_max_left _ _⟩
      · exact ⟨rfl, rfl, rfl, Nat.le_refl _⟩
    clear_value p2
    obtain ⟨hcap, hlast, hov, hk⟩ := h2
    split
    · obtain ⟨hw, hp⟩ := Weighing.powerEvent (s := s1) 0
      obtain ⟨hw', hp'⟩ := Weighing.setDoor (s := s1.powerEvent 0) 3
      rw [hp', hp]
      have h1 : Weighing s s1 := .setPwr hcap
      exact ⟨(h1.trans hw).trans hw', hlast, fun hle => absurd hc (by omega), fun _ => ⟨hov, hk⟩⟩
    · exact ⟨.setPwr hcap, hlast, fun hle => absurd hc (by omega), fun _ => ⟨hov, hk⟩⟩
  next hc => exact ⟨.setPwr rfl, rfl, fun _ => ⟨rfl, rfl⟩, fun h => absurd h hc⟩

/-- The under-estimate run (R417). -/
theorem State.underSample_effect (s : State) (m e : Nat) : Weighing s (s.underSample m e) ∧
    (s.underSample m e).pwr.lastSample = s.pwr.lastSample ∧ (s.underSample m e).pwr.overs = s.pwr.overs ∧ (s.underSample m e).pwr.k64 = s.pwr.k64 := by
  unfold State.underSample
  extract_lets src s1
  split
  · split
    · obtain ⟨hw, hp⟩ := Weighing.powerEvent (s := s1) 1
      rw [hp]
      have h1 : Weighing s s1 := .setPwr rfl
      exact ⟨h1.trans hw, rfl, rfl, rfl⟩
    · exact ⟨.setPwr rfl, rfl, rfl, rfl⟩
  · exact ⟨.setPwr rfl, rfl, rfl, rfl⟩

/-- The fast clamp by power and by current, after a sample. -/
def Clk.clampsPower (c : Clk) (cap m : Nat) : Bool := if cap < m then true else decide (100 * m > 97 * cap) && c.clamp
def Clk.clampsAmps (c : Clk) (a : Nat) : Bool := if 340 < a then true else if a ≤ 330 then false else c.clampAmps

/-- The mulch shed near the cap. -/
def State.shedMulch (s : State) (m a : Nat) : State :=
  let s' : State := { s with pwr := { s.pwr with shed := decide (100 * m > 97 * s.pwr.cap ∨ 340 < a) } }
  if 100 * m > 97 * s.pwr.cap ∨ 340 < a then s'.noMulch else s'

theorem State.shedMulch_effect (hr : Rising s.beds) (m a : Nat) : Sampling s (s.shedMulch m a) ∧
    (s.shedMulch m a).pwr = { s.pwr with shed := decide (97 * s.pwr.cap < 100 * m ∨ 340 < a) } ∧ (s.shedMulch m a).clk = s.clk ∧
    (97 * s.pwr.cap < 100 * m ∨ 340 < a → ∀ q, (s.shedMulch m a).bed q = { s.bed q with mulch := 0 }) ∧
    (¬(97 * s.pwr.cap < 100 * m ∨ 340 < a) → (s.shedMulch m a).beds = s.beds) := by
  unfold State.shedMulch
  extract_lets src s'
  split
  next hh =>
    have hb := State.noMulch_bed (s := s') hr
    rw [State.noMulch_eq] at hb ⊢
    exact ⟨⟨rfl, rfl⟩, rfl, rfl, fun _ => hb, fun hn => absurd hh hn⟩
  next hh => exact ⟨⟨rfl, rfl⟩, rfl, rfl, fun h => absurd h hh, fun _ => rfl⟩

/-- The clamps set in clocks that were c, and their event if they engage. -/
def State.setClamps (s : State) (c : Clk) (p a : Bool) : State :=
  let s' : State := { s with clk := { c with clamp := p, clampAmps := a } }
  if (p || a) && !(c.clamp || c.clampAmps) then s'.powerEvent 2 else s'

theorem State.setClamps_effect (s : State) (c : Clk) (p a : Bool) : Sampling s (s.setClamps c p a) ∧ (s.setClamps c p a).pwr = s.pwr ∧
    (s.setClamps c p a).clk = { c with clamp := p, clampAmps := a } ∧ (s.setClamps c p a).beds = s.beds := by
  unfold State.setClamps
  extract_lets s'
  split
  · obtain ⟨hw, hp⟩ := Weighing.powerEvent (s := s') 2
    exact ⟨⟨hw.plots, hw.reg⟩, hp, hw.clk, hw.beds⟩
  · exact ⟨⟨rfl, rfl⟩, rfl, rfl, rfl⟩

theorem State.clampSample_eq (s : State) (m a : Nat) :
    s.clampSample m a = (s.shedMulch m a).setClamps s.clk (s.clk.clampsPower (s.shedMulch m a).pwr.cap m) (s.clk.clampsAmps a) := rfl

theorem Clk.clampsPower_cases (c : Clk) (cap m : Nat) : (cap < m → c.clampsPower cap m = true) ∧
    (100 * m ≤ 97 * cap → c.clampsPower cap m = false) ∧ (97 * cap < 100 * m → m ≤ cap → c.clampsPower cap m = c.clamp) := by
  unfold Clk.clampsPower
  refine ⟨fun h => if_pos h, fun h => ?_, fun h hm => ?_⟩
  · rw [if_neg (by omega), decide_eq_false (by omega), Bool.false_and]
  · rw [if_neg (by omega), decide_eq_true h, Bool.true_and]

theorem Clk.clampsAmps_cases (c : Clk) (a : Nat) : (340 < a → c.clampsAmps a = true) ∧ (a ≤ 330 → c.clampsAmps a = false) ∧
    (330 < a → a ≤ 340 → c.clampsAmps a = c.clampAmps) := by
  unfold Clk.clampsAmps
  exact ⟨fun h => if_pos h, fun h => by rw [if_neg (by omega), if_pos h], fun h h' => by rw [if_neg (by omega), if_neg (by omega)]⟩

/-- The sample and the estimate shown, in whole watts either way rounded (R416). -/
def State.showSample (s : State) (m : Nat) : State :=
  let e := s.estimate
  let s : State := { s with pwr := { s.pwr with lastSample := s.clk.sundial } }
  let r := s.draw 1
  let shown := if e % 1000 = 0 then e / 1000 else e / 1000 + r.1.toNat
  (r.2.setFld 0x40008 0 12 m).setFld 0x40008 12 12 shown

theorem State.showSample_effect (s : State) {m : Nat} (hm : m < 2 ^ 12) :
    (∃ r n, s.showSample m = { s with freeN := n, regs := r, pwr := { s.pwr with lastSample := s.clk.sundial } }) ∧
    (s.showSample m).fld 0x40008 0 12 = m ∧
    ∃ x, (x = s.estimate / 1000 ∨ (x = s.estimate / 1000 + 1 ∧ s.estimate % 1000 ≠ 0)) ∧ (s.showSample m).fld 0x40008 12 12 = x % 2 ^ 12 := by
  unfold State.showSample
  extract_lets e src s1 r shown
  have hs : shown = e / 1000 ∨ (shown = e / 1000 + 1 ∧ e % 1000 ≠ 0) := by
    unfold shown
    split
    · exact .inl rfl
    next h =>
      have hb := r.1.isLt
      rcases (show r.1.toNat = 0 ∨ r.1.toNat = 1 by omega) with hr | hr
      · exact .inl (by rw [hr]; rfl)
      · exact .inr ⟨by rw [hr], h⟩
  clear_value shown
  obtain ⟨a, ha⟩ := r.2.setFld_frame 0x40008 0 12 m
  have h1 : (r.2.setFld 0x40008 0 12 m).fld 0x40008 0 12 = m := (State.fld_setFld_self r.2 0x40008 m (by decide)).trans (Nat.mod_eq_of_lt hm)
  generalize r.2.setFld 0x40008 0 12 m = u at ha h1
  obtain ⟨b, hb⟩ := u.setFld_frame 0x40008 12 12 shown
  exact ⟨⟨b, _, by rw [hb, ha]; rfl⟩, (State.fld_setFld_disjoint _ _ _ (.inl (by decide))).trans h1, shown, hs,
    State.fld_setFld_self u 0x40008 shown (by decide)⟩

theorem exec_powerSample (watts : BitVec 12) (amps : BitVec 9) (hl : s.clk.locked = true) (hlate : s.pwr.lastSample.toNat + 100 ≤ s.now) :
    exec (.powerSample watts amps) s = .next ((((s.showSample watts.toNat).overSample watts.toNat s.estimate).underSample watts.toNat
      s.estimate).clampSample watts.toNat amps.toNat) := if_pos ⟨hl, hlate⟩

/-- POWER_SAMPLE (R413, R414, R416, R417, R471). -/
theorem powerSample_effect (watts : BitVec 12) (amps : BitVec 9) (hl : s.clk.locked = true) (hlate : s.pwr.lastSample.toNat + 100 ≤ s.now)
    (hr : Rising s.beds) :
    let m := watts.toNat
    let e := s.estimate
    let high := 97 * s.pwr.cap < 100 * m ∨ 340 < amps.toNat
    ∃ t, exec (.powerSample watts amps) s = .next t ∧ t.pwr.lastSample = s.clk.sundial ∧ t.fld 0x40008 0 12 = m ∧
      (∃ x, (x = e / 1000 ∨ (x = e / 1000 + 1 ∧ e % 1000 ≠ 0)) ∧ t.fld 0x40008 12 12 = x % 2 ^ 12) ∧
      (s.pwr.cap < m → t.clk.clamp = true) ∧ (100 * m ≤ 97 * s.pwr.cap → t.clk.clamp = false) ∧
      (97 * s.pwr.cap < 100 * m → m ≤ s.pwr.cap → t.clk.clamp = s.clk.clamp) ∧
      (340 < amps.toNat → t.clk.clampAmps = true) ∧ (amps.toNat ≤ 330 → t.clk.clampAmps = false) ∧
      (330 < amps.toNat → amps.toNat ≤ 340 → t.clk.clampAmps = s.clk.clampAmps) ∧
      (t.pwr.shed = true ↔ high) ∧ (high → ∀ q, t.bed q = { s.bed q with mulch := 0 }) ∧ (¬high → t.beds = s.beds) ∧
      (4000 * m ≤ 5 * e → t.pwr.overs = 0 ∧ t.pwr.k64 = s.pwr.k64) ∧
      (5 * e < 4000 * m → t.pwr.overs = s.pwr.overs + 1 ∧ s.pwr.k64 ≤ t.pwr.k64) ∧ t.plots = s.plots := by
  intro m e high
  have hex := exec_powerSample watts amps hl hlate
  obtain ⟨⟨r, n, h1⟩, hm, hx⟩ := s.showSample_effect (m := m) watts.isLt
  generalize s.showSample watts.toNat = s1 at hex h1 hm hx
  have hp1 : s1.pwr = { s.pwr with lastSample := s.clk.sundial } ∧ s1.clk = s.clk ∧ s1.beds = s.beds ∧ s1.plots = s.plots := by
    rw [h1]
    exact ⟨rfl, rfl, rfl, rfl⟩
  obtain ⟨hp1, hc1, hb1, hx1⟩ := hp1
  obtain ⟨w2, l2, hle2, hlt2⟩ := s1.overSample_effect m e
  generalize s1.overSample watts.toNat s.estimate = s2 at hex w2 l2 hle2 hlt2
  obtain ⟨w3, l3, o3, k3⟩ := s2.underSample_effect m e
  generalize s2.underSample watts.toNat s.estimate = s3 at hex w3 l3 o3 k3
  have w := w2.trans w3
  have hcap : s3.pwr.cap = s.pwr.cap := w.cap.trans (by rw [hp1])
  have hclk : s3.clk = s.clk := w.clk.trans hc1
  have hbeds : s3.beds = s.beds := w.beds.trans hb1
  have hbed : ∀ q, s3.bed q = s.bed q := fun q => congrArg (fun b : Tbl Bed => tget (fun _ => ({} : Bed)) b q) hbeds
  obtain ⟨a4, p4, c4, hi4, lo4⟩ := State.shedMulch_effect (s := s3) (by rw [hbeds]; exact hr) m amps.toNat
  rw [State.clampSample_eq] at hex
  generalize s3.shedMulch watts.toNat amps.toNat = s4 at hex a4 p4 c4 hi4 lo4
  have hcap4 : s4.pwr.cap = s.pwr.cap := (congrArg Pwr.cap p4).trans hcap
  obtain ⟨cp1, cp2, cp3⟩ := s3.clk.clampsPower_cases s4.pwr.cap m
  obtain ⟨ca1, ca2, ca3⟩ := s3.clk.clampsAmps_cases amps.toNat
  generalize s3.clk.clampsPower s4.pwr.cap watts.toNat = cp at hex cp1 cp2 cp3
  generalize s3.clk.clampsAmps amps.toNat = ca at hex ca1 ca2 ca3
  obtain ⟨a5, p5, c5, b5⟩ := s4.setClamps_effect s3.clk cp ca
  generalize s4.setClamps s3.clk cp ca = t at hex a5 p5 c5 b5
  rw [hcap] at p4 hi4 lo4
  rw [hcap4] at cp1 cp2 cp3
  rw [hclk] at cp3 ca3
  have hreg : t.reg 0x40008 = s1.reg 0x40008 := ((a5.reg.trans a4.reg).trans w.reg)
  have hbt : ∀ q, t.bed q = s4.bed q := fun q => congrArg (fun b : Tbl Bed => tget (fun _ => ({} : Bed)) b q) b5
  refine ⟨t, hex, ?_, (congrArg (wfld · 0 12) hreg).trans hm, ?_, ?_, ?_, ?_, ?_, ?_, ?_, ?_, fun h q => ?_, fun h => ?_, fun h => ?_, fun h => ?_, ?_⟩
  · rw [p5, p4]
    exact (l3.trans l2).trans (by rw [hp1])
  · obtain ⟨x, hx, hf⟩ := hx
    exact ⟨x, hx, (congrArg (wfld · 12 12) hreg).trans hf⟩
  · rw [c5]
    exact cp1
  · rw [c5]
    exact cp2
  · rw [c5]
    exact cp3
  · rw [c5]
    exact ca1
  · rw [c5]
    exact ca2
  · rw [c5]
    exact ca3
  · rw [p5, p4]
    exact decide_eq_true_iff
  · rw [hbt, hi4 h, hbed]
  · rw [b5, lo4 h, hbeds]
  · obtain ⟨ho, hk⟩ := hle2 h
    rw [p5, p4]
    exact ⟨o3.trans ho, k3.trans (hk.trans (by rw [hp1]))⟩
  · obtain ⟨ho, hk⟩ := hlt2 h
    rw [hp1] at ho hk
    rw [p5, p4]
    exact ⟨o3.trans ho, hk.trans_eq k3.symm⟩
  · exact (a5.plots.trans a4.plots).trans (w.plots.trans hx1)

end

/-- Settles O51: the parts of a power sample change the power state one after the other, and only a high sample changes beds. -/
theorem powerSamplesClampAndMulchMoves : Obligations.PowerSamplesClampAndMulchMoves := by
  unfold Obligations.PowerSamplesClampAndMulchMoves
  exact ⟨fun _ watts amps hl hlate ht => powerSample_effect watts amps hl hlate ht.beds,
    fun _ hl hrun hlate ht => mulchLevelStep_effect hl hrun hlate ht.beds, fun _ _ h6 hl hrun => droopDetect_effect h6 hl hrun⟩

end Sys2Proof.Machine
end

section
/-! PROOFS. Temperatures, trips and operating points (R408, R409, R416, R421): O52. -/

namespace Sys2Proof.Machine

section
variable {s t u : State}

/-! ## Readings -/

/-- The word that shows a group's readings (R422). -/
def tempWord (h : BitVec 12) (n : BitVec 6) (c : BitVec 12) : W64 := BitVec.ofNat 64 (h.toNat + n.toNat * 2 ^ 12 + c.toNat * 2 ^ 18)

theorem tempWord_fld (h : BitVec 12) (n : BitVec 6) (c : BitVec 12) :
    wfld (tempWord h n c) 0 12 = h.toNat ∧ wfld (tempWord h n c) 12 6 = n.toNat ∧ wfld (tempWord h n c) 18 12 = c.toNat := by
  have hh := h.isLt
  have hn := n.isLt
  have hc := c.isLt
  simp only [tempWord, wfld, bits, BitVec.toNat_ofNat]
  omega

/-- The readings of all groups shown. -/
def State.showTemps (s : State) (hottest : List (BitVec 12)) (sensor : List (BitVec 6)) (coolest : List (BitVec 12)) : State :=
  (List.range 7).foldl (fun (s : State) u => s.setReg (0x40100 + 8 * u) (tempWord (hottest.getD u 0) (sensor.getD u 0) (coolest.getD u 0)))
    { s with pwr := { s.pwr with lastTherm := s.clk.sundial } }

/-- Registers written one after the other at places of their own. -/
theorem foldl_setReg (f : Nat → Nat) (w : Nat → W64) (hf : ∀ a b, f a = f b → a = b) {us : List Nat} (hn : us.Nodup) (s : State) :
    (∃ r, us.foldl (fun (s : State) u => s.setReg (f u) (w u)) s = { s with regs := r }) ∧
    (∀ u ∈ us, (us.foldl (fun (s : State) u => s.setReg (f u) (w u)) s).reg (f u) = w u) ∧
    ∀ off, (∀ u ∈ us, off ≠ f u) → (us.foldl (fun (s : State) u => s.setReg (f u) (w u)) s).reg off = s.reg off := by
  induction us generalizing s with
  | nil => exact ⟨⟨s.regs, rfl⟩, nofun, fun _ _ => rfl⟩
  | cons u us ih =>
    obtain ⟨hu, hn⟩ := List.nodup_cons.mp hn
    obtain ⟨⟨r, hr⟩, hin, hout⟩ := ih hn (s.setReg (f u) (w u))
    rw [List.foldl_cons]
    refine ⟨⟨r, hr⟩, fun x hx => ?_, fun off hoff => ?_⟩
    · rcases List.mem_cons.mp hx with rfl | hx
      · rw [hout (f x) fun y hy h => hu (hf _ _ h ▸ hy), State.reg_setReg, if_pos rfl]
      · exact hin x hx
    · rw [hout off fun y hy => hoff y (List.mem_cons_of_mem _ hy), State.reg_setReg, if_neg (hoff u List.mem_cons_self)]

theorem State.showTemps_effect (s : State) (hottest : List (BitVec 12)) (sensor : List (BitVec 6)) (coolest : List (BitVec 12)) :
    (∃ r, s.showTemps hottest sensor coolest = { s with regs := r, pwr := { s.pwr with lastTherm := s.clk.sundial } }) ∧
    (∀ u, u < 7 → (s.showTemps hottest sensor coolest).reg (0x40100 + 8 * u) =
      tempWord (hottest.getD u 0) (sensor.getD u 0) (coolest.getD u 0)) ∧
    (s.showTemps hottest sensor coolest).reg 0x40040 = s.reg 0x40040 := by
  obtain ⟨⟨r, hr⟩, hin, hout⟩ := foldl_setReg (fun u => 0x40100 + 8 * u)
    (fun u => tempWord (hottest.getD u 0) (sensor.getD u 0) (coolest.getD u 0)) (fun a b h => by omega) (List.nodup_range (n := 7))
    { s with pwr := { s.pwr with lastTherm := s.clk.sundial } }
  exact ⟨⟨r, hr⟩, fun u hu => hin u (List.mem_range.mpr hu), hout 0x40040 fun u _ => by omega⟩

/-! ## Thresholds -/

/-- A step of a reading that leaves the registers shown, the beds, the plots and the power state. -/
structure Reading (s t : State) : Prop where
  reg : ∀ off, off ≠ 0x40018 → t.reg off = s.reg off
  beds : t.beds = s.beds
  plots : t.plots = s.plots
  pwr : t.pwr = s.pwr

theorem Reading.refl : Reading s s := ⟨fun _ _ => rfl, rfl, rfl, rfl⟩

theorem Reading.trans (a : Reading s t) (b : Reading t u) : Reading s u :=
  ⟨fun off h => (b.reg off h).trans (a.reg off h), b.beds.trans a.beds, b.plots.trans a.plots, b.pwr.trans a.pwr⟩

theorem Reading.powerEvent (b : Nat) : Reading s (s.powerEvent b) ∧ (s.powerEvent b).clk = s.clk ∧ (s.powerEvent b).pins = s.pins := by
  obtain ⟨⟨r, he⟩, hreg⟩ := s.powerEvent_frame b
  rw [he] at hreg ⊢
  exact ⟨⟨hreg, rfl, rfl, rfl⟩, rfl, rfl⟩

theorem Reading.setDoor (b : Nat) : Reading s (s.setDoor b) ∧ (s.setDoor b).clk = s.clk ∧ (s.setDoor b).pins = s.pins := by
  obtain ⟨h, he⟩ := s.setDoor_frame b
  rw [he]
  exact ⟨⟨fun _ _ => rfl, rfl, rfl, rfl⟩, rfl, rfl⟩

theorem Reading.setClk (c : Clk) (p : Pins) : Reading s { s with clk := c, pins := p } := ⟨fun _ _ => rfl, rfl, rfl, rfl⟩

/-- The warning (R421). -/
def State.warnTherm (s : State) (limit top : Int) : State := if limit ≤ top then (s.powerEvent 3).setDoor 3 else s

theorem State.warnTherm_effect (s : State) (limit top : Int) : Reading s (s.warnTherm limit top) ∧ (s.warnTherm limit top).clk = s.clk ∧
    (s.warnTherm limit top).pins = s.pins := by
  unfold State.warnTherm
  split
  · obtain ⟨h, hc, hp⟩ := Reading.powerEvent (s := s) 3
    obtain ⟨h', hc', hp'⟩ := Reading.setDoor (s := s.powerEvent 3) 3
    exact ⟨h.trans h', hc'.trans hc, hp'.trans hp⟩
  · exact ⟨.refl, rfl, rfl⟩

/-- The thermal clamp with its hysteresis (R421). -/
def State.clampTherm (s : State) (limit top : Int) : State :=
  if limit ≤ top then
    (if s.clk.thermClamp then s else ({ s with clk := { s.clk with thermClamp := true } } : State).powerEvent 4)
  else if top < limit - 8 then { s with clk := { s.clk with thermClamp := false } }
  else s

theorem State.clampTherm_effect (s : State) (limit top : Int) : Reading s (s.clampTherm limit top) ∧ (s.clampTherm limit top).pins = s.pins ∧
    (∃ b, (s.clampTherm limit top).clk = { s.clk with thermClamp := b } ∧ (limit ≤ top → b = true) ∧ (top < limit - 8 → b = false) ∧
      (limit - 8 ≤ top → top < limit → b = s.clk.thermClamp)) := by
  unfold State.clampTherm
  split
  next hl =>
    split
    next hc => exact ⟨.refl, rfl, _, rfl, fun _ => hc, fun h => by omega, fun _ h => by omega⟩
    next hc =>
      obtain ⟨h, hck, hp⟩ := Reading.powerEvent (s := { s with clk := { s.clk with thermClamp := true } }) 4
      exact ⟨(Reading.setClk { s.clk with thermClamp := true } s.pins).trans h, hp, true, hck, fun _ => rfl, fun h => by omega,
        fun _ h => by omega⟩
  next hl =>
    split
    next hc => exact ⟨.setClk _ s.pins, rfl, false, rfl, fun h => absurd h hl, fun _ => rfl, fun h => by omega⟩
    next hc => exact ⟨.refl, rfl, _, rfl, fun h => absurd h hl, fun h => absurd h hc, fun _ _ => rfl⟩

/-- THERMTRIP raised with what tripped it. -/
def State.raiseTrip (s : State) (x : W64 × Nat × Nat) : State :=
  { s with clk := { s.clk with trip := some x }, pins := { s.pins with thermtrip := true } }

theorem State.raiseTrip_effect (s : State) (x : W64 × Nat × Nat) : Reading s (s.raiseTrip x) ∧
    (s.raiseTrip x).clk.thermClamp = s.clk.thermClamp ∧ (s.raiseTrip x).pins.thermtrip = true ∧ (s.raiseTrip x).clk.trip = some x :=
  ⟨.setClk _ _, rfl, rfl, rfl⟩

/-- The trip (R421). -/
def State.tripTherm (s : State) (limit : Int) (top : Int × Nat) : State :=
  if limit ≤ top.1 ∧ s.clk.trip = none then
    (s.powerEvent 5).raiseTrip ((s.powerEvent 5).clk.sundial, toTwos 12 top.1, top.2)
  else s

theorem State.tripTherm_effect (s : State) (limit : Int) (top : Int × Nat) : Reading s (s.tripTherm limit top) ∧
    (s.tripTherm limit top).clk.thermClamp = s.clk.thermClamp ∧
    (limit ≤ top.1 → s.clk.trip = none → (s.tripTherm limit top).pins.thermtrip = true ∧
      (s.tripTherm limit top).clk.trip = some (s.clk.sundial, toTwos 12 top.1, top.2)) ∧
    (top.1 < limit → (s.tripTherm limit top).clk.trip = s.clk.trip ∧ (s.tripTherm limit top).pins = s.pins) := by
  unfold State.tripTherm
  split
  next hc =>
    obtain ⟨h, hck, hp⟩ := Reading.powerEvent (s := s) 5
    generalize s.powerEvent 5 = v at h hck
    obtain ⟨hr, hclamp, hpin, htrip⟩ := v.raiseTrip_effect (v.clk.sundial, toTwos 12 top.1, top.2)
    rw [hck] at hclamp hpin htrip hr ⊢
    exact ⟨h.trans hr, hclamp, fun _ _ => ⟨hpin, htrip⟩, fun hlt => absurd hc.1 (by omega)⟩
  next hc => exact ⟨.refl, rfl, fun hl hn => absurd ⟨hl, hn⟩ hc, fun _ => ⟨rfl, rfl⟩⟩

/-- A limit of the thermal configuration, in quarter degrees. -/
def State.thermLimit (s : State) (lo : Nat) : Int := 4 * s.fld 0x40040 lo 8

theorem State.readTemps_eq (s : State) (hottest : List (BitVec 12)) (sensor : List (BitVec 6)) (coolest : List (BitVec 12)) :
    s.readTemps hottest sensor coolest =
      (((s.showTemps hottest sensor coolest).warnTherm ((s.showTemps hottest sensor coolest).thermLimit 0) (hottestOf hottest).1).clampTherm
        ((s.showTemps hottest sensor coolest).thermLimit 8) (hottestOf hottest).1).tripTherm
        ((s.showTemps hottest sensor coolest).thermLimit 16) (hottestOf hottest) := rfl

/-- The hottest reading is none below any group's. -/
theorem le_hottestOf (ts : List (BitVec 12)) {u : Nat} (hu : u < 7) : tempAt ts u ≤ (hottestOf ts).1 := by
  have hstep : ∀ (us : List Nat) (a : Int × Nat), a.1 ≤ (us.foldl (fun (a : Int × Nat) u => if a.1 < tempAt ts u then (tempAt ts u, u) else a) a).1 ∧
      ∀ u ∈ us, tempAt ts u ≤ (us.foldl (fun (a : Int × Nat) u => if a.1 < tempAt ts u then (tempAt ts u, u) else a) a).1 := fun us => by
    induction us with
    | nil => exact fun a => ⟨le_refl _, nofun⟩
    | cons v us ih =>
      intro a
      obtain ⟨h1, h2⟩ := ih (if a.1 < tempAt ts v then (tempAt ts v, v) else a)
      rw [List.foldl_cons]
      have ha : a.1 ≤ (if a.1 < tempAt ts v then (tempAt ts v, v) else a).1 ∧ tempAt ts v ≤ (if a.1 < tempAt ts v then (tempAt ts v, v) else a).1 := by
        split
        next h => exact ⟨le_of_lt h, le_refl _⟩
        next h => exact ⟨le_refl _, not_lt.mp h⟩
      refine ⟨ha.1.trans h1, fun u hu => ?_⟩
      rcases List.mem_cons.mp hu with rfl | hu
      · exact ha.2.trans h1
      · exact h2 u hu
  exact (hstep (List.range 7) (tempAt ts 0, 0)).2 u (List.mem_range.mpr hu)

theorem exec_thermalSample {hottest : List (BitVec 12)} {sensor : List (BitVec 6)} {coolest : List (BitVec 12)}
    (hlate : s.pwr.lastTherm.toNat + 1000 ≤ s.now) (h1 : hottest.length = 7) (h2 : sensor.length = 7) (h3 : coolest.length = 7)
    (hl : s.clk.locked = true) (hb : s.pins.boot = none) : exec (.thermalSample hottest sensor coolest) s =
      .next (s.readTemps hottest sensor coolest) := by
  show execThermalSample hottest sensor coolest s = _
  unfold execThermalSample
  rw [if_pos ⟨hlate, h1, h2, h3, hl⟩, hb]

/-- THERMAL_SAMPLE (R421). -/
theorem thermalSample_effect {hottest : List (BitVec 12)} {sensor : List (BitVec 6)} {coolest : List (BitVec 12)}
    (hlate : s.pwr.lastTherm.toNat + 1000 ≤ s.now) (h1 : hottest.length = 7) (h2 : sensor.length = 7) (h3 : coolest.length = 7)
    (hl : s.clk.locked = true) (hb : s.pins.boot = none) :
    let top := (hottestOf hottest).1
    let limit := fun (lo : Nat) => (4 * s.fld 0x40040 lo 8 : Int)
    ∃ t, exec (.thermalSample hottest sensor coolest) s = .next t ∧ t.pwr.lastTherm = s.clk.sundial ∧ t.beds = s.beds ∧
      t.plots = s.plots ∧ (∀ u, u < 7 → t.fld (0x40100 + 8 * u) 0 12 = (hottest.getD u 0).toNat ∧
        t.fld (0x40100 + 8 * u) 12 6 = (sensor.getD u 0).toNat ∧ t.fld (0x40100 + 8 * u) 18 12 = (coolest.getD u 0).toNat) ∧
      (limit 8 ≤ top → t.clk.thermClamp = true) ∧ (top < limit 8 - 8 → t.clk.thermClamp = false) ∧
      (limit 8 - 8 ≤ top → top < limit 8 → t.clk.thermClamp = s.clk.thermClamp) ∧
      (limit 16 ≤ top → s.clk.trip = none → t.pins.thermtrip = true ∧
        t.clk.trip = some (s.clk.sundial, toTwos 12 top, (hottestOf hottest).2)) ∧
      (top < limit 16 → t.clk.trip = s.clk.trip ∧ t.pins = s.pins) ∧ ∀ u, u < 7 → tempAt hottest u ≤ top := by
  intro top limit
  have hex := exec_thermalSample hlate h1 h2 h3 hl hb
  rw [State.readTemps_eq] at hex
  obtain ⟨⟨r, hf⟩, hshown, hcfg⟩ := s.showTemps_effect hottest sensor coolest
  have hlimit : ∀ lo, (s.showTemps hottest sensor coolest).thermLimit lo = limit lo := fun lo =>
    congrArg (fun w : W64 => (4 * (wfld w lo 8 : Int))) hcfg
  rw [hlimit, hlimit, hlimit] at hex
  generalize s.showTemps hottest sensor coolest = v at hex hf hshown
  obtain ⟨r2, c2, p2⟩ := v.warnTherm_effect (limit 0) top
  generalize v.warnTherm (limit 0) (hottestOf hottest).1 = v2 at hex r2 c2 p2
  obtain ⟨r3, p3, b, c3, hb1, hb2, hb3⟩ := v2.clampTherm_effect (limit 8) top
  generalize v2.clampTherm (limit 8) (hottestOf hottest).1 = v3 at hex r3 p3 c3
  obtain ⟨r4, c4, ht1, ht2⟩ := v3.tripTherm_effect (limit 16) (hottestOf hottest)
  generalize v3.tripTherm (limit 16) (hottestOf hottest) = t at hex r4 c4 ht1 ht2
  have hr := (r2.trans r3).trans r4
  have hclk : v2.clk = s.clk := c2.trans (by rw [hf])
  have hpins : v3.pins = s.pins := (p3.trans p2).trans (by rw [hf])
  have hclamp : t.clk.thermClamp = b := c4.trans (by rw [c3])
  have htrip : v3.clk.trip = s.clk.trip := by rw [c3, hclk]
  have hsun : v3.clk.sundial = s.clk.sundial := by rw [c3, hclk]
  rw [hclk] at hb3
  rw [htrip, hsun] at ht1
  rw [htrip, hpins] at ht2
  refine ⟨t, hex, by rw [hr.pwr, hf], by rw [hr.beds, hf], by rw [hr.plots, hf], fun u hu => ?_, fun h => hclamp.trans (hb1 h),
    fun h => hclamp.trans (hb2 h), fun h h' => hclamp.trans (hb3 h h'), ht1, ht2, fun u hu => le_hottestOf hottest hu⟩
  have hw : t.reg (0x40100 + 8 * u) = tempWord (hottest.getD u 0) (sensor.getD u 0) (coolest.getD u 0) :=
    (hr.reg _ (by omega)).trans (hshown u hu)
  obtain ⟨f1, f2, f3⟩ := tempWord_fld (hottest.getD u 0) (sensor.getD u 0) (coolest.getD u 0)
  exact ⟨(congrArg (wfld · 0 12) hw).trans f1, (congrArg (wfld · 12 6) hw).trans f2, (congrArg (wfld · 18 12) hw).trans f3⟩

/-! ## The trip stops the module -/

/-- A plot that has stopped with a code. -/
def StoppedWith (q code : Nat) (s : State) : Prop := (s.plot q).state = 5 ∧ (s.plot q).stopCode = code

/-- Every sown plot among some stops, and every bed keeps its memory. -/
theorem foldl_stopPlot (code : Nat) (ps : List Nat) (s : State) :
    (∀ q, ((ps.foldl (fun (s : State) p => s.stopPlot p code none) s).bed q).mem = (s.bed q).mem) ∧
    (∀ q, StoppedWith q code s → StoppedWith q code (ps.foldl (fun (s : State) p => s.stopPlot p code none) s)) ∧
    ∀ q ∈ ps, (s.plot q).state = 3 ∨ (s.plot q).state = 4 → StoppedWith q code (ps.foldl (fun (s : State) p => s.stopPlot p code none) s) := by
  induction ps generalizing s with
  | nil => exact ⟨fun _ => rfl, fun _ h => h, nofun⟩
  | cons p ps ih =>
    obtain ⟨hmem, hkeep, hstop⟩ := ih (s.stopPlot p code none)
    rw [List.foldl_cons]
    by_cases hp : (s.plot p).state = 2 ∨ (s.plot p).state = 3 ∨ (s.plot p).state = 4
    · have hs := s.stopPlot_stopped code none hp
      refine ⟨fun q => ?_, fun q hq => hkeep q ?_, fun q hq hst => ?_⟩
      · obtain ⟨r, x, hb⟩ := hs.bed q
        rw [hmem, hb]
      · have hne : q ≠ p := by
          rintro rfl
          obtain ⟨h5, -⟩ := hq
          omega
        unfold StoppedWith
        rw [hs.others q hne]
        exact hq
      · by_cases hqp : q = p
        · subst hqp
          exact hkeep q ⟨hs.state, hs.stopCode⟩
        · refine hstop q ((List.mem_cons.mp hq).resolve_left hqp) ?_
          rw [hs.others q hqp]
          exact hst
    · rw [State.stopPlot_skips hp] at hmem hkeep hstop ⊢
      refine ⟨hmem, hkeep, fun q hq hst => ?_⟩
      have hqp : q ≠ p := by
        rintro rfl
        omega
      exact hstop q ((List.mem_cons.mp hq).resolve_left hqp) hst

/-- A plot sown or completing is among those in these states. -/
theorem State.mem_plotsIn {p : Nat} (h : (s.plot p).state = 3 ∨ (s.plot p).state = 4) : p ∈ s.plotsIn [3, 4] := by
  have hmem : (p, s.plot p) ∈ s.plots := by
    rcases tget_default_or_mem (fun _ => ({} : Plot)) s.plots p with hd | hm
    · refine absurd h ?_
      unfold State.plot
      rw [hd]
      decide
    · exact hm
  unfold State.plotsIn
  refine List.mem_map.mpr ⟨_, List.mem_filter.mpr ⟨hmem, ?_⟩, rfl⟩
  rcases h with h | h <;> rw [h] <;> rfl

/-- The A-clock of a module stops. -/
def State.stopClock (s : State) : State := { s with clk := { s.clk with stopped := true } }

theorem exec_thermalTripStop {k : W64 × Nat × Nat} (hk : s.clk.trip = some k) (hlate : k.1.toNat + 8 ≤ s.now) (hs : s.clk.stopped = false) :
    exec .thermalTripStop s = .next ((((s.stopSown 0x59).report (unitId 0xE 0) (unitId 0xE 0) 0x8D (k.2.1 + k.2.2 * 2 ^ 12)).stopClock).recover
      0x8D) := by
  show execThermalTripStop s = _
  unfold execThermalTripStop
  simp only [hk]
  exact if_pos ⟨hlate, by rw [hs]; rfl⟩

/-- THERMAL_TRIP_STOP (R421). -/
theorem thermalTripStop_effect {k : W64 × Nat × Nat} (hk : s.clk.trip = some k) (hlate : k.1.toNat + 8 ≤ s.now) (hs : s.clk.stopped = false) :
    ∃ t, exec .thermalTripStop s = .next t ∧ t.clk.stopped = true ∧ t.running = false ∧ t.ready = false ∧
      t.pins.recovery = 0x8D ∧ (∀ q, (t.bed q).mem = (s.bed q).mem) ∧
      ∀ p, p ∈ s.plots.map (·.1) → (s.plot p).state = 3 ∨ (s.plot p).state = 4 →
        (t.plot p).state = 5 ∧ (t.plot p).stopCode = 0x59 := by
  have hex := exec_thermalTripStop hk hlate hs
  obtain ⟨hmem, -, hstop⟩ := foldl_stopPlot 0x59 (s.plotsIn [3, 4]) s
  have he : (s.plotsIn [3, 4]).foldl (fun (s : State) p => s.stopPlot p 0x59 none) s = s.stopSown 0x59 := rfl
  rw [he] at hmem hstop
  generalize s.stopSown 0x59 = v at hex hmem hstop
  obtain ⟨g, h, hr⟩ := v.report_frame (unitId 0xE 0) (unitId 0xE 0) 0x8D (k.2.1 + k.2.2 * 2 ^ 12)
  generalize v.report (unitId 0xE 0) (unitId 0xE 0) 0x8D (k.2.1 + k.2.2 * 2 ^ 12) = w at hex hr
  obtain ⟨⟨r, x, hrec⟩, hready, -, -⟩ := w.stopClock.recover_effect 0x8D
  have hplot : ∀ p, (w.stopClock.recover 0x8D).plot p = v.plot p := fun p => by rw [hrec, hr]; rfl
  have hbed : ∀ q, (w.stopClock.recover 0x8D).bed q = v.bed q := fun q => by rw [hrec, hr]; rfl
  refine ⟨_, hex, by rw [hrec]; rfl, ?_, hready, by rw [hrec], fun q => by rw [hbed, hmem], fun p _ hst => ?_⟩
  · rw [hrec]
    exact Bool.and_false _
  · rw [hplot]
    exact hstop p (State.mem_plotsIn hst) hst

/-! ## Holds -/

/-- A hold that begins. -/
def State.beginHold (s : State) : State := { s with clk := { s.clk with hold := some s.clk.sundial } }

/-- HOLD_BEGIN (R409). -/
theorem holdBegin_effect (hp : s.clk.pending = true) (hh : s.clk.hold = none) (hno : s.plotsIn [3, 4] = []) (hrun : s.running = true)
    (hfr : s.dbg.frostAt = none) (hst : s.clk.runStart = s.clk.sundial) (hns : s.clk.runStretched = false)
    (hsow : ∀ e ∈ s.plots, ∀ t, e.2.sowAt = some t → holdEnd s.now s.clk.target ≤ t.toNat) (hr : Rising s.beds) :
    ∃ t, exec .holdBegin s = .next t ∧ t = { s with clk := { s.clk with hold := some s.clk.sundial }, beds := t.beds } ∧
      ∀ q, t.bed q = { s.bed q with mulch := 0 } := by
  refine ⟨s.beginHold.noMulch, ?_, ?_, fun q => State.noMulch_bed (s := s.beginHold) hr q⟩
  · show execHoldBegin s = _
    unfold execHoldBegin
    refine if_pos ⟨hp, hh, by rw [hno]; rfl, hrun, hfr, hst, by rw [hns]; rfl, List.all_eq_true.mpr fun e he => ?_⟩
    split
    next t ht => exact decide_eq_true (hsow e he t ht)
    next => rfl
  · rw [State.noMulch_eq]
    rfl

/-- HOLD_END (R408, R409, R416). -/
theorem holdEnd_effect (base : BitVec 12) {h0 : W64} (hh : s.clk.hold = some h0) (hlate : h0.toNat + 2000 ≤ s.now)
    (hw : s.now % windowTicks s.clk.target = 0) (hrun : s.running = true) :
    exec (.holdEnd base) s = .next (({ s with clk := { s.clk with
      hold := none, pending := false, point := s.clk.target, since := s.clk.sundial, run := 0, ticks := 0,
      runStart := s.clk.sundial, runPaced := pacedRun s.clk.target 0 } } : State).setFld 0x40008 24 12 base.toNat) := by
  show execHoldEnd base s = _
  unfold execHoldEnd
  simp only [hh]
  exact if_pos ⟨hlate, hw, hrun⟩

end

/-- Settles O52: a reading passes its thresholds one after the other, and a trip stops every sown plot in turn. -/
theorem temperaturesTripAndHoldsChangeThePoint : Obligations.TemperaturesTripAndHoldsChangeThePoint := by
  unfold Obligations.TemperaturesTripAndHoldsChangeThePoint
  exact ⟨⟨fun _ _ _ _ hlate h1 h2 h3 hl hb => thermalSample_effect hlate h1 h2 h3 hl hb,
      fun _ _ hk hlate hs => thermalTripStop_effect hk hlate hs⟩,
    fun _ hp hh hno hrun hfr hst hns hsow ht => holdBegin_effect hp hh hno hrun hfr hst hns hsow ht.beds,
    fun _ base _ hh hlate hw hrun => holdEnd_effect base hh hlate hw hrun⟩

end Sys2Proof.Machine
end
